-- ==== Sys2Proof/Word.lean ====
section
/-! DEFINITION. The word types of the model: bytes of host and engine memory, 32-bit words of the Spire cores and of
BAR0, and the byte lists that packets, objects and records are made of (little-endian, R3, R267). -/

namespace Sys2Proof

/-- One byte. -/
abbrev Byte := BitVec 8

/-- A 32-bit word: a Spire register, a control word, a BAR0 access. -/
abbrev Word := BitVec 32

end Sys2Proof
end

