-- ==== Sys2Proof/Machine/Operands.lean ====
section
/-! DEFINITION. The operand forms of the commands: command packets (Table 2.5), the inputs of one crossing on the timing
input (R72, R75), the accesses of an SRAM bank (R354), and how their bytes and words are read. -/

namespace Sys2Proof.Machine

/-- A fetched command packet: the header of Table 2.5 less its opcode (the row is the opcode), and the payload. -/
structure Packet where
  ring : Nat
  flags : Nat
  length : Nat
  tag : Nat
  ctx : Nat
  reserved : Nat
  applyAt : Nat
  target : Nat
  args : List Nat
  payload : List Byte
deriving DecidableEq, Repr

/-- Character 0 of a crossing on the Timing port (Table 3.1). -/
inductive Char0 where
  /-- Slot 0, the orbit marker. -/
  | k281
  /-- Beam present. -/
  | k285
  /-- Idle. -/
  | k286
  /-- Any other character: a code error. -/
  | err
  /-- No valid character: the input signal is absent. -/
  | absent
deriving DecidableEq, Repr

/-- A datum reaching internal boundary `boundary` for the frame of crossing number `n`, `sc` sweep cycles after the
frame's creation (R87); `abortPath` says that the boundary lies on the abort path (R165). -/
structure Arrival where
  n : Nat
  boundary : Nat
  sc : Nat
  abortPath : Bool
deriving DecidableEq, Repr

/-- A block of the 64b/66b coding of a lane, or the part of one that lies in a Shevo frame and the gap before it (R95): its sync header
(0b01 is 1), its data bits as the line carries them, the first one most significant, and whether it ends there. -/
structure LineBlock where
  header : Nat
  n : Nat
  bits : Nat
  ends : Bool
deriving DecidableEq, Repr

/-- What one crossing brings on the timing inputs: the characters of the Timing port (R72), or the BC_IN edge and the
sampled ORBIT_IN of the SMA inputs (R75). -/
structure Timing where
  char0 : Char0
  cmd : Nat
  word : Nat
  codeErrs : Nat
  bcEdge : Bool
  orbitIn : Bool
deriving DecidableEq, Repr

/-- The inputs of one crossing: timing, the eight samples of the 16 NIM inputs (R224), and data reaching internal
boundaries (R87). -/
structure TickIn where
  timing : Timing
  nim : List Nat
  arrivals : List Arrival
deriving DecidableEq, Repr

/-- What a supply module reports beside its DC output: presence, AC input, fault, input power in W, temperature in °C (R430,
Table 21.9). -/
structure SupplyReport where
  present : Bool
  acGood : Bool
  fault : Bool
  watts : Nat
  temp : Nat
deriving DecidableEq, Repr

/-- The highest die temperature, the inlet and the outlet temperature, as 8-bit two's complement codes in °C (R446, Table 21.9). -/
structure Temperatures where
  die : Nat
  inlet : Nat
  outlet : Nat
deriving DecidableEq, Repr

/-- One access of an SRAM port (R354, R358): a read or a write of `bytes` at byte offset `offset` of one word, plain or
through the bit-set or bit-clear alias (R359). -/
inductive PortOp where
  | read
  | write
  | bitSet
  | bitClear
deriving DecidableEq, Repr

/-- See `PortOp`. -/
structure PortAccess where
  op : PortOp
  offset : Nat
  bytes : List Byte
deriving DecidableEq, Repr

/-- A cycle of an SRAM bank (R358): the bank, and what its port 0 accesses. -/
structure BankCycle where
  bank : Nat
  port0 : Option PortAccess
deriving DecidableEq, Repr

/-- What a lane's receiver reports (R95, R108): it holds its locks, with the line's polarity taken as inverted or not. -/
structure LaneSignal where
  locked : Bool
  inverted : Bool
deriving DecidableEq, Repr

/-- A requester of port 1, in the order in which its priority rotates (R357). -/
inductive Requester where
  /-- Host commands. -/
  | hst
  /-- The DMA movers. -/
  | dma
  /-- Blitter 0. -/
  | blt0
  /-- Blitter 1. -/
  | blt1
  /-- Service core 0. -/
  | sc0
  /-- Service core 1. -/
  | sc1
  /-- The capture copier. -/
  | copier
deriving DecidableEq, Repr

/-- The commands of the USB-C service console that the spec names (R398, R402, R440, R461). -/
inductive ConsoleCmd where
  /-- RESET (R440). -/
  | reset
  /-- A firmware image, accepted while the engine stays in BOOT (R398), in the transfer format of R396. -/
  | firmware (slot : Nat) (p : Packet)
  /-- A request for an engine state; it counts as a host request and is taken before one from a ring (R461). -/
  | reqState (code : Nat)
deriving DecidableEq, Repr

/-- Pluggable-module cages (R454). -/
inductive Cage where
  | timing
  | dl (lane : Nat)
  | tandem
deriving DecidableEq, Repr

/-- Argument word `i`, 0 to 7 (header bytes 32 to 63). -/
def Packet.arg (p : Packet) (i : Nat) : Nat := p.args.getD i 0 % 2 ^ 32

/-- Bits `[hi:lo]` of a number. -/
def bits (v hi lo : Nat) : Nat := v / 2 ^ lo % 2 ^ (hi + 1 - lo)

/-- Bit `i` of a number. -/
def bit (v i : Nat) : Nat := v / 2 ^ i % 2

/-- Bit `i` of a number, as a truth value. -/
def tbit (v i : Nat) : Bool := decide (bit v i = 1)

/-- A truth value as 0 or 1. -/
def b2n (b : Bool) : Nat := if b then 1 else 0

/-- Little-endian value of a list of bytes. -/
def leVal : List Byte → Nat
  | [] => 0
  | b :: bs => b.toNat + 256 * leVal bs

/-- The `n` low bytes of a number, lowest first. -/
def leBytes : Nat → Nat → List Byte
  | 0, _ => []
  | n + 1, v => BitVec.ofNat 8 v :: leBytes n (v / 256)

/-- The little-endian number in bytes `off` to `off + n − 1` of a list. -/
def leAt (bs : List Byte) (off n : Nat) : Nat := leVal ((bs.drop off).take n)

/-- 32-bit word `i` of the payload. -/
def Packet.word (p : Packet) (i : Nat) : Nat := leAt p.payload (4 * i) 4

/-- The number of whole 32-bit words of the payload. -/
def Packet.nwords (p : Packet) : Nat := p.payload.length / 4

/-- The 32-bit words of the payload from word `i` on, `n` of them. -/
def Packet.words (p : Packet) (i n : Nat) : List Nat := (List.range n).map (fun k => p.word (i + k))

/-- Flag bits of Table 2.5. -/
def Packet.stage (p : Packet) : Bool := tbit p.flags 0
/-- See `Packet.stage`. -/
def Packet.commit (p : Packet) : Bool := tbit p.flags 1
/-- See `Packet.stage`. -/
def Packet.fence (p : Packet) : Bool := tbit p.flags 2
/-- See `Packet.stage`. -/
def Packet.expert (p : Packet) : Bool := tbit p.flags 3
/-- See `Packet.stage`. -/
def Packet.notify (p : Packet) : Bool := tbit p.flags 4

/-- All instances (Table 2.5). -/
def allInstances : Nat := 0xFFFFFFFF

/-- Arguments `i` and `i + 1` as one 64-bit number, low word first. -/
def Packet.arg64 (p : Packet) (i : Nat) : Nat := p.arg i + 2 ^ 32 * p.arg (i + 1)

/-- Two's complement: the `w` low bits of `v` as an integer. -/
def sval (w v : Nat) : Int :=
  if v % 2 ^ w < 2 ^ (w - 1) then (v % 2 ^ w : Nat) else (v % 2 ^ w : Nat) - (2 ^ w : Nat)

/-- The `w`-bit two's complement code of an integer. -/
def scode (w : Nat) (i : Int) : Nat := (i % (2 ^ w : Nat)).toNat

/-- Limit to `w` bits (sat18, sat22 of R124, R185). -/
def satU (w v : Nat) : Nat := min v (2 ^ w - 1)

/-- ⌈a / b⌉. -/
def ceilDiv (a b : Nat) : Nat := (a + b - 1) / b

/-- The packet of a header slot and its payload slots (R52): the opcode, and the packet on ring `ring`. -/
def decodePacket (ring : Nat) (bs : List Byte) : Nat × Packet :=
  (leAt bs 0 2,
   { ring := ring, flags := leAt bs 2 2, length := leAt bs 4 4, tag := leAt bs 8 8, ctx := leAt bs 16 2
     reserved := leAt bs 18 2, applyAt := leAt bs 20 8, target := leAt bs 28 4
     args := (List.range 8).map (fun i => leAt bs (32 + 4 * i) 4)
     payload := (bs.drop 64).take (leAt bs 4 4) })

end Sys2Proof.Machine
end

