-- ==== Sys2Proof/Syntax.lean ====
section
/-! DEFINITION. The commands of the AQ-4608: one constructor per row of the opcode table, with its operands. A host
function (Tables 2.10, 2.11) takes its command packet; the functions every block provides also take the block code; an
instruction of a Spire core takes the core and the fields of its word (Table 13.2). -/

namespace Sys2Proof

open Machine

/-- One command. -/
inductive Instr where
  /-- A BAR0 register write to a field with no row of its own takes effect at the next frame or BC boundary. (R9) -/
  | registerWrite (bar off size val : Nat)
  /-- A read of an RC counter returns its value and then clears it, without losing a concurrent hardware set. (R7) -/
  | readClear (bar off size : Nat)
  /-- A read of TIM_STAMP_LO returns the low stamp word of the crossing being created and freezes TIM_STAMP_HI until it is read. (R84) -/
  | timStampRead
  /-- A read of HST_PTM_ORB_LO freezes the other PTM correlation words until HST_PTM_TIME_HI is read. (R69) -/
  | ptmOrbRead
  /-- A read of a _LO word of a two-word stamp or address register freezes its _HI word until that word is read. (R182) -/
  | loWordFreezeRead (off : Nat)
  /-- A host write to a ring's doorbell sets its producer or consumer count. (R45) -/
  | doorbellWrite (off size val : Nat)
  /-- The scheduler fetches and starts the next command of a CMD ring and writes the ring's head report. (R55) -/
  | commandFetch (ring : Nat) (slots : List Byte)
  /-- A command not completed within HST_CMDTMO.MS milliseconds completes with ST_TIMEOUT. (R59) -/
  | commandTimeout (ring tag : Nat)
  /-- At its named crossing, or when the checker rules while unlocked, a pending commit becomes active or is refused and its completion is written. (R59) -/
  | commitActivate
  /-- Returns a block's status, drop counts and pending-commit crossing to a host buffer. (R65) -/
  | query (blk : Nat) (p : Packet)
  /-- Commits every block in which the context holds staged changes at the apply-at crossing. (R56) -/
  | commit (blk : Nat) (p : Packet)
  /-- Returns the context's staged copies in a block to the active values and ends the stage lock. (R57) -/
  | discard (blk : Nat) (p : Packet)
  /-- Copies a block's active tables and fields to a host buffer. (R65) -/
  | readActive (blk : Nat) (p : Packet)
  /-- Opens a context with the ASSIGNED right and no resources. (R41) -/
  | openCtx (p : Packet)
  /-- Closes a context, stopping its rings, discarding its staging, aborting its movers and returning its resources to context 0. (R41) -/
  | closeCtx (p : Packet)
  /-- Grants a right to a context. (R39) -/
  | grant (p : Packet)
  /-- Revokes a right from a context. (R39) -/
  | revoke (p : Packet)
  /-- Moves a resource to another context and removes routes that would join two other contexts. (R40) -/
  | assign (p : Packet)
  /-- Creates a ring of the given type, size, base and vector in the issuing context. (R44) -/
  | createRing (p : Packet)
  /-- Removes a ring together with the stream set-ups and notification routes bound to it. (R43) -/
  | destroyRing (p : Packet)
  /-- Stops the STR rings of a context at the next record boundary, as HST_STOP does. (R67) -/
  | stopStreams (p : Packet)
  /-- Restarts stopped STR rings, the next record carrying LOST. (R67) -/
  | resumeStreams (p : Packet)
  /-- Writes the latched orbit number and PTM time to a host buffer. (R69) -/
  | ptmSample (p : Packet)
  /-- A write of a context number to HST_STOP.CTX stops that context's STR rings within 64 service cycles. (R67) -/
  | hstStopCtx (ctx : Nat)
  /-- A write of 1 to HST_STOP.ALL stops every context's STR rings. (R67) -/
  | hstStopAll
  /-- A write of a context number to HST_RESUME.CTX restarts that context's STR rings. (R67) -/
  | hstResumeCtx (ctx : Nat)
  /-- A write of 1 to HST_RESUME.ALL restarts every context's STR rings. (R67) -/
  | hstResumeAll
  /-- When the last queued record of stopped rings leaves the engine, HST_STOPSTAT.DONE sets. (R67) -/
  | stopDrainDone
  /-- Every PERIOD_MS milliseconds the engine runs a PTM exchange with the root port. (R68) -/
  | ptmExchange (ok : Bool) (time : Nat)
  /-- The PCIe link trains at the widest and fastest rate both ends support. (R35) -/
  | linkTrain (portA portB : Bool) (gen : Nat)
  /-- An FLR resets only the host interface, closing contexts and destroying rings. (R38) -/
  | functionLevelReset
  /-- A PCIe link-down event resets only the host interface. (R38) -/
  | pcieLinkDown
  /-- Entry into D3hot stops ring service and resets the host interface. (R38) -/
  | d3hotEntry
  /-- While locked, each crossing start advances the crossing counter and moves every frame one BC through the pipeline. (R83) -/
  | crossingTick (i : TickIn)
  /-- Timing command WAKE, repeated in two crossings, wakes the engine from STANDBY when enabled. (R444) -/
  | tcWake
  /-- Timing command FILL_END moves an ARMED engine to HOLD at the next crossing. (R435) -/
  | tcFillEnd
  /-- Timing command FILL_START moves a HOLD engine to ARMED if R30 holds. (R435) -/
  | tcFillStart
  /-- Timing command MARK raises the TIM command event only. (R74) -/
  | tcMark
  /-- Timing commands USER0 to USER63 raise the TIM command event with their code. (R74) -/
  | tcUser
  /-- An undefined timing command that would act increments TIM_CMDBAD. (R74) -/
  | tcUndefined
  /-- The jitter-cleaning PLL locking or unlocking advances acquisition or causes loss of lock. (R76) -/
  | pllLockChange (locked : Bool)
  /-- At the end of each 1 ms measuring window the bunch frequency is checked against ±200 ppm. (R78) -/
  | freqWindowEnd (khz : Nat)
  /-- Lock is lost at the fourth crossing after the last valid edge or character. (R78) -/
  | signalAbsentTimeout
  /-- After the acquisition steps pass, lock is declared at the next slot 0 and the orbit number is set. (R76) -/
  | lockAcquire
  /-- A write of 1 to TIM_RPWORST.CLR restarts arrival tracking of the selected boundary. (R88) -/
  | timRpworstClr
  /-- Stages and commits the timing source and nominal frequency. (R472) -/
  | setSource (p : Packet)
  /-- Stages and commits the orbit length. (R472) -/
  | setOrbit (p : Packet)
  /-- Stages and commits the core clock multiplier code. (R472) -/
  | setMult (p : Packet)
  /-- Stages and commits alignment depth A and arrival origin O. (R472) -/
  | setAlign (p : Packet)
  /-- Computes the latency terms of the staged configuration and writes them to a host buffer. (R265) -/
  | previewLatency (p : Packet)
  /-- Writes the staged release-point table. (R89) -/
  | rawRelease (p : Packet)
  /-- Writes active and computed release offsets and latest arrivals to a host buffer. (R472) -/
  | readRelease (p : Packet)
  /-- A lane's CDR, block or codeword lock is gained or lost, moving it between DOWN and HUNT. (R108) -/
  | laneSignalChange (lane : Nat) (signal : LaneSignal)
  /-- A Shevo frame is taken whole, checked, its crossing resolved and its segments accepted or discarded. (R109) -/
  | laneFrameReceive (lane gap : Nat) (line : List LineBlock) (codeErrs fecCorr : Nat)
  /-- Every 128 orbits a skew epoch completes and the reported MIN and MAX are updated. (R113) -/
  | skewEpochEnd
  /-- A lane in a holding mode starts to hold its coefficients 1 ms after entering UP. (R115) -/
  | eqHoldStart (lane : Nat)
  /-- Stages and commits a lane's mode. (R117) -/
  | laneMode (p : Packet)
  /-- Stages and commits the eight source-slot images of a lane. (R117) -/
  | setSources (p : Packet)
  /-- Stages and commits a lane's equaliser mode. (R115) -/
  | eqMode (p : Packet)
  /-- Stages and commits the receive timing class. (R97) -/
  | setTrx (p : Packet)
  /-- Writes staged LNK_LCFG images for consecutive lanes. (R117) -/
  | rawLanes (p : Packet)
  /-- Writes staged LNK_SCFG images for consecutive sources. (R117) -/
  | rawSources (p : Packet)
  /-- Writes a lane's equaliser coefficients and figure of merit to a host buffer. (R117) -/
  | eqRead (p : Packet)
  /-- Stages and commits COLS and ROWS. (R119) -/
  | setGeom (p : Packet)
  /-- Stages and commits a map source's kind, size, merge, dead value and hot cap. (R121) -/
  | defineSource (p : Packet)
  /-- Writes tile-map entries placing a source's words by map position through a native layer. (R136) -/
  | place (p : Packet)
  /-- Writes tile-map entries placing a source's words by source coordinates. (R136) -/
  | placeSrc (p : Packet)
  /-- Stages and commits a front-end source's conversion and tile-map base, optionally placing the run automatically. (R469) -/
  | setConv (p : Packet)
  /-- Sets or clears dead or hot mask bits of listed cells. (R132) -/
  | maskCells (p : Packet)
  /-- Disables a run of a source's tile-map entries. (R137) -/
  | unplace (p : Packet)
  /-- Writes staged tile-map entries. (R137) -/
  | rawTmap (p : Packet)
  /-- Writes staged conversion and base images for consecutive sources. (R137) -/
  | rawConv (p : Packet)
  /-- Writes a staged conversion LUT. (R125) -/
  | rawLut (p : Packet)
  /-- Writes mask words, unstaged acting at the next frame or staged at commit. (R132) -/
  | rawMask (p : Packet)
  /-- Stages and commits a layer's source, kind, position and size. (R141) -/
  | setLayer (p : Packet)
  /-- Stages and commits a layer's blend mode, alpha and plane. (R149) -/
  | setBlend (p : Packet)
  /-- Stages and commits a layer's format and index shift. (R147) -/
  | setFormat (p : Packet)
  /-- Stages and commits a layer's not-ready policy and MAXAGE. (R154) -/
  | setPolicy (p : Packet)
  /-- Stages and commits a Dome's NL and background. (R139) -/
  | setDome (p : Packet)
  /-- Stages and commits a Dome region. (R157) -/
  | setRegion (p : Packet)
  /-- Writes staged layer register images. (R160) -/
  | rawLayers (p : Packet)
  /-- Writes a staged input LUT. (R147) -/
  | rawIlut (p : Packet)
  /-- Writes a staged output LUT. (R151) -/
  | rawOlut (p : Packet)
  /-- Writes staged alpha-plane entries. (R160) -/
  | rawAlpha (p : Packet)
  /-- A relay sense disagreeing with its coil for 10 ms sets RLYF and enters FAULT. (R170) -/
  | relaySenseTimeout (relay : Nat) (closed : Bool)
  /-- A relay operation count is written to the settings journal within 1 ms. (R234) -/
  | relayCountJournal (relay : Nat)
  /-- Delivers a signed Keep bundle that becomes active at the named crossing. (R171) -/
  | installBundle (p : Packet)
  /-- An accepted crossing's stage-buffer frames are copied to capture memory, or the capture is dropped. (R174) -/
  | captureCopy
  /-- The history ring and stage buffers are copied into a freeze slot, and the ring returns to RUN or stays FROZEN. (R369) -/
  | postMortemFreeze
  /-- Creates or changes the Oculus set-up of an STR ring. (R175) -/
  | setOculus (p : Packet)
  /-- Stages and commits capture control and the capturing accept mask. (R174) -/
  | setCapture (p : Packet)
  /-- Stages and commits history depths, decimation, POST and freeze triggers. (R178) -/
  | setHistory (p : Packet)
  /-- Triggers a history freeze at its commit crossing. (R179) -/
  | freezeHistory (p : Packet)
  /-- Releases a FROZEN history ring back to RUN. (R179) -/
  | releaseHistory (p : Packet)
  /-- Sets MAXSP of an existing Oculus set-up. (R177) -/
  | setOculusSparse (p : Packet)
  /-- Stages and commits a Turret's seed threshold and window. (R184) -/
  | setSeed (p : Packet)
  /-- Stages and commits a Turret's footprint. (R185) -/
  | setFootprint (p : Packet)
  /-- Stages and commits ROWMAX and FRMAX. (R187) -/
  | setLimits (p : Packet)
  /-- Stages and commits an object class. (R189) -/
  | setClass (p : Packet)
  /-- Creates or changes an object-stream set-up. (R195) -/
  | setObjstream (p : Packet)
  /-- Stages and commits a sprite's Dome, size, position and motion. (R199) -/
  | setSprite (p : Packet)
  /-- Stages and commits a sprite's enable window. (R200) -/
  | spriteWindow (p : Packet)
  /-- Stages and commits EN of the selected sprites. (R200) -/
  | spriteEnable (p : Packet)
  /-- Stages and commits a sprite's bitmap. (R197) -/
  | loadSprite (p : Packet)
  /-- Stages and commits OBJ_SCTL.ARMED. (R200) -/
  | spriteArmed (p : Packet)
  /-- Writes staged Turret register images. (R203) -/
  | rawTurret (p : Packet)
  /-- Writes staged class register images. (R203) -/
  | rawClasses (p : Packet)
  /-- Writes staged sprite register images. (R203) -/
  | rawSprites (p : Packet)
  /-- Writes staged sprite memory entries. (R203) -/
  | rawSprmem (p : Packet)
  /-- A write of 1 to SEQ_STOP.L0 stops list 0 from the next frame. (R215) -/
  | seqStopL0
  /-- A write of 1 to SEQ_STOP.L1 stops list 1 from the next frame. (R215) -/
  | seqStopL1
  /-- Loads a slot list and swaps it in at an orbit boundary. (R216) -/
  | loadList (p : Packet)
  /-- Stages and commits a list's enable. (R216) -/
  | enableList (p : Packet)
  /-- Writes entries into a list's standby bank. (R216) -/
  | rawList (p : Packet)
  /-- A decision-lane module reporting a transmit fault sets TXF and raises DLFAULT. (R233) -/
  | dlTxFault (lane : Nat)
  /-- Stages and commits a condition. (R219) -/
  | setCond (p : Packet)
  /-- Stages and commits an accept line's enable and veto mask. (R235) -/
  | setLine (p : Packet)
  /-- Stages and commits SPACE, WINK and WINW. (R223) -/
  | setDeadtime (p : Packet)
  /-- Stages and commits the prescale mode. (R222) -/
  | setPsmode (p : Packet)
  /-- Stages and commits a NIM input's configuration. (R224) -/
  | setInput (p : Packet)
  /-- Creates or changes a decision-log stream set-up. (R228) -/
  | setLogstream (p : Packet)
  /-- Writes staged condition entries. (R235) -/
  | rawConds (p : Packet)
  /-- Writes staged MNU_LCTL images. (R235) -/
  | rawLines (p : Packet)
  /-- Stages and commits a NIM output's configuration. (R229) -/
  | setNimout (p : Packet)
  /-- Stages and commits a decision lane's enable, polarity and mask. (R235) -/
  | setDlane (p : Packet)
  /-- Sets the relay wear limit at once and re-evaluates the wear bits. (R234) -/
  | setRlywarn (p : Packet)
  /-- A write of OUT_RLYWARN.LIMIT re-evaluates the relay wear bits. (R234) -/
  | rlywarnLimitWrite (val : Nat)
  /-- Writes staged OUT_NOCFG images. (R235) -/
  | rawOuts (p : Packet)
  /-- Stages and commits a Belfry input's baseline, pulse and silence settings. (R238) -/
  | belSetInput (p : Packet)
  /-- Stages and commits an input's gain-change timeout. (R245) -/
  | setTmo (p : Packet)
  /-- Stages and commits crosspoint gains. (R241) -/
  | setGains (p : Packet)
  /-- Stages and commits a bus's FIR taps. (R242) -/
  | setFir (p : Packet)
  /-- Stages and commits a bus's map-source placement. (R247) -/
  | setBusmap (p : Packet)
  /-- Stages and commits a monitor output's route. (R252) -/
  | setMonitor (p : Packet)
  /-- Writes the staged gain matrix. (R256) -/
  | belRawMatrix (p : Packet)
  /-- Writes staged FIR coefficients. (R256) -/
  | rawFir (p : Packet)
  /-- Writes staged input register images. (R256) -/
  | rawInputs (p : Packet)
  /-- rd := ra + rb. (R271) -/
  | add (k : Nat) (rd ra rb : BitVec 5)
  /-- rd := ra − rb. (R271) -/
  | sub (k : Nat) (rd ra rb : BitVec 5)
  /-- rd := ra and rb. (R271) -/
  | and (k : Nat) (rd ra rb : BitVec 5)
  /-- rd := ra or rb. (R271) -/
  | or (k : Nat) (rd ra rb : BitVec 5)
  /-- rd := ra xor rb. (R271) -/
  | xor (k : Nat) (rd ra rb : BitVec 5)
  /-- rd := not (ra or rb). (R271) -/
  | nor (k : Nat) (rd ra rb : BitVec 5)
  /-- Signed set-less-than. (R271) -/
  | slt (k : Nat) (rd ra rb : BitVec 5)
  /-- Unsigned set-less-than. (R271) -/
  | sltu (k : Nat) (rd ra rb : BitVec 5)
  /-- Shift left by rb[4:0]. (R271) -/
  | shl (k : Nat) (rd ra rb : BitVec 5)
  /-- Logical shift right by rb[4:0]. (R271) -/
  | shr (k : Nat) (rd ra rb : BitVec 5)
  /-- Arithmetic shift right by rb[4:0]. (R271) -/
  | shra (k : Nat) (rd ra rb : BitVec 5)
  /-- Signed minimum. (R271) -/
  | min (k : Nat) (rd ra rb : BitVec 5)
  /-- Signed maximum. (R271) -/
  | max (k : Nat) (rd ra rb : BitVec 5)
  /-- Unsigned minimum. (R271) -/
  | minu (k : Nat) (rd ra rb : BitVec 5)
  /-- Unsigned maximum. (R271) -/
  | maxu (k : Nat) (rd ra rb : BitVec 5)
  /-- Counts leading zeros of ra. (R271) -/
  | clz (k : Nat) (rd ra rb : BitVec 5)
  /-- Low 32 bits of the product. (R271) -/
  | mul (k : Nat) (rd ra rb : BitVec 5)
  /-- High 32 bits of the signed product. (R271) -/
  | mulh (k : Nat) (rd ra rb : BitVec 5)
  /-- High 32 bits of the unsigned product. (R271) -/
  | mulhu (k : Nat) (rd ra rb : BitVec 5)
  /-- Signed division with defined special cases. (R273) -/
  | div (k : Nat) (rd ra rb : BitVec 5)
  /-- Unsigned division with defined special cases. (R273) -/
  | divu (k : Nat) (rd ra rb : BitVec 5)
  /-- Signed remainder. (R273) -/
  | rem (k : Nat) (rd ra rb : BitVec 5)
  /-- Unsigned remainder. (R273) -/
  | remu (k : Nat) (rd ra rb : BitVec 5)
  /-- Jump to ra after two delay slots. (R278) -/
  | jr (k : Nat) (rd ra rb : BitVec 5)
  /-- Jump to ra with link after two delay slots. (R278) -/
  | jalr (k : Nat) (rd ra rb : BitVec 5)
  /-- PC-relative jump after two delay slots. (R278) -/
  | jmp (k : Nat) (off : BitVec 26)
  /-- PC-relative jump with link in g31. (R278) -/
  | jal (k : Nat) (off : BitVec 26)
  /-- rd := ra + sext(imm16). (R271) -/
  | addk (k : Nat) (rd ra : BitVec 5) (imm : BitVec 16)
  /-- rd := ra and zext(imm16). (R271) -/
  | andk (k : Nat) (rd ra : BitVec 5) (imm : BitVec 16)
  /-- rd := ra or zext(imm16). (R271) -/
  | ork (k : Nat) (rd ra : BitVec 5) (imm : BitVec 16)
  /-- rd := ra xor zext(imm16). (R271) -/
  | xork (k : Nat) (rd ra : BitVec 5) (imm : BitVec 16)
  /-- Signed set-less-than immediate. (R271) -/
  | sltk (k : Nat) (rd ra : BitVec 5) (imm : BitVec 16)
  /-- Unsigned set-less-than immediate. (R271) -/
  | sltuk (k : Nat) (rd ra : BitVec 5) (imm : BitVec 16)
  /-- Shift left by immediate. (R271) -/
  | shlk (k : Nat) (rd ra : BitVec 5) (imm : BitVec 16)
  /-- Logical shift right by immediate. (R271) -/
  | shrk (k : Nat) (rd ra : BitVec 5) (imm : BitVec 16)
  /-- Arithmetic shift right by immediate. (R271) -/
  | shrak (k : Nat) (rd ra : BitVec 5) (imm : BitVec 16)
  /-- rd := imm16 << 16. (R271) -/
  | movh (k : Nat) (rd ra : BitVec 5) (imm : BitVec 16)
  /-- Loads a sign-extended byte. (R271) -/
  | ldb (k : Nat) (rd ra : BitVec 5) (imm : BitVec 16)
  /-- Loads a zero-extended byte. (R271) -/
  | ldbu (k : Nat) (rd ra : BitVec 5) (imm : BitVec 16)
  /-- Loads a sign-extended half-word. (R271) -/
  | ldh (k : Nat) (rd ra : BitVec 5) (imm : BitVec 16)
  /-- Loads a zero-extended half-word. (R271) -/
  | ldhu (k : Nat) (rd ra : BitVec 5) (imm : BitVec 16)
  /-- Loads a word. (R271) -/
  | ldw (k : Nat) (rd ra : BitVec 5) (imm : BitVec 16)
  /-- Stores a byte. (R271) -/
  | stb (k : Nat) (rs ra : BitVec 5) (imm : BitVec 16)
  /-- Stores a half-word. (R271) -/
  | sth (k : Nat) (rs ra : BitVec 5) (imm : BitVec 16)
  /-- Stores a word. (R271) -/
  | stw (k : Nat) (rs ra : BitVec 5) (imm : BitVec 16)
  /-- Branch if equal, with two delay slots. (R278) -/
  | beq (k : Nat) (ra rb : BitVec 5) (off : BitVec 16)
  /-- Branch if not equal. (R278) -/
  | bne (k : Nat) (ra rb : BitVec 5) (off : BitVec 16)
  /-- Branch if less, signed. (R278) -/
  | blt (k : Nat) (ra rb : BitVec 5) (off : BitVec 16)
  /-- Branch if greater or equal, signed. (R278) -/
  | bge (k : Nat) (ra rb : BitVec 5) (off : BitVec 16)
  /-- Branch if less, unsigned. (R278) -/
  | bltu (k : Nat) (ra rb : BitVec 5) (off : BitVec 16)
  /-- Branch if greater or equal, unsigned. (R278) -/
  | bgeu (k : Nat) (ra rb : BitVec 5) (off : BitVec 16)
  /-- Reads or atomically exchanges a control word. (R280) -/
  | sys (k : Nat) (rd ra : BitVec 5) (low : BitVec 16)
  /-- Issues a wait for the next frame or interrupt; issue stops. (R290) -/
  | wff (k : Nat) (rd ra rb : BitVec 5) (func : BitVec 11)
  /-- A waiting WFF completes with the core's frame or an interrupt source and delivers any due CP2 fetch. (R295) -/
  | wffComplete (k : Nat)
  /-- Returns from an exception or a normal interrupt. (R283) -/
  | eret (k : Nat) (low : BitVec 26)
  /-- Returns from a fast interrupt and restores the normal bank. (R289) -/
  | feret (k : Nat) (low : BitVec 26)
  /-- Raises a TRAP exception with a code. (R284) -/
  | trap (k : Nat) (rd ra : BitVec 5) (imm : BitVec 16)
  /-- An issued instruction's result reaches its register at its fixed distance. (R274) -/
  | resultArrive (k : Nat)
  /-- At a clean boundary a core accepts a presented normal interrupt and enters its handler. (R287) -/
  | normalInterruptEntry (k : Nat)
  /-- At a clean boundary a core accepts a fast interrupt and switches to the fast bank. (R288) -/
  | fastInterruptEntry (k : Nat)
  /-- CP0 returns a Turret's kept-object count. (R300) -/
  | ocnt (k : Nat) (rd ra rb : BitVec 5)
  /-- CP0 returns a word of an object record. (R300) -/
  | orec (k : Nat) (rd ra rb : BitVec 5)
  /-- CP1 returns one composed cell of a frame of given age. (R302) -/
  | cell (k : Nat) (rd ra rb : BitVec 5)
  /-- CP1 copies a window of composed cells into data memory. (R301) -/
  | gather (k : Nat) (rd ra rb : BitVec 5)
  /-- CP2 adds to a histogram bin. (R300) -/
  | hadd (k : Nat) (rd ra rb : BitVec 5)
  /-- CP2 returns a histogram bin. (R300) -/
  | hget (k : Nat) (rd ra rb : BitVec 5)
  /-- CP2 clears all histogram bins. (R300) -/
  | hclr (k : Nat) (rd ra rb : BitVec 5)
  /-- CP2 starts a fetch from program tables or shared SRAM into data memory. (R303) -/
  | fetch (k : Nat) (rd ra rb : BitVec 5)
  /-- A service-core fetch finishes writing, sets DONE and raises FETCHDONE. (R304) -/
  | serviceFetchDone (k : Nat)
  /-- CP3 sets the result word. (R300) -/
  | resw (k : Nat) (rd ra rb : BitVec 5)
  /-- CP3 ORs into the result word. (R300) -/
  | resor (k : Nat) (rd ra rb : BitVec 5)
  /-- CP3 returns the result word. (R300) -/
  | resget (k : Nat) (rd ra rb : BitVec 5)
  /-- CP3 returns a selected frame quantity. (R305) -/
  | qget (k : Nat) (rd ra rb : BitVec 5)
  /-- A CP4 to CP7 instruction presents a request to the Lantern and samples the result at its declared distance. (R307) -/
  | lanternPortRequest (k cp : Nat) (rd ra rb : BitVec 5) (cfunc : BitVec 11)
  /-- A frame not finished or never taken at its budget's end is an overrun and its CORE terms read 0. (R297) -/
  | budgetOverrun (k : Nat)
  /-- Stages a core's instruction or data image. (R312) -/
  | loadProgram (p : Packet)
  /-- Stages and commits the frame interleave I. (R311) -/
  | setInterleave (p : Packet)
  /-- Stages and commits STOP or START of the selected cores. (R310) -/
  | run (p : Packet)
  /-- Stages and commits a core's entry address. (R312) -/
  | coreEntry (p : Packet)
  /-- Stages and commits program-table data. (R303) -/
  | loadTable (p : Packet)
  /-- Copies a core's active memory image to a host buffer. (R312) -/
  | rawReadmem (p : Packet)
  /-- Delivers a signed Lantern bitstream that becomes active at the named crossing. (R309) -/
  | loadBitstream (p : Packet)
  /-- Stages and commits the core assigned to each Lantern port. (R312) -/
  | setPortmap (p : Packet)
  /-- A producer raises an event, delivered through matrix, channel, controller and notification routes. (R317) -/
  | eventRaise (src data : Nat)
  /-- At the end of a 16 ns hold-off a channel fires once if requests were absorbed. (R318) -/
  | holdoffEnd (ch : Nat)
  /-- A loop-guard window ends and channel request counts restart. (R326) -/
  | guardWindowEnd
  /-- Events reaching a consumer input between two edges make one activation that starts its task or is ignored as busy. (R323) -/
  | consumerActivation (c : Nat)
  /-- A queued event notification is written to its EVN ring. (R327) -/
  | notificationWrite (src : Nat)
  /-- A source line holding a new value for N controller cycles is taken and sets PEND. (R329) -/
  | irqFilterPass (src : Nat) (level : Bool)
  /-- A host-targeted interrupt's MSI-X message enters the outbound queue when not masked. (R337) -/
  | msixSend (src : Nat)
  /-- Sets a source's publication channel. (R317) -/
  | publish (p : Packet)
  /-- Sets a consumer input's subscribed channel. (R317) -/
  | subscribe (p : Packet)
  /-- Sets a consumer input's gate. (R319) -/
  | setGate (p : Packet)
  /-- Sets one local matrix bit. (R316) -/
  | setMatrix (p : Packet)
  /-- Routes a source to an EVN ring. (R327) -/
  | setNotify (p : Packet)
  /-- Sets a channel's security attribute. (R321) -/
  | setChannel (p : Packet)
  /-- Restarts a channel stopped by the loop guard. (R326) -/
  | resumeChannel (p : Packet)
  /-- Sets the loop-guard count and window. (R326) -/
  | setGuard (p : Packet)
  /-- Raises a software producer with data. (R338) -/
  | raise (p : Packet)
  /-- A write to EVT_SWPUB.P raises that software producer with data 0. (R339) -/
  | evtSwpubWrite (sw : Nat)
  /-- A write of 1 to a channel's EVT_KSTAT.STOP resumes the channel. (R326) -/
  | evtKstatStopWrite (ch : Nat)
  /-- Writes a ward's local matrix. (R338) -/
  | evtRawMatrix (p : Packet)
  /-- Writes publication and notification images. (R338) -/
  | rawRoutes (p : Packet)
  /-- Writes subscription and gate images. (R338) -/
  | rawConsumers (p : Packet)
  /-- Sets a source's interrupt enable, class, priority and target. (R330) -/
  | route (p : Packet)
  /-- Sets a source's glitch filter. (R329) -/
  | setFilter (p : Packet)
  /-- Sets a core's normal and fast interrupt masks. (R334) -/
  | maskTarget (p : Packet)
  /-- Clears a source's PEND and withdraws its interrupt. (R334) -/
  | clearPending (p : Packet)
  /-- A write of 1 to IRQ_SSTAT.PEND clears it and withdraws the interrupt. (R334) -/
  | irqPendWrite (src : Nat)
  /-- Writes IRQ_SCFG and IRQ_SFILT images. (R338) -/
  | irqRawSources (p : Packet)
  /-- An increment that makes a count equal CMP sets MATCH and raises the match event. (R345) -/
  | counterMatch (n : Nat)
  /-- An increment from 0xFFFF_FFFF sets OVF, raises the overflow event and carries into a cascade. (R347) -/
  | counterOverflow (n : Nat)
  /-- Pending counter writes take effect at the chain edge after the next BC boundary. (R344) -/
  | counterWriteApply (n : Nat)
  /-- A write to CNT_LOAD queues a load of the count. (R344) -/
  | cntLoadWrite (n val : Nat)
  /-- A write of 1 to CNT_SNAP.REQ requests a snapshot. (R349) -/
  | cntSnapReq
  /-- When every chain has latched, CNT_SNAPSEQ increments and the stamp is recorded. (R349) -/
  | snapshotComplete
  /-- Sets a counter's source and event enables. (R352) -/
  | setCounter (p : Packet)
  /-- Loads a counter's count. (R344) -/
  | load (p : Packet)
  /-- Sets a counter's compare value. (R345) -/
  | setCompare (p : Packet)
  /-- Requests a snapshot and writes it to a host buffer once complete. (R352) -/
  | snap (p : Packet)
  /-- Writes CNT_CFG and CNT_CMP images. (R352) -/
  | rawCounters (p : Packet)
  /-- A bank serves its port accesses in a bank cycle, resolving collisions and checking ECC. (R358) -/
  | sramAccess (cycle : BankCycle) (port1 : List (Requester × PortAccess))
  /-- The patrol scrubber reads SRAM words in idle port-1 cycles over each period. (R362) -/
  | scrubPass
  /-- When journal free space is low, SC1 rewrites live records in the background. (R370) -/
  | journalCompaction (running : Bool)
  /-- Sets a user-region window's banks and owner. (R356) -/
  | setWindow (p : Packet)
  /-- Tests the named SRAM banks and records their results. (R363) -/
  | runBist (p : Packet)
  /-- Burns a spare column in place of a failed one under a signed repair object. (R363) -/
  | repair (p : Packet)
  /-- Creates or removes a capture-stream set-up. (R368) -/
  | setCapstream (p : Packet)
  /-- Releases a post-mortem freeze slot. (R369) -/
  | releaseFreeze (p : Packet)
  /-- Stages and commits the decision-log size. (R364) -/
  | setLogsize (p : Packet)
  /-- Copies engine memory to a host buffer. (R371) -/
  | readMem (p : Packet)
  /-- Writes its payload to engine memory. (R371) -/
  | writeMem (p : Packet)
  /-- Inverts data and check bits of an SRAM word for testing. (R371) -/
  | injectError (p : Packet)
  /-- Writes DMA_HEAD and starts an idle channel's chain. (R374) -/
  | start (p : Packet)
  /-- A write of 1 to DMA_CTL.GO starts an idle channel at DMA_HEAD. (R374) -/
  | dmaCtlGo (ch : Nat)
  /-- A write of 1 to DMA_CTL.ABORT aborts a running channel. (R382) -/
  | dmaCtlAbort (ch : Nat)
  /-- A write to DMA_NEXT_LO sets the next descriptor, losing to a hand-over in the same cycle. (R379) -/
  | dmaNextLoWrite (ch val : Nat)
  /-- The mover serves beats of the winning ready channel, checking permissions and faulting on errors. (R380) -/
  | dmaBurst (ch : Nat) (host : Option (List Byte))
  /-- A descriptor ends, its status is written back and the channel hands over or ends the chain. (R378) -/
  | descriptorEnd (ch : Nat) (contend : Bool)
  /-- Writes a channel's DMA_NEXT. (R379) -/
  | setNext (p : Packet)
  /-- Aborts a running channel and completes once it is IDLE. (R382) -/
  | dmaAbort (p : Packet)
  /-- Sets a channel's priority. (R390) -/
  | dmaSetChannel (p : Packet)
  /-- Sets the mover arbitration mode. (R381) -/
  | setArb (p : Packet)
  /-- Writes channel configuration and head images. (R390) -/
  | rawChannels (p : Packet)
  /-- Writes a blitter's operation registers and optionally starts it. (R386) -/
  | blit (p : Packet)
  /-- A write of 1 to BLT_CTL.GO starts the operation in the registers. (R386) -/
  | bltCtlGo (b : Nat)
  /-- A write of 1 to BLT_CTL.ABORT stops the operation after the current burst. (R389) -/
  | bltCtlAbort (b : Nat)
  /-- After its gap a blitter issues the next destination burst, ending the operation after the last row. (R388) -/
  | bltBurst (b : Nat)
  /-- Sets a blitter's inter-burst gap. (R388) -/
  | setGap (p : Packet)
  /-- Aborts a blitter and completes when it is IDLE. (R389) -/
  | bltAbort (p : Packet)
  /-- SC0 finishes verifying a signed object and accepts or refuses it. (R395) -/
  | verificationEnd
  /-- A transfer that receives no packet for 10 s is abandoned and XFERLOST is raised. (R396) -/
  | transferTimeout (op : Nat)
  /-- Starts an attestation report over the held measurement set. (R409) -/
  | attest (p : Packet)
  /-- The signed report is written and ATTEST completes. (R409) -/
  | attestReportDone (ms : Nat)
  /-- Writes the device certificate to a host buffer. (R407) -/
  | getCert (p : Packet)
  /-- Writes a firmware image into the inactive slot. (R399) -/
  | fwUpdate (p : Packet)
  /-- Names the slot the next reset boots as a trial. (R399) -/
  | fwActivate (p : Packet)
  /-- Confirms the running trial image. (R399) -/
  | fwConfirm (p : Packet)
  /-- Raises the anti-rollback floor to the running image's SVN. (R400) -/
  | raiseFloor (p : Packet)
  /-- Claims ownership of an unowned engine, awaiting console confirmation. (R402) -/
  | ownerClaim (p : Packet)
  /-- The operator's CONFIRM on the console installs the claimed owner key. (R402) -/
  | ownerClaimConfirm
  /-- A claim without CONFIRM within 60 s completes with ST_TIMEOUT. (R402) -/
  | ownerClaimTimeout
  /-- Replaces the owner key under a hand-over signed by both keys. (R403) -/
  | ownerHandover (p : Packet)
  /-- Clears the owner key, bundle and bitstream under a Noerdal-signed object. (R404) -/
  | ownerReset (p : Packet)
  /-- A trial boot not reaching SAFE within 120 s is ended by a warm reset. (R398) -/
  | trialBootTimeout
  /-- A Tandem frame from the partner is taken and updates the link state. (R414) -/
  | tandemFrameReceive (lanes : List (Option Nat)) (owd : Nat)
  /-- Stages and commits Tandem role, policy and detection settings. (R420) -/
  | setRole (p : Packet)
  /-- Moves the output permit to the partner at a named frame. (R427) -/
  | switchPermit (p : Packet)
  /-- Clears the demoted state at once. (R428) -/
  | clearDemote (p : Packet)
  /-- Writes Tandem lane enables and polarities. (R428) -/
  | rawLink (p : Packet)
  /-- Requests SAFE, ARMED, HOLD or STANDBY at a crossing boundary. (R434) -/
  | reqState (p : Packet)
  /-- A wake source starts the return from STANDBY to SAFE. (R444) -/
  | standbyWake (cause : Nat)
  /-- SAFE is entered within 3 ms of the wake and frames resume. (R444) -/
  | wakeComplete
  /-- Sets a domain's voltage limits and margin target. (R442) -/
  | setAvs (p : Packet)
  /-- Starts a warm reset on request from context 0. (R440) -/
  | reset (p : Packet)
  /-- Sets the STANDBY wake sources. (R449) -/
  | setWake (p : Packet)
  /-- Sets whether fill timing commands act. (R435) -/
  | setFillcmd (p : Packet)
  /-- Sets the die warning temperature. (R446) -/
  | setTlim (p : Packet)
  /-- Writes domain voltage configuration images. (R449) -/
  | rawDomains (p : Packet)
  /-- The 12 V bus coming into regulation runs the start-up sequence from BOOT to SAFE. (R436) -/
  | powerOn (senseA senseB : Bool)
  /-- A warm reset reruns start-up steps 2 to 8 keeping capture memory. (R439) -/
  | warmReset (senseA senseB : Bool)
  /-- A command arrives on the USB-C service console. (R461) -/
  | consoleCommand (c : ConsoleCmd)
  /-- The 12 V bus falls out of regulation and the unit passes to OFF with relays open. (R431) -/
  | powerLoss
  /-- A supply module stops reporting DC good and SUPLOSS is raised. (R430) -/
  | supplyDcLoss (m : Nat) (r : SupplyReport)
  /-- A supply module reports DC good again and SUPOK is raised. (R430) -/
  | supplyDcGood (m : Nat) (r : SupplyReport)
  /-- No module reports AC good; journal writes finish and no new record starts. (R431) -/
  | acFail
  /-- AC returns to a module before the bus fails and the engine continues. (R431) -/
  | acReturn (m : Nat)
  /-- Every 1 ms the AVS controller sets each domain's target voltage from its lowest margin. (R441) -/
  | avsUpdate (margins : List Nat)
  /-- A core rail outside target by over 30 mV for 1 ms enters FAULT. (R447) -/
  | railFault (domain : Nat)
  /-- A fan stopping or running slow sets FAIL and the others run at full speed. (R446) -/
  | fanFail (fan rpm : Nat)
  /-- Die temperature reaching WARN raises THERMWARN, and falling 5 °C below raises THERMOK. (R446) -/
  | thermalWarn (x : Temperatures)
  /-- Die temperature reaching 105 °C enters FAULT with cause THERM. (R446) -/
  | thermalFault (x : Temperatures)
  /-- At 115 °C the hardware removes power from the die. (R446) -/
  | thermalCutoff
  /-- A pluggable module inserted into a cage is read and put into use. (R455) -/
  | moduleInsert (cage : Cage)
  /-- A pluggable module removed from a cage counts as an absent input or clears MOD. (R455) -/
  | moduleRemove (cage : Cage)
  /-- While TIM is unlocked, each crossing received on the timing input, as a character group or a BC_IN edge with ORBIT_IN, advances acquisition steps 3 to 5 or returns acquisition to step 1 with LENERR. (R76) -/
  | acquisitionCrossing (t : Timing)
  /-- While TIM is unlocked, including BOOT, each BC of the holdover sweep clock applies pending R9, EVT, IRQ and CNT writes, and the decision-lane and Tandem ports pace their unlocked frames. (R79) -/
  | holdoverBcTick
  /-- A counter adds 1 on each cycle of its source, whether the REF clock, BC, a sweep cycle, an event activation or a cascade carry, including in STANDBY and while unlocked. (R340) -/
  | counterIncrement (n : Nat)
  /-- The host returns the function from D3hot to D0, after which ring service and MSI-X message acceptance can resume. (R36) -/
  | d3hotExit
  /-- A PCIe configuration request from the host is answered, with Configuration Request Retry Status from start-up step 2 until the end of step 6. (R437) -/
  | configurationRequest
deriving DecidableEq, Repr

end Sys2Proof
end

