-- ==== Sys2Proof/Decode.lean ====
section
/-! DEFINITION. Words of the opcode table. The table gives the bits of no row, so no word spells a command: a block takes its commands
from outside, not from an instruction memory. The instruction words that the Spire cores fetch (Table 13.1) are part of the meanings. -/

namespace Sys2Proof

/-- The command that a word of `nbits` bits spells by the table's bits: none, since the table gives no row any bits. -/
def decodeTableWord (_nbits _w : Nat) : Option Instr := none

end Sys2Proof
end

