-- ==== Sys2Proof/Config.lean ====
section
/-! DEFINITION. What the spec fixes at manufacture, leaves to an implementation or leaves open: constants without a
body. Nothing can evaluate them and no statement can rest on a value of them (assumptions 1 to 6 and 33 to 35). -/

namespace Sys2Proof

/-- A value the spec leaves open; the argument is the running number `Engine.free` (assumption 1). -/
opaque Config.freeValue : Nat → Nat

/-- Die stepping, board issue, unit serial number and running firmware version, fixed at manufacture or by the firmware
image (R13): `idWord i` is the 32-bit word at ID offset `4 i` below its fixed bits (assumption 2). -/
opaque Config.idWord : Nat → Nat

/-- The firmware's computed release offset of an internal boundary, in sweep cycles after frame creation, and the last
offset of the BC that ends its stage, from the latency terms (R87, R89); the spec gives no boundary table
(assumption 3). -/
opaque Config.releaseOffset : Nat → List Nat → Nat
/-- See `Config.releaseOffset`. -/
opaque Config.releaseLimit : Nat → List Nat → Nat

/-- The sweep cycle of its BC at which a producer raises its event (R314 F: fixed by frame and configuration); below 8
(assumption 4). -/
opaque Config.raiseCycle : Nat → Nat

/-- The engine's fixed internal delay from the timing input, in ns, by which the latched PTM time is corrected (R68; assumption 1). -/
opaque Config.ptmDelay : Nat

/-- What the equaliser of a lane has adapted to (R115, R117): the lane, the coefficient (0 the CTLE gain, 1 to 12 the DFE taps), and the
running number at which it was held or read (assumption 20). -/
opaque Config.eqCoef : Nat → Nat → Nat → Nat

/-- The eye figure of merit of a lane that has a signal, by lane and BC (R118; assumption 20). -/
opaque Config.eyeMerit : Nat → Nat → Nat

/-- The parameter sets of pure SLH-DSA that the engine supports, and no other (R392). -/
inductive ParamSet where
  /-- SLH-DSA-SHAKE-256s. -/
  | shake256s
  /-- SLH-DSA-SHAKE-256f. -/
  | shake256f
deriving DecidableEq, Repr

/-- The SLH-DSA verdict, under a parameter set and a context string, of a key on a message and a signature (R392, R393): the standard is
outside the spec (assumption 5). -/
opaque Config.slhVerify : ParamSet → List Byte → List Byte → List Byte → List Byte → Bool

/-- The SLH-DSA signature, under a parameter set and a context string, of a seed and its PK.root over a message (R392, R409; assumption 5). -/
opaque Config.slhSign : ParamSet → List Byte → List Byte → List Byte → List Byte → List Byte

/-- PK.root, as the Keccak accelerator derives it from a seed (R392; assumption 5). -/
opaque Config.slhRoot : ParamSet → List Byte → List Byte

/-- SHAKE256 of a message, as `n` bytes (R393, R408) (assumption 5). -/
opaque Config.shake256 : Nat → List Byte → List Byte

/-- Noerdal's public key, held in OTP (R392) (assumption 5). -/
opaque Config.noerdalKey : List Byte

/-- The device seed that the TRNG generated at manufacture, held in OTP: SK.seed, SK.prf and PK.seed (R392; assumption 5). -/
opaque Config.deviceSeed : List Byte

/-- The device certificate that GET_CERT returns (R407) (assumption 5). -/
opaque Config.deviceCert : List Byte

/-- What the user's logic in the Lantern answers (R306, R308): the bitstream's behaviour is not the spec's
(assumption 6). Arguments: what is asked (0 a menu bit, 1 a coprocessor answer), and the inputs: for a menu bit the BC,
its index, and SCIDX, FSLOT, FVALID and NIMIN of Table 14.5; for an answer the number of the free value, the core cycle and the request. -/
opaque Config.lantern : Nat → List Nat → Nat

/-- The CRC-32 of a journal record: its sequence number, kind, value, set and bytes. The source gives a record no layout and the code no
polynomial (R370; assumption 130). -/
opaque Config.journalCrc : Nat → Nat → Nat → List (Nat × Nat) → List Byte → Nat

/-- What the parts of the unit that the engine never powers down draw from the mains at a BC, in watts (R445; assumption 131). -/
opaque Config.mainsDraw : Nat → Nat

/-- The firmware object that firmware slot 0 (A) or 1 (B) holds at power-on reset (R397; assumption 33). -/
opaque Config.slotImage : Nat → List Byte

/-- A field of Table 14.6 in a bitstream's body: 0 to 3 DIST4 to DIST7, 4 MENUUSED, 5 EVUSED, 6 NLUT, 7 NFF, 8 LEN. The
source gives the fields and no layout (R309; assumption 34). -/
opaque Config.bitField : Nat → List Byte → Nat

/-- What QUERY and READ_ACTIVE write for a block, where the source gives no layout (R65; assumption 35): the block, the
command's target, the length asked, and the values of the block's fields. -/
opaque Config.serialize : Nat → Nat → Nat → List (Nat × Nat) → List Byte

end Sys2Proof
end

