-- ==== Sys2Proof/Machine/Flags.lean ====
section
/-! DEFINITION. Status codes of completions (Table 2.7), rights (Table 2.3), engine states (Table 2.7, R432), and the
checksums of the links, records and journals (R73, R99, R102, R370, R417). -/

namespace Sys2Proof.Machine

/-- A completion status and its detail byte (R61, Table 2.7). -/
structure Status where
  code : Nat
  detail : Nat
deriving DecidableEq, Repr

namespace Status
/-- Completed as requested. -/
def ok : Status := ⟨0, 0⟩
/-- Written to staged copies, not committed. -/
def staged (blk : Nat) : Status := ⟨1, blk⟩
/-- Undefined opcode, reserved bit set, or flag combination not allowed. -/
def badop : Status := ⟨0x10, 0⟩
/-- Payload length wrong for the function. -/
def badlen : Status := ⟨0x11, 0⟩
/-- Argument or payload field out of range; the offset saturates at 255. -/
def range (off : Nat) : Status := ⟨0x12, min off 255⟩
/-- Address or length not aligned. -/
def align (off : Nat) : Status := ⟨0x13, min off 255⟩
/-- Right missing, or KEEP addressed outside a bundle. -/
def perm (r : Nat) : Status := ⟨0x20, r⟩
/-- Context mismatch or resource of another context. -/
def owner (ctx : Nat) : Status := ⟨0x21, ctx % 256⟩
/-- Signature or measurement did not verify. -/
def sig : Status := ⟨0x22, 0⟩
/-- Not allowed in the present engine state. -/
def state (st : Nat) : Status := ⟨0x30, st⟩
/-- Stage lock held by another context, or commit already pending. -/
def busy (d : Nat) : Status := ⟨0x31, d⟩
/-- Apply-at too close or past. -/
def late : Status := ⟨0x32, 0⟩
/-- Consistency check refused the commit. -/
def incons (blk : Nat) : Status := ⟨0x40, blk⟩
/-- Abandoned: ring destroyed, context closed, or lock lost. -/
def aborted : Status := ⟨0x50, 0⟩
/-- Not completed within HST_CMDTMO. -/
def timeout : Status := ⟨0x51, 0⟩
/-- Hardware fault while executing. -/
def hwerr (island : Nat) : Status := ⟨0xF0, island % 256⟩
end Status

/-! ### Rights (Table 2.3): the number is the ST_PERM detail -/

/-- Commands with the EXPERT flag. -/
def rightExpert : Nat := 1
/-- Creating STR rings. -/
def rightStream : Nat := 2
/-- Engine state requests. -/
def rightState : Nat := 3
/-- Bundles, firmware images, bitstreams, attestation, hand-over. -/
def rightSecure : Nat := 4

/-! ### Engine states (R27, R432): coded as PWR_STAT.STATE; OFF is the model's 0 (assumption 13) -/

/-- Unpowered. -/
def stOff : Nat := 0
/-- See Table 1.5. -/
def stBoot : Nat := 1
/-- See Table 1.5. -/
def stSafe : Nat := 2
/-- See Table 1.5. -/
def stArmed : Nat := 3
/-- See Table 1.5. -/
def stHold : Nat := 4
/-- See Table 1.5. -/
def stStandby : Nat := 5
/-- See Table 1.5. -/
def stFault : Nat := 6

/-! ### Checksums -/

/-- One bit into a CRC of width `w` with polynomial `poly`, most significant bit first. -/
def crcBit (w poly : Nat) (c : Nat) (b : Bool) : Nat :=
  let top := tbit c (w - 1)
  let s := c * 2 % 2 ^ w
  if xor top b then Nat.xor s poly else s

/-- CRC over a list of bits, most significant bit first. -/
def crcBits (w poly init : Nat) (bs : List Bool) : Nat := bs.foldl (crcBit w poly) init

/-- The `n` low bits of a number, most significant first. -/
def msbBits (n v : Nat) : List Bool := (List.range n).map (fun i => tbit v (n - 1 - i))

/-- The 8 bits of each byte, most significant first. -/
def byteBits (bs : List Byte) : List Bool := bs.flatMap (fun b => msbBits 8 b.toNat)

/-- CRC-16, polynomial 0x1021, initial value 0xFFFF: the orbit record (Table 3.2). -/
def crcOrbit (words : List Nat) : Nat := crcBits 16 0x1021 0xFFFF (words.flatMap (msbBits 16))

/-- A CRC whose bits enter least significant bit first (reflected), polynomial given reversed. -/
def crcReflBit (poly : Nat) (c : Nat) (b : Bool) : Nat :=
  if xor (tbit c 0) b then Nat.xor (c / 2) poly else c / 2

/-- The 8 bits of each byte, least significant first. -/
def byteBitsLsb (bs : List Byte) : List Bool := bs.flatMap (fun b => (List.range 8).map (tbit b.toNat))

end Sys2Proof.Machine
end

