-- ==== Sys2Proof/Machine/Tab.lean ====
section
/-! DEFINITION. Sparse tables: a list of (key, value) pairs with strictly rising keys and no value 0, so that equal
tables are equal data. Registers, block tables and counters are held this way. A field of the register tables is a
`Fld`: its place, width and reset value. A table holds the value of a field exclusive-ORed with the field's reset
value, so that a table with nothing listed is the machine after power-on reset (R10). -/

namespace Sys2Proof.Machine

/-- Key and value pairs, keys strictly rising, no value 0. -/
abbrev Tab := List (Nat × Nat)

namespace Tab

/-- The value listed for a key; 0 where none is. -/
def get : Tab → Nat → Nat
  | [], _ => 0
  | (k, v) :: t, x => if x = k then v else if x < k then 0 else get t x

/-- List value `v` for key `x`; a value of 0 removes the entry. -/
def set : Tab → Nat → Nat → Tab
  | [], x, v => if v = 0 then [] else [(x, v)]
  | (k, w) :: t, x, v =>
    if x = k then (if v = 0 then t else (k, v) :: t)
    else if x < k then (if v = 0 then (k, w) :: t else (x, v) :: (k, w) :: t)
    else (k, w) :: set t x v

/-- Every listed key is above `b`, keys rise strictly, no value is 0. -/
def wfFrom : Nat → Tab → Bool
  | _, [] => true
  | b, (k, v) :: t => decide (b ≤ k) && decide (v ≠ 0) && wfFrom (k + 1) t

/-- The canonical form. -/
def wf (t : Tab) : Bool := wfFrom 0 t

/-- Set several keys, the later ones deciding. -/
def setAll (t : Tab) (kvs : List (Nat × Nat)) : Tab := kvs.foldl (fun a kv => a.set kv.1 kv.2) t

/-- Entries whose key lies in `[lo, hi)`. -/
def range (t : Tab) (lo hi : Nat) : Tab := t.filter (fun kv => decide (lo ≤ kv.1 ∧ kv.1 < hi))

/-- Replace every entry whose key satisfies `p` by those of `u`. -/
def replace (p : Nat → Bool) (t u : Tab) : Tab :=
  Tab.setAll (t.filter (fun kv => !p kv.1)) (u.filter (fun kv => p kv.1))

end Tab

/-- A register field or table entry: its key (bit address), width in bits and value at reset. -/
structure Fld where
  key : Nat
  width : Nat
  reset : Nat
deriving DecidableEq, Repr

/-- The value a table holds for a field. -/
def Tab.fld (t : Tab) (f : Fld) : Nat := Nat.xor (t.get f.key) f.reset

/-- Give a field a value, kept to the field's width. -/
def Tab.put (t : Tab) (f : Fld) (v : Nat) : Tab := t.set f.key (Nat.xor (v % 2 ^ f.width) f.reset)

/-- Give several fields their values. -/
def Tab.puts (t : Tab) (fs : List (Fld × Nat)) : Tab := fs.foldl (fun a fv => a.put fv.1 fv.2) t

/-- Access codes of Table 0.2. -/
inductive Access where
  | rw | ro | wo | w1c | w1s | rc | st
deriving DecidableEq, Repr

/-- One row of a register table: the address of its first instance, up to two (stride, count) pairs, its bits, its
reset value and its access code. -/
structure RegRow where
  base : Nat
  stride : Nat
  count : Nat
  stride2 : Nat
  count2 : Nat
  lo : Nat
  width : Nat
  reset : Nat
  acc : Access
deriving DecidableEq, Repr

end Sys2Proof.Machine
end

