-- ==== Sys2Proof/Machine/Regs.lean ====
section
/-! DEFINITION. The register tables of the spec (chapters 00 to 21): one `Fld` per field (its place, width and
reset value), and one `RegRow` per table row for whole-word BAR0 accesses (R3 to R10, R12, Table 0.3).
A field of an indexed register takes its index, or its two indices, as arguments. Fields whose Reset column is a
dash or "Journal" are marked there; their value at reset is a log entry (assumption 12). -/

namespace Sys2Proof.Machine

/-! ### HST registers (Tables 2.13) -/

namespace Reg

/-- HST_CTL.EN, RW, Table 2.13. -/
abbrev HST_CTL_EN : Fld := ⟨32 * (0x0000000) + 0, 1, 0⟩
/-- HST_STATUS.LINKUP, RO, Table 2.13. -/
abbrev HST_STATUS_LINKUP : Fld := ⟨32 * (0x0000004) + 0, 1, 0⟩
/-- HST_STATUS.WIDTH, RO, Table 2.13. -/
abbrev HST_STATUS_WIDTH : Fld := ⟨32 * (0x0000004) + 1, 5, 0⟩
/-- HST_STATUS.GEN, RO, Table 2.13. -/
abbrev HST_STATUS_GEN : Fld := ⟨32 * (0x0000004) + 6, 3, 0⟩
/-- HST_ERRSTAT.BADACC, W1C, Table 2.13. -/
abbrev HST_ERRSTAT_BADACC : Fld := ⟨32 * (0x0000008) + 0, 1, 0⟩
/-- HST_ERRSTAT.RINGFAULT, W1C, Table 2.13. -/
abbrev HST_ERRSTAT_RINGFAULT : Fld := ⟨32 * (0x0000008) + 1, 1, 0⟩
/-- HST_ERRSTAT.CFGLOCK, W1C, Table 2.13. -/
abbrev HST_ERRSTAT_CFGLOCK : Fld := ⟨32 * (0x0000008) + 2, 1, 0⟩
/-- HST_ERRADDR.ADDR, RO, Table 2.13. -/
abbrev HST_ERRADDR_ADDR : Fld := ⟨32 * (0x000000C) + 0, 25, 0⟩
/-- HST_FAULTRING.ID, RO, Table 2.13. -/
abbrev HST_FAULTRING_ID : Fld := ⟨32 * (0x0000010) + 0, 18, 0⟩
/-- HST_CRING_LO.ADDR, RW, Table 2.13. -/
abbrev HST_CRING_LO_ADDR : Fld := ⟨32 * (0x0000014) + 12, 20, 0⟩
/-- HST_CRING_HI.ADDR, RW, Table 2.13. -/
abbrev HST_CRING_HI_ADDR : Fld := ⟨32 * (0x0000018) + 0, 32, 0⟩
/-- HST_CRING_SIZE.K, RW, Table 2.13. -/
abbrev HST_CRING_SIZE_K : Fld := ⟨32 * (0x000001C) + 0, 5, 4⟩
/-- HST_CHEAD_LO.ADDR, RW, Table 2.13. -/
abbrev HST_CHEAD_LO_ADDR : Fld := ⟨32 * (0x0000020) + 3, 29, 0⟩
/-- HST_CHEAD_HI.ADDR, RW, Table 2.13. -/
abbrev HST_CHEAD_HI_ADDR : Fld := ⟨32 * (0x0000024) + 0, 32, 0⟩
/-- HST_CCPL_LO.ADDR, RW, Table 2.13. -/
abbrev HST_CCPL_LO_ADDR : Fld := ⟨32 * (0x0000028) + 12, 20, 0⟩
/-- HST_CCPL_HI.ADDR, RW, Table 2.13. -/
abbrev HST_CCPL_HI_ADDR : Fld := ⟨32 * (0x000002C) + 0, 32, 0⟩
/-- HST_CCPL_SIZE.K, RW, Table 2.13. -/
abbrev HST_CCPL_SIZE_K : Fld := ⟨32 * (0x0000030) + 0, 5, 4⟩
/-- HST_CVEC.VEC, RW, Table 2.13. -/
abbrev HST_CVEC_VEC : Fld := ⟨32 * (0x0000034) + 0, 11, 0⟩
/-- HST_STOP.CTX, WO, Table 2.13. -/
abbrev HST_STOP_CTX : Fld := ⟨32 * (0x0000040) + 0, 10, 0⟩
/-- HST_STOP.ALL, WO, Table 2.13. -/
abbrev HST_STOP_ALL : Fld := ⟨32 * (0x0000040) + 31, 1, 0⟩
/-- HST_RESUME.CTX, WO, Table 2.13. -/
abbrev HST_RESUME_CTX : Fld := ⟨32 * (0x0000044) + 0, 10, 0⟩
/-- HST_RESUME.ALL, WO, Table 2.13. -/
abbrev HST_RESUME_ALL : Fld := ⟨32 * (0x0000044) + 31, 1, 0⟩
/-- HST_STOPSTAT.CTX, RO, Table 2.13. -/
abbrev HST_STOPSTAT_CTX : Fld := ⟨32 * (0x0000048) + 0, 10, 0⟩
/-- HST_STOPSTAT.DONE, RO, Table 2.13. -/
abbrev HST_STOPSTAT_DONE : Fld := ⟨32 * (0x0000048) + 16, 1, 0⟩
/-- HST_CMTLEAD.LEAD, RO, Table 2.13. -/
abbrev HST_CMTLEAD_LEAD : Fld := ⟨32 * (0x000004C) + 0, 16, 0⟩
/-- HST_CMDTMO.MS, RW, Table 2.13. -/
abbrev HST_CMDTMO_MS : Fld := ⟨32 * (0x0000050) + 0, 16, 1000⟩
/-- HST_DBLOST.COUNT, RC, Table 2.13. -/
abbrev HST_DBLOST_COUNT : Fld := ⟨32 * (0x0000054) + 0, 32, 0⟩
/-- HST_PTM_CTL.EN, RW, Table 2.13. -/
abbrev HST_PTM_CTL_EN : Fld := ⟨32 * (0x0000060) + 0, 1, 0⟩
/-- HST_PTM_CTL.PERIOD_MS, RW, Table 2.13. -/
abbrev HST_PTM_CTL_PERIOD_MS : Fld := ⟨32 * (0x0000060) + 8, 8, 10⟩
/-- HST_PTM_CTL.VALID, RO, Table 2.13. -/
abbrev HST_PTM_CTL_VALID : Fld := ⟨32 * (0x0000060) + 31, 1, 0⟩
/-- HST_PTM_ORB_LO.ORB, RO, Table 2.13. -/
abbrev HST_PTM_ORB_LO_ORB : Fld := ⟨32 * (0x0000064) + 0, 32, 0⟩
/-- HST_PTM_ORB_HI.ORB, RO, Table 2.13. -/
abbrev HST_PTM_ORB_HI_ORB : Fld := ⟨32 * (0x0000068) + 0, 18, 0⟩
/-- HST_PTM_TIME_LO.T, RO, Table 2.13. -/
abbrev HST_PTM_TIME_LO_T : Fld := ⟨32 * (0x000006C) + 0, 32, 0⟩
/-- HST_PTM_TIME_HI.T, RO, Table 2.13. -/
abbrev HST_PTM_TIME_HI_T : Fld := ⟨32 * (0x0000070) + 0, 32, 0⟩

end Reg

/-- The rows of HST's register tables. -/
def regRowsHst : List RegRow :=
  [⟨0x0000000, 0x0, 1, 0x0, 1, 0, 1, 0, .rw⟩,
   ⟨0x0000004, 0x0, 1, 0x0, 1, 0, 1, 0, .ro⟩,
   ⟨0x0000004, 0x0, 1, 0x0, 1, 1, 5, 0, .ro⟩,
   ⟨0x0000004, 0x0, 1, 0x0, 1, 6, 3, 0, .ro⟩,
   ⟨0x0000008, 0x0, 1, 0x0, 1, 0, 1, 0, .w1c⟩,
   ⟨0x0000008, 0x0, 1, 0x0, 1, 1, 1, 0, .w1c⟩,
   ⟨0x0000008, 0x0, 1, 0x0, 1, 2, 1, 0, .w1c⟩,
   ⟨0x000000C, 0x0, 1, 0x0, 1, 0, 25, 0, .ro⟩,
   ⟨0x0000010, 0x0, 1, 0x0, 1, 0, 18, 0, .ro⟩,
   ⟨0x0000014, 0x0, 1, 0x0, 1, 12, 20, 0, .rw⟩,
   ⟨0x0000018, 0x0, 1, 0x0, 1, 0, 32, 0, .rw⟩,
   ⟨0x000001C, 0x0, 1, 0x0, 1, 0, 5, 4, .rw⟩,
   ⟨0x0000020, 0x0, 1, 0x0, 1, 3, 29, 0, .rw⟩,
   ⟨0x0000024, 0x0, 1, 0x0, 1, 0, 32, 0, .rw⟩,
   ⟨0x0000028, 0x0, 1, 0x0, 1, 12, 20, 0, .rw⟩,
   ⟨0x000002C, 0x0, 1, 0x0, 1, 0, 32, 0, .rw⟩,
   ⟨0x0000030, 0x0, 1, 0x0, 1, 0, 5, 4, .rw⟩,
   ⟨0x0000034, 0x0, 1, 0x0, 1, 0, 11, 0, .rw⟩,
   ⟨0x0000040, 0x0, 1, 0x0, 1, 0, 10, 0, .wo⟩,
   ⟨0x0000040, 0x0, 1, 0x0, 1, 31, 1, 0, .wo⟩,
   ⟨0x0000044, 0x0, 1, 0x0, 1, 0, 10, 0, .wo⟩,
   ⟨0x0000044, 0x0, 1, 0x0, 1, 31, 1, 0, .wo⟩,
   ⟨0x0000048, 0x0, 1, 0x0, 1, 0, 10, 0, .ro⟩,
   ⟨0x0000048, 0x0, 1, 0x0, 1, 16, 1, 0, .ro⟩,
   ⟨0x000004C, 0x0, 1, 0x0, 1, 0, 16, 0, .ro⟩,
   ⟨0x0000050, 0x0, 1, 0x0, 1, 0, 16, 1000, .rw⟩,
   ⟨0x0000054, 0x0, 1, 0x0, 1, 0, 32, 0, .rc⟩,
   ⟨0x0000060, 0x0, 1, 0x0, 1, 0, 1, 0, .rw⟩,
   ⟨0x0000060, 0x0, 1, 0x0, 1, 8, 8, 10, .rw⟩,
   ⟨0x0000060, 0x0, 1, 0x0, 1, 31, 1, 0, .ro⟩,
   ⟨0x0000064, 0x0, 1, 0x0, 1, 0, 32, 0, .ro⟩,
   ⟨0x0000068, 0x0, 1, 0x0, 1, 0, 18, 0, .ro⟩,
   ⟨0x000006C, 0x0, 1, 0x0, 1, 0, 32, 0, .ro⟩,
   ⟨0x0000070, 0x0, 1, 0x0, 1, 0, 32, 0, .ro⟩]

/-! ### TIM registers (Tables 3.8, 12.3) -/

namespace Reg

/-- TIM_CTL.SRC, ST, Table 3.8. -/
abbrev TIM_CTL_SRC : Fld := ⟨32 * (0x0100000) + 0, 2, 0⟩
/-- TIM_FNOM.KHZ, ST, Table 3.8. -/
abbrev TIM_FNOM_KHZ : Fld := ⟨32 * (0x0100004) + 0, 17, 40000⟩
/-- TIM_ORBIT.LEN, ST, Table 3.8. -/
abbrev TIM_ORBIT_LEN : Fld := ⟨32 * (0x0100008) + 0, 15, 1024⟩
/-- TIM_CLK.M, ST, Table 3.8. -/
abbrev TIM_CLK_M : Fld := ⟨32 * (0x010000C) + 0, 2, 0⟩
/-- TIM_ALIGN.A, ST, Table 3.8. -/
abbrev TIM_ALIGN_A : Fld := ⟨32 * (0x0100010) + 0, 7, 8⟩
/-- TIM_ORIGIN.O, ST, Table 3.8. -/
abbrev TIM_ORIGIN_O : Fld := ⟨32 * (0x0100014) + 0, 12, 0⟩
/-- TIM_ORBSET_LO.ORB, RW, Table 3.8. -/
abbrev TIM_ORBSET_LO_ORB : Fld := ⟨32 * (0x0100018) + 0, 32, 0⟩
/-- TIM_ORBSET_HI.ORB, RW, Table 3.8. -/
abbrev TIM_ORBSET_HI_ORB : Fld := ⟨32 * (0x010001C) + 0, 18, 0⟩
/-- TIM_ORBSET_HI.VALID, RW, Table 3.8. -/
abbrev TIM_ORBSET_HI_VALID : Fld := ⟨32 * (0x010001C) + 31, 1, 0⟩
/-- TIM_STAT.LOCK, RO, Table 3.8. -/
abbrev TIM_STAT_LOCK : Fld := ⟨32 * (0x0100020) + 0, 1, 0⟩
/-- TIM_STAT.PHASE, RO, Table 3.8. -/
abbrev TIM_STAT_PHASE : Fld := ⟨32 * (0x0100020) + 1, 3, 1⟩
/-- TIM_STAT.BEAM, RO, Table 3.8. -/
abbrev TIM_STAT_BEAM : Fld := ⟨32 * (0x0100020) + 4, 1, 0⟩
/-- TIM_STAT.PLANNED, RO, Table 3.8. -/
abbrev TIM_STAT_PLANNED : Fld := ⟨32 * (0x0100020) + 5, 1, 0⟩
/-- TIM_STAT.LENERR, RO, Table 3.8. -/
abbrev TIM_STAT_LENERR : Fld := ⟨32 * (0x0100020) + 6, 1, 0⟩
/-- TIM_STAT.SIGNAL, RO, Table 3.8. -/
abbrev TIM_STAT_SIGNAL : Fld := ⟨32 * (0x0100020) + 7, 1, 0⟩
/-- TIM_LOSS.CAUSE, RO, Table 3.8. -/
abbrev TIM_LOSS_CAUSE : Fld := ⟨32 * (0x0100024) + 0, 8, 0⟩
/-- TIM_MEAS.KHZ, RO, Table 3.8. -/
abbrev TIM_MEAS_KHZ : Fld := ⟨32 * (0x0100028) + 0, 17, 0⟩
/-- TIM_STAMP_LO.STAMP, RO, Table 3.8. -/
abbrev TIM_STAMP_LO_STAMP : Fld := ⟨32 * (0x010002C) + 0, 32, 0⟩
/-- TIM_STAMP_HI.STAMP, RO, Table 3.8. -/
abbrev TIM_STAMP_HI_STAMP : Fld := ⟨32 * (0x0100030) + 0, 32, 0⟩
/-- TIM_LOSSCNT.COUNT, RC, Table 3.8. -/
abbrev TIM_LOSSCNT_COUNT : Fld := ⟨32 * (0x0100034) + 0, 32, 0⟩
/-- TIM_RELOCK.COUNT, RC, Table 3.8. -/
abbrev TIM_RELOCK_COUNT : Fld := ⟨32 * (0x0100038) + 0, 32, 0⟩
/-- TIM_CODEERR.COUNT, RC, Table 3.8. -/
abbrev TIM_CODEERR_COUNT : Fld := ⟨32 * (0x010003C) + 0, 32, 0⟩
/-- TIM_RECERR.COUNT, RC, Table 3.8. -/
abbrev TIM_RECERR_COUNT : Fld := ⟨32 * (0x0100040) + 0, 32, 0⟩
/-- TIM_ERRWIN.MAX, RW, Table 3.8. -/
abbrev TIM_ERRWIN_MAX : Fld := ⟨32 * (0x0100044) + 0, 8, 4⟩
/-- TIM_CMD.LAST, RO, Table 3.8. -/
abbrev TIM_CMD_LAST : Fld := ⟨32 * (0x0100048) + 0, 8, 0⟩
/-- TIM_CMDBAD.COUNT, RC, Table 3.8. -/
abbrev TIM_CMDBAD_COUNT : Fld := ⟨32 * (0x010004C) + 0, 32, 0⟩
/-- TIM_RMISS.COUNT, RC, Table 3.8. -/
abbrev TIM_RMISS_COUNT : Fld := ⟨32 * (0x0100050) + 0, 32, 0⟩
/-- TIM_RMISS_BND.ID, RO, Table 3.8. -/
abbrev TIM_RMISS_BND_ID : Fld := ⟨32 * (0x0100054) + 0, 9, 0⟩
/-- TIM_RPIDX.ID, RW, Table 3.8. -/
abbrev TIM_RPIDX_ID : Fld := ⟨32 * (0x0100058) + 0, 9, 0⟩
/-- TIM_RPSET.SC, RO, Table 3.8. -/
abbrev TIM_RPSET_SC : Fld := ⟨32 * (0x010005C) + 0, 12, 0⟩
/-- TIM_RPWORST.SC, RO, Table 3.8. -/
abbrev TIM_RPWORST_SC : Fld := ⟨32 * (0x0100060) + 0, 12, 0⟩
/-- TIM_RPWORST.CLR, WO, Table 3.8. -/
abbrev TIM_RPWORST_CLR : Fld := ⟨32 * (0x0100060) + 31, 1, 0⟩
/-- TIM_LAT0.LRX, RO, Table 12.3. -/
abbrev TIM_LAT0_LRX : Fld := ⟨32 * (0x0100080) + 0, 5, 5⟩
/-- TIM_LAT0.LPIN, RO, Table 12.3. -/
abbrev TIM_LAT0_LPIN : Fld := ⟨32 * (0x0100080) + 8, 7, 8⟩
/-- TIM_LAT0.LDOME, RO, Table 12.3. -/
abbrev TIM_LAT0_LDOME : Fld := ⟨32 * (0x0100080) + 16, 3, 3⟩
/-- TIM_LAT0.LOBJ, RO, Table 12.3. -/
abbrev TIM_LAT0_LOBJ : Fld := ⟨32 * (0x0100080) + 20, 2, 2⟩
/-- TIM_LAT0.LCORE, RO, Table 12.3. -/
abbrev TIM_LAT0_LCORE : Fld := ⟨32 * (0x0100080) + 24, 6, 0⟩
/-- TIM_LAT1.LTXN, RO, Table 12.3. -/
abbrev TIM_LAT1_LTXN : Fld := ⟨32 * (0x0100084) + 0, 4, 2⟩
/-- TIM_LAT1.LTXD, RO, Table 12.3. -/
abbrev TIM_LAT1_LTXD : Fld := ⟨32 * (0x0100084) + 8, 4, 4⟩
/-- TIM_LAT1.LNIM, RO, Table 12.3. -/
abbrev TIM_LAT1_LNIM : Fld := ⟨32 * (0x0100084) + 16, 8, 23⟩
/-- TIM_LAT1.LDL, RO, Table 12.3. -/
abbrev TIM_LAT1_LDL : Fld := ⟨32 * (0x0100084) + 24, 8, 25⟩
/-- TIM_LAT2.ABORT, RO, Table 12.3. -/
abbrev TIM_LAT2_ABORT : Fld := ⟨32 * (0x0100088) + 0, 13, 17⟩
/-- TIM_LAT2.MON, RO, Table 12.3. -/
abbrev TIM_LAT2_MON : Fld := ⟨32 * (0x0100088) + 16, 13, 15⟩

end Reg

/-- The rows of TIM's register tables. -/
def regRowsTim : List RegRow :=
  [⟨0x0100000, 0x0, 1, 0x0, 1, 0, 2, 0, .st⟩,
   ⟨0x0100004, 0x0, 1, 0x0, 1, 0, 17, 40000, .st⟩,
   ⟨0x0100008, 0x0, 1, 0x0, 1, 0, 15, 1024, .st⟩,
   ⟨0x010000C, 0x0, 1, 0x0, 1, 0, 2, 0, .st⟩,
   ⟨0x0100010, 0x0, 1, 0x0, 1, 0, 7, 8, .st⟩,
   ⟨0x0100014, 0x0, 1, 0x0, 1, 0, 12, 0, .st⟩,
   ⟨0x0100018, 0x0, 1, 0x0, 1, 0, 32, 0, .rw⟩,
   ⟨0x010001C, 0x0, 1, 0x0, 1, 0, 18, 0, .rw⟩,
   ⟨0x010001C, 0x0, 1, 0x0, 1, 31, 1, 0, .rw⟩,
   ⟨0x0100020, 0x0, 1, 0x0, 1, 0, 1, 0, .ro⟩,
   ⟨0x0100020, 0x0, 1, 0x0, 1, 1, 3, 1, .ro⟩,
   ⟨0x0100020, 0x0, 1, 0x0, 1, 4, 1, 0, .ro⟩,
   ⟨0x0100020, 0x0, 1, 0x0, 1, 5, 1, 0, .ro⟩,
   ⟨0x0100020, 0x0, 1, 0x0, 1, 6, 1, 0, .ro⟩,
   ⟨0x0100020, 0x0, 1, 0x0, 1, 7, 1, 0, .ro⟩,
   ⟨0x0100024, 0x0, 1, 0x0, 1, 0, 8, 0, .ro⟩,
   ⟨0x0100028, 0x0, 1, 0x0, 1, 0, 17, 0, .ro⟩,
   ⟨0x010002C, 0x0, 1, 0x0, 1, 0, 32, 0, .ro⟩,
   ⟨0x0100030, 0x0, 1, 0x0, 1, 0, 32, 0, .ro⟩,
   ⟨0x0100034, 0x0, 1, 0x0, 1, 0, 32, 0, .rc⟩,
   ⟨0x0100038, 0x0, 1, 0x0, 1, 0, 32, 0, .rc⟩,
   ⟨0x010003C, 0x0, 1, 0x0, 1, 0, 32, 0, .rc⟩,
   ⟨0x0100040, 0x0, 1, 0x0, 1, 0, 32, 0, .rc⟩,
   ⟨0x0100044, 0x0, 1, 0x0, 1, 0, 8, 4, .rw⟩,
   ⟨0x0100048, 0x0, 1, 0x0, 1, 0, 8, 0, .ro⟩,
   ⟨0x010004C, 0x0, 1, 0x0, 1, 0, 32, 0, .rc⟩,
   ⟨0x0100050, 0x0, 1, 0x0, 1, 0, 32, 0, .rc⟩,
   ⟨0x0100054, 0x0, 1, 0x0, 1, 0, 9, 0, .ro⟩,
   ⟨0x0100058, 0x0, 1, 0x0, 1, 0, 9, 0, .rw⟩,
   ⟨0x010005C, 0x0, 1, 0x0, 1, 0, 12, 0, .ro⟩,
   ⟨0x0100060, 0x0, 1, 0x0, 1, 0, 12, 0, .ro⟩,
   ⟨0x0100060, 0x0, 1, 0x0, 1, 31, 1, 0, .wo⟩,
   ⟨0x0100080, 0x0, 1, 0x0, 1, 0, 5, 5, .ro⟩,
   ⟨0x0100080, 0x0, 1, 0x0, 1, 8, 7, 8, .ro⟩,
   ⟨0x0100080, 0x0, 1, 0x0, 1, 16, 3, 3, .ro⟩,
   ⟨0x0100080, 0x0, 1, 0x0, 1, 20, 2, 2, .ro⟩,
   ⟨0x0100080, 0x0, 1, 0x0, 1, 24, 6, 0, .ro⟩,
   ⟨0x0100084, 0x0, 1, 0x0, 1, 0, 4, 2, .ro⟩,
   ⟨0x0100084, 0x0, 1, 0x0, 1, 8, 4, 4, .ro⟩,
   ⟨0x0100084, 0x0, 1, 0x0, 1, 16, 8, 23, .ro⟩] ++
  [⟨0x0100084, 0x0, 1, 0x0, 1, 24, 8, 25, .ro⟩,
   ⟨0x0100088, 0x0, 1, 0x0, 1, 0, 13, 17, .ro⟩,
   ⟨0x0100088, 0x0, 1, 0x0, 1, 16, 13, 15, .ro⟩]

/-! ### LNK registers (Tables 4.9, 4.10, 4.11) -/

namespace Reg

/-- LNK_CTL.TRX, ST, Table 4.9. -/
abbrev LNK_CTL_TRX : Fld := ⟨32 * (0x0200000) + 0, 1, 0⟩
/-- LNK_UP0.MASK, RO, Table 4.9. -/
abbrev LNK_UP0_MASK : Fld := ⟨32 * (0x0200010) + 0, 32, 0⟩
/-- LNK_UP1.MASK, RO, Table 4.9. -/
abbrev LNK_UP1_MASK : Fld := ⟨32 * (0x0200014) + 0, 32, 0⟩
/-- LNK_UP2.MASK, RO, Table 4.9. -/
abbrev LNK_UP2_MASK : Fld := ⟨32 * (0x0200018) + 0, 32, 0⟩
/-- LNK_UP3.MASK, RO, Table 4.9. -/
abbrev LNK_UP3_MASK : Fld := ⟨32 * (0x020001C) + 0, 32, 0⟩
/-- LNK_UP4.MASK, RO, Table 4.9. -/
abbrev LNK_UP4_MASK : Fld := ⟨32 * (0x0200020) + 0, 16, 0⟩
/-- LNK_SKEWSUM.MIN, RO, Table 4.9. -/
abbrev LNK_SKEWSUM_MIN : Fld := ⟨32 * (0x0200040) + 0, 8, 0⟩
/-- LNK_SKEWSUM.MAX, RO, Table 4.9. -/
abbrev LNK_SKEWSUM_MAX : Fld := ⟨32 * (0x0200040) + 8, 8, 0⟩
/-- LNK_SKEWSUM.VALID, RO, Table 4.9. -/
abbrev LNK_SKEWSUM_VALID : Fld := ⟨32 * (0x0200040) + 31, 1, 0⟩
/-- LNK_SKEWSRC.MINSRC, RO, Table 4.9. -/
abbrev LNK_SKEWSRC_MINSRC : Fld := ⟨32 * (0x0200044) + 0, 11, 0⟩
/-- LNK_SKEWSRC.MAXSRC, RO, Table 4.9. -/
abbrev LNK_SKEWSRC_MAXSRC : Fld := ⟨32 * (0x0200044) + 16, 11, 0⟩
/-- LNK_LCFG.MODE, ST, Table 4.10. -/
abbrev LNK_LCFG_MODE (i : Nat) : Fld := ⟨32 * (0x0201000 + 0x40 * i) + 0, 2, 0⟩
/-- LNK_LCFG.EQ, ST, Table 4.10. -/
abbrev LNK_LCFG_EQ (i : Nat) : Fld := ⟨32 * (0x0201000 + 0x40 * i) + 4, 2, 0⟩
/-- LNK_LCFG.INV, ST, Table 4.10. -/
abbrev LNK_LCFG_INV (i : Nat) : Fld := ⟨32 * (0x0201000 + 0x40 * i) + 8, 1, 0⟩
/-- LNK_LSTAT.STATE, RO, Table 4.10. -/
abbrev LNK_LSTAT_STATE (i : Nat) : Fld := ⟨32 * (0x0201004 + 0x40 * i) + 0, 2, 0⟩
/-- LNK_LSTAT.EQF, RO, Table 4.10. -/
abbrev LNK_LSTAT_EQF (i : Nat) : Fld := ⟨32 * (0x0201004 + 0x40 * i) + 4, 1, 0⟩
/-- LNK_LSTAT.READAPT, W1C, Table 4.10. -/
abbrev LNK_LSTAT_READAPT (i : Nat) : Fld := ⟨32 * (0x0201004 + 0x40 * i) + 5, 1, 0⟩
/-- LNK_LSTAT.FOM, RO, Table 4.10. -/
abbrev LNK_LSTAT_FOM (i : Nat) : Fld := ⟨32 * (0x0201004 + 0x40 * i) + 8, 8, 0⟩
/-- LNK_LSTAT.TAG, RO, Table 4.10. -/
abbrev LNK_LSTAT_TAG (i : Nat) : Fld := ⟨32 * (0x0201004 + 0x40 * i) + 16, 14, 0⟩
/-- LNK_LCHKERR.COUNT, RC, Table 4.10. -/
abbrev LNK_LCHKERR_COUNT (i : Nat) : Fld := ⟨32 * (0x0201008 + 0x40 * i) + 0, 32, 0⟩
/-- LNK_CODEERR.COUNT, RC, Table 4.10. -/
abbrev LNK_CODEERR_COUNT (i : Nat) : Fld := ⟨32 * (0x020100C + 0x40 * i) + 0, 32, 0⟩
/-- LNK_FECCORR.COUNT, RC, Table 4.10. -/
abbrev LNK_FECCORR_COUNT (i : Nat) : Fld := ⟨32 * (0x0201010 + 0x40 * i) + 0, 32, 0⟩
/-- LNK_SYNCLOSS.COUNT, RC, Table 4.10. -/
abbrev LNK_SYNCLOSS_COUNT (i : Nat) : Fld := ⟨32 * (0x0201014 + 0x40 * i) + 0, 32, 0⟩
/-- LNK_TAGERR.COUNT, RC, Table 4.10. -/
abbrev LNK_TAGERR_COUNT (i : Nat) : Fld := ⟨32 * (0x0201018 + 0x40 * i) + 0, 32, 0⟩
/-- LNK_SCFG.EN, ST, Table 4.11. -/
abbrev LNK_SCFG_EN (i : Nat) : Fld := ⟨32 * (0x0208000 + 0x20 * i) + 0, 1, 0⟩
/-- LNK_SCFG.TYPE, ST, Table 4.11. -/
abbrev LNK_SCFG_TYPE (i : Nat) : Fld := ⟨32 * (0x0208000 + 0x20 * i) + 1, 1, 0⟩
/-- LNK_SCFG.WSIZE, ST, Table 4.11. -/
abbrev LNK_SCFG_WSIZE (i : Nat) : Fld := ⟨32 * (0x0208000 + 0x20 * i) + 2, 2, 1⟩
/-- LNK_SCFG.COUNT, ST, Table 4.11. -/
abbrev LNK_SCFG_COUNT (i : Nat) : Fld := ⟨32 * (0x0208000 + 0x20 * i) + 4, 11, 0⟩
/-- LNK_SCFG.LAG, ST, Table 4.11. -/
abbrev LNK_SCFG_LAG (i : Nat) : Fld := ⟨32 * (0x0208000 + 0x20 * i) + 15, 6, 0⟩
/-- LNK_SCFG.WBASE, ST, Table 4.11. -/
abbrev LNK_SCFG_WBASE (i : Nat) : Fld := ⟨32 * (0x0208000 + 0x20 * i) + 21, 6, 0⟩
/-- LNK_SSKEW.MIN, RO, Table 4.11. -/
abbrev LNK_SSKEW_MIN (i : Nat) : Fld := ⟨32 * (0x0208004 + 0x20 * i) + 0, 8, 0⟩
/-- LNK_SSKEW.MAX, RO, Table 4.11. -/
abbrev LNK_SSKEW_MAX (i : Nat) : Fld := ⟨32 * (0x0208004 + 0x20 * i) + 8, 8, 0⟩
/-- LNK_SSKEW.VALID, RO, Table 4.11. -/
abbrev LNK_SSKEW_VALID (i : Nat) : Fld := ⟨32 * (0x0208004 + 0x20 * i) + 31, 1, 0⟩
/-- LNK_SCRC.COUNT, RC, Table 4.11. -/
abbrev LNK_SCRC_COUNT (i : Nat) : Fld := ⟨32 * (0x0208008 + 0x20 * i) + 0, 32, 0⟩
/-- LNK_SLATE.COUNT, RC, Table 4.11. -/
abbrev LNK_SLATE_COUNT (i : Nat) : Fld := ⟨32 * (0x020800C + 0x20 * i) + 0, 32, 0⟩
/-- LNK_SEARLY.COUNT, RC, Table 4.11. -/
abbrev LNK_SEARLY_COUNT (i : Nat) : Fld := ⟨32 * (0x0208010 + 0x20 * i) + 0, 32, 0⟩
/-- LNK_SDUP.COUNT, RC, Table 4.11. -/
abbrev LNK_SDUP_COUNT (i : Nat) : Fld := ⟨32 * (0x0208014 + 0x20 * i) + 0, 32, 0⟩
/-- LNK_SABSENT.COUNT, RC, Table 4.11. -/
abbrev LNK_SABSENT_COUNT (i : Nat) : Fld := ⟨32 * (0x0208018 + 0x20 * i) + 0, 32, 0⟩
/-- LNK_SGOOD.COUNT, RC, Table 4.11. -/
abbrev LNK_SGOOD_COUNT (i : Nat) : Fld := ⟨32 * (0x020801C + 0x20 * i) + 0, 32, 0⟩

end Reg

/-- The rows of LNK's register tables. -/
def regRowsLnk : List RegRow :=
  [⟨0x0200000, 0x0, 1, 0x0, 1, 0, 1, 0, .st⟩,
   ⟨0x0200010, 0x0, 1, 0x0, 1, 0, 32, 0, .ro⟩,
   ⟨0x0200014, 0x0, 1, 0x0, 1, 0, 32, 0, .ro⟩,
   ⟨0x0200018, 0x0, 1, 0x0, 1, 0, 32, 0, .ro⟩,
   ⟨0x020001C, 0x0, 1, 0x0, 1, 0, 32, 0, .ro⟩,
   ⟨0x0200020, 0x0, 1, 0x0, 1, 0, 16, 0, .ro⟩,
   ⟨0x0200040, 0x0, 1, 0x0, 1, 0, 8, 0, .ro⟩,
   ⟨0x0200040, 0x0, 1, 0x0, 1, 8, 8, 0, .ro⟩,
   ⟨0x0200040, 0x0, 1, 0x0, 1, 31, 1, 0, .ro⟩,
   ⟨0x0200044, 0x0, 1, 0x0, 1, 0, 11, 0, .ro⟩,
   ⟨0x0200044, 0x0, 1, 0x0, 1, 16, 11, 0, .ro⟩,
   ⟨0x0201000, 0x40, 144, 0x0, 1, 0, 2, 0, .st⟩,
   ⟨0x0201000, 0x40, 144, 0x0, 1, 4, 2, 0, .st⟩,
   ⟨0x0201000, 0x40, 144, 0x0, 1, 8, 1, 0, .st⟩,
   ⟨0x0201004, 0x40, 144, 0x0, 1, 0, 2, 0, .ro⟩,
   ⟨0x0201004, 0x40, 144, 0x0, 1, 4, 1, 0, .ro⟩,
   ⟨0x0201004, 0x40, 144, 0x0, 1, 5, 1, 0, .w1c⟩,
   ⟨0x0201004, 0x40, 144, 0x0, 1, 8, 8, 0, .ro⟩,
   ⟨0x0201004, 0x40, 144, 0x0, 1, 16, 14, 0, .ro⟩,
   ⟨0x0201008, 0x40, 144, 0x0, 1, 0, 32, 0, .rc⟩,
   ⟨0x020100C, 0x40, 144, 0x0, 1, 0, 32, 0, .rc⟩,
   ⟨0x0201010, 0x40, 144, 0x0, 1, 0, 32, 0, .rc⟩,
   ⟨0x0201014, 0x40, 144, 0x0, 1, 0, 32, 0, .rc⟩,
   ⟨0x0201018, 0x40, 144, 0x0, 1, 0, 32, 0, .rc⟩,
   ⟨0x0208000, 0x20, 1152, 0x0, 1, 0, 1, 0, .st⟩,
   ⟨0x0208000, 0x20, 1152, 0x0, 1, 1, 1, 0, .st⟩,
   ⟨0x0208000, 0x20, 1152, 0x0, 1, 2, 2, 1, .st⟩,
   ⟨0x0208000, 0x20, 1152, 0x0, 1, 4, 11, 0, .st⟩,
   ⟨0x0208000, 0x20, 1152, 0x0, 1, 15, 6, 0, .st⟩,
   ⟨0x0208000, 0x20, 1152, 0x0, 1, 21, 6, 0, .st⟩,
   ⟨0x0208004, 0x20, 1152, 0x0, 1, 0, 8, 0, .ro⟩,
   ⟨0x0208004, 0x20, 1152, 0x0, 1, 8, 8, 0, .ro⟩,
   ⟨0x0208004, 0x20, 1152, 0x0, 1, 31, 1, 0, .ro⟩,
   ⟨0x0208008, 0x20, 1152, 0x0, 1, 0, 32, 0, .rc⟩,
   ⟨0x020800C, 0x20, 1152, 0x0, 1, 0, 32, 0, .rc⟩,
   ⟨0x0208010, 0x20, 1152, 0x0, 1, 0, 32, 0, .rc⟩,
   ⟨0x0208014, 0x20, 1152, 0x0, 1, 0, 32, 0, .rc⟩,
   ⟨0x0208018, 0x20, 1152, 0x0, 1, 0, 32, 0, .rc⟩,
   ⟨0x020801C, 0x20, 1152, 0x0, 1, 0, 32, 0, .rc⟩]

/-! ### MAP registers (Tables 5.4, 5.5, 5.6) -/

namespace Reg

/-- MAP_GEOM.COLS, ST, Table 5.4. -/
abbrev MAP_GEOM_COLS : Fld := ⟨32 * (0x0400000) + 0, 9, 256⟩
/-- MAP_GEOM.ROWS, ST, Table 5.4. -/
abbrev MAP_GEOM_ROWS : Fld := ⟨32 * (0x0400000) + 16, 8, 128⟩
/-- MAP_STAT.MCLR, W1C, Table 5.4. -/
abbrev MAP_STAT_MCLR : Fld := ⟨32 * (0x0400004) + 0, 1, 0⟩
/-- MAP_STAT.MDROP, W1C, Table 5.4. -/
abbrev MAP_STAT_MDROP : Fld := ⟨32 * (0x0400004) + 1, 1, 0⟩
/-- MAP_TMUSE.COUNT, RO, Table 5.4. -/
abbrev MAP_TMUSE_COUNT : Fld := ⟨32 * (0x0400008) + 0, 16, 0⟩
/-- MAP_STUSE.CELLS, RO, Table 5.4. -/
abbrev MAP_STUSE_CELLS : Fld := ⟨32 * (0x040000C) + 0, 20, 0⟩
/-- MAP_MDROP.COUNT, RC, Table 5.4. -/
abbrev MAP_MDROP_COUNT : Fld := ⟨32 * (0x0400010) + 0, 32, 0⟩
/-- MAP_SDEF.KIND, ST, Table 5.5. -/
abbrev MAP_SDEF_KIND (i : Nat) : Fld := ⟨32 * (0x0400400 + 0x20 * i) + 0, 2, 0⟩
/-- MAP_SDEF.MERGE, ST, Table 5.5. -/
abbrev MAP_SDEF_MERGE (i : Nat) : Fld := ⟨32 * (0x0400400 + 0x20 * i) + 4, 1, 0⟩
/-- MAP_SDEF.W, ST, Table 5.5. -/
abbrev MAP_SDEF_W (i : Nat) : Fld := ⟨32 * (0x0400400 + 0x20 * i) + 8, 9, 0⟩
/-- MAP_SDEF.H, ST, Table 5.5. -/
abbrev MAP_SDEF_H (i : Nat) : Fld := ⟨32 * (0x0400400 + 0x20 * i) + 20, 8, 0⟩
/-- MAP_SDEAD.VAL, ST, Table 5.5. -/
abbrev MAP_SDEAD_VAL (i : Nat) : Fld := ⟨32 * (0x0400404 + 0x20 * i) + 0, 18, 0⟩
/-- MAP_SHOT.CAP, ST, Table 5.5. -/
abbrev MAP_SHOT_CAP (i : Nat) : Fld := ⟨32 * (0x0400408 + 0x20 * i) + 0, 18, 0⟩
/-- MAP_SNRDY.COUNT, RC, Table 5.5. -/
abbrev MAP_SNRDY_COUNT (i : Nat) : Fld := ⟨32 * (0x040040C + 0x20 * i) + 0, 32, 0⟩
/-- MAP_SSAT.COUNT, RC, Table 5.5. -/
abbrev MAP_SSAT_COUNT (i : Nat) : Fld := ⟨32 * (0x0400410 + 0x20 * i) + 0, 32, 0⟩
/-- MAP_SMASK.NDEAD, RO, Table 5.5. -/
abbrev MAP_SMASK_NDEAD (i : Nat) : Fld := ⟨32 * (0x0400414 + 0x20 * i) + 0, 16, 0⟩
/-- MAP_SMASK.NHOT, RO, Table 5.5. -/
abbrev MAP_SMASK_NHOT (i : Nat) : Fld := ⟨32 * (0x0400414 + 0x20 * i) + 16, 16, 0⟩
/-- MAP_CONV.MODE, ST, Table 5.6. -/
abbrev MAP_CONV_MODE (i : Nat) : Fld := ⟨32 * (0x0402000 + 0x10 * i) + 0, 2, 0⟩
/-- MAP_CONV.SATCODE, ST, Table 5.6. -/
abbrev MAP_CONV_SATCODE (i : Nat) : Fld := ⟨32 * (0x0402000 + 0x10 * i) + 2, 1, 0⟩
/-- MAP_CONV.LUT, ST, Table 5.6. -/
abbrev MAP_CONV_LUT (i : Nat) : Fld := ⟨32 * (0x0402000 + 0x10 * i) + 4, 6, 0⟩
/-- MAP_CONV.SH, ST, Table 5.6. -/
abbrev MAP_CONV_SH (i : Nat) : Fld := ⟨32 * (0x0402000 + 0x10 * i) + 12, 4, 0⟩
/-- MAP_CGAIN.GAIN, ST, Table 5.6. -/
abbrev MAP_CGAIN_GAIN (i : Nat) : Fld := ⟨32 * (0x0402004 + 0x10 * i) + 0, 16, 1⟩
/-- MAP_CGAIN.PED, ST, Table 5.6. -/
abbrev MAP_CGAIN_PED (i : Nat) : Fld := ⟨32 * (0x0402004 + 0x10 * i) + 16, 16, 0⟩
/-- MAP_TBASE.BASE, ST, Table 5.6. -/
abbrev MAP_TBASE_BASE (i : Nat) : Fld := ⟨32 * (0x0402008 + 0x10 * i) + 0, 16, 0⟩

end Reg

/-- The rows of MAP's register tables. -/
def regRowsMap : List RegRow :=
  [⟨0x0400000, 0x0, 1, 0x0, 1, 0, 9, 256, .st⟩,
   ⟨0x0400000, 0x0, 1, 0x0, 1, 16, 8, 128, .st⟩,
   ⟨0x0400004, 0x0, 1, 0x0, 1, 0, 1, 0, .w1c⟩,
   ⟨0x0400004, 0x0, 1, 0x0, 1, 1, 1, 0, .w1c⟩,
   ⟨0x0400008, 0x0, 1, 0x0, 1, 0, 16, 0, .ro⟩,
   ⟨0x040000C, 0x0, 1, 0x0, 1, 0, 20, 0, .ro⟩,
   ⟨0x0400010, 0x0, 1, 0x0, 1, 0, 32, 0, .rc⟩,
   ⟨0x0400400, 0x20, 32, 0x0, 1, 0, 2, 0, .st⟩,
   ⟨0x0400400, 0x20, 32, 0x0, 1, 4, 1, 0, .st⟩,
   ⟨0x0400400, 0x20, 32, 0x0, 1, 8, 9, 0, .st⟩,
   ⟨0x0400400, 0x20, 32, 0x0, 1, 20, 8, 0, .st⟩,
   ⟨0x0400404, 0x20, 32, 0x0, 1, 0, 18, 0, .st⟩,
   ⟨0x0400408, 0x20, 32, 0x0, 1, 0, 18, 0, .st⟩,
   ⟨0x040040C, 0x20, 32, 0x0, 1, 0, 32, 0, .rc⟩,
   ⟨0x0400410, 0x20, 32, 0x0, 1, 0, 32, 0, .rc⟩,
   ⟨0x0400414, 0x20, 32, 0x0, 1, 0, 16, 0, .ro⟩,
   ⟨0x0400414, 0x20, 32, 0x0, 1, 16, 16, 0, .ro⟩,
   ⟨0x0402000, 0x10, 1152, 0x0, 1, 0, 2, 0, .st⟩,
   ⟨0x0402000, 0x10, 1152, 0x0, 1, 2, 1, 0, .st⟩,
   ⟨0x0402000, 0x10, 1152, 0x0, 1, 4, 6, 0, .st⟩,
   ⟨0x0402000, 0x10, 1152, 0x0, 1, 12, 4, 0, .st⟩,
   ⟨0x0402004, 0x10, 1152, 0x0, 1, 0, 16, 1, .st⟩,
   ⟨0x0402004, 0x10, 1152, 0x0, 1, 16, 16, 0, .st⟩,
   ⟨0x0402008, 0x10, 1152, 0x0, 1, 0, 16, 0, .st⟩]

/-! ### DOM registers (Tables 6.7, 6.8, 6.9) -/

namespace Reg

/-- DOM_GSTAT.LDOME, RO, Table 6.7. -/
abbrev DOM_GSTAT_LDOME : Fld := ⟨32 * (0x0600000) + 0, 3, 3⟩
/-- DOM_FLAG.STALE, W1C, Table 6.7. -/
abbrev DOM_FLAG_STALE : Fld := ⟨32 * (0x0600004) + 0, 1, 0⟩
/-- DOM_FLAG.VETO, W1C, Table 6.7. -/
abbrev DOM_FLAG_VETO : Fld := ⟨32 * (0x0600004) + 1, 1, 0⟩
/-- DOM_FLAG.AGE, W1C, Table 6.7. -/
abbrev DOM_FLAG_AGE : Fld := ⟨32 * (0x0600004) + 2, 1, 0⟩
/-- DOM_STALE.COUNT, RC, Table 6.7. -/
abbrev DOM_STALE_COUNT : Fld := ⟨32 * (0x0600008) + 0, 32, 0⟩
/-- DOM_VETO.COUNT, RC, Table 6.7. -/
abbrev DOM_VETO_COUNT : Fld := ⟨32 * (0x060000C) + 0, 32, 0⟩
/-- DOM_CTL.NL, ST, Table 6.8. -/
abbrev DOM_CTL_NL (i : Nat) : Fld := ⟨32 * (0x0601000 + 0x1000 * i) + 0, 4, 2⟩
/-- DOM_BG.VAL, ST, Table 6.8. -/
abbrev DOM_BG_VAL (i : Nat) : Fld := ⟨32 * (0x0601004 + 0x1000 * i) + 0, 18, 0⟩
/-- DOM_DSAT.COUNT, RC, Table 6.8. -/
abbrev DOM_DSAT_COUNT (i : Nat) : Fld := ⟨32 * (0x0601008 + 0x1000 * i) + 0, 32, 0⟩
/-- DOM_DSUM.SUM, RO, Table 6.8. -/
abbrev DOM_DSUM_SUM (i : Nat) : Fld := ⟨32 * (0x060100C + 0x1000 * i) + 0, 32, 0⟩
/-- DOM_LSRC.SRC, ST, Table 6.8. -/
abbrev DOM_LSRC_SRC (i : Nat) (j : Nat) : Fld := ⟨32 * (0x0601100 + 0x1000 * i + 0x40 * j) + 0, 6, 63⟩
/-- DOM_LSRC.TEST, ST, Table 6.8. -/
abbrev DOM_LSRC_TEST (i : Nat) (j : Nat) : Fld := ⟨32 * (0x0601100 + 0x1000 * i + 0x40 * j) + 8, 1, 0⟩
/-- DOM_LPOS.PC, ST, Table 6.8. -/
abbrev DOM_LPOS_PC (i : Nat) (j : Nat) : Fld := ⟨32 * (0x0601104 + 0x1000 * i + 0x40 * j) + 0, 8, 0⟩
/-- DOM_LPOS.PR, ST, Table 6.8. -/
abbrev DOM_LPOS_PR (i : Nat) (j : Nat) : Fld := ⟨32 * (0x0601104 + 0x1000 * i + 0x40 * j) + 16, 10, 0⟩
/-- DOM_LSIZE.LW, ST, Table 6.8. -/
abbrev DOM_LSIZE_LW (i : Nat) (j : Nat) : Fld := ⟨32 * (0x0601108 + 0x1000 * i + 0x40 * j) + 0, 9, 0⟩
/-- DOM_LSIZE.LH, ST, Table 6.8. -/
abbrev DOM_LSIZE_LH (i : Nat) (j : Nat) : Fld := ⟨32 * (0x0601108 + 0x1000 * i + 0x40 * j) + 16, 10, 0⟩
/-- DOM_LKIND.KIND, ST, Table 6.8. -/
abbrev DOM_LKIND_KIND (i : Nat) (j : Nat) : Fld := ⟨32 * (0x060110C + 0x1000 * i + 0x40 * j) + 0, 1, 0⟩
/-- DOM_LKIND.XDIR, ST, Table 6.8. -/
abbrev DOM_LKIND_XDIR (i : Nat) (j : Nat) : Fld := ⟨32 * (0x060110C + 0x1000 * i + 0x40 * j) + 1, 1, 0⟩
/-- DOM_LKIND.XF, ST, Table 6.8. -/
abbrev DOM_LKIND_XF (i : Nat) (j : Nat) : Fld := ⟨32 * (0x060110C + 0x1000 * i + 0x40 * j) + 2, 2, 0⟩
/-- DOM_LKIND.YDIR, ST, Table 6.8. -/
abbrev DOM_LKIND_YDIR (i : Nat) (j : Nat) : Fld := ⟨32 * (0x060110C + 0x1000 * i + 0x40 * j) + 4, 1, 0⟩
/-- DOM_LKIND.YF, ST, Table 6.8. -/
abbrev DOM_LKIND_YF (i : Nat) (j : Nat) : Fld := ⟨32 * (0x060110C + 0x1000 * i + 0x40 * j) + 5, 2, 0⟩
/-- DOM_LKIND.FILT, ST, Table 6.8. -/
abbrev DOM_LKIND_FILT (i : Nat) (j : Nat) : Fld := ⟨32 * (0x060110C + 0x1000 * i + 0x40 * j) + 8, 1, 0⟩
/-- DOM_LKIND.BOXM, ST, Table 6.8. -/
abbrev DOM_LKIND_BOXM (i : Nat) (j : Nat) : Fld := ⟨32 * (0x060110C + 0x1000 * i + 0x40 * j) + 9, 1, 0⟩
/-- DOM_LFMT.FMT, ST, Table 6.8. -/
abbrev DOM_LFMT_FMT (i : Nat) (j : Nat) : Fld := ⟨32 * (0x0601110 + 0x1000 * i + 0x40 * j) + 0, 1, 0⟩
/-- DOM_LFMT.ISH, ST, Table 6.8. -/
abbrev DOM_LFMT_ISH (i : Nat) (j : Nat) : Fld := ⟨32 * (0x0601110 + 0x1000 * i + 0x40 * j) + 4, 4, 0⟩
/-- DOM_LBLEND.MODE, ST, Table 6.8. -/
abbrev DOM_LBLEND_MODE (i : Nat) (j : Nat) : Fld := ⟨32 * (0x0601114 + 0x1000 * i + 0x40 * j) + 0, 2, 0⟩
/-- DOM_LBLEND.PRE, ST, Table 6.8. -/
abbrev DOM_LBLEND_PRE (i : Nat) (j : Nat) : Fld := ⟨32 * (0x0601114 + 0x1000 * i + 0x40 * j) + 2, 1, 0⟩
/-- DOM_LBLEND.APEN, ST, Table 6.8. -/
abbrev DOM_LBLEND_APEN (i : Nat) (j : Nat) : Fld := ⟨32 * (0x0601114 + 0x1000 * i + 0x40 * j) + 3, 1, 0⟩
/-- DOM_LBLEND.APL, ST, Table 6.8. -/
abbrev DOM_LBLEND_APL (i : Nat) (j : Nat) : Fld := ⟨32 * (0x0601114 + 0x1000 * i + 0x40 * j) + 4, 4, 0⟩
/-- DOM_LALPHA.A, ST, Table 6.8. -/
abbrev DOM_LALPHA_A (i : Nat) (j : Nat) : Fld := ⟨32 * (0x0601118 + 0x1000 * i + 0x40 * j) + 0, 9, 256⟩
/-- DOM_LPOL.POL, ST, Table 6.8. -/
abbrev DOM_LPOL_POL (i : Nat) (j : Nat) : Fld := ⟨32 * (0x060111C + 0x1000 * i + 0x40 * j) + 0, 2, 2⟩
/-- DOM_LPOL.MAXAGE, ST, Table 6.8. -/
abbrev DOM_LPOL_MAXAGE (i : Nat) (j : Nat) : Fld := ⟨32 * (0x060111C + 0x1000 * i + 0x40 * j) + 16, 16, 0⟩
/-- DOM_LNRDY.COUNT, RC, Table 6.8. -/
abbrev DOM_LNRDY_COUNT (i : Nat) (j : Nat) : Fld := ⟨32 * (0x0601120 + 0x1000 * i + 0x40 * j) + 0, 32, 0⟩
/-- DOM_LAGE.AGE, RO, Table 6.8. -/
abbrev DOM_LAGE_AGE (i : Nat) (j : Nat) : Fld := ⟨32 * (0x0601124 + 0x1000 * i + 0x40 * j) + 0, 16, 0⟩
/-- DOM_RGCOL.COL0, ST, Table 6.9. -/
abbrev DOM_RGCOL_COL0 (i : Nat) (j : Nat) : Fld := ⟨32 * (0x0601800 + 0x1000 * i + 0x8 * j) + 0, 8, 0⟩
/-- DOM_RGCOL.NCOL, ST, Table 6.9. -/
abbrev DOM_RGCOL_NCOL (i : Nat) (j : Nat) : Fld := ⟨32 * (0x0601800 + 0x1000 * i + 0x8 * j) + 16, 9, 0⟩
/-- DOM_RGROW.ROW0, ST, Table 6.9. -/
abbrev DOM_RGROW_ROW0 (i : Nat) (j : Nat) : Fld := ⟨32 * (0x0601804 + 0x1000 * i + 0x8 * j) + 0, 7, 0⟩
/-- DOM_RGROW.NROW, ST, Table 6.9. -/
abbrev DOM_RGROW_NROW (i : Nat) (j : Nat) : Fld := ⟨32 * (0x0601804 + 0x1000 * i + 0x8 * j) + 16, 8, 0⟩

end Reg

/-- The rows of DOM's register tables. -/
def regRowsDom : List RegRow :=
  [⟨0x0600000, 0x0, 1, 0x0, 1, 0, 3, 3, .ro⟩,
   ⟨0x0600004, 0x0, 1, 0x0, 1, 0, 1, 0, .w1c⟩,
   ⟨0x0600004, 0x0, 1, 0x0, 1, 1, 1, 0, .w1c⟩,
   ⟨0x0600004, 0x0, 1, 0x0, 1, 2, 1, 0, .w1c⟩,
   ⟨0x0600008, 0x0, 1, 0x0, 1, 0, 32, 0, .rc⟩,
   ⟨0x060000C, 0x0, 1, 0x0, 1, 0, 32, 0, .rc⟩,
   ⟨0x0601000, 0x1000, 2, 0x0, 1, 0, 4, 2, .st⟩,
   ⟨0x0601004, 0x1000, 2, 0x0, 1, 0, 18, 0, .st⟩,
   ⟨0x0601008, 0x1000, 2, 0x0, 1, 0, 32, 0, .rc⟩,
   ⟨0x060100C, 0x1000, 2, 0x0, 1, 0, 32, 0, .ro⟩,
   ⟨0x0601100, 0x1000, 2, 0x40, 8, 0, 6, 63, .st⟩,
   ⟨0x0601100, 0x1000, 2, 0x40, 8, 8, 1, 0, .st⟩,
   ⟨0x0601104, 0x1000, 2, 0x40, 8, 0, 8, 0, .st⟩,
   ⟨0x0601104, 0x1000, 2, 0x40, 8, 16, 10, 0, .st⟩,
   ⟨0x0601108, 0x1000, 2, 0x40, 8, 0, 9, 0, .st⟩,
   ⟨0x0601108, 0x1000, 2, 0x40, 8, 16, 10, 0, .st⟩,
   ⟨0x060110C, 0x1000, 2, 0x40, 8, 0, 1, 0, .st⟩,
   ⟨0x060110C, 0x1000, 2, 0x40, 8, 1, 1, 0, .st⟩,
   ⟨0x060110C, 0x1000, 2, 0x40, 8, 2, 2, 0, .st⟩,
   ⟨0x060110C, 0x1000, 2, 0x40, 8, 4, 1, 0, .st⟩,
   ⟨0x060110C, 0x1000, 2, 0x40, 8, 5, 2, 0, .st⟩,
   ⟨0x060110C, 0x1000, 2, 0x40, 8, 8, 1, 0, .st⟩,
   ⟨0x060110C, 0x1000, 2, 0x40, 8, 9, 1, 0, .st⟩,
   ⟨0x0601110, 0x1000, 2, 0x40, 8, 0, 1, 0, .st⟩,
   ⟨0x0601110, 0x1000, 2, 0x40, 8, 4, 4, 0, .st⟩,
   ⟨0x0601114, 0x1000, 2, 0x40, 8, 0, 2, 0, .st⟩,
   ⟨0x0601114, 0x1000, 2, 0x40, 8, 2, 1, 0, .st⟩,
   ⟨0x0601114, 0x1000, 2, 0x40, 8, 3, 1, 0, .st⟩,
   ⟨0x0601114, 0x1000, 2, 0x40, 8, 4, 4, 0, .st⟩,
   ⟨0x0601118, 0x1000, 2, 0x40, 8, 0, 9, 256, .st⟩,
   ⟨0x060111C, 0x1000, 2, 0x40, 8, 0, 2, 2, .st⟩,
   ⟨0x060111C, 0x1000, 2, 0x40, 8, 16, 16, 0, .st⟩,
   ⟨0x0601120, 0x1000, 2, 0x40, 8, 0, 32, 0, .rc⟩,
   ⟨0x0601124, 0x1000, 2, 0x40, 8, 0, 16, 0, .ro⟩,
   ⟨0x0601800, 0x1000, 2, 0x8, 16, 0, 8, 0, .st⟩,
   ⟨0x0601800, 0x1000, 2, 0x8, 16, 16, 9, 0, .st⟩,
   ⟨0x0601804, 0x1000, 2, 0x8, 16, 0, 7, 0, .st⟩,
   ⟨0x0601804, 0x1000, 2, 0x8, 16, 16, 8, 0, .st⟩]

/-! ### OBJ registers (Tables 8.7, 8.8, 8.9) -/

namespace Reg

/-- OBJ_GSTAT.LOBJ, RO, Table 8.7. -/
abbrev OBJ_GSTAT_LOBJ : Fld := ⟨32 * (0x0800000) + 0, 2, 2⟩
/-- OBJ_FLAG.OVF, W1C, Table 8.7. -/
abbrev OBJ_FLAG_OVF : Fld := ⟨32 * (0x0800004) + 0, 1, 0⟩
/-- OBJ_FLAG.RTRUNC, W1C, Table 8.7. -/
abbrev OBJ_FLAG_RTRUNC : Fld := ⟨32 * (0x0800004) + 1, 1, 0⟩
/-- OBJ_FLAG.ESAT, W1C, Table 8.7. -/
abbrev OBJ_FLAG_ESAT : Fld := ⟨32 * (0x0800004) + 2, 1, 0⟩
/-- OBJ_SCTL.ARMED, ST, Table 8.7. -/
abbrev OBJ_SCTL_ARMED : Fld := ⟨32 * (0x0800008) + 0, 1, 0⟩
/-- OBJ_OSNUM.COUNT, RO, Table 8.7. -/
abbrev OBJ_OSNUM_COUNT : Fld := ⟨32 * (0x080000C) + 0, 5, 0⟩
/-- OBJ_TSEED.THR, ST, Table 8.8. -/
abbrev OBJ_TSEED_THR (i : Nat) : Fld := ⟨32 * (0x0801000 + 0x1000 * i) + 0, 16, 0⟩
/-- OBJ_TSEED.WIN, ST, Table 8.8. -/
abbrev OBJ_TSEED_WIN (i : Nat) : Fld := ⟨32 * (0x0801000 + 0x1000 * i) + 16, 1, 0⟩
/-- OBJ_TFOOT.FW, ST, Table 8.8. -/
abbrev OBJ_TFOOT_FW (i : Nat) : Fld := ⟨32 * (0x0801004 + 0x1000 * i) + 0, 4, 3⟩
/-- OBJ_TFOOT.FH, ST, Table 8.8. -/
abbrev OBJ_TFOOT_FH (i : Nat) : Fld := ⟨32 * (0x0801004 + 0x1000 * i) + 8, 4, 3⟩
/-- OBJ_TLIM.ROWMAX, ST, Table 8.8. -/
abbrev OBJ_TLIM_ROWMAX (i : Nat) : Fld := ⟨32 * (0x0801008 + 0x1000 * i) + 0, 4, 12⟩
/-- OBJ_TLIM.FRMAX, ST, Table 8.8. -/
abbrev OBJ_TLIM_FRMAX (i : Nat) : Fld := ⟨32 * (0x0801008 + 0x1000 * i) + 16, 9, 256⟩
/-- OBJ_TLAST.NOBJ, RO, Table 8.8. -/
abbrev OBJ_TLAST_NOBJ (i : Nat) : Fld := ⟨32 * (0x080100C + 0x1000 * i) + 0, 9, 0⟩
/-- OBJ_TLAST.NSEED, RO, Table 8.8. -/
abbrev OBJ_TLAST_NSEED (i : Nat) : Fld := ⟨32 * (0x080100C + 0x1000 * i) + 16, 16, 0⟩
/-- OBJ_TOVF.COUNT, RC, Table 8.8. -/
abbrev OBJ_TOVF_COUNT (i : Nat) : Fld := ⟨32 * (0x0801010 + 0x1000 * i) + 0, 32, 0⟩
/-- OBJ_TRTR.COUNT, RC, Table 8.8. -/
abbrev OBJ_TRTR_COUNT (i : Nat) : Fld := ⟨32 * (0x0801014 + 0x1000 * i) + 0, 32, 0⟩
/-- OBJ_TDROP.COUNT, RC, Table 8.8. -/
abbrev OBJ_TDROP_COUNT (i : Nat) : Fld := ⟨32 * (0x0801018 + 0x1000 * i) + 0, 32, 0⟩
/-- OBJ_TESAT.COUNT, RC, Table 8.8. -/
abbrev OBJ_TESAT_COUNT (i : Nat) : Fld := ⟨32 * (0x080101C + 0x1000 * i) + 0, 32, 0⟩
/-- OBJ_CEMIN.EMIN, ST, Table 8.8. -/
abbrev OBJ_CEMIN_EMIN (i : Nat) (j : Nat) : Fld := ⟨32 * (0x0801100 + 0x1000 * i + 0x10 * j) + 0, 22, 0⟩
/-- OBJ_CEMIN.EN, ST, Table 8.8. -/
abbrev OBJ_CEMIN_EN (i : Nat) (j : Nat) : Fld := ⟨32 * (0x0801100 + 0x1000 * i + 0x10 * j) + 31, 1, 0⟩
/-- OBJ_CISO.MAX, ST, Table 8.8. -/
abbrev OBJ_CISO_MAX (i : Nat) (j : Nat) : Fld := ⟨32 * (0x0801104 + 0x1000 * i + 0x10 * j) + 0, 22, 4194303⟩
/-- OBJ_CREL.REL, ST, Table 8.8. -/
abbrev OBJ_CREL_REL (i : Nat) (j : Nat) : Fld := ⟨32 * (0x0801108 + 0x1000 * i + 0x10 * j) + 0, 8, 0⟩
/-- OBJ_CROW.LO, ST, Table 8.8. -/
abbrev OBJ_CROW_LO (i : Nat) (j : Nat) : Fld := ⟨32 * (0x080110C + 0x1000 * i + 0x10 * j) + 0, 7, 0⟩
/-- OBJ_CROW.HI, ST, Table 8.8. -/
abbrev OBJ_CROW_HI (i : Nat) (j : Nat) : Fld := ⟨32 * (0x080110C + 0x1000 * i + 0x10 * j) + 16, 7, 127⟩
/-- OBJ_SCFG.EN, ST, Table 8.9. -/
abbrev OBJ_SCFG_EN (i : Nat) : Fld := ⟨32 * (0x0804000 + 0x20 * i) + 0, 1, 0⟩
/-- OBJ_SCFG.DOME, ST, Table 8.9. -/
abbrev OBJ_SCFG_DOME (i : Nat) : Fld := ⟨32 * (0x0804000 + 0x20 * i) + 1, 1, 0⟩
/-- OBJ_SCFG.SW, ST, Table 8.9. -/
abbrev OBJ_SCFG_SW (i : Nat) : Fld := ⟨32 * (0x0804000 + 0x20 * i) + 4, 4, 15⟩
/-- OBJ_SCFG.SH, ST, Table 8.9. -/
abbrev OBJ_SCFG_SH (i : Nat) : Fld := ⟨32 * (0x0804000 + 0x20 * i) + 8, 4, 15⟩
/-- OBJ_SPX.PX, ST, Table 8.9. -/
abbrev OBJ_SPX_PX (i : Nat) : Fld := ⟨32 * (0x0804004 + 0x20 * i) + 0, 12, 0⟩
/-- OBJ_SPY.PY, ST, Table 8.9. -/
abbrev OBJ_SPY_PY (i : Nat) : Fld := ⟨32 * (0x0804008 + 0x20 * i) + 0, 13, 0⟩
/-- OBJ_SMOV.DX, ST, Table 8.9. -/
abbrev OBJ_SMOV_DX (i : Nat) : Fld := ⟨32 * (0x080400C + 0x20 * i) + 0, 8, 0⟩
/-- OBJ_SMOV.DY, ST, Table 8.9. -/
abbrev OBJ_SMOV_DY (i : Nat) : Fld := ⟨32 * (0x080400C + 0x20 * i) + 8, 8, 0⟩
/-- OBJ_SWIN.SLO, ST, Table 8.9. -/
abbrev OBJ_SWIN_SLO (i : Nat) : Fld := ⟨32 * (0x0804010 + 0x20 * i) + 0, 14, 0⟩
/-- OBJ_SWIN.SHI, ST, Table 8.9. -/
abbrev OBJ_SWIN_SHI (i : Nat) : Fld := ⟨32 * (0x0804010 + 0x20 * i) + 16, 14, 16383⟩
/-- OBJ_SPOS.COL, RO, Table 8.9. -/
abbrev OBJ_SPOS_COL (i : Nat) : Fld := ⟨32 * (0x0804014 + 0x20 * i) + 0, 8, 0⟩
/-- OBJ_SPOS.ROW, RO, Table 8.9. -/
abbrev OBJ_SPOS_ROW (i : Nat) : Fld := ⟨32 * (0x0804014 + 0x20 * i) + 16, 16, 0⟩
/-- OBJ_SSTAT.DRAWN, RO, Table 8.9. -/
abbrev OBJ_SSTAT_DRAWN (i : Nat) : Fld := ⟨32 * (0x0804018 + 0x20 * i) + 0, 1, 0⟩

end Reg

/-- The rows of OBJ's register tables. -/
def regRowsObj : List RegRow :=
  [⟨0x0800000, 0x0, 1, 0x0, 1, 0, 2, 2, .ro⟩,
   ⟨0x0800004, 0x0, 1, 0x0, 1, 0, 1, 0, .w1c⟩,
   ⟨0x0800004, 0x0, 1, 0x0, 1, 1, 1, 0, .w1c⟩,
   ⟨0x0800004, 0x0, 1, 0x0, 1, 2, 1, 0, .w1c⟩,
   ⟨0x0800008, 0x0, 1, 0x0, 1, 0, 1, 0, .st⟩,
   ⟨0x080000C, 0x0, 1, 0x0, 1, 0, 5, 0, .ro⟩,
   ⟨0x0801000, 0x1000, 2, 0x0, 1, 0, 16, 0, .st⟩,
   ⟨0x0801000, 0x1000, 2, 0x0, 1, 16, 1, 0, .st⟩,
   ⟨0x0801004, 0x1000, 2, 0x0, 1, 0, 4, 3, .st⟩,
   ⟨0x0801004, 0x1000, 2, 0x0, 1, 8, 4, 3, .st⟩,
   ⟨0x0801008, 0x1000, 2, 0x0, 1, 0, 4, 12, .st⟩,
   ⟨0x0801008, 0x1000, 2, 0x0, 1, 16, 9, 256, .st⟩,
   ⟨0x080100C, 0x1000, 2, 0x0, 1, 0, 9, 0, .ro⟩,
   ⟨0x080100C, 0x1000, 2, 0x0, 1, 16, 16, 0, .ro⟩,
   ⟨0x0801010, 0x1000, 2, 0x0, 1, 0, 32, 0, .rc⟩,
   ⟨0x0801014, 0x1000, 2, 0x0, 1, 0, 32, 0, .rc⟩,
   ⟨0x0801018, 0x1000, 2, 0x0, 1, 0, 32, 0, .rc⟩,
   ⟨0x080101C, 0x1000, 2, 0x0, 1, 0, 32, 0, .rc⟩,
   ⟨0x0801100, 0x1000, 2, 0x10, 16, 0, 22, 0, .st⟩,
   ⟨0x0801100, 0x1000, 2, 0x10, 16, 31, 1, 0, .st⟩,
   ⟨0x0801104, 0x1000, 2, 0x10, 16, 0, 22, 4194303, .st⟩,
   ⟨0x0801108, 0x1000, 2, 0x10, 16, 0, 8, 0, .st⟩,
   ⟨0x080110C, 0x1000, 2, 0x10, 16, 0, 7, 0, .st⟩,
   ⟨0x080110C, 0x1000, 2, 0x10, 16, 16, 7, 127, .st⟩,
   ⟨0x0804000, 0x20, 64, 0x0, 1, 0, 1, 0, .st⟩,
   ⟨0x0804000, 0x20, 64, 0x0, 1, 1, 1, 0, .st⟩,
   ⟨0x0804000, 0x20, 64, 0x0, 1, 4, 4, 15, .st⟩,
   ⟨0x0804000, 0x20, 64, 0x0, 1, 8, 4, 15, .st⟩,
   ⟨0x0804004, 0x20, 64, 0x0, 1, 0, 12, 0, .st⟩,
   ⟨0x0804008, 0x20, 64, 0x0, 1, 0, 13, 0, .st⟩,
   ⟨0x080400C, 0x20, 64, 0x0, 1, 0, 8, 0, .st⟩,
   ⟨0x080400C, 0x20, 64, 0x0, 1, 8, 8, 0, .st⟩,
   ⟨0x0804010, 0x20, 64, 0x0, 1, 0, 14, 0, .st⟩,
   ⟨0x0804010, 0x20, 64, 0x0, 1, 16, 14, 16383, .st⟩,
   ⟨0x0804014, 0x20, 64, 0x0, 1, 0, 8, 0, .ro⟩,
   ⟨0x0804014, 0x20, 64, 0x0, 1, 16, 16, 0, .ro⟩,
   ⟨0x0804018, 0x20, 64, 0x0, 1, 0, 1, 0, .ro⟩]

/-! ### SEQ registers (Tables 9.5, 9.6) -/

namespace Reg

/-- SEQ_STOP.L0, WO, Table 9.5. -/
abbrev SEQ_STOP_L0 : Fld := ⟨32 * (0x0900000) + 0, 1, 0⟩
/-- SEQ_STOP.L1, WO, Table 9.5. -/
abbrev SEQ_STOP_L1 : Fld := ⟨32 * (0x0900000) + 1, 1, 0⟩
/-- SEQ_STAT.BEYOND, W1C, Table 9.5. -/
abbrev SEQ_STAT_BEYOND : Fld := ⟨32 * (0x0900004) + 0, 1, 0⟩
/-- SEQ_LCTL.EN, ST, Table 9.6. -/
abbrev SEQ_LCTL_EN (i : Nat) : Fld := ⟨32 * (0x0900100 + 0x40 * i) + 0, 1, 0⟩
/-- SEQ_LSTAT.NENT, RO, Table 9.6. -/
abbrev SEQ_LSTAT_NENT (i : Nat) : Fld := ⟨32 * (0x0900104 + 0x40 * i) + 0, 13, 0⟩
/-- SEQ_LSTAT.MAXCOV, RO, Table 9.6. -/
abbrev SEQ_LSTAT_MAXCOV (i : Nat) : Fld := ⟨32 * (0x0900104 + 0x40 * i) + 16, 5, 0⟩
/-- SEQ_LSTAT.STOPPED, RO, Table 9.6. -/
abbrev SEQ_LSTAT_STOPPED (i : Nat) : Fld := ⟨32 * (0x0900104 + 0x40 * i) + 31, 1, 0⟩
/-- SEQ_LSWAP_LO.ORB, RO, Table 9.6. -/
abbrev SEQ_LSWAP_LO_ORB (i : Nat) : Fld := ⟨32 * (0x0900108 + 0x40 * i) + 0, 32, 0⟩
/-- SEQ_LSWAP_HI.ORB, RO, Table 9.6. -/
abbrev SEQ_LSWAP_HI_ORB (i : Nat) : Fld := ⟨32 * (0x090010C + 0x40 * i) + 0, 18, 0⟩
/-- SEQ_LHIT.COUNT, RC, Table 9.6. -/
abbrev SEQ_LHIT_COUNT (i : Nat) : Fld := ⟨32 * (0x0900110 + 0x40 * i) + 0, 32, 0⟩
/-- SEQ_LSTAT2.NBEYOND, RO, Table 9.6. -/
abbrev SEQ_LSTAT2_NBEYOND (i : Nat) : Fld := ⟨32 * (0x0900114 + 0x40 * i) + 0, 13, 0⟩

end Reg

/-- The rows of SEQ's register tables. -/
def regRowsSeq : List RegRow :=
  [⟨0x0900000, 0x0, 1, 0x0, 1, 0, 1, 0, .wo⟩,
   ⟨0x0900000, 0x0, 1, 0x0, 1, 1, 1, 0, .wo⟩,
   ⟨0x0900004, 0x0, 1, 0x0, 1, 0, 1, 0, .w1c⟩,
   ⟨0x0900100, 0x40, 2, 0x0, 1, 0, 1, 0, .st⟩,
   ⟨0x0900104, 0x40, 2, 0x0, 1, 0, 13, 0, .ro⟩,
   ⟨0x0900104, 0x40, 2, 0x0, 1, 16, 5, 0, .ro⟩,
   ⟨0x0900104, 0x40, 2, 0x0, 1, 31, 1, 0, .ro⟩,
   ⟨0x0900108, 0x40, 2, 0x0, 1, 0, 32, 0, .ro⟩,
   ⟨0x090010C, 0x40, 2, 0x0, 1, 0, 18, 0, .ro⟩,
   ⟨0x0900110, 0x40, 2, 0x0, 1, 0, 32, 0, .rc⟩,
   ⟨0x0900114, 0x40, 2, 0x0, 1, 0, 13, 0, .ro⟩]

/-! ### MNU registers (Tables 10.8, 10.9) -/

namespace Reg

/-- MNU_GCTL.PSMODE, ST, Table 10.8. -/
abbrev MNU_GCTL_PSMODE : Fld := ⟨32 * (0x0A00000) + 0, 1, 0⟩
/-- MNU_DEAD.SPACE, ST, Table 10.8. -/
abbrev MNU_DEAD_SPACE : Fld := ⟨32 * (0x0A00004) + 0, 8, 0⟩
/-- MNU_DEAD.WINK, ST, Table 10.8. -/
abbrev MNU_DEAD_WINK : Fld := ⟨32 * (0x0A00004) + 8, 4, 0⟩
/-- MNU_DEAD.WINW, ST, Table 10.8. -/
abbrev MNU_DEAD_WINW : Fld := ⟨32 * (0x0A00004) + 16, 12, 1⟩
/-- MNU_ACCNUM.NUM, RO, Table 10.8. -/
abbrev MNU_ACCNUM_NUM : Fld := ⟨32 * (0x0A00008) + 0, 32, 0⟩
/-- MNU_ACCCNT.COUNT, RC, Table 10.8. -/
abbrev MNU_ACCCNT_COUNT : Fld := ⟨32 * (0x0A0000C) + 0, 32, 0⟩
/-- MNU_INVSUP.COUNT, RC, Table 10.8. -/
abbrev MNU_INVSUP_COUNT : Fld := ⟨32 * (0x0A00010) + 0, 32, 0⟩
/-- MNU_BUSYCNT.COUNT, RC, Table 10.8. -/
abbrev MNU_BUSYCNT_COUNT : Fld := ⟨32 * (0x0A00014) + 0, 32, 0⟩
/-- MNU_SPACECNT.COUNT, RC, Table 10.8. -/
abbrev MNU_SPACECNT_COUNT : Fld := ⟨32 * (0x0A00018) + 0, 32, 0⟩
/-- MNU_WINCNT.COUNT, RC, Table 10.8. -/
abbrev MNU_WINCNT_COUNT : Fld := ⟨32 * (0x0A0001C) + 0, 32, 0⟩
/-- MNU_LIVECNT.COUNT, RC, Table 10.8. -/
abbrev MNU_LIVECNT_COUNT : Fld := ⟨32 * (0x0A00020) + 0, 32, 0⟩
/-- MNU_LSNUM.COUNT, RO, Table 10.8. -/
abbrev MNU_LSNUM_COUNT : Fld := ⟨32 * (0x0A00024) + 0, 3, 0⟩
/-- MNU_LCTL.EN, ST, Table 10.9. -/
abbrev MNU_LCTL_EN (i : Nat) : Fld := ⟨32 * (0x0A01000 + 0x10 * i) + 0, 1, 0⟩
/-- MNU_LCTL.VETO, ST, Table 10.9. -/
abbrev MNU_LCTL_VETO (i : Nat) : Fld := ⟨32 * (0x0A01000 + 0x10 * i) + 16, 16, 0⟩
/-- MNU_LRAW.COUNT, RC, Table 10.9. -/
abbrev MNU_LRAW_COUNT (i : Nat) : Fld := ⟨32 * (0x0A01004 + 0x10 * i) + 0, 32, 0⟩
/-- MNU_LACC.COUNT, RC, Table 10.9. -/
abbrev MNU_LACC_COUNT (i : Nat) : Fld := ⟨32 * (0x0A01008 + 0x10 * i) + 0, 32, 0⟩
/-- MNU_CRAW.COUNT, RC, Table 10.9. -/
abbrev MNU_CRAW_COUNT (i : Nat) : Fld := ⟨32 * (0x0A04000 + 0x10 * i) + 0, 32, 0⟩
/-- MNU_CPASS.COUNT, RC, Table 10.9. -/
abbrev MNU_CPASS_COUNT (i : Nat) : Fld := ⟨32 * (0x0A04004 + 0x10 * i) + 0, 32, 0⟩
/-- MNU_CPSC.C, RO, Table 10.9. -/
abbrev MNU_CPSC_C (i : Nat) : Fld := ⟨32 * (0x0A04008 + 0x10 * i) + 0, 24, 0⟩
/-- MNU_ICFG.BUSY, ST, Table 10.9. -/
abbrev MNU_ICFG_BUSY (i : Nat) : Fld := ⟨32 * (0x0A08000 + 0x10 * i) + 0, 1, 0⟩
/-- MNU_ICFG.INV, ST, Table 10.9. -/
abbrev MNU_ICFG_INV (i : Nat) : Fld := ⟨32 * (0x0A08000 + 0x10 * i) + 1, 1, 0⟩
/-- MNU_ICFG.MODE, ST, Table 10.9. -/
abbrev MNU_ICFG_MODE (i : Nat) : Fld := ⟨32 * (0x0A08000 + 0x10 * i) + 2, 1, 0⟩
/-- MNU_ICFG.PH, ST, Table 10.9. -/
abbrev MNU_ICFG_PH (i : Nat) : Fld := ⟨32 * (0x0A08000 + 0x10 * i) + 4, 3, 0⟩
/-- MNU_ICFG.DELAY, ST, Table 10.9. -/
abbrev MNU_ICFG_DELAY (i : Nat) : Fld := ⟨32 * (0x0A08000 + 0x10 * i) + 8, 6, 0⟩
/-- MNU_ICNT.COUNT, RC, Table 10.9. -/
abbrev MNU_ICNT_COUNT (i : Nat) : Fld := ⟨32 * (0x0A08004 + 0x10 * i) + 0, 32, 0⟩

end Reg

/-- The rows of MNU's register tables. -/
def regRowsMnu : List RegRow :=
  [⟨0x0A00000, 0x0, 1, 0x0, 1, 0, 1, 0, .st⟩,
   ⟨0x0A00004, 0x0, 1, 0x0, 1, 0, 8, 0, .st⟩,
   ⟨0x0A00004, 0x0, 1, 0x0, 1, 8, 4, 0, .st⟩,
   ⟨0x0A00004, 0x0, 1, 0x0, 1, 16, 12, 1, .st⟩,
   ⟨0x0A00008, 0x0, 1, 0x0, 1, 0, 32, 0, .ro⟩,
   ⟨0x0A0000C, 0x0, 1, 0x0, 1, 0, 32, 0, .rc⟩,
   ⟨0x0A00010, 0x0, 1, 0x0, 1, 0, 32, 0, .rc⟩,
   ⟨0x0A00014, 0x0, 1, 0x0, 1, 0, 32, 0, .rc⟩,
   ⟨0x0A00018, 0x0, 1, 0x0, 1, 0, 32, 0, .rc⟩,
   ⟨0x0A0001C, 0x0, 1, 0x0, 1, 0, 32, 0, .rc⟩,
   ⟨0x0A00020, 0x0, 1, 0x0, 1, 0, 32, 0, .rc⟩,
   ⟨0x0A00024, 0x0, 1, 0x0, 1, 0, 3, 0, .ro⟩,
   ⟨0x0A01000, 0x10, 64, 0x0, 1, 0, 1, 0, .st⟩,
   ⟨0x0A01000, 0x10, 64, 0x0, 1, 16, 16, 0, .st⟩,
   ⟨0x0A01004, 0x10, 64, 0x0, 1, 0, 32, 0, .rc⟩,
   ⟨0x0A01008, 0x10, 64, 0x0, 1, 0, 32, 0, .rc⟩,
   ⟨0x0A04000, 0x10, 512, 0x0, 1, 0, 32, 0, .rc⟩,
   ⟨0x0A04004, 0x10, 512, 0x0, 1, 0, 32, 0, .rc⟩,
   ⟨0x0A04008, 0x10, 512, 0x0, 1, 0, 24, 0, .ro⟩,
   ⟨0x0A08000, 0x10, 16, 0x0, 1, 0, 1, 0, .st⟩,
   ⟨0x0A08000, 0x10, 16, 0x0, 1, 1, 1, 0, .st⟩,
   ⟨0x0A08000, 0x10, 16, 0x0, 1, 2, 1, 0, .st⟩,
   ⟨0x0A08000, 0x10, 16, 0x0, 1, 4, 3, 0, .st⟩,
   ⟨0x0A08000, 0x10, 16, 0x0, 1, 8, 6, 0, .st⟩,
   ⟨0x0A08004, 0x10, 16, 0x0, 1, 0, 32, 0, .rc⟩]

/-! ### OUT registers (Tables 7.5, 10.10) -/

namespace Reg

/-- OUT_KSTAT.BUNDLE, RO, Table 7.5. -/
abbrev OUT_KSTAT_BUNDLE : Fld := ⟨32 * (0x1508000) + 0, 1, 0⟩
/-- OUT_KSTAT.ABORT, RO, Table 7.5. -/
abbrev OUT_KSTAT_ABORT : Fld := ⟨32 * (0x1508000) + 1, 1, 1⟩
/-- OUT_KSTAT.REQ, RO, Table 7.5. -/
abbrev OUT_KSTAT_REQ : Fld := ⟨32 * (0x1508000) + 2, 1, 0⟩
/-- OUT_KSTAT.FS, RO, Table 7.5. -/
abbrev OUT_KSTAT_FS : Fld := ⟨32 * (0x1508000) + 3, 1, 0⟩
/-- OUT_KSTAT.COIL, RO, Table 7.5. -/
abbrev OUT_KSTAT_COIL : Fld := ⟨32 * (0x1508000) + 4, 2, 0⟩
/-- OUT_KSTAT.SENSE, RO, Table 7.5. -/
abbrev OUT_KSTAT_SENSE : Fld := ⟨32 * (0x1508000) + 6, 2, 0⟩
/-- OUT_KCAUSE.CAUSE, W1C, Table 7.5. -/
abbrev OUT_KCAUSE_CAUSE : Fld := ⟨32 * (0x1508004) + 0, 7, 0⟩
/-- OUT_KREQCNT.COUNT, RC, Table 7.5. -/
abbrev OUT_KREQCNT_COUNT : Fld := ⟨32 * (0x1508008) + 0, 32, 0⟩
/-- OUT_KFSCNT.COUNT, RC, Table 7.5. -/
abbrev OUT_KFSCNT_COUNT : Fld := ⟨32 * (0x150800C) + 0, 32, 0⟩
/-- OUT_KLAST_LO.STAMP, RO, Table 7.5. -/
abbrev OUT_KLAST_LO_STAMP : Fld := ⟨32 * (0x1508010) + 0, 32, 0⟩
/-- OUT_KLAST_HI.STAMP, RO, Table 7.5. -/
abbrev OUT_KLAST_HI_STAMP : Fld := ⟨32 * (0x1508014) + 0, 32, 0⟩
/-- OUT_KSUM.SUM, RO, Table 7.5. -/
abbrev OUT_KSUM_SUM : Fld := ⟨32 * (0x1508018) + 0, 32, 0⟩
/-- OUT_DCAP.SAFE, ST, Table 7.5. -/
abbrev OUT_DCAP_SAFE : Fld := ⟨32 * (0x1508020) + 0, 1, 1⟩
/-- OUT_DCAP.HOLD, ST, Table 7.5. -/
abbrev OUT_DCAP_HOLD : Fld := ⟨32 * (0x1508020) + 1, 1, 0⟩
/-- OUT_DCAP.DOMEA, ST, Table 7.5. -/
abbrev OUT_DCAP_DOMEA : Fld := ⟨32 * (0x1508020) + 4, 1, 1⟩
/-- OUT_DCAP.DOMEB, ST, Table 7.5. -/
abbrev OUT_DCAP_DOMEB : Fld := ⟨32 * (0x1508020) + 5, 1, 1⟩
/-- OUT_DCAPMASK_LO.MASK, ST, Table 7.5. -/
abbrev OUT_DCAPMASK_LO_MASK : Fld := ⟨32 * (0x1508024) + 0, 32, 0⟩
/-- OUT_DCAPMASK_HI.MASK, ST, Table 7.5. -/
abbrev OUT_DCAPMASK_HI_MASK : Fld := ⟨32 * (0x1508028) + 0, 32, 0⟩
/-- OUT_DCAPDROP.COUNT, RC, Table 7.5. -/
abbrev OUT_DCAPDROP_COUNT : Fld := ⟨32 * (0x150802C) + 0, 32, 0⟩
/-- OUT_DCAPCNT.COUNT, RC, Table 7.5. -/
abbrev OUT_DCAPCNT_COUNT : Fld := ⟨32 * (0x1508030) + 0, 32, 0⟩
/-- OUT_HCFG.DEPTHA, ST, Table 7.5. -/
abbrev OUT_HCFG_DEPTHA : Fld := ⟨32 * (0x1508040) + 0, 11, 0⟩
/-- OUT_HCFG.DEPTHB, ST, Table 7.5. -/
abbrev OUT_HCFG_DEPTHB : Fld := ⟨32 * (0x1508040) + 16, 11, 0⟩
/-- OUT_HDEC.DEC, ST, Table 7.5. -/
abbrev OUT_HDEC_DEC : Fld := ⟨32 * (0x1508044) + 0, 24, 1⟩
/-- OUT_HPOST.POST, ST, Table 7.5. -/
abbrev OUT_HPOST_POST : Fld := ⟨32 * (0x1508048) + 0, 10, 0⟩
/-- OUT_HFRZ.FRZK, ST, Table 7.5. -/
abbrev OUT_HFRZ_FRZK : Fld := ⟨32 * (0x150804C) + 0, 1, 1⟩
/-- OUT_HFRZ.EVEN, ST, Table 7.5. -/
abbrev OUT_HFRZ_EVEN : Fld := ⟨32 * (0x150804C) + 1, 1, 0⟩
/-- OUT_HFRZ.CH, ST, Table 7.5. -/
abbrev OUT_HFRZ_CH : Fld := ⟨32 * (0x150804C) + 16, 10, 0⟩
/-- OUT_HFRZ.AUTO, ST, Table 7.5. -/
abbrev OUT_HFRZ_AUTO : Fld := ⟨32 * (0x150804C) + 31, 1, 0⟩
/-- OUT_HSTAT.STATE, RO, Table 7.5. -/
abbrev OUT_HSTAT_STATE : Fld := ⟨32 * (0x1508050) + 0, 2, 0⟩
/-- OUT_HSTAT.CAUSE, RO, Table 7.5. -/
abbrev OUT_HSTAT_CAUSE : Fld := ⟨32 * (0x1508050) + 8, 3, 0⟩
/-- OUT_HTSTAMP_LO.STAMP, RO, Table 7.5. -/
abbrev OUT_HTSTAMP_LO_STAMP : Fld := ⟨32 * (0x1508054) + 0, 32, 0⟩
/-- OUT_HTSTAMP_HI.STAMP, RO, Table 7.5. -/
abbrev OUT_HTSTAMP_HI_STAMP : Fld := ⟨32 * (0x1508058) + 0, 32, 0⟩
/-- OUT_HTLOST.COUNT, RC, Table 7.5. -/
abbrev OUT_HTLOST_COUNT : Fld := ⟨32 * (0x150805C) + 0, 32, 0⟩
/-- OUT_OCNUM.COUNT, RO, Table 7.5. -/
abbrev OUT_OCNUM_COUNT : Fld := ⟨32 * (0x1508060) + 0, 5, 0⟩
/-- OUT_NOCFG.SRC, ST, Table 10.10. -/
abbrev OUT_NOCFG_SRC (i : Nat) : Fld := ⟨32 * (0x1500100 + 0x10 * i) + 0, 3, 0⟩
/-- OUT_NOCFG.IDX, ST, Table 10.10. -/
abbrev OUT_NOCFG_IDX (i : Nat) : Fld := ⟨32 * (0x1500100 + 0x10 * i) + 4, 9, 0⟩
/-- OUT_NOCFG.INV, ST, Table 10.10. -/
abbrev OUT_NOCFG_INV (i : Nat) : Fld := ⟨32 * (0x1500100 + 0x10 * i) + 16, 1, 0⟩
/-- OUT_NOCFG.SAFE, ST, Table 10.10. -/
abbrev OUT_NOCFG_SAFE (i : Nat) : Fld := ⟨32 * (0x1500100 + 0x10 * i) + 17, 1, 0⟩
/-- OUT_NOCFG.WIDTH, ST, Table 10.10. -/
abbrev OUT_NOCFG_WIDTH (i : Nat) : Fld := ⟨32 * (0x1500100 + 0x10 * i) + 20, 3, 0⟩
/-- OUT_NOCFG.CV, ST, Table 10.10. -/
abbrev OUT_NOCFG_CV (i : Nat) : Fld := ⟨32 * (0x1500100 + 0x10 * i) + 24, 1, 0⟩
/-- OUT_NOCNT.COUNT, RC, Table 10.10. -/
abbrev OUT_NOCNT_COUNT (i : Nat) : Fld := ⟨32 * (0x1500104 + 0x10 * i) + 0, 32, 0⟩
/-- OUT_DLCFG.EN, ST, Table 10.10. -/
abbrev OUT_DLCFG_EN (i : Nat) : Fld := ⟨32 * (0x1500800 + 0x20 * i) + 0, 1, 0⟩
/-- OUT_DLCFG.INV, ST, Table 10.10. -/
abbrev OUT_DLCFG_INV (i : Nat) : Fld := ⟨32 * (0x1500800 + 0x20 * i) + 1, 1, 0⟩
/-- OUT_DLMASK_LO.MASK, ST, Table 10.10. -/
abbrev OUT_DLMASK_LO_MASK (i : Nat) : Fld := ⟨32 * (0x1500804 + 0x20 * i) + 0, 32, 4294967295⟩
/-- OUT_DLMASK_HI.MASK, ST, Table 10.10. -/
abbrev OUT_DLMASK_HI_MASK (i : Nat) : Fld := ⟨32 * (0x1500808 + 0x20 * i) + 0, 32, 4294967295⟩
/-- OUT_DLSTAT.MOD, RO, Table 10.10. -/
abbrev OUT_DLSTAT_MOD (i : Nat) : Fld := ⟨32 * (0x150080C + 0x20 * i) + 0, 1, 0⟩
/-- OUT_DLSTAT.TXF, W1C, Table 10.10. -/
abbrev OUT_DLSTAT_TXF (i : Nat) : Fld := ⟨32 * (0x150080C + 0x20 * i) + 1, 1, 0⟩
/-- OUT_DLFRM.COUNT, RC, Table 10.10. -/
abbrev OUT_DLFRM_COUNT (i : Nat) : Fld := ⟨32 * (0x1500810 + 0x20 * i) + 0, 32, 0⟩
/-- OUT_RLYCNT_A.COUNT, RO (reset: dash), Table 10.10. -/
abbrev OUT_RLYCNT_A_COUNT : Fld := ⟨32 * (0x1508080) + 0, 32, 0⟩
/-- OUT_RLYCNT_B.COUNT, RO (reset: dash), Table 10.10. -/
abbrev OUT_RLYCNT_B_COUNT : Fld := ⟨32 * (0x1508084) + 0, 32, 0⟩
/-- OUT_RLYWARN.LIMIT, RW, Table 10.10. -/
abbrev OUT_RLYWARN_LIMIT : Fld := ⟨32 * (0x1508088) + 0, 32, 90000000⟩
/-- OUT_RLYSTAT.WEAR, RO, Table 10.10. -/
abbrev OUT_RLYSTAT_WEAR : Fld := ⟨32 * (0x150808C) + 0, 2, 0⟩

end Reg

/-- The rows of OUT's register tables. -/
def regRowsOut : List RegRow :=
  [⟨0x1508000, 0x0, 1, 0x0, 1, 0, 1, 0, .ro⟩,
   ⟨0x1508000, 0x0, 1, 0x0, 1, 1, 1, 1, .ro⟩,
   ⟨0x1508000, 0x0, 1, 0x0, 1, 2, 1, 0, .ro⟩,
   ⟨0x1508000, 0x0, 1, 0x0, 1, 3, 1, 0, .ro⟩,
   ⟨0x1508000, 0x0, 1, 0x0, 1, 4, 2, 0, .ro⟩,
   ⟨0x1508000, 0x0, 1, 0x0, 1, 6, 2, 0, .ro⟩,
   ⟨0x1508004, 0x0, 1, 0x0, 1, 0, 7, 0, .w1c⟩,
   ⟨0x1508008, 0x0, 1, 0x0, 1, 0, 32, 0, .rc⟩,
   ⟨0x150800C, 0x0, 1, 0x0, 1, 0, 32, 0, .rc⟩,
   ⟨0x1508010, 0x0, 1, 0x0, 1, 0, 32, 0, .ro⟩,
   ⟨0x1508014, 0x0, 1, 0x0, 1, 0, 32, 0, .ro⟩,
   ⟨0x1508018, 0x0, 1, 0x0, 1, 0, 32, 0, .ro⟩,
   ⟨0x1508020, 0x0, 1, 0x0, 1, 0, 1, 1, .st⟩,
   ⟨0x1508020, 0x0, 1, 0x0, 1, 1, 1, 0, .st⟩,
   ⟨0x1508020, 0x0, 1, 0x0, 1, 4, 1, 1, .st⟩,
   ⟨0x1508020, 0x0, 1, 0x0, 1, 5, 1, 1, .st⟩,
   ⟨0x1508024, 0x0, 1, 0x0, 1, 0, 32, 0, .st⟩,
   ⟨0x1508028, 0x0, 1, 0x0, 1, 0, 32, 0, .st⟩,
   ⟨0x150802C, 0x0, 1, 0x0, 1, 0, 32, 0, .rc⟩,
   ⟨0x1508030, 0x0, 1, 0x0, 1, 0, 32, 0, .rc⟩,
   ⟨0x1508040, 0x0, 1, 0x0, 1, 0, 11, 0, .st⟩,
   ⟨0x1508040, 0x0, 1, 0x0, 1, 16, 11, 0, .st⟩,
   ⟨0x1508044, 0x0, 1, 0x0, 1, 0, 24, 1, .st⟩,
   ⟨0x1508048, 0x0, 1, 0x0, 1, 0, 10, 0, .st⟩,
   ⟨0x150804C, 0x0, 1, 0x0, 1, 0, 1, 1, .st⟩,
   ⟨0x150804C, 0x0, 1, 0x0, 1, 1, 1, 0, .st⟩,
   ⟨0x150804C, 0x0, 1, 0x0, 1, 16, 10, 0, .st⟩,
   ⟨0x150804C, 0x0, 1, 0x0, 1, 31, 1, 0, .st⟩,
   ⟨0x1508050, 0x0, 1, 0x0, 1, 0, 2, 0, .ro⟩,
   ⟨0x1508050, 0x0, 1, 0x0, 1, 8, 3, 0, .ro⟩,
   ⟨0x1508054, 0x0, 1, 0x0, 1, 0, 32, 0, .ro⟩,
   ⟨0x1508058, 0x0, 1, 0x0, 1, 0, 32, 0, .ro⟩,
   ⟨0x150805C, 0x0, 1, 0x0, 1, 0, 32, 0, .rc⟩,
   ⟨0x1508060, 0x0, 1, 0x0, 1, 0, 5, 0, .ro⟩,
   ⟨0x1500100, 0x10, 16, 0x0, 1, 0, 3, 0, .st⟩,
   ⟨0x1500100, 0x10, 16, 0x0, 1, 4, 9, 0, .st⟩,
   ⟨0x1500100, 0x10, 16, 0x0, 1, 16, 1, 0, .st⟩,
   ⟨0x1500100, 0x10, 16, 0x0, 1, 17, 1, 0, .st⟩,
   ⟨0x1500100, 0x10, 16, 0x0, 1, 20, 3, 0, .st⟩,
   ⟨0x1500100, 0x10, 16, 0x0, 1, 24, 1, 0, .st⟩] ++
  [⟨0x1500104, 0x10, 16, 0x0, 1, 0, 32, 0, .rc⟩,
   ⟨0x1500800, 0x20, 8, 0x0, 1, 0, 1, 0, .st⟩,
   ⟨0x1500800, 0x20, 8, 0x0, 1, 1, 1, 0, .st⟩,
   ⟨0x1500804, 0x20, 8, 0x0, 1, 0, 32, 4294967295, .st⟩,
   ⟨0x1500808, 0x20, 8, 0x0, 1, 0, 32, 4294967295, .st⟩,
   ⟨0x150080C, 0x20, 8, 0x0, 1, 0, 1, 0, .ro⟩,
   ⟨0x150080C, 0x20, 8, 0x0, 1, 1, 1, 0, .w1c⟩,
   ⟨0x1500810, 0x20, 8, 0x0, 1, 0, 32, 0, .rc⟩,
   ⟨0x1508080, 0x0, 1, 0x0, 1, 0, 32, 0, .ro⟩,
   ⟨0x1508084, 0x0, 1, 0x0, 1, 0, 32, 0, .ro⟩,
   ⟨0x1508088, 0x0, 1, 0x0, 1, 0, 32, 90000000, .rw⟩,
   ⟨0x150808C, 0x0, 1, 0x0, 1, 0, 2, 0, .ro⟩]

/-! ### BEL registers (Tables 11.4, 11.5, 11.6) -/

namespace Reg

/-- BEL_STAT.PEND, RO, Table 11.4. -/
abbrev BEL_STAT_PEND : Fld := ⟨32 * (0x0B00000) + 0, 1, 0⟩
/-- BEL_PWR.NIDLE, RO, Table 11.4. -/
abbrev BEL_PWR_NIDLE : Fld := ⟨32 * (0x0B00004) + 0, 7, 0⟩
/-- BEL_PWR.NPDN, RO, Table 11.4. -/
abbrev BEL_PWR_NPDN : Fld := ⟨32 * (0x0B00004) + 16, 6, 0⟩
/-- BEL_ICFG.MODE, ST, Table 11.5. -/
abbrev BEL_ICFG_MODE (i : Nat) : Fld := ⟨32 * (0x0B01000 + 0x20 * i) + 0, 2, 0⟩
/-- BEL_ICFG.K, ST, Table 11.5. -/
abbrev BEL_ICFG_K (i : Nat) : Fld := ⟨32 * (0x0B01000 + 0x20 * i) + 8, 5, 10⟩
/-- BEL_ICFG.SEN, ST, Table 11.5. -/
abbrev BEL_ICFG_SEN (i : Nat) : Fld := ⟨32 * (0x0B01000 + 0x20 * i) + 16, 1, 0⟩
/-- BEL_IBFIX.VAL, ST, Table 11.5. -/
abbrev BEL_IBFIX_VAL (i : Nat) : Fld := ⟨32 * (0x0B01004 + 0x20 * i) + 0, 14, 0⟩
/-- BEL_IPULSE.THR, ST, Table 11.5. -/
abbrev BEL_IPULSE_THR (i : Nat) : Fld := ⟨32 * (0x0B01008 + 0x20 * i) + 0, 14, 0⟩
/-- BEL_IPULSE.HOLD, ST, Table 11.5. -/
abbrev BEL_IPULSE_HOLD (i : Nat) : Fld := ⟨32 * (0x0B01008 + 0x20 * i) + 16, 8, 1⟩
/-- BEL_ISIL.THR, ST, Table 11.5. -/
abbrev BEL_ISIL_THR (i : Nat) : Fld := ⟨32 * (0x0B0100C + 0x20 * i) + 0, 14, 0⟩
/-- BEL_ISIL.NS, ST, Table 11.5. -/
abbrev BEL_ISIL_NS (i : Nat) : Fld := ⟨32 * (0x0B0100C + 0x20 * i) + 16, 16, 1024⟩
/-- BEL_ITMO.TMO, ST, Table 11.5. -/
abbrev BEL_ITMO_TMO (i : Nat) : Fld := ⟨32 * (0x0B01010 + 0x20 * i) + 0, 13, 64⟩
/-- BEL_ISTAT.BASE, RO, Table 11.5. -/
abbrev BEL_ISTAT_BASE (i : Nat) : Fld := ⟨32 * (0x0B01014 + 0x20 * i) + 0, 14, 0⟩
/-- BEL_ISTAT.PULSE, RO, Table 11.5. -/
abbrev BEL_ISTAT_PULSE (i : Nat) : Fld := ⟨32 * (0x0B01014 + 0x20 * i) + 16, 1, 0⟩
/-- BEL_ISTAT.IDLE, RO, Table 11.5. -/
abbrev BEL_ISTAT_IDLE (i : Nat) : Fld := ⟨32 * (0x0B01014 + 0x20 * i) + 17, 1, 0⟩
/-- BEL_ISTAT.BVALID, RO, Table 11.5. -/
abbrev BEL_ISTAT_BVALID (i : Nat) : Fld := ⟨32 * (0x0B01014 + 0x20 * i) + 18, 1, 0⟩
/-- BEL_ISTAT.XPEND, RO, Table 11.5. -/
abbrev BEL_ISTAT_XPEND (i : Nat) : Fld := ⟨32 * (0x0B01014 + 0x20 * i) + 19, 1, 0⟩
/-- BEL_IMISS.COUNT, RC, Table 11.5. -/
abbrev BEL_IMISS_COUNT (i : Nat) : Fld := ⟨32 * (0x0B01018 + 0x20 * i) + 0, 32, 0⟩
/-- BEL_ITMOCNT.COUNT, RC, Table 11.5. -/
abbrev BEL_ITMOCNT_COUNT (i : Nat) : Fld := ⟨32 * (0x0B0101C + 0x20 * i) + 0, 32, 0⟩
/-- BEL_BCFG.NTAP, ST, Table 11.6. -/
abbrev BEL_BCFG_NTAP (i : Nat) : Fld := ⟨32 * (0x0B04000 + 0x20 * i) + 0, 6, 1⟩
/-- BEL_BMAP.EN, ST, Table 11.6. -/
abbrev BEL_BMAP_EN (i : Nat) : Fld := ⟨32 * (0x0B04004 + 0x20 * i) + 0, 1, 0⟩
/-- BEL_BMAP.SEL, ST, Table 11.6. -/
abbrev BEL_BMAP_SEL (i : Nat) : Fld := ⟨32 * (0x0B04004 + 0x20 * i) + 1, 1, 0⟩
/-- BEL_BMAP.BSH, ST, Table 11.6. -/
abbrev BEL_BMAP_BSH (i : Nat) : Fld := ⟨32 * (0x0B04004 + 0x20 * i) + 4, 4, 0⟩
/-- BEL_BMAP.MS, ST, Table 11.6. -/
abbrev BEL_BMAP_MS (i : Nat) : Fld := ⟨32 * (0x0B04004 + 0x20 * i) + 8, 5, 0⟩
/-- BEL_BMAP.X, ST, Table 11.6. -/
abbrev BEL_BMAP_X (i : Nat) : Fld := ⟨32 * (0x0B04004 + 0x20 * i) + 16, 8, 0⟩
/-- BEL_BMAP.Y, ST, Table 11.6. -/
abbrev BEL_BMAP_Y (i : Nat) : Fld := ⟨32 * (0x0B04004 + 0x20 * i) + 24, 7, 0⟩
/-- BEL_BBYP.VAL, RO, Table 11.6. -/
abbrev BEL_BBYP_VAL (i : Nat) : Fld := ⟨32 * (0x0B04008 + 0x20 * i) + 0, 22, 0⟩
/-- BEL_BFLT.VAL, RO, Table 11.6. -/
abbrev BEL_BFLT_VAL (i : Nat) : Fld := ⟨32 * (0x0B0400C + 0x20 * i) + 0, 32, 0⟩
/-- BEL_BSTAT.PDN, RO, Table 11.6. -/
abbrev BEL_BSTAT_PDN (i : Nat) : Fld := ⟨32 * (0x0B04010 + 0x20 * i) + 0, 1, 0⟩
/-- BEL_BMISS.COUNT, RC, Table 11.6. -/
abbrev BEL_BMISS_COUNT (i : Nat) : Fld := ⟨32 * (0x0B04014 + 0x20 * i) + 0, 32, 0⟩
/-- BEL_MCFG.SRC, ST, Table 11.6. -/
abbrev BEL_MCFG_SRC (i : Nat) : Fld := ⟨32 * (0x0B06000 + 0x10 * i) + 0, 2, 0⟩
/-- BEL_MCFG.IDX, ST, Table 11.6. -/
abbrev BEL_MCFG_IDX (i : Nat) : Fld := ⟨32 * (0x0B06000 + 0x10 * i) + 8, 6, 0⟩
/-- BEL_MCFG.MSH, ST, Table 11.6. -/
abbrev BEL_MCFG_MSH (i : Nat) : Fld := ⟨32 * (0x0B06000 + 0x10 * i) + 16, 5, 0⟩

end Reg

/-- The rows of BEL's register tables. -/
def regRowsBel : List RegRow :=
  [⟨0x0B00000, 0x0, 1, 0x0, 1, 0, 1, 0, .ro⟩,
   ⟨0x0B00004, 0x0, 1, 0x0, 1, 0, 7, 0, .ro⟩,
   ⟨0x0B00004, 0x0, 1, 0x0, 1, 16, 6, 0, .ro⟩,
   ⟨0x0B01000, 0x20, 64, 0x0, 1, 0, 2, 0, .st⟩,
   ⟨0x0B01000, 0x20, 64, 0x0, 1, 8, 5, 10, .st⟩,
   ⟨0x0B01000, 0x20, 64, 0x0, 1, 16, 1, 0, .st⟩,
   ⟨0x0B01004, 0x20, 64, 0x0, 1, 0, 14, 0, .st⟩,
   ⟨0x0B01008, 0x20, 64, 0x0, 1, 0, 14, 0, .st⟩,
   ⟨0x0B01008, 0x20, 64, 0x0, 1, 16, 8, 1, .st⟩,
   ⟨0x0B0100C, 0x20, 64, 0x0, 1, 0, 14, 0, .st⟩,
   ⟨0x0B0100C, 0x20, 64, 0x0, 1, 16, 16, 1024, .st⟩,
   ⟨0x0B01010, 0x20, 64, 0x0, 1, 0, 13, 64, .st⟩,
   ⟨0x0B01014, 0x20, 64, 0x0, 1, 0, 14, 0, .ro⟩,
   ⟨0x0B01014, 0x20, 64, 0x0, 1, 16, 1, 0, .ro⟩,
   ⟨0x0B01014, 0x20, 64, 0x0, 1, 17, 1, 0, .ro⟩,
   ⟨0x0B01014, 0x20, 64, 0x0, 1, 18, 1, 0, .ro⟩,
   ⟨0x0B01014, 0x20, 64, 0x0, 1, 19, 1, 0, .ro⟩,
   ⟨0x0B01018, 0x20, 64, 0x0, 1, 0, 32, 0, .rc⟩,
   ⟨0x0B0101C, 0x20, 64, 0x0, 1, 0, 32, 0, .rc⟩,
   ⟨0x0B04000, 0x20, 32, 0x0, 1, 0, 6, 1, .st⟩,
   ⟨0x0B04004, 0x20, 32, 0x0, 1, 0, 1, 0, .st⟩,
   ⟨0x0B04004, 0x20, 32, 0x0, 1, 1, 1, 0, .st⟩,
   ⟨0x0B04004, 0x20, 32, 0x0, 1, 4, 4, 0, .st⟩,
   ⟨0x0B04004, 0x20, 32, 0x0, 1, 8, 5, 0, .st⟩,
   ⟨0x0B04004, 0x20, 32, 0x0, 1, 16, 8, 0, .st⟩,
   ⟨0x0B04004, 0x20, 32, 0x0, 1, 24, 7, 0, .st⟩,
   ⟨0x0B04008, 0x20, 32, 0x0, 1, 0, 22, 0, .ro⟩,
   ⟨0x0B0400C, 0x20, 32, 0x0, 1, 0, 32, 0, .ro⟩,
   ⟨0x0B04010, 0x20, 32, 0x0, 1, 0, 1, 0, .ro⟩,
   ⟨0x0B04014, 0x20, 32, 0x0, 1, 0, 32, 0, .rc⟩,
   ⟨0x0B06000, 0x10, 8, 0x0, 1, 0, 2, 0, .st⟩,
   ⟨0x0B06000, 0x10, 8, 0x0, 1, 8, 6, 0, .st⟩,
   ⟨0x0B06000, 0x10, 8, 0x0, 1, 16, 5, 0, .st⟩]

/-! ### SPR registers (Tables 14.8) -/

namespace Reg

/-- SPR_CTL.I, ST, Table 14.8. -/
abbrev SPR_CTL_I : Fld := ⟨32 * (0x0C00000) + 0, 6, 1⟩
/-- SPR_RUN.MASK, RO, Table 14.8. -/
abbrev SPR_RUN_MASK : Fld := ⟨32 * (0x0C00004) + 0, 32, 0⟩
/-- SPR_HALT.MASK, RO, Table 14.8. -/
abbrev SPR_HALT_MASK : Fld := ⟨32 * (0x0C00008) + 0, 32, 0⟩
/-- SPR_OVRSEEN.MASK, W1C, Table 14.8. -/
abbrev SPR_OVRSEEN_MASK : Fld := ⟨32 * (0x0C0000C) + 0, 32, 0⟩
/-- SPR_CENTRY.PC, ST, Table 14.8. -/
abbrev SPR_CENTRY_PC (i : Nat) : Fld := ⟨32 * (0x0C00100 + 0x20 * i) + 2, 14, 0⟩
/-- SPR_CSTAT.STATE, RO, Table 14.8. -/
abbrev SPR_CSTAT_STATE (i : Nat) : Fld := ⟨32 * (0x0C00104 + 0x20 * i) + 0, 2, 0⟩
/-- SPR_COVR.COUNT, RC, Table 14.8. -/
abbrev SPR_COVR_COUNT (i : Nat) : Fld := ⟨32 * (0x0C00108 + 0x20 * i) + 0, 32, 0⟩
/-- SPR_CSKIP.COUNT, RC, Table 14.8. -/
abbrev SPR_CSKIP_COUNT (i : Nat) : Fld := ⟨32 * (0x0C0010C + 0x20 * i) + 0, 32, 0⟩
/-- SPR_CMAXC.CYC, RC, Table 14.8. -/
abbrev SPR_CMAXC_CYC (i : Nat) : Fld := ⟨32 * (0x0C00110 + 0x20 * i) + 0, 16, 0⟩
/-- SPR_CRES.RES, RO, Table 14.8. -/
abbrev SPR_CRES_RES (i : Nat) : Fld := ⟨32 * (0x0C00114 + 0x20 * i) + 0, 32, 0⟩
/-- SPR_CECC.COUNT, RC, Table 14.8. -/
abbrev SPR_CECC_COUNT (i : Nat) : Fld := ⟨32 * (0x0C00118 + 0x20 * i) + 0, 32, 0⟩

end Reg

/-- The rows of SPR's register tables. -/
def regRowsSpr : List RegRow :=
  [⟨0x0C00000, 0x0, 1, 0x0, 1, 0, 6, 1, .st⟩,
   ⟨0x0C00004, 0x0, 1, 0x0, 1, 0, 32, 0, .ro⟩,
   ⟨0x0C00008, 0x0, 1, 0x0, 1, 0, 32, 0, .ro⟩,
   ⟨0x0C0000C, 0x0, 1, 0x0, 1, 0, 32, 0, .w1c⟩,
   ⟨0x0C00100, 0x20, 34, 0x0, 1, 2, 14, 0, .st⟩,
   ⟨0x0C00104, 0x20, 34, 0x0, 1, 0, 2, 0, .ro⟩,
   ⟨0x0C00108, 0x20, 34, 0x0, 1, 0, 32, 0, .rc⟩,
   ⟨0x0C0010C, 0x20, 34, 0x0, 1, 0, 32, 0, .rc⟩,
   ⟨0x0C00110, 0x20, 34, 0x0, 1, 0, 16, 0, .rc⟩,
   ⟨0x0C00114, 0x20, 34, 0x0, 1, 0, 32, 0, .ro⟩,
   ⟨0x0C00118, 0x20, 34, 0x0, 1, 0, 32, 0, .rc⟩]

/-! ### ULA registers (Tables 14.9) -/

namespace Reg

/-- ULA_STAT.LOADED, RO, Table 14.9. -/
abbrev ULA_STAT_LOADED : Fld := ⟨32 * (0x0D00000) + 0, 1, 0⟩
/-- ULA_STAT.CONFIG, RO, Table 14.9. -/
abbrev ULA_STAT_CONFIG : Fld := ⟨32 * (0x0D00000) + 1, 1, 0⟩
/-- ULA_PDIST.DIST, RO, Table 14.9. -/
abbrev ULA_PDIST_DIST : Fld := ⟨32 * (0x0D00004) + 0, 32, 0⟩
/-- ULA_PMAP.CP4, ST, Table 14.9. -/
abbrev ULA_PMAP_CP4 : Fld := ⟨32 * (0x0D00008) + 0, 6, 63⟩
/-- ULA_PMAP.CP5, ST, Table 14.9. -/
abbrev ULA_PMAP_CP5 : Fld := ⟨32 * (0x0D00008) + 8, 6, 63⟩
/-- ULA_PMAP.CP6, ST, Table 14.9. -/
abbrev ULA_PMAP_CP6 : Fld := ⟨32 * (0x0D00008) + 16, 6, 63⟩
/-- ULA_PMAP.CP7, ST, Table 14.9. -/
abbrev ULA_PMAP_CP7 : Fld := ⟨32 * (0x0D00008) + 24, 6, 63⟩
/-- ULA_MUSED0–3.MASK, RO, Table 14.9. -/
abbrev ULA_MUSED_MASK (i : Nat) : Fld := ⟨32 * (0x0D00010 + 0x4 * i) + 0, 32, 0⟩
/-- ULA_EUSED0–1.MASK, RO, Table 14.9. -/
abbrev ULA_EUSED_MASK (i : Nat) : Fld := ⟨32 * (0x0D00020 + 0x4 * i) + 0, 32, 0⟩

end Reg

/-- The rows of ULA's register tables. -/
def regRowsUla : List RegRow :=
  [⟨0x0D00000, 0x0, 1, 0x0, 1, 0, 1, 0, .ro⟩,
   ⟨0x0D00000, 0x0, 1, 0x0, 1, 1, 1, 0, .ro⟩,
   ⟨0x0D00004, 0x0, 1, 0x0, 1, 0, 32, 0, .ro⟩,
   ⟨0x0D00008, 0x0, 1, 0x0, 1, 0, 6, 63, .st⟩,
   ⟨0x0D00008, 0x0, 1, 0x0, 1, 8, 6, 63, .st⟩,
   ⟨0x0D00008, 0x0, 1, 0x0, 1, 16, 6, 63, .st⟩,
   ⟨0x0D00008, 0x0, 1, 0x0, 1, 24, 6, 63, .st⟩,
   ⟨0x0D00010, 0x4, 4, 0x0, 1, 0, 32, 0, .ro⟩,
   ⟨0x0D00020, 0x4, 2, 0x0, 1, 0, 32, 0, .ro⟩]

/-! ### EVT registers (Tables 15.8) -/

namespace Reg

/-- EVT_GUARD.COUNT, RW, Table 15.8. -/
abbrev EVT_GUARD_COUNT : Fld := ⟨32 * (0x0E00000) + 0, 16, 1000⟩
/-- EVT_GWIN.NS, RW, Table 15.8. -/
abbrev EVT_GWIN_NS : Fld := ⟨32 * (0x0E00004) + 0, 16, 1000⟩
/-- EVT_MERGE.COUNT, RC, Table 15.8. -/
abbrev EVT_MERGE_COUNT : Fld := ⟨32 * (0x0E00008) + 0, 32, 0⟩
/-- EVT_BUSY.COUNT, RC, Table 15.8. -/
abbrev EVT_BUSY_COUNT : Fld := ⟨32 * (0x0E0000C) + 0, 32, 0⟩
/-- EVT_LAST.MERGE, RO, Table 15.8. -/
abbrev EVT_LAST_MERGE : Fld := ⟨32 * (0x0E00010) + 0, 12, 0⟩
/-- EVT_LAST.BUSY, RO, Table 15.8. -/
abbrev EVT_LAST_BUSY : Fld := ⟨32 * (0x0E00010) + 16, 12, 0⟩
/-- EVT_LOOP.CH, RO, Table 15.8. -/
abbrev EVT_LOOP_CH : Fld := ⟨32 * (0x0E00014) + 0, 10, 0⟩
/-- EVT_LOOP.FLAG, W1C, Table 15.8. -/
abbrev EVT_LOOP_FLAG : Fld := ⟨32 * (0x0E00014) + 31, 1, 0⟩
/-- EVT_LOOPCNT.COUNT, RC, Table 15.8. -/
abbrev EVT_LOOPCNT_COUNT : Fld := ⟨32 * (0x0E00018) + 0, 32, 0⟩
/-- EVT_SWPUB.P, WO, Table 15.8. -/
abbrev EVT_SWPUB_P : Fld := ⟨32 * (0x0E0001C) + 0, 7, 0⟩
/-- EVT_SPUB.CH, RW, Table 15.8. -/
abbrev EVT_SPUB_CH (i : Nat) : Fld := ⟨32 * (0x0E10000 + 0x10 * i) + 0, 10, 0⟩
/-- EVT_SPUB.EN, RW, Table 15.8. -/
abbrev EVT_SPUB_EN (i : Nat) : Fld := ⟨32 * (0x0E10000 + 0x10 * i) + 15, 1, 0⟩
/-- EVT_SNOTE.RING, RW, Table 15.8. -/
abbrev EVT_SNOTE_RING (i : Nat) : Fld := ⟨32 * (0x0E10004 + 0x10 * i) + 0, 18, 0⟩
/-- EVT_SNOTE.EN, RW, Table 15.8. -/
abbrev EVT_SNOTE_EN (i : Nat) : Fld := ⟨32 * (0x0E10004 + 0x10 * i) + 31, 1, 0⟩
/-- EVT_SCNT.COUNT, RC, Table 15.8. -/
abbrev EVT_SCNT_COUNT (i : Nat) : Fld := ⟨32 * (0x0E10008 + 0x10 * i) + 0, 32, 0⟩
/-- EVT_SOWN.CTX, RO, Table 15.8. -/
abbrev EVT_SOWN_CTX (i : Nat) : Fld := ⟨32 * (0x0E1000C + 0x10 * i) + 0, 10, 0⟩
/-- EVT_SOWN.SEC, RO (reset: dash), Table 15.8. -/
abbrev EVT_SOWN_SEC (i : Nat) : Fld := ⟨32 * (0x0E1000C + 0x10 * i) + 16, 1, 0⟩
/-- EVT_CSUB.CH, RW, Table 15.8. -/
abbrev EVT_CSUB_CH (i : Nat) : Fld := ⟨32 * (0x0E20000 + 0x10 * i) + 0, 10, 0⟩
/-- EVT_CSUB.EN, RW, Table 15.8. -/
abbrev EVT_CSUB_EN (i : Nat) : Fld := ⟨32 * (0x0E20000 + 0x10 * i) + 15, 1, 0⟩
/-- EVT_CGATE.KIND, RW, Table 15.8. -/
abbrev EVT_CGATE_KIND (i : Nat) : Fld := ⟨32 * (0x0E20004 + 0x10 * i) + 0, 2, 0⟩
/-- EVT_CGATE.SEL, RW, Table 15.8. -/
abbrev EVT_CGATE_SEL (i : Nat) : Fld := ⟨32 * (0x0E20004 + 0x10 * i) + 4, 10, 0⟩
/-- EVT_CGATE.INV, RW, Table 15.8. -/
abbrev EVT_CGATE_INV (i : Nat) : Fld := ⟨32 * (0x0E20004 + 0x10 * i) + 15, 1, 0⟩
/-- EVT_CACT.COUNT, RC, Table 15.8. -/
abbrev EVT_CACT_COUNT (i : Nat) : Fld := ⟨32 * (0x0E20008 + 0x10 * i) + 0, 32, 0⟩
/-- EVT_CSTAT.BUSY, RO, Table 15.8. -/
abbrev EVT_CSTAT_BUSY (i : Nat) : Fld := ⟨32 * (0x0E2000C + 0x10 * i) + 0, 1, 0⟩
/-- EVT_CSTAT.OPEN, RO, Table 15.8. -/
abbrev EVT_CSTAT_OPEN (i : Nat) : Fld := ⟨32 * (0x0E2000C + 0x10 * i) + 1, 1, 0⟩
/-- EVT_KOWN.CTX, RO, Table 15.8. -/
abbrev EVT_KOWN_CTX (i : Nat) : Fld := ⟨32 * (0x0E30000 + 0x10 * i) + 0, 10, 0⟩
/-- EVT_KOWN.SEC, RO, Table 15.8. -/
abbrev EVT_KOWN_SEC (i : Nat) : Fld := ⟨32 * (0x0E30000 + 0x10 * i) + 16, 1, 0⟩
/-- EVT_KFIRE.COUNT, RC, Table 15.8. -/
abbrev EVT_KFIRE_COUNT (i : Nat) : Fld := ⟨32 * (0x0E30004 + 0x10 * i) + 0, 32, 0⟩
/-- EVT_KREQ.COUNT, RC, Table 15.8. -/
abbrev EVT_KREQ_COUNT (i : Nat) : Fld := ⟨32 * (0x0E30008 + 0x10 * i) + 0, 32, 0⟩
/-- EVT_KSTAT.STOP, W1C, Table 15.8. -/
abbrev EVT_KSTAT_STOP (i : Nat) : Fld := ⟨32 * (0x0E3000C + 0x10 * i) + 0, 1, 0⟩

end Reg

/-- The rows of EVT's register tables. -/
def regRowsEvt : List RegRow :=
  [⟨0x0E00000, 0x0, 1, 0x0, 1, 0, 16, 1000, .rw⟩,
   ⟨0x0E00004, 0x0, 1, 0x0, 1, 0, 16, 1000, .rw⟩,
   ⟨0x0E00008, 0x0, 1, 0x0, 1, 0, 32, 0, .rc⟩,
   ⟨0x0E0000C, 0x0, 1, 0x0, 1, 0, 32, 0, .rc⟩,
   ⟨0x0E00010, 0x0, 1, 0x0, 1, 0, 12, 0, .ro⟩,
   ⟨0x0E00010, 0x0, 1, 0x0, 1, 16, 12, 0, .ro⟩,
   ⟨0x0E00014, 0x0, 1, 0x0, 1, 0, 10, 0, .ro⟩,
   ⟨0x0E00014, 0x0, 1, 0x0, 1, 31, 1, 0, .w1c⟩,
   ⟨0x0E00018, 0x0, 1, 0x0, 1, 0, 32, 0, .rc⟩,
   ⟨0x0E0001C, 0x0, 1, 0x0, 1, 0, 7, 0, .wo⟩,
   ⟨0x0E10000, 0x10, 4096, 0x0, 1, 0, 10, 0, .rw⟩,
   ⟨0x0E10000, 0x10, 4096, 0x0, 1, 15, 1, 0, .rw⟩,
   ⟨0x0E10004, 0x10, 4096, 0x0, 1, 0, 18, 0, .rw⟩,
   ⟨0x0E10004, 0x10, 4096, 0x0, 1, 31, 1, 0, .rw⟩,
   ⟨0x0E10008, 0x10, 4096, 0x0, 1, 0, 32, 0, .rc⟩,
   ⟨0x0E1000C, 0x10, 4096, 0x0, 1, 0, 10, 0, .ro⟩,
   ⟨0x0E1000C, 0x10, 4096, 0x0, 1, 16, 1, 0, .ro⟩,
   ⟨0x0E20000, 0x10, 4096, 0x0, 1, 0, 10, 0, .rw⟩,
   ⟨0x0E20000, 0x10, 4096, 0x0, 1, 15, 1, 0, .rw⟩,
   ⟨0x0E20004, 0x10, 4096, 0x0, 1, 0, 2, 0, .rw⟩,
   ⟨0x0E20004, 0x10, 4096, 0x0, 1, 4, 10, 0, .rw⟩,
   ⟨0x0E20004, 0x10, 4096, 0x0, 1, 15, 1, 0, .rw⟩,
   ⟨0x0E20008, 0x10, 4096, 0x0, 1, 0, 32, 0, .rc⟩,
   ⟨0x0E2000C, 0x10, 4096, 0x0, 1, 0, 1, 0, .ro⟩,
   ⟨0x0E2000C, 0x10, 4096, 0x0, 1, 1, 1, 0, .ro⟩,
   ⟨0x0E30000, 0x10, 1024, 0x0, 1, 0, 10, 0, .ro⟩,
   ⟨0x0E30000, 0x10, 1024, 0x0, 1, 16, 1, 0, .ro⟩,
   ⟨0x0E30004, 0x10, 1024, 0x0, 1, 0, 32, 0, .rc⟩,
   ⟨0x0E30008, 0x10, 1024, 0x0, 1, 0, 32, 0, .rc⟩,
   ⟨0x0E3000C, 0x10, 1024, 0x0, 1, 0, 1, 0, .w1c⟩]

/-! ### IRQ registers (Tables 15.9) -/

namespace Reg

/-- IRQ_MERGE.COUNT, RC, Table 15.9. -/
abbrev IRQ_MERGE_COUNT : Fld := ⟨32 * (0x0E80000) + 0, 32, 0⟩
/-- IRQ_WITHDRAW.COUNT, RC, Table 15.9. -/
abbrev IRQ_WITHDRAW_COUNT : Fld := ⟨32 * (0x0E80004) + 0, 32, 0⟩
/-- IRQ_REDIR.COUNT, RC, Table 15.9. -/
abbrev IRQ_REDIR_COUNT : Fld := ⟨32 * (0x0E80008) + 0, 32, 0⟩
/-- IRQ_LASTREDIR.SRC, RO, Table 15.9. -/
abbrev IRQ_LASTREDIR_SRC : Fld := ⟨32 * (0x0E8000C) + 0, 12, 0⟩
/-- IRQ_LASTREDIR.CORE, RO, Table 15.9. -/
abbrev IRQ_LASTREDIR_CORE : Fld := ⟨32 * (0x0E8000C) + 16, 6, 0⟩
/-- IRQ_TMASK.N, RW, Table 15.9. -/
abbrev IRQ_TMASK_N (i : Nat) : Fld := ⟨32 * (0x0E80100 + 0x20 * i) + 0, 1, 0⟩
/-- IRQ_TMASK.F, RW, Table 15.9. -/
abbrev IRQ_TMASK_F (i : Nat) : Fld := ⟨32 * (0x0E80100 + 0x20 * i) + 1, 1, 0⟩
/-- IRQ_TPRES.NSRC, RO, Table 15.9. -/
abbrev IRQ_TPRES_NSRC (i : Nat) : Fld := ⟨32 * (0x0E80104 + 0x20 * i) + 0, 12, 0⟩
/-- IRQ_TPRES.NVALID, RO, Table 15.9. -/
abbrev IRQ_TPRES_NVALID (i : Nat) : Fld := ⟨32 * (0x0E80104 + 0x20 * i) + 15, 1, 0⟩
/-- IRQ_TPRES.FSRC, RO, Table 15.9. -/
abbrev IRQ_TPRES_FSRC (i : Nat) : Fld := ⟨32 * (0x0E80104 + 0x20 * i) + 16, 12, 0⟩
/-- IRQ_TPRES.FVALID, RO, Table 15.9. -/
abbrev IRQ_TPRES_FVALID (i : Nat) : Fld := ⟨32 * (0x0E80104 + 0x20 * i) + 31, 1, 0⟩
/-- IRQ_TWAKE.COUNT, RC, Table 15.9. -/
abbrev IRQ_TWAKE_COUNT (i : Nat) : Fld := ⟨32 * (0x0E80108 + 0x20 * i) + 0, 32, 0⟩
/-- IRQ_SCFG.EN, RW, Table 15.9. -/
abbrev IRQ_SCFG_EN (i : Nat) : Fld := ⟨32 * (0x0E90000 + 0x10 * i) + 0, 1, 0⟩
/-- IRQ_SCFG.FAST, RW, Table 15.9. -/
abbrev IRQ_SCFG_FAST (i : Nat) : Fld := ⟨32 * (0x0E90000 + 0x10 * i) + 1, 1, 0⟩
/-- IRQ_SCFG.PRIO, RW, Table 15.9. -/
abbrev IRQ_SCFG_PRIO (i : Nat) : Fld := ⟨32 * (0x0E90000 + 0x10 * i) + 4, 3, 0⟩
/-- IRQ_SCFG.HOST, RW, Table 15.9. -/
abbrev IRQ_SCFG_HOST (i : Nat) : Fld := ⟨32 * (0x0E90000 + 0x10 * i) + 8, 1, 0⟩
/-- IRQ_SCFG.TGT, RW, Table 15.9. -/
abbrev IRQ_SCFG_TGT (i : Nat) : Fld := ⟨32 * (0x0E90000 + 0x10 * i) + 16, 11, 0⟩
/-- IRQ_SFILT.N, RW, Table 15.9. -/
abbrev IRQ_SFILT_N (i : Nat) : Fld := ⟨32 * (0x0E90004 + 0x10 * i) + 0, 8, 0⟩
/-- IRQ_SFILT.LEVEL, RO (reset: dash), Table 15.9. -/
abbrev IRQ_SFILT_LEVEL (i : Nat) : Fld := ⟨32 * (0x0E90004 + 0x10 * i) + 8, 1, 0⟩
/-- IRQ_SSTAT.PEND, W1C, Table 15.9. -/
abbrev IRQ_SSTAT_PEND (i : Nat) : Fld := ⟨32 * (0x0E90008 + 0x10 * i) + 0, 1, 0⟩
/-- IRQ_SSTAT.PRES, RO, Table 15.9. -/
abbrev IRQ_SSTAT_PRES (i : Nat) : Fld := ⟨32 * (0x0E90008 + 0x10 * i) + 1, 1, 0⟩
/-- IRQ_SCNT.COUNT, RC, Table 15.9. -/
abbrev IRQ_SCNT_COUNT (i : Nat) : Fld := ⟨32 * (0x0E9000C + 0x10 * i) + 0, 32, 0⟩

end Reg

/-- The rows of IRQ's register tables. -/
def regRowsIrq : List RegRow :=
  [⟨0x0E80000, 0x0, 1, 0x0, 1, 0, 32, 0, .rc⟩,
   ⟨0x0E80004, 0x0, 1, 0x0, 1, 0, 32, 0, .rc⟩,
   ⟨0x0E80008, 0x0, 1, 0x0, 1, 0, 32, 0, .rc⟩,
   ⟨0x0E8000C, 0x0, 1, 0x0, 1, 0, 12, 0, .ro⟩,
   ⟨0x0E8000C, 0x0, 1, 0x0, 1, 16, 6, 0, .ro⟩,
   ⟨0x0E80100, 0x20, 34, 0x0, 1, 0, 1, 0, .rw⟩,
   ⟨0x0E80100, 0x20, 34, 0x0, 1, 1, 1, 0, .rw⟩,
   ⟨0x0E80104, 0x20, 34, 0x0, 1, 0, 12, 0, .ro⟩,
   ⟨0x0E80104, 0x20, 34, 0x0, 1, 15, 1, 0, .ro⟩,
   ⟨0x0E80104, 0x20, 34, 0x0, 1, 16, 12, 0, .ro⟩,
   ⟨0x0E80104, 0x20, 34, 0x0, 1, 31, 1, 0, .ro⟩,
   ⟨0x0E80108, 0x20, 34, 0x0, 1, 0, 32, 0, .rc⟩,
   ⟨0x0E90000, 0x10, 4096, 0x0, 1, 0, 1, 0, .rw⟩,
   ⟨0x0E90000, 0x10, 4096, 0x0, 1, 1, 1, 0, .rw⟩,
   ⟨0x0E90000, 0x10, 4096, 0x0, 1, 4, 3, 0, .rw⟩,
   ⟨0x0E90000, 0x10, 4096, 0x0, 1, 8, 1, 0, .rw⟩,
   ⟨0x0E90000, 0x10, 4096, 0x0, 1, 16, 11, 0, .rw⟩,
   ⟨0x0E90004, 0x10, 4096, 0x0, 1, 0, 8, 0, .rw⟩,
   ⟨0x0E90004, 0x10, 4096, 0x0, 1, 8, 1, 0, .ro⟩,
   ⟨0x0E90008, 0x10, 4096, 0x0, 1, 0, 1, 0, .w1c⟩,
   ⟨0x0E90008, 0x10, 4096, 0x0, 1, 1, 1, 0, .ro⟩,
   ⟨0x0E9000C, 0x10, 4096, 0x0, 1, 0, 32, 0, .rc⟩]

/-! ### CNT registers (Tables 16.4) -/

namespace Reg

/-- CNT_SNAP.REQ, WO, Table 16.4. -/
abbrev CNT_SNAP_REQ : Fld := ⟨32 * (0x0F00000) + 0, 1, 0⟩
/-- CNT_SNAPSEQ.SEQ, RO, Table 16.4. -/
abbrev CNT_SNAPSEQ_SEQ : Fld := ⟨32 * (0x0F00004) + 0, 32, 0⟩
/-- CNT_SNAPST_LO.STAMP, RO, Table 16.4. -/
abbrev CNT_SNAPST_LO_STAMP : Fld := ⟨32 * (0x0F00008) + 0, 32, 0⟩
/-- CNT_SNAPST_HI.STAMP, RO, Table 16.4. -/
abbrev CNT_SNAPST_HI_STAMP : Fld := ⟨32 * (0x0F0000C) + 0, 32, 0⟩
/-- CNT_CFG.SRC, RW, Table 16.4. -/
abbrev CNT_CFG_SRC (i : Nat) : Fld := ⟨32 * (0x0F01000 + 0x20 * i) + 0, 3, 0⟩
/-- CNT_CFG.EVM, RW, Table 16.4. -/
abbrev CNT_CFG_EVM (i : Nat) : Fld := ⟨32 * (0x0F01000 + 0x20 * i) + 8, 1, 0⟩
/-- CNT_CFG.EVO, RW, Table 16.4. -/
abbrev CNT_CFG_EVO (i : Nat) : Fld := ⟨32 * (0x0F01000 + 0x20 * i) + 9, 1, 0⟩
/-- CNT_VAL.COUNT, RO, Table 16.4. -/
abbrev CNT_VAL_COUNT (i : Nat) : Fld := ⟨32 * (0x0F01004 + 0x20 * i) + 0, 32, 0⟩
/-- CNT_LOAD.VAL, WO, Table 16.4. -/
abbrev CNT_LOAD_VAL (i : Nat) : Fld := ⟨32 * (0x0F01008 + 0x20 * i) + 0, 32, 0⟩
/-- CNT_CMP.VAL, RW, Table 16.4. -/
abbrev CNT_CMP_VAL (i : Nat) : Fld := ⟨32 * (0x0F0100C + 0x20 * i) + 0, 32, 0⟩
/-- CNT_STAT.MATCH, W1C, Table 16.4. -/
abbrev CNT_STAT_MATCH (i : Nat) : Fld := ⟨32 * (0x0F01010 + 0x20 * i) + 0, 1, 0⟩
/-- CNT_STAT.OVF, W1C, Table 16.4. -/
abbrev CNT_STAT_OVF (i : Nat) : Fld := ⟨32 * (0x0F01010 + 0x20 * i) + 1, 1, 0⟩
/-- CNT_SNAPV.COUNT, RO, Table 16.4. -/
abbrev CNT_SNAPV_COUNT (i : Nat) : Fld := ⟨32 * (0x0F01014 + 0x20 * i) + 0, 32, 0⟩
/-- CNT_CHAIN.HEAD, RO, Table 16.4. -/
abbrev CNT_CHAIN_HEAD (i : Nat) : Fld := ⟨32 * (0x0F01018 + 0x20 * i) + 0, 6, 0⟩

end Reg

/-- The rows of CNT's register tables. -/
def regRowsCnt : List RegRow :=
  [⟨0x0F00000, 0x0, 1, 0x0, 1, 0, 1, 0, .wo⟩,
   ⟨0x0F00004, 0x0, 1, 0x0, 1, 0, 32, 0, .ro⟩,
   ⟨0x0F00008, 0x0, 1, 0x0, 1, 0, 32, 0, .ro⟩,
   ⟨0x0F0000C, 0x0, 1, 0x0, 1, 0, 32, 0, .ro⟩,
   ⟨0x0F01000, 0x20, 64, 0x0, 1, 0, 3, 0, .rw⟩,
   ⟨0x0F01000, 0x20, 64, 0x0, 1, 8, 1, 0, .rw⟩,
   ⟨0x0F01000, 0x20, 64, 0x0, 1, 9, 1, 0, .rw⟩,
   ⟨0x0F01004, 0x20, 64, 0x0, 1, 0, 32, 0, .ro⟩,
   ⟨0x0F01008, 0x20, 64, 0x0, 1, 0, 32, 0, .wo⟩,
   ⟨0x0F0100C, 0x20, 64, 0x0, 1, 0, 32, 0, .rw⟩,
   ⟨0x0F01010, 0x20, 64, 0x0, 1, 0, 1, 0, .w1c⟩,
   ⟨0x0F01010, 0x20, 64, 0x0, 1, 1, 1, 0, .w1c⟩,
   ⟨0x0F01014, 0x20, 64, 0x0, 1, 0, 32, 0, .ro⟩,
   ⟨0x0F01018, 0x20, 64, 0x0, 1, 0, 6, 0, .ro⟩]

/-! ### MEM registers (Tables 17.6) -/

namespace Reg

/-- MEM_CECC.COUNT, RC, Table 17.6. -/
abbrev MEM_CECC_COUNT : Fld := ⟨32 * (0x1000000) + 0, 32, 0⟩
/-- MEM_UECC.COUNT, RC, Table 17.6. -/
abbrev MEM_UECC_COUNT : Fld := ⟨32 * (0x1000004) + 0, 32, 0⟩
/-- MEM_UADDR.ADDR, RO, Table 17.6. -/
abbrev MEM_UADDR_ADDR : Fld := ⟨32 * (0x1000008) + 0, 27, 0⟩
/-- MEM_WWCOL.COUNT, RC, Table 17.6. -/
abbrev MEM_WWCOL_COUNT : Fld := ⟨32 * (0x100000C) + 0, 32, 0⟩
/-- MEM_WWADDR.ADDR, RO, Table 17.6. -/
abbrev MEM_WWADDR_ADDR : Fld := ⟨32 * (0x1000010) + 0, 27, 0⟩
/-- MEM_SCRUB.PERIOD, RW, Table 17.6. -/
abbrev MEM_SCRUB_PERIOD : Fld := ⟨32 * (0x1000014) + 0, 16, 60⟩
/-- MEM_SCRUB.EN, RW, Table 17.6. -/
abbrev MEM_SCRUB_EN : Fld := ⟨32 * (0x1000014) + 31, 1, 1⟩
/-- MEM_CAPCFG.LOGSZ, ST, Table 17.6. -/
abbrev MEM_CAPCFG_LOGSZ : Fld := ⟨32 * (0x1000018) + 0, 7, 120⟩
/-- MEM_LCECC.COUNT, RC, Table 17.6. -/
abbrev MEM_LCECC_COUNT : Fld := ⟨32 * (0x100001C) + 0, 32, 0⟩
/-- MEM_LUECC.COUNT, RC, Table 17.6. -/
abbrev MEM_LUECC_COUNT : Fld := ⟨32 * (0x1000020) + 0, 32, 0⟩
/-- MEM_FZSTAT.HELD, RO, Table 17.6. -/
abbrev MEM_FZSTAT_HELD : Fld := ⟨32 * (0x1000024) + 0, 8, 0⟩
/-- MEM_FZSTAT.FAULT, RO, Table 17.6. -/
abbrev MEM_FZSTAT_FAULT : Fld := ⟨32 * (0x1000024) + 8, 8, 0⟩
/-- MEM_FZDROP.COUNT, RC, Table 17.6. -/
abbrev MEM_FZDROP_COUNT : Fld := ⟨32 * (0x1000028) + 0, 32, 0⟩
/-- MEM_CAPHEAD_LO.ADDR, RO, Table 17.6. -/
abbrev MEM_CAPHEAD_LO_ADDR : Fld := ⟨32 * (0x100002C) + 0, 32, 0⟩
/-- MEM_CAPHEAD_HI.ADDR, RO, Table 17.6. -/
abbrev MEM_CAPHEAD_HI_ADDR : Fld := ⟨32 * (0x1000030) + 0, 8, 0⟩
/-- MEM_CSNUM.COUNT, RO, Table 17.6. -/
abbrev MEM_CSNUM_COUNT : Fld := ⟨32 * (0x1000034) + 0, 3, 0⟩
/-- MEM_CSTALL.COUNT, RC, Table 17.6. -/
abbrev MEM_CSTALL_COUNT : Fld := ⟨32 * (0x1000038) + 0, 32, 0⟩
/-- MEM_JUSED.BYTES, RO (reset: dash), Table 17.6. -/
abbrev MEM_JUSED_BYTES : Fld := ⟨32 * (0x1000040) + 0, 27, 0⟩
/-- MEM_JWEAR.MAX, RO (reset: dash), Table 17.6. -/
abbrev MEM_JWEAR_MAX : Fld := ⟨32 * (0x1000044) + 0, 32, 0⟩
/-- MEM_JSTAT.COMPACT, RO, Table 17.6. -/
abbrev MEM_JSTAT_COMPACT : Fld := ⟨32 * (0x1000048) + 0, 1, 0⟩
/-- MEM_JSTAT.RECOVER, W1C, Table 17.6. -/
abbrev MEM_JSTAT_RECOVER : Fld := ⟨32 * (0x1000048) + 1, 1, 0⟩
/-- MEM_BANK.SPARE, RO (reset: dash), Table 17.6. -/
abbrev MEM_BANK_SPARE (i : Nat) : Fld := ⟨32 * (0x1001000 + 0x4 * i) + 0, 3, 4⟩
/-- MEM_BANK.BISTF, RO, Table 17.6. -/
abbrev MEM_BANK_BISTF (i : Nat) : Fld := ⟨32 * (0x1001000 + 0x4 * i) + 3, 1, 0⟩
/-- MEM_BANK.FCOL, RO, Table 17.6. -/
abbrev MEM_BANK_FCOL (i : Nat) : Fld := ⟨32 * (0x1001000 + 0x4 * i) + 8, 9, 0⟩
/-- MEM_BANK.BISTV, RO, Table 17.6. -/
abbrev MEM_BANK_BISTV (i : Nat) : Fld := ⟨32 * (0x1001000 + 0x4 * i) + 17, 1, 0⟩
/-- MEM_BANK.REP, RO (reset: dash), Table 17.6. -/
abbrev MEM_BANK_REP (i : Nat) : Fld := ⟨32 * (0x1001000 + 0x4 * i) + 20, 3, 0⟩

end Reg

/-- The rows of MEM's register tables. -/
def regRowsMem : List RegRow :=
  [⟨0x1000000, 0x0, 1, 0x0, 1, 0, 32, 0, .rc⟩,
   ⟨0x1000004, 0x0, 1, 0x0, 1, 0, 32, 0, .rc⟩,
   ⟨0x1000008, 0x0, 1, 0x0, 1, 0, 27, 0, .ro⟩,
   ⟨0x100000C, 0x0, 1, 0x0, 1, 0, 32, 0, .rc⟩,
   ⟨0x1000010, 0x0, 1, 0x0, 1, 0, 27, 0, .ro⟩,
   ⟨0x1000014, 0x0, 1, 0x0, 1, 0, 16, 60, .rw⟩,
   ⟨0x1000014, 0x0, 1, 0x0, 1, 31, 1, 1, .rw⟩,
   ⟨0x1000018, 0x0, 1, 0x0, 1, 0, 7, 120, .st⟩,
   ⟨0x100001C, 0x0, 1, 0x0, 1, 0, 32, 0, .rc⟩,
   ⟨0x1000020, 0x0, 1, 0x0, 1, 0, 32, 0, .rc⟩,
   ⟨0x1000024, 0x0, 1, 0x0, 1, 0, 8, 0, .ro⟩,
   ⟨0x1000024, 0x0, 1, 0x0, 1, 8, 8, 0, .ro⟩,
   ⟨0x1000028, 0x0, 1, 0x0, 1, 0, 32, 0, .rc⟩,
   ⟨0x100002C, 0x0, 1, 0x0, 1, 0, 32, 0, .ro⟩,
   ⟨0x1000030, 0x0, 1, 0x0, 1, 0, 8, 0, .ro⟩,
   ⟨0x1000034, 0x0, 1, 0x0, 1, 0, 3, 0, .ro⟩,
   ⟨0x1000038, 0x0, 1, 0x0, 1, 0, 32, 0, .rc⟩,
   ⟨0x1000040, 0x0, 1, 0x0, 1, 0, 27, 0, .ro⟩,
   ⟨0x1000044, 0x0, 1, 0x0, 1, 0, 32, 0, .ro⟩,
   ⟨0x1000048, 0x0, 1, 0x0, 1, 0, 1, 0, .ro⟩,
   ⟨0x1000048, 0x0, 1, 0x0, 1, 1, 1, 0, .w1c⟩,
   ⟨0x1001000, 0x4, 384, 0x0, 1, 0, 3, 4, .ro⟩,
   ⟨0x1001000, 0x4, 384, 0x0, 1, 3, 1, 0, .ro⟩,
   ⟨0x1001000, 0x4, 384, 0x0, 1, 8, 9, 0, .ro⟩,
   ⟨0x1001000, 0x4, 384, 0x0, 1, 17, 1, 0, .ro⟩,
   ⟨0x1001000, 0x4, 384, 0x0, 1, 20, 3, 0, .ro⟩]

/-! ### DMA registers (Tables 18.8) -/

namespace Reg

/-- DMA_ARB.MODE, RW, Table 18.8. -/
abbrev DMA_ARB_MODE : Fld := ⟨32 * (0x1100000) + 0, 1, 0⟩
/-- DMA_CFG.PRIO, RW, Table 18.8. -/
abbrev DMA_CFG_PRIO (i : Nat) : Fld := ⟨32 * (0x1101000 + 0x40 * i) + 0, 3, 0⟩
/-- DMA_CTL.GO, WO, Table 18.8. -/
abbrev DMA_CTL_GO (i : Nat) : Fld := ⟨32 * (0x1101004 + 0x40 * i) + 0, 1, 0⟩
/-- DMA_CTL.ABORT, WO, Table 18.8. -/
abbrev DMA_CTL_ABORT (i : Nat) : Fld := ⟨32 * (0x1101004 + 0x40 * i) + 1, 1, 0⟩
/-- DMA_HEAD_LO.SP, RW, Table 18.8. -/
abbrev DMA_HEAD_LO_SP (i : Nat) : Fld := ⟨32 * (0x1101008 + 0x40 * i) + 0, 1, 0⟩
/-- DMA_HEAD_LO.ADDR, RW, Table 18.8. -/
abbrev DMA_HEAD_LO_ADDR (i : Nat) : Fld := ⟨32 * (0x1101008 + 0x40 * i) + 5, 27, 0⟩
/-- DMA_HEAD_HI.ADDR, RW, Table 18.8. -/
abbrev DMA_HEAD_HI_ADDR (i : Nat) : Fld := ⟨32 * (0x110100C + 0x40 * i) + 0, 32, 0⟩
/-- DMA_NEXT_LO.SP, RW, Table 18.8. -/
abbrev DMA_NEXT_LO_SP (i : Nat) : Fld := ⟨32 * (0x1101010 + 0x40 * i) + 0, 1, 0⟩
/-- DMA_NEXT_LO.V, RW, Table 18.8. -/
abbrev DMA_NEXT_LO_V (i : Nat) : Fld := ⟨32 * (0x1101010 + 0x40 * i) + 2, 1, 0⟩
/-- DMA_NEXT_LO.ADDR, RW, Table 18.8. -/
abbrev DMA_NEXT_LO_ADDR (i : Nat) : Fld := ⟨32 * (0x1101010 + 0x40 * i) + 5, 27, 0⟩
/-- DMA_NEXT_HI.ADDR, RW, Table 18.8. -/
abbrev DMA_NEXT_HI_ADDR (i : Nat) : Fld := ⟨32 * (0x1101014 + 0x40 * i) + 0, 32, 0⟩
/-- DMA_CUR_LO.SP, RO, Table 18.8. -/
abbrev DMA_CUR_LO_SP (i : Nat) : Fld := ⟨32 * (0x1101018 + 0x40 * i) + 0, 1, 0⟩
/-- DMA_CUR_LO.ADDR, RO, Table 18.8. -/
abbrev DMA_CUR_LO_ADDR (i : Nat) : Fld := ⟨32 * (0x1101018 + 0x40 * i) + 5, 27, 0⟩
/-- DMA_CUR_HI.ADDR, RO, Table 18.8. -/
abbrev DMA_CUR_HI_ADDR (i : Nat) : Fld := ⟨32 * (0x110101C + 0x40 * i) + 0, 32, 0⟩
/-- DMA_STAT.STATE, RO, Table 18.8. -/
abbrev DMA_STAT_STATE (i : Nat) : Fld := ⟨32 * (0x1101020 + 0x40 * i) + 0, 1, 0⟩
/-- DMA_STAT.LATE, W1C, Table 18.8. -/
abbrev DMA_STAT_LATE (i : Nat) : Fld := ⟨32 * (0x1101020 + 0x40 * i) + 1, 1, 0⟩
/-- DMA_STAT.MISM, W1C, Table 18.8. -/
abbrev DMA_STAT_MISM (i : Nat) : Fld := ⟨32 * (0x1101020 + 0x40 * i) + 2, 1, 0⟩
/-- DMA_STAT.DETAIL, RO, Table 18.8. -/
abbrev DMA_STAT_DETAIL (i : Nat) : Fld := ⟨32 * (0x1101020 + 0x40 * i) + 8, 8, 0⟩
/-- DMA_STAT.CODE, RO, Table 18.8. -/
abbrev DMA_STAT_CODE (i : Nat) : Fld := ⟨32 * (0x1101020 + 0x40 * i) + 16, 16, 0⟩
/-- DMA_RESID.BYTES, RO, Table 18.8. -/
abbrev DMA_RESID_BYTES (i : Nat) : Fld := ⟨32 * (0x1101024 + 0x40 * i) + 0, 32, 0⟩
/-- DMA_CMOFF.OFF, RO, Table 18.8. -/
abbrev DMA_CMOFF_OFF (i : Nat) : Fld := ⟨32 * (0x1101028 + 0x40 * i) + 0, 32, 0⟩
/-- DMA_BYTES.COUNT, RC, Table 18.8. -/
abbrev DMA_BYTES_COUNT (i : Nat) : Fld := ⟨32 * (0x110102C + 0x40 * i) + 0, 32, 0⟩
/-- DMA_DESC.COUNT, RC, Table 18.8. -/
abbrev DMA_DESC_COUNT (i : Nat) : Fld := ⟨32 * (0x1101030 + 0x40 * i) + 0, 32, 0⟩
/-- DMA_IGN.COUNT, RC, Table 18.8. -/
abbrev DMA_IGN_COUNT (i : Nat) : Fld := ⟨32 * (0x1101034 + 0x40 * i) + 0, 32, 0⟩

end Reg

/-- The rows of DMA's register tables. -/
def regRowsDma : List RegRow :=
  [⟨0x1100000, 0x0, 1, 0x0, 1, 0, 1, 0, .rw⟩,
   ⟨0x1101000, 0x40, 64, 0x0, 1, 0, 3, 0, .rw⟩,
   ⟨0x1101004, 0x40, 64, 0x0, 1, 0, 1, 0, .wo⟩,
   ⟨0x1101004, 0x40, 64, 0x0, 1, 1, 1, 0, .wo⟩,
   ⟨0x1101008, 0x40, 64, 0x0, 1, 0, 1, 0, .rw⟩,
   ⟨0x1101008, 0x40, 64, 0x0, 1, 5, 27, 0, .rw⟩,
   ⟨0x110100C, 0x40, 64, 0x0, 1, 0, 32, 0, .rw⟩,
   ⟨0x1101010, 0x40, 64, 0x0, 1, 0, 1, 0, .rw⟩,
   ⟨0x1101010, 0x40, 64, 0x0, 1, 2, 1, 0, .rw⟩,
   ⟨0x1101010, 0x40, 64, 0x0, 1, 5, 27, 0, .rw⟩,
   ⟨0x1101014, 0x40, 64, 0x0, 1, 0, 32, 0, .rw⟩,
   ⟨0x1101018, 0x40, 64, 0x0, 1, 0, 1, 0, .ro⟩,
   ⟨0x1101018, 0x40, 64, 0x0, 1, 5, 27, 0, .ro⟩,
   ⟨0x110101C, 0x40, 64, 0x0, 1, 0, 32, 0, .ro⟩,
   ⟨0x1101020, 0x40, 64, 0x0, 1, 0, 1, 0, .ro⟩,
   ⟨0x1101020, 0x40, 64, 0x0, 1, 1, 1, 0, .w1c⟩,
   ⟨0x1101020, 0x40, 64, 0x0, 1, 2, 1, 0, .w1c⟩,
   ⟨0x1101020, 0x40, 64, 0x0, 1, 8, 8, 0, .ro⟩,
   ⟨0x1101020, 0x40, 64, 0x0, 1, 16, 16, 0, .ro⟩,
   ⟨0x1101024, 0x40, 64, 0x0, 1, 0, 32, 0, .ro⟩,
   ⟨0x1101028, 0x40, 64, 0x0, 1, 0, 32, 0, .ro⟩,
   ⟨0x110102C, 0x40, 64, 0x0, 1, 0, 32, 0, .rc⟩,
   ⟨0x1101030, 0x40, 64, 0x0, 1, 0, 32, 0, .rc⟩,
   ⟨0x1101034, 0x40, 64, 0x0, 1, 0, 32, 0, .rc⟩]

/-! ### BLT registers (Tables 18.9) -/

namespace Reg

/-- BLT_CTL.GO, WO, Table 18.9. -/
abbrev BLT_CTL_GO (i : Nat) : Fld := ⟨32 * (0x1181000 + 0x1000 * i) + 0, 1, 0⟩
/-- BLT_CTL.ABORT, WO, Table 18.9. -/
abbrev BLT_CTL_ABORT (i : Nat) : Fld := ⟨32 * (0x1181000 + 0x1000 * i) + 1, 1, 0⟩
/-- BLT_GAP.GAP, RW, Table 18.9. -/
abbrev BLT_GAP_GAP (i : Nat) : Fld := ⟨32 * (0x1181004 + 0x1000 * i) + 0, 10, 0⟩
/-- BLT_OP.OP, RW, Table 18.9. -/
abbrev BLT_OP_OP (i : Nat) : Fld := ⟨32 * (0x1181008 + 0x1000 * i) + 0, 2, 0⟩
/-- BLT_OP.ESZ, RW, Table 18.9. -/
abbrev BLT_OP_ESZ (i : Nat) : Fld := ⟨32 * (0x1181008 + 0x1000 * i) + 2, 2, 0⟩
/-- BLT_OP.SWRAP, RW, Table 18.9. -/
abbrev BLT_OP_SWRAP (i : Nat) : Fld := ⟨32 * (0x1181008 + 0x1000 * i) + 4, 1, 0⟩
/-- BLT_OP.DWRAP, RW, Table 18.9. -/
abbrev BLT_OP_DWRAP (i : Nat) : Fld := ⟨32 * (0x1181008 + 0x1000 * i) + 5, 1, 0⟩
/-- BLT_OP.FN, RW, Table 18.9. -/
abbrev BLT_OP_FN (i : Nat) : Fld := ⟨32 * (0x1181008 + 0x1000 * i) + 8, 8, 240⟩
/-- BLT_OP.PX, RW, Table 18.9. -/
abbrev BLT_OP_PX (i : Nat) : Fld := ⟨32 * (0x1181008 + 0x1000 * i) + 16, 3, 0⟩
/-- BLT_OP.PY, RW, Table 18.9. -/
abbrev BLT_OP_PY (i : Nat) : Fld := ⟨32 * (0x1181008 + 0x1000 * i) + 20, 3, 0⟩
/-- BLT_FILL.VAL, RW, Table 18.9. -/
abbrev BLT_FILL_VAL (i : Nat) : Fld := ⟨32 * (0x118100C + 0x1000 * i) + 0, 32, 0⟩
/-- BLT_SBASE_LO.ADDR, RW, Table 18.9. -/
abbrev BLT_SBASE_LO_ADDR (i : Nat) : Fld := ⟨32 * (0x1181010 + 0x1000 * i) + 3, 29, 0⟩
/-- BLT_SBASE_HI.ADDR, RW, Table 18.9. -/
abbrev BLT_SBASE_HI_ADDR (i : Nat) : Fld := ⟨32 * (0x1181014 + 0x1000 * i) + 0, 8, 0⟩
/-- BLT_SPITCH.PITCH, RW, Table 18.9. -/
abbrev BLT_SPITCH_PITCH (i : Nat) : Fld := ⟨32 * (0x1181018 + 0x1000 * i) + 0, 19, 0⟩
/-- BLT_SSIZE.MW, RW, Table 18.9. -/
abbrev BLT_SSIZE_MW (i : Nat) : Fld := ⟨32 * (0x118101C + 0x1000 * i) + 0, 16, 0⟩
/-- BLT_SSIZE.MH, RW, Table 18.9. -/
abbrev BLT_SSIZE_MH (i : Nat) : Fld := ⟨32 * (0x118101C + 0x1000 * i) + 16, 16, 0⟩
/-- BLT_SORG.X, RW, Table 18.9. -/
abbrev BLT_SORG_X (i : Nat) : Fld := ⟨32 * (0x1181020 + 0x1000 * i) + 0, 16, 0⟩
/-- BLT_SORG.Y, RW, Table 18.9. -/
abbrev BLT_SORG_Y (i : Nat) : Fld := ⟨32 * (0x1181020 + 0x1000 * i) + 16, 16, 0⟩
/-- BLT_DBASE_LO.ADDR, RW, Table 18.9. -/
abbrev BLT_DBASE_LO_ADDR (i : Nat) : Fld := ⟨32 * (0x1181024 + 0x1000 * i) + 3, 29, 0⟩
/-- BLT_DBASE_HI.ADDR, RW, Table 18.9. -/
abbrev BLT_DBASE_HI_ADDR (i : Nat) : Fld := ⟨32 * (0x1181028 + 0x1000 * i) + 0, 8, 0⟩
/-- BLT_DPITCH.PITCH, RW, Table 18.9. -/
abbrev BLT_DPITCH_PITCH (i : Nat) : Fld := ⟨32 * (0x118102C + 0x1000 * i) + 0, 19, 0⟩
/-- BLT_DSIZE.MW, RW, Table 18.9. -/
abbrev BLT_DSIZE_MW (i : Nat) : Fld := ⟨32 * (0x1181030 + 0x1000 * i) + 0, 16, 0⟩
/-- BLT_DSIZE.MH, RW, Table 18.9. -/
abbrev BLT_DSIZE_MH (i : Nat) : Fld := ⟨32 * (0x1181030 + 0x1000 * i) + 16, 16, 0⟩
/-- BLT_DORG.X, RW, Table 18.9. -/
abbrev BLT_DORG_X (i : Nat) : Fld := ⟨32 * (0x1181034 + 0x1000 * i) + 0, 16, 0⟩
/-- BLT_DORG.Y, RW, Table 18.9. -/
abbrev BLT_DORG_Y (i : Nat) : Fld := ⟨32 * (0x1181034 + 0x1000 * i) + 16, 16, 0⟩
/-- BLT_EXT.W, RW, Table 18.9. -/
abbrev BLT_EXT_W (i : Nat) : Fld := ⟨32 * (0x1181038 + 0x1000 * i) + 0, 16, 0⟩
/-- BLT_EXT.H, RW, Table 18.9. -/
abbrev BLT_EXT_H (i : Nat) : Fld := ⟨32 * (0x1181038 + 0x1000 * i) + 16, 16, 0⟩
/-- BLT_STAT.STATE, RO, Table 18.9. -/
abbrev BLT_STAT_STATE (i : Nat) : Fld := ⟨32 * (0x1181040 + 0x1000 * i) + 0, 1, 0⟩
/-- BLT_STAT.XDIR, RO, Table 18.9. -/
abbrev BLT_STAT_XDIR (i : Nat) : Fld := ⟨32 * (0x1181040 + 0x1000 * i) + 2, 1, 0⟩
/-- BLT_STAT.YDIR, RO, Table 18.9. -/
abbrev BLT_STAT_YDIR (i : Nat) : Fld := ⟨32 * (0x1181040 + 0x1000 * i) + 3, 1, 0⟩
/-- BLT_STAT.DETAIL, RO, Table 18.9. -/
abbrev BLT_STAT_DETAIL (i : Nat) : Fld := ⟨32 * (0x1181040 + 0x1000 * i) + 8, 8, 0⟩
/-- BLT_STAT.CODE, RO, Table 18.9. -/
abbrev BLT_STAT_CODE (i : Nat) : Fld := ⟨32 * (0x1181040 + 0x1000 * i) + 16, 16, 0⟩
/-- BLT_ROWS.COUNT, RO, Table 18.9. -/
abbrev BLT_ROWS_COUNT (i : Nat) : Fld := ⟨32 * (0x1181044 + 0x1000 * i) + 0, 17, 0⟩
/-- BLT_OPS.COUNT, RC, Table 18.9. -/
abbrev BLT_OPS_COUNT (i : Nat) : Fld := ⟨32 * (0x1181048 + 0x1000 * i) + 0, 32, 0⟩
/-- BLT_IGN.COUNT, RC, Table 18.9. -/
abbrev BLT_IGN_COUNT (i : Nat) : Fld := ⟨32 * (0x118104C + 0x1000 * i) + 0, 32, 0⟩
/-- BLT_PAT.VAL, RW, Table 18.9. -/
abbrev BLT_PAT_VAL (i : Nat) (j : Nat) : Fld := ⟨32 * (0x1181100 + 0x1000 * i + 0x4 * j) + 0, 32, 0⟩

end Reg

/-- The rows of BLT's register tables. -/
def regRowsBlt : List RegRow :=
  [⟨0x1181000, 0x1000, 2, 0x0, 1, 0, 1, 0, .wo⟩,
   ⟨0x1181000, 0x1000, 2, 0x0, 1, 1, 1, 0, .wo⟩,
   ⟨0x1181004, 0x1000, 2, 0x0, 1, 0, 10, 0, .rw⟩,
   ⟨0x1181008, 0x1000, 2, 0x0, 1, 0, 2, 0, .rw⟩,
   ⟨0x1181008, 0x1000, 2, 0x0, 1, 2, 2, 0, .rw⟩,
   ⟨0x1181008, 0x1000, 2, 0x0, 1, 4, 1, 0, .rw⟩,
   ⟨0x1181008, 0x1000, 2, 0x0, 1, 5, 1, 0, .rw⟩,
   ⟨0x1181008, 0x1000, 2, 0x0, 1, 8, 8, 240, .rw⟩,
   ⟨0x1181008, 0x1000, 2, 0x0, 1, 16, 3, 0, .rw⟩,
   ⟨0x1181008, 0x1000, 2, 0x0, 1, 20, 3, 0, .rw⟩,
   ⟨0x118100C, 0x1000, 2, 0x0, 1, 0, 32, 0, .rw⟩,
   ⟨0x1181010, 0x1000, 2, 0x0, 1, 3, 29, 0, .rw⟩,
   ⟨0x1181014, 0x1000, 2, 0x0, 1, 0, 8, 0, .rw⟩,
   ⟨0x1181018, 0x1000, 2, 0x0, 1, 0, 19, 0, .rw⟩,
   ⟨0x118101C, 0x1000, 2, 0x0, 1, 0, 16, 0, .rw⟩,
   ⟨0x118101C, 0x1000, 2, 0x0, 1, 16, 16, 0, .rw⟩,
   ⟨0x1181020, 0x1000, 2, 0x0, 1, 0, 16, 0, .rw⟩,
   ⟨0x1181020, 0x1000, 2, 0x0, 1, 16, 16, 0, .rw⟩,
   ⟨0x1181024, 0x1000, 2, 0x0, 1, 3, 29, 0, .rw⟩,
   ⟨0x1181028, 0x1000, 2, 0x0, 1, 0, 8, 0, .rw⟩,
   ⟨0x118102C, 0x1000, 2, 0x0, 1, 0, 19, 0, .rw⟩,
   ⟨0x1181030, 0x1000, 2, 0x0, 1, 0, 16, 0, .rw⟩,
   ⟨0x1181030, 0x1000, 2, 0x0, 1, 16, 16, 0, .rw⟩,
   ⟨0x1181034, 0x1000, 2, 0x0, 1, 0, 16, 0, .rw⟩,
   ⟨0x1181034, 0x1000, 2, 0x0, 1, 16, 16, 0, .rw⟩,
   ⟨0x1181038, 0x1000, 2, 0x0, 1, 0, 16, 0, .rw⟩,
   ⟨0x1181038, 0x1000, 2, 0x0, 1, 16, 16, 0, .rw⟩,
   ⟨0x1181040, 0x1000, 2, 0x0, 1, 0, 1, 0, .ro⟩,
   ⟨0x1181040, 0x1000, 2, 0x0, 1, 2, 1, 0, .ro⟩,
   ⟨0x1181040, 0x1000, 2, 0x0, 1, 3, 1, 0, .ro⟩,
   ⟨0x1181040, 0x1000, 2, 0x0, 1, 8, 8, 0, .ro⟩,
   ⟨0x1181040, 0x1000, 2, 0x0, 1, 16, 16, 0, .ro⟩,
   ⟨0x1181044, 0x1000, 2, 0x0, 1, 0, 17, 0, .ro⟩,
   ⟨0x1181048, 0x1000, 2, 0x0, 1, 0, 32, 0, .rc⟩,
   ⟨0x118104C, 0x1000, 2, 0x0, 1, 0, 32, 0, .rc⟩,
   ⟨0x1181100, 0x1000, 2, 0x4, 64, 0, 32, 0, .rw⟩]

/-! ### SEC registers (Tables 19.8) -/

namespace Reg

/-- SEC_STAT.OWNER, RO (reset: dash), Table 19.8. -/
abbrev SEC_STAT_OWNER : Fld := ⟨32 * (0x1200000) + 0, 2, 0⟩
/-- SEC_STAT.XFER, RO, Table 19.8. -/
abbrev SEC_STAT_XFER : Fld := ⟨32 * (0x1200000) + 2, 1, 0⟩
/-- SEC_STAT.CERTOK, RO (reset: dash), Table 19.8. -/
abbrev SEC_STAT_CERTOK : Fld := ⟨32 * (0x1200000) + 3, 1, 0⟩
/-- SEC_FW.SLOT, RO (reset: dash), Table 19.8. -/
abbrev SEC_FW_SLOT : Fld := ⟨32 * (0x1200004) + 0, 1, 0⟩
/-- SEC_FW.NEXT, RO (reset: dash), Table 19.8. -/
abbrev SEC_FW_NEXT : Fld := ⟨32 * (0x1200004) + 1, 1, 0⟩
/-- SEC_FW.TRIAL, RO (reset: dash), Table 19.8. -/
abbrev SEC_FW_TRIAL : Fld := ⟨32 * (0x1200004) + 2, 1, 0⟩
/-- SEC_FW.FAIL, RO (reset: dash), Table 19.8. -/
abbrev SEC_FW_FAIL : Fld := ⟨32 * (0x1200004) + 3, 2, 0⟩
/-- SEC_FW.VALID, RO (reset: dash), Table 19.8. -/
abbrev SEC_FW_VALID : Fld := ⟨32 * (0x1200004) + 5, 2, 0⟩
/-- SEC_FW.TRIED, RO (reset: dash), Table 19.8. -/
abbrev SEC_FW_TRIED : Fld := ⟨32 * (0x1200004) + 7, 1, 0⟩
/-- SEC_FLOOR.FLOOR, RO (reset: dash), Table 19.8. -/
abbrev SEC_FLOOR_FLOOR : Fld := ⟨32 * (0x1200008) + 0, 7, 0⟩
/-- SEC_FWVERA.VER, RO (reset: dash), Table 19.8. -/
abbrev SEC_FWVERA_VER : Fld := ⟨32 * (0x120000C) + 0, 32, 0⟩
/-- SEC_FWVERB.VER, RO (reset: dash), Table 19.8. -/
abbrev SEC_FWVERB_VER : Fld := ⟨32 * (0x1200010) + 0, 32, 0⟩
/-- SEC_SVN.A, RO (reset: dash), Table 19.8. -/
abbrev SEC_SVN_A : Fld := ⟨32 * (0x1200014) + 0, 7, 0⟩
/-- SEC_SVN.B, RO (reset: dash), Table 19.8. -/
abbrev SEC_SVN_B : Fld := ⟨32 * (0x1200014) + 8, 7, 0⟩
/-- SEC_KEEPVER.VER, RO (reset: dash), Table 19.8. -/
abbrev SEC_KEEPVER_VER : Fld := ⟨32 * (0x1200018) + 0, 32, 0⟩
/-- SEC_OWNKEY0–15.DIG, RO (reset: dash), Table 19.8. -/
abbrev SEC_OWNKEY_DIG (i : Nat) : Fld := ⟨32 * (0x1200020 + 0x4 * i) + 0, 32, 0⟩
/-- SEC_VFAIL.COUNT, RC, Table 19.8. -/
abbrev SEC_VFAIL_COUNT : Fld := ⟨32 * (0x1200060) + 0, 32, 0⟩
/-- SEC_VLAST.TYPE, RO, Table 19.8. -/
abbrev SEC_VLAST_TYPE : Fld := ⟨32 * (0x1200064) + 0, 16, 0⟩
/-- SEC_VLAST.CAUSE, RO, Table 19.8. -/
abbrev SEC_VLAST_CAUSE : Fld := ⟨32 * (0x1200064) + 16, 3, 0⟩
/-- SEC_ATTCNT.COUNT, RC, Table 19.8. -/
abbrev SEC_ATTCNT_COUNT : Fld := ⟨32 * (0x1200068) + 0, 32, 0⟩
/-- SEC_ATTMAX.MS, RC, Table 19.8. -/
abbrev SEC_ATTMAX_MS : Fld := ⟨32 * (0x120006C) + 0, 16, 0⟩

end Reg

/-- The rows of SEC's register tables. -/
def regRowsSec : List RegRow :=
  [⟨0x1200000, 0x0, 1, 0x0, 1, 0, 2, 0, .ro⟩,
   ⟨0x1200000, 0x0, 1, 0x0, 1, 2, 1, 0, .ro⟩,
   ⟨0x1200000, 0x0, 1, 0x0, 1, 3, 1, 0, .ro⟩,
   ⟨0x1200004, 0x0, 1, 0x0, 1, 0, 1, 0, .ro⟩,
   ⟨0x1200004, 0x0, 1, 0x0, 1, 1, 1, 0, .ro⟩,
   ⟨0x1200004, 0x0, 1, 0x0, 1, 2, 1, 0, .ro⟩,
   ⟨0x1200004, 0x0, 1, 0x0, 1, 3, 2, 0, .ro⟩,
   ⟨0x1200004, 0x0, 1, 0x0, 1, 5, 2, 0, .ro⟩,
   ⟨0x1200004, 0x0, 1, 0x0, 1, 7, 1, 0, .ro⟩,
   ⟨0x1200008, 0x0, 1, 0x0, 1, 0, 7, 0, .ro⟩,
   ⟨0x120000C, 0x0, 1, 0x0, 1, 0, 32, 0, .ro⟩,
   ⟨0x1200010, 0x0, 1, 0x0, 1, 0, 32, 0, .ro⟩,
   ⟨0x1200014, 0x0, 1, 0x0, 1, 0, 7, 0, .ro⟩,
   ⟨0x1200014, 0x0, 1, 0x0, 1, 8, 7, 0, .ro⟩,
   ⟨0x1200018, 0x0, 1, 0x0, 1, 0, 32, 0, .ro⟩,
   ⟨0x1200020, 0x4, 16, 0x0, 1, 0, 32, 0, .ro⟩,
   ⟨0x1200060, 0x0, 1, 0x0, 1, 0, 32, 0, .rc⟩,
   ⟨0x1200064, 0x0, 1, 0x0, 1, 0, 16, 0, .ro⟩,
   ⟨0x1200064, 0x0, 1, 0x0, 1, 16, 3, 0, .ro⟩,
   ⟨0x1200068, 0x0, 1, 0x0, 1, 0, 32, 0, .rc⟩,
   ⟨0x120006C, 0x0, 1, 0x0, 1, 0, 16, 0, .rc⟩]

/-! ### TDM registers (Tables 20.4) -/

namespace Reg

/-- TDM_CFG.ROLE, ST, Table 20.4. -/
abbrev TDM_CFG_ROLE : Fld := ⟨32 * (0x1300000) + 0, 2, 0⟩
/-- TDM_CFG.POLICY, ST, Table 20.4. -/
abbrev TDM_CFG_POLICY : Fld := ⟨32 * (0x1300000) + 4, 2, 0⟩
/-- TDM_DET.MISS, ST, Table 20.4. -/
abbrev TDM_DET_MISS : Fld := ⟨32 * (0x1300004) + 0, 6, 8⟩
/-- TDM_DET.WAIT, ST, Table 20.4. -/
abbrev TDM_DET_WAIT : Fld := ⟨32 * (0x1300004) + 8, 7, 8⟩
/-- TDM_MISPOL.N, ST, Table 20.4. -/
abbrev TDM_MISPOL_N : Fld := ⟨32 * (0x1300008) + 0, 16, 1⟩
/-- TDM_STAT.LINK, RO, Table 20.4. -/
abbrev TDM_STAT_LINK : Fld := ⟨32 * (0x130000C) + 0, 2, 0⟩
/-- TDM_STAT.PERMIT, RO, Table 20.4. -/
abbrev TDM_STAT_PERMIT : Fld := ⟨32 * (0x130000C) + 2, 1, 0⟩
/-- TDM_STAT.PPERMIT, RO, Table 20.4. -/
abbrev TDM_STAT_PPERMIT : Fld := ⟨32 * (0x130000C) + 3, 1, 0⟩
/-- TDM_STAT.DUAL, RO, Table 20.4. -/
abbrev TDM_STAT_DUAL : Fld := ⟨32 * (0x130000C) + 4, 1, 0⟩
/-- TDM_STAT.CFGMIS, RO, Table 20.4. -/
abbrev TDM_STAT_CFGMIS : Fld := ⟨32 * (0x130000C) + 5, 1, 0⟩
/-- TDM_STAT.DEMOTED, RO, Table 20.4. -/
abbrev TDM_STAT_DEMOTED : Fld := ⟨32 * (0x130000C) + 6, 1, 0⟩
/-- TDM_STAT.ROLEMIS, RO, Table 20.4. -/
abbrev TDM_STAT_ROLEMIS : Fld := ⟨32 * (0x130000C) + 7, 1, 0⟩
/-- TDM_FLAG.ALARM, W1C, Table 20.4. -/
abbrev TDM_FLAG_ALARM : Fld := ⟨32 * (0x1300010) + 0, 1, 0⟩
/-- TDM_LANES.UP, RO, Table 20.4. -/
abbrev TDM_LANES_UP : Fld := ⟨32 * (0x1300014) + 0, 4, 0⟩
/-- TDM_PCFG.CFG, RO, Table 20.4. -/
abbrev TDM_PCFG_CFG : Fld := ⟨32 * (0x1300018) + 0, 32, 0⟩
/-- TDM_MISCNT.COUNT, RC, Table 20.4. -/
abbrev TDM_MISCNT_COUNT : Fld := ⟨32 * (0x130001C) + 0, 32, 0⟩
/-- TDM_MISSCNT.COUNT, RC, Table 20.4. -/
abbrev TDM_MISSCNT_COUNT : Fld := ⟨32 * (0x1300020) + 0, 32, 0⟩
/-- TDM_MISLAST_LO.STAMP, RO, Table 20.4. -/
abbrev TDM_MISLAST_LO_STAMP : Fld := ⟨32 * (0x1300024) + 0, 32, 0⟩
/-- TDM_MISLAST_HI.STAMP, RO, Table 20.4. -/
abbrev TDM_MISLAST_HI_STAMP : Fld := ⟨32 * (0x1300028) + 0, 32, 0⟩
/-- TDM_TAKECNT.COUNT, RC, Table 20.4. -/
abbrev TDM_TAKECNT_COUNT : Fld := ⟨32 * (0x130002C) + 0, 32, 0⟩
/-- TDM_RXERR.COUNT, RC, Table 20.4. -/
abbrev TDM_RXERR_COUNT : Fld := ⟨32 * (0x1300030) + 0, 32, 0⟩
/-- TDM_OWD.SC, RO, Table 20.4. -/
abbrev TDM_OWD_SC : Fld := ⟨32 * (0x1300034) + 0, 10, 0⟩

end Reg

/-- The rows of TDM's register tables. -/
def regRowsTdm : List RegRow :=
  [⟨0x1300000, 0x0, 1, 0x0, 1, 0, 2, 0, .st⟩,
   ⟨0x1300000, 0x0, 1, 0x0, 1, 4, 2, 0, .st⟩,
   ⟨0x1300004, 0x0, 1, 0x0, 1, 0, 6, 8, .st⟩,
   ⟨0x1300004, 0x0, 1, 0x0, 1, 8, 7, 8, .st⟩,
   ⟨0x1300008, 0x0, 1, 0x0, 1, 0, 16, 1, .st⟩,
   ⟨0x130000C, 0x0, 1, 0x0, 1, 0, 2, 0, .ro⟩,
   ⟨0x130000C, 0x0, 1, 0x0, 1, 2, 1, 0, .ro⟩,
   ⟨0x130000C, 0x0, 1, 0x0, 1, 3, 1, 0, .ro⟩,
   ⟨0x130000C, 0x0, 1, 0x0, 1, 4, 1, 0, .ro⟩,
   ⟨0x130000C, 0x0, 1, 0x0, 1, 5, 1, 0, .ro⟩,
   ⟨0x130000C, 0x0, 1, 0x0, 1, 6, 1, 0, .ro⟩,
   ⟨0x130000C, 0x0, 1, 0x0, 1, 7, 1, 0, .ro⟩,
   ⟨0x1300010, 0x0, 1, 0x0, 1, 0, 1, 0, .w1c⟩,
   ⟨0x1300014, 0x0, 1, 0x0, 1, 0, 4, 0, .ro⟩,
   ⟨0x1300018, 0x0, 1, 0x0, 1, 0, 32, 0, .ro⟩,
   ⟨0x130001C, 0x0, 1, 0x0, 1, 0, 32, 0, .rc⟩,
   ⟨0x1300020, 0x0, 1, 0x0, 1, 0, 32, 0, .rc⟩,
   ⟨0x1300024, 0x0, 1, 0x0, 1, 0, 32, 0, .ro⟩,
   ⟨0x1300028, 0x0, 1, 0x0, 1, 0, 32, 0, .ro⟩,
   ⟨0x130002C, 0x0, 1, 0x0, 1, 0, 32, 0, .rc⟩,
   ⟨0x1300030, 0x0, 1, 0x0, 1, 0, 32, 0, .rc⟩,
   ⟨0x1300034, 0x0, 1, 0x0, 1, 0, 10, 0, .ro⟩]

/-! ### PWR registers (Tables 21.9) -/

namespace Reg

/-- PWR_STAT.STATE, RO, Table 21.9. -/
abbrev PWR_STAT_STATE : Fld := ⟨32 * (0x1400000) + 0, 3, 1⟩
/-- PWR_STAT.PREV, RO, Table 21.9. -/
abbrev PWR_STAT_PREV : Fld := ⟨32 * (0x1400000) + 4, 3, 0⟩
/-- PWR_STAT.FSREF, W1C, Table 21.9. -/
abbrev PWR_STAT_FSREF : Fld := ⟨32 * (0x1400000) + 8, 1, 0⟩
/-- PWR_STAT.WAKING, RO, Table 21.9. -/
abbrev PWR_STAT_WAKING : Fld := ⟨32 * (0x1400000) + 9, 1, 0⟩
/-- PWR_CTL.FILLCMD, RW, Table 21.9. -/
abbrev PWR_CTL_FILLCMD : Fld := ⟨32 * (0x1400004) + 0, 1, 1⟩
/-- PWR_WAKE.TIMCMD, RW, Table 21.9. -/
abbrev PWR_WAKE_TIMCMD : Fld := ⟨32 * (0x1400008) + 0, 1, 1⟩
/-- PWR_WAKE.EVENT, RW, Table 21.9. -/
abbrev PWR_WAKE_EVENT : Fld := ⟨32 * (0x1400008) + 1, 1, 1⟩
/-- PWR_FCAUSE.CAUSE, RO, Table 21.9. -/
abbrev PWR_FCAUSE_CAUSE : Fld := ⟨32 * (0x140000C) + 0, 5, 0⟩
/-- PWR_RSTCAUSE.CAUSE, RO, Table 21.9. -/
abbrev PWR_RSTCAUSE_CAUSE : Fld := ⟨32 * (0x1400010) + 0, 2, 0⟩
/-- PWR_CMDIGN.COUNT, RC, Table 21.9. -/
abbrev PWR_CMDIGN_COUNT : Fld := ⟨32 * (0x1400014) + 0, 32, 0⟩
/-- PWR_ACFAILCNT.COUNT, RC, Table 21.9. -/
abbrev PWR_ACFAILCNT_COUNT : Fld := ⟨32 * (0x1400018) + 0, 32, 0⟩
/-- PWR_POWER.WATTS, RO, Table 21.9. -/
abbrev PWR_POWER_WATTS : Fld := ⟨32 * (0x140001C) + 0, 16, 0⟩
/-- PWR_SUP.PRES, RO (reset: dash), Table 21.9. -/
abbrev PWR_SUP_PRES (i : Nat) : Fld := ⟨32 * (0x1400020 + 0x10 * i) + 0, 1, 0⟩
/-- PWR_SUP.ACOK, RO (reset: dash), Table 21.9. -/
abbrev PWR_SUP_ACOK (i : Nat) : Fld := ⟨32 * (0x1400020 + 0x10 * i) + 1, 1, 0⟩
/-- PWR_SUP.DCOK, RO (reset: dash), Table 21.9. -/
abbrev PWR_SUP_DCOK (i : Nat) : Fld := ⟨32 * (0x1400020 + 0x10 * i) + 2, 1, 0⟩
/-- PWR_SUP.FAULT, RO (reset: dash), Table 21.9. -/
abbrev PWR_SUP_FAULT (i : Nat) : Fld := ⟨32 * (0x1400020 + 0x10 * i) + 3, 1, 0⟩
/-- PWR_SUPW.WATTS, RO, Table 21.9. -/
abbrev PWR_SUPW_WATTS (i : Nat) : Fld := ⟨32 * (0x1400024 + 0x10 * i) + 0, 16, 0⟩
/-- PWR_SUPT.TEMP, RO, Table 21.9. -/
abbrev PWR_SUPT_TEMP (i : Nat) : Fld := ⟨32 * (0x1400028 + 0x10 * i) + 0, 8, 0⟩
/-- PWR_FAN.RPM, RO, Table 21.9. -/
abbrev PWR_FAN_RPM (i : Nat) : Fld := ⟨32 * (0x1400040 + 0x4 * i) + 0, 16, 0⟩
/-- PWR_FAN.FAIL, RO, Table 21.9. -/
abbrev PWR_FAN_FAIL (i : Nat) : Fld := ⟨32 * (0x1400040 + 0x4 * i) + 16, 1, 0⟩
/-- PWR_TEMP.DIE, RO, Table 21.9. -/
abbrev PWR_TEMP_DIE : Fld := ⟨32 * (0x1400060) + 0, 8, 0⟩
/-- PWR_TEMP.INLET, RO, Table 21.9. -/
abbrev PWR_TEMP_INLET : Fld := ⟨32 * (0x1400060) + 8, 8, 0⟩
/-- PWR_TEMP.OUTLET, RO, Table 21.9. -/
abbrev PWR_TEMP_OUTLET : Fld := ⟨32 * (0x1400060) + 16, 8, 0⟩
/-- PWR_TLIM.WARN, RW, Table 21.9. -/
abbrev PWR_TLIM_WARN : Fld := ⟨32 * (0x1400064) + 0, 8, 95⟩
/-- PWR_TLIM.CRIT, RO, Table 21.9. -/
abbrev PWR_TLIM_CRIT : Fld := ⟨32 * (0x1400064) + 8, 8, 105⟩
/-- PWR_DCFG.VMIN, RW, Table 21.9. -/
abbrev PWR_DCFG_VMIN (i : Nat) : Fld := ⟨32 * (0x1400100 + 0x10 * i) + 0, 10, 650⟩
/-- PWR_DCFG.VMAX, RW, Table 21.9. -/
abbrev PWR_DCFG_VMAX (i : Nat) : Fld := ⟨32 * (0x1400100 + 0x10 * i) + 16, 10, 850⟩
/-- PWR_DMARGIN.PCT, RW, Table 21.9. -/
abbrev PWR_DMARGIN_PCT (i : Nat) : Fld := ⟨32 * (0x1400104 + 0x10 * i) + 0, 5, 8⟩
/-- PWR_DSTAT.MV, RO, Table 21.9. -/
abbrev PWR_DSTAT_MV (i : Nat) : Fld := ⟨32 * (0x1400108 + 0x10 * i) + 0, 10, 850⟩
/-- PWR_DSTAT.MARGIN, RO, Table 21.9. -/
abbrev PWR_DSTAT_MARGIN (i : Nat) : Fld := ⟨32 * (0x1400108 + 0x10 * i) + 16, 5, 0⟩
/-- PWR_DSTAT.LIM, RO, Table 21.9. -/
abbrev PWR_DSTAT_LIM (i : Nat) : Fld := ⟨32 * (0x1400108 + 0x10 * i) + 24, 1, 0⟩
/-- PWR_DLIMCNT.COUNT, RC, Table 21.9. -/
abbrev PWR_DLIMCNT_COUNT (i : Nat) : Fld := ⟨32 * (0x140010C + 0x10 * i) + 0, 32, 0⟩

end Reg

/-- The rows of PWR's register tables. -/
def regRowsPwr : List RegRow :=
  [⟨0x1400000, 0x0, 1, 0x0, 1, 0, 3, 1, .ro⟩,
   ⟨0x1400000, 0x0, 1, 0x0, 1, 4, 3, 0, .ro⟩,
   ⟨0x1400000, 0x0, 1, 0x0, 1, 8, 1, 0, .w1c⟩,
   ⟨0x1400000, 0x0, 1, 0x0, 1, 9, 1, 0, .ro⟩,
   ⟨0x1400004, 0x0, 1, 0x0, 1, 0, 1, 1, .rw⟩,
   ⟨0x1400008, 0x0, 1, 0x0, 1, 0, 1, 1, .rw⟩,
   ⟨0x1400008, 0x0, 1, 0x0, 1, 1, 1, 1, .rw⟩,
   ⟨0x140000C, 0x0, 1, 0x0, 1, 0, 5, 0, .ro⟩,
   ⟨0x1400010, 0x0, 1, 0x0, 1, 0, 2, 0, .ro⟩,
   ⟨0x1400014, 0x0, 1, 0x0, 1, 0, 32, 0, .rc⟩,
   ⟨0x1400018, 0x0, 1, 0x0, 1, 0, 32, 0, .rc⟩,
   ⟨0x140001C, 0x0, 1, 0x0, 1, 0, 16, 0, .ro⟩,
   ⟨0x1400020, 0x10, 2, 0x0, 1, 0, 1, 0, .ro⟩,
   ⟨0x1400020, 0x10, 2, 0x0, 1, 1, 1, 0, .ro⟩,
   ⟨0x1400020, 0x10, 2, 0x0, 1, 2, 1, 0, .ro⟩,
   ⟨0x1400020, 0x10, 2, 0x0, 1, 3, 1, 0, .ro⟩,
   ⟨0x1400024, 0x10, 2, 0x0, 1, 0, 16, 0, .ro⟩,
   ⟨0x1400028, 0x10, 2, 0x0, 1, 0, 8, 0, .ro⟩,
   ⟨0x1400040, 0x4, 6, 0x0, 1, 0, 16, 0, .ro⟩,
   ⟨0x1400040, 0x4, 6, 0x0, 1, 16, 1, 0, .ro⟩,
   ⟨0x1400060, 0x0, 1, 0x0, 1, 0, 8, 0, .ro⟩,
   ⟨0x1400060, 0x0, 1, 0x0, 1, 8, 8, 0, .ro⟩,
   ⟨0x1400060, 0x0, 1, 0x0, 1, 16, 8, 0, .ro⟩,
   ⟨0x1400064, 0x0, 1, 0x0, 1, 0, 8, 95, .rw⟩,
   ⟨0x1400064, 0x0, 1, 0x0, 1, 8, 8, 105, .ro⟩,
   ⟨0x1400100, 0x10, 24, 0x0, 1, 0, 10, 650, .rw⟩,
   ⟨0x1400100, 0x10, 24, 0x0, 1, 16, 10, 850, .rw⟩,
   ⟨0x1400104, 0x10, 24, 0x0, 1, 0, 5, 8, .rw⟩,
   ⟨0x1400108, 0x10, 24, 0x0, 1, 0, 10, 850, .ro⟩,
   ⟨0x1400108, 0x10, 24, 0x0, 1, 16, 5, 0, .ro⟩,
   ⟨0x1400108, 0x10, 24, 0x0, 1, 24, 1, 0, .ro⟩,
   ⟨0x140010C, 0x10, 24, 0x0, 1, 0, 32, 0, .rc⟩]

/-! ### ID registers (Tables 0.4) -/

namespace Reg

/-- ID_DEVICE.PART, RO, Table 0.4. -/
abbrev ID_DEVICE_PART : Fld := ⟨32 * (0x1F00000) + 16, 16, 17928⟩
/-- ID_DEVICE.STEP, RO (reset: dash), Table 0.4. -/
abbrev ID_DEVICE_STEP : Fld := ⟨32 * (0x1F00000) + 8, 8, 0⟩
/-- ID_DEVICE.BOARD, RO (reset: dash), Table 0.4. -/
abbrev ID_DEVICE_BOARD : Fld := ⟨32 * (0x1F00000) + 0, 8, 0⟩
/-- ID_SERIAL_LO.SN, RO (reset: dash), Table 0.4. -/
abbrev ID_SERIAL_LO_SN : Fld := ⟨32 * (0x1F00004) + 0, 32, 0⟩
/-- ID_SERIAL_HI.SN, RO (reset: dash), Table 0.4. -/
abbrev ID_SERIAL_HI_SN : Fld := ⟨32 * (0x1F00008) + 0, 32, 0⟩
/-- ID_FWVER.MAJOR, RO (reset: dash), Table 0.4. -/
abbrev ID_FWVER_MAJOR : Fld := ⟨32 * (0x1F0000C) + 24, 8, 0⟩
/-- ID_FWVER.MINOR, RO (reset: dash), Table 0.4. -/
abbrev ID_FWVER_MINOR : Fld := ⟨32 * (0x1F0000C) + 16, 8, 0⟩
/-- ID_FWVER.BUILD, RO (reset: dash), Table 0.4. -/
abbrev ID_FWVER_BUILD : Fld := ⟨32 * (0x1F0000C) + 0, 16, 0⟩

end Reg

/-- The rows of ID's register tables. -/
def regRowsId : List RegRow :=
  [⟨0x1F00000, 0x0, 1, 0x0, 1, 16, 16, 17928, .ro⟩,
   ⟨0x1F00000, 0x0, 1, 0x0, 1, 8, 8, 0, .ro⟩,
   ⟨0x1F00000, 0x0, 1, 0x0, 1, 0, 8, 0, .ro⟩,
   ⟨0x1F00004, 0x0, 1, 0x0, 1, 0, 32, 0, .ro⟩,
   ⟨0x1F00008, 0x0, 1, 0x0, 1, 0, 32, 0, .ro⟩,
   ⟨0x1F0000C, 0x0, 1, 0x0, 1, 24, 8, 0, .ro⟩,
   ⟨0x1F0000C, 0x0, 1, 0x0, 1, 16, 8, 0, .ro⟩,
   ⟨0x1F0000C, 0x0, 1, 0x0, 1, 0, 16, 0, .ro⟩]

/-- Every register row, by block of Table 0.3: the block code picks the list. -/
def regRowsOf : Nat → List RegRow
  | 1 => regRowsHst
  | 2 => regRowsTim
  | 3 => regRowsLnk
  | 4 => regRowsMap
  | 5 => regRowsDom
  | 7 => regRowsObj
  | 8 => regRowsSeq
  | 9 => regRowsMnu
  | 10 => regRowsBel
  | 11 => regRowsSpr
  | 12 => regRowsUla
  | 13 => regRowsEvt
  | 14 => regRowsIrq
  | 15 => regRowsCnt
  | 16 => regRowsMem
  | 17 => regRowsDma
  | 18 => regRowsBlt
  | 19 => regRowsSec
  | 20 => regRowsTdm
  | 21 => regRowsPwr
  | 22 => regRowsOut
  | 23 => regRowsId
  | _ => []

end Sys2Proof.Machine
end

