-- ==== Sys2Proof/Machine/State.lean ====
section
/-! DEFINITION. The state of the engine, block by block, and its value after reset. Register fields and block tables are
held in three sparse tables with one key space (`Engine.regs`, `Engine.staged`, `Engine.active`); the structures below
hold what no register shows. Every structure is plain data. -/

namespace Sys2Proof.Machine

/-- No command stops with a fault: every command of the table has an effect, or none, in every state. The one
constructor is raised by no meaning; it names the stop a faulted model would take (safe). -/
inductive Fault where
  /-- Raised by no meaning (safe). -/
  | stuck
deriving DecidableEq, Repr

/-- Why a command has no meaning. -/
inductive Refusal where
  /-- Raised only by an arm of `exec` whose command is not modelled yet (safe: the machine stops). -/
  | notModelled (mnemonic : String)
deriving DecidableEq, Repr

/-! ### Host interface (chapter 2) -/

/-- One ring (R42 to R51, R67). `typ`: 0 CMD, 1 CPL, 2 STR, 3 EVN. Counts are modulo 2^32. -/
structure Ring where
  id : Nat
  typ : Nat
  k : Nat
  base : Nat
  vec : Nat
  cpl : Nat
  head : Nat
  kind : Nat
  intr : Bool
  prod : Nat
  cons : Nat
  /-- In FAULT (R47). -/
  fault : Bool
  /-- Records or notifications dropped (R50). -/
  drops : Nat
  /-- Stopped by HST_STOP (R67). -/
  stopped : Bool
  /-- Something was dropped, or the ring was stopped, since the last record: LOST or OVF is due (R50, R62, R67). -/
  lost : Bool
  /-- No interrupt raised since the last consumer doorbell (R51). -/
  armed : Bool
  /-- The next command of a CMD ring carries FENCE and waits for earlier ones (R55). -/
  fence : Bool
  /-- Slots that the next command of a CMD ring takes, where its header has been fetched before a doorbell covered all of them (R46,
  R55); 0 where it has not. -/
  need : Nat
deriving DecidableEq, Repr

/-- A command that COMMAND_FETCH has started and that has not completed (R55, R59). -/
structure Started where
  ring : Nat
  tag : Nat
  op : Nat
  notify : Bool
  ctx : Nat
deriving DecidableEq, Repr

/-- A completion entry (Table 2.6) waiting to be written: `HST_CTL.EN` is 0, or its ring is full (R50, R70). -/
structure Cpl where
  cplRing : Nat
  tag : Nat
  code : Nat
  detail : Nat
  crossing : Nat
  notify : Bool
deriving DecidableEq, Repr

/-- A write to mask bits of a map source (R132, R133): `hot` picks the mask; `cells`: items are coordinates (X, Y), else
(bit index, 0); each item has its bit value and whether no later unstaged write has overtaken it. -/
structure MaskWrite where
  src : Nat
  hot : Bool
  cells : Bool
  items : List (Nat × Nat × Nat × Bool)
deriving DecidableEq, Repr

/-- A write to host memory: its bytes, whether it may be ordered freely among the writes beside it (R63), and whether it is a Control
completion ring entry, which the buffer's reserve is for (R66). -/
structure Posted where
  addr : Nat
  bytes : List Byte
  relaxed : Bool
  ctl : Bool
deriving DecidableEq, Repr

/-- An accepted commit (R56 to R59, R81, R112, R210, R262). `set`: the captured staged values of its blocks. `named`:
the crossing it names; none while TIM is unlocked (R80). -/
structure Pend where
  /-- The model's own field: which accepted commit it is. Tags are the host's free choice. -/
  uid : Nat
  ring : Nat
  tag : Nat
  /-- The context that issued it; `closedCtx` once that is closed (R38, R41). -/
  ctx : Nat
  notify : Bool
  blocks : List Nat
  set : Tab
  named : Option Nat
  /-- Takes effect by a planned relock at an orbit boundary (R81, R262). -/
  relock : Bool
  /-- Changes the clock set or TRX (R81, R97). -/
  clock : Bool
  /-- The staged mask writes it captures (R133). -/
  masks : List MaskWrite
  /-- The object it installs: 0 none, 1 a Keep bundle, 2 a Lantern bitstream, 3 core images and starts (R171, R309,
  R310). -/
  object : Nat
  /-- Activated, and waiting for its Belfry crosspoints (R245, R246). -/
  waiting : Bool
  /-- Blocks whose staged copies a DISCARD has returned to the active values since the commit was accepted: they follow when it becomes
  active (R211; assumption 118). -/
  follow : List Nat
deriving DecidableEq, Repr

/-- The host interface: contexts, owners, stage locks, rings, commits, the outbound writes. -/
structure HostSt where
  rings : List Ring
  /-- Context number to 1 + rights mask (bit r−1 for right r of Table 2.3); 0 where the context is not open. -/
  ctxs : Tab
  /-- Resource (`resKey`) to its owning context; context 0 where none is listed (R40). -/
  owners : Tab
  /-- Block code to 1 + the context that holds its stage lock; 0 where none does (R57). -/
  locks : Tab
  pends : List Pend
  started : List Started
  held : List Cpl
  /-- The CMD ring served last (R55). -/
  rr : Nat
  /-- The model's own field: the `uid` of the next accepted commit. -/
  nextUid : Nat
  /-- Writes that have entered the outbound queue, oldest first (R63, R66). -/
  out : List Posted
  /-- Writes that have no place in the outbound buffer yet, oldest first (R66). -/
  wait : List Posted
  /-- Bytes in the outbound buffer, outside and inside the Control completion ring's reserve (R66). -/
  used : Nat
  usedCtl : Nat
  /-- The MSI-X table: word `4 v + i` of vector `v`, held exclusive-ORed with its reset value (R36, R37). -/
  msix : Tab
  /-- The pending-bit array: a vector's bit is set where this is not 0; bit 0: a ring's message waits, bit 1: one that the
  interrupt controller holds (R51, R337). -/
  pba : Tab
  /-- The MSI-X Function Mask of configuration space (R337). -/
  fnMask : Bool
  d3hot : Bool
  /-- Configuration requests are answered with Retry Status (R437). -/
  crs : Bool
  /-- What the last configuration request was answered with: 0 none yet, 1 served, 2 Retry Status. -/
  cfgAnswer : Nat
  /-- The identity that the last served configuration request could read: Vendor, Device and Revision ID, class code, and the two
  words of the Device Serial Number (R36). -/
  cfgData : List Nat
  /-- The data of the last BAR read. -/
  lastRead : Nat
  /-- Frozen words: BAR0 offset to 1 + the frozen value (R69, R84, R349). -/
  frozen : Tab
  /-- Queued records of stopped rings have still to leave the engine (R67). -/
  draining : Bool
  /-- PTM: the local time of the last successful exchange, the BC in which it ended, and exchanges since then without success
  (R68). -/
  ptmTime : Nat
  ptmBc : Nat
  ptmFails : Nat
  ptmSeen : Bool
deriving DecidableEq, Repr

/-! ### Beam timing (chapter 3) -/

/-- The beam timing block, beside its registers. -/
structure TimSt where
  /-- Crossing counter: orbit and slot of the crossing being counted (R83). The orbit is counted on from that of lock; the orbit number
  that the engine shows and compares is it modulo 2^50 (R77). -/
  orbit : Nat
  slot : Nat
  /-- The orbit number of the first counted crossing of the next SMA lock (R77). -/
  nextOrbit : Nat
  /-- The PLL is locked (R76). -/
  pll : Bool
  /-- A window of 1 ms within ±200 ppm has been measured since acquisition restarted (R76). -/
  freqOk : Bool
  /-- Acquisition: consecutive valid crossings; crossings since the last marker (0: none seen); markers seen at the
  right spacing; words of the record being read; orbit number of the record of step 5 plus 1 (0: none). -/
  goodChars : Nat
  sinceMark : Nat
  marks : Nat
  acqWords : List Nat
  acqOrbit : Nat
  /-- The last sample of ORBIT_IN (R75). -/
  orbitIn : Bool
  /-- Locked: words of the orbit record so far, consecutive failures (R73). -/
  recWords : List Nat
  recFails : Nat
  /-- Consecutive crossings without a valid character 0 or edge (R78). -/
  absent : Nat
  /-- Code errors of the last 256 crossings: crossings ago and count (R78). -/
  errs : List (Nat × Nat)
  /-- The command byte of the previous counted crossing plus 1 (0: none), and the one that has acted, plus 1, until a crossing since
  lock carries another (R74). -/
  prevCmd : Nat
  acted : Nat
  /-- A timing command that acts, to be taken by its own row (R74). -/
  cmdDue : Option Nat
  /-- TIM_RMISS has counted no miss since it was last read (R87). -/
  rmissFresh : Bool
  /-- Latest arrival per internal boundary (R88). -/
  rpWorst : Tab
  /-- The slot 0 at which lock is to be declared has come (R76). -/
  acqReady : Bool
  /-- The first crossing whose frame is created since lock, or since STANDBY was left; none while unlocked (R79, R92). -/
  resume : Option Nat
  /-- Crossing numbers at which TIM_STAT.BEAM changed, latest first, with the new value (R72). -/
  beams : List (Nat × Bool)
  /-- BC boundaries of the sweep clock so far. -/
  bc : Nat
  /-- Orbits counted, modulo what the skew epochs need (R113). -/
  orbits : Nat
deriving DecidableEq, Repr

/-! ### Event fabric and interrupts (chapter 15) -/

/-- A queued notification (R327). -/
structure Note where
  src : Nat
  ring : Nat
  crossing : Nat
  count : Nat
  data : Nat
deriving DecidableEq, Repr

/-- A consumer input's gate (R319): EVT_CGATE's KIND, SEL and INV. -/
structure Gate where
  kind : Nat
  sel : Nat
  inv : Nat
deriving DecidableEq, Repr

/-- Events that reached input `c` under a gate that has been changed since (R325): how many, the gate, and whether it is an ARM gate that a
firing has opened. -/
structure OldEvents where
  c : Nat
  n : Nat
  gate : Gate
  armed : Bool
deriving DecidableEq, Repr

/-- Requests that channel `ch` absorbed under routes that have been changed since (R325): who listened, behind which gates, and whose ARM
gates it opened. -/
structure OldRequests where
  ch : Nat
  subs : List (Nat × Gate)
  arms : List Nat
deriving DecidableEq, Repr

/-- A message that the interrupt controller holds for the host (R337): its source and vector, and whether the vector or the function is
masked, so that it counts as masked before acceptance. -/
structure HostIrq where
  src : Nat
  vec : Nat
  masked : Bool
deriving DecidableEq, Repr

/-- The event fabric and the interrupt controller, beside their registers. -/
structure EvtSt where
  /-- Consumer input to events that reached it since its last sampling edge (R323). -/
  inbox : Tab
  /-- Consumer input to 1 where a firing of its ARM channel has arrived since the last edge (R319). -/
  armbox : Tab
  /-- Channel to 1 in hold-off, 2 in hold-off with requests absorbed (R318). -/
  hold : Tab
  /-- Channel to requests in the present guard window (R326). -/
  window : Tab
  notes : List Note
  /-- Interrupt lines that hold a value the controller has not taken: source to 1 + its BC of raising (R329, R331). -/
  lines : Tab
  /-- Level lines: source to 1 where the value taken is 1 (R329). -/
  taken : Tab
  /-- Pending sources of decision cores: source to the BC from which they are presented (R331). -/
  due : Tab
  /-- The latest levels of the NIM inputs, after MNU_ICFG.INV (R319). -/
  nimNow : Nat
  /-- What waits under a bank that has been changed (R325). -/
  oldbox : List OldEvents
  oldHold : List OldRequests
  /-- Source to IRQ_SFILT.N when its line was raised (R325, R329). -/
  lineN : Tab
  /-- The messages held for the host, oldest first (R337). -/
  msgs : List HostIrq
  /-- Source presented to SC0 in place of its core to 1 + that core (R336). -/
  redir : Tab
deriving DecidableEq, Repr

/-! ### Counters (chapter 16) -/

/-- A write to a counter on its way (R343): `kind` 0 load, 1 compare, 2 CNT_CFG. `armed`: a BC boundary has passed. -/
structure CntWrite where
  n : Nat
  kind : Nat
  val : Nat
  armed : Bool
deriving DecidableEq, Repr

/-- The counters, beside their registers. -/
structure CntSt where
  writes : List CntWrite
  /-- Counter to activations of its count input not yet counted (R340). -/
  acts : Tab
  /-- A snapshot is in progress (R349), and the counters whose chains have latched. -/
  snapping : Bool
  latched : List Nat
  /-- SNAP commands waiting for it: ring, tag, NOTIFY, buffer address. -/
  snaps : List (Nat × Nat × Bool × Nat)
deriving DecidableEq, Repr

/-! ### Power (chapter 21) -/

/-- A state request that waits for its crossing boundary (R434). -/
structure StReq where
  ring : Nat
  tag : Nat
  notify : Bool
  target : Nat
  /-- The named crossing; none for apply-at 0. -/
  named : Option Nat
deriving DecidableEq, Repr

/-- A commit that waits to be accepted until its record can be started (R370, R431): its command, the blocks, and `object` as in `Pend`; the
verified object where it installs one. -/
structure Unrecorded where
  p : Packet
  blocks : List Nat
  object : Nat
  obj : List Byte
deriving DecidableEq, Repr

/-- The power block, beside its registers. -/
structure PwrSt where
  reqs : List StReq
  /-- FAULT causes detected and not yet entered (R447). -/
  faultDue : Nat
  /-- A timing command that changes the state at the next boundary: 2 FILL_END, 3 FILL_START (R435). -/
  fillDue : Nat
  /-- Domain to consecutive updates with a margin below 2 % (R442). -/
  lowRuns : Tab
  /-- REQ_STATE commands that named SAFE in STANDBY, completing when SAFE is entered (R444). -/
  wakers : List StReq
  /-- The die temperature has reached WARN and not yet fallen 5 °C below (R446). -/
  hot : Bool
  /-- No new journal record is started: no module reports AC good (R431). -/
  acOut : Bool
  /-- The crossing number at which ARMED was entered; none in another state (R29). -/
  armed : Option Nat
  /-- Commits that wait for AC to return (R370, R431). -/
  unrecorded : List Unrecorded
  /-- SAFE has been entered since the last reset (R398). -/
  reached : Bool
deriving DecidableEq, Repr

/-! ### Shevo links (chapter 4) -/

/-- A segment on its way to, or held in, its alignment buffer (R85, R86): source index, crossing number, skew, the
crossing at whose start it reaches the buffer, and its words or samples. -/
structure Seg where
  q : Nat
  n : Nat
  skew : Int
  due : Nat
  words : List Nat
deriving DecidableEq, Repr

/-- The links, beside their registers. -/
structure LnkSt where
  /-- Segments in the receive stage (R97). -/
  rx : List Seg
  /-- Segments in the alignment buffers (R86). -/
  buf : List Seg
  /-- Lane to consecutive valid headers in HUNT, and to consecutive missing ones in UP (R108). -/
  good : Tab
  bad : Tab
  /-- Lanes that entered UP in a holding mode and still adapt for 1 ms (R115). -/
  adapting : Tab
  /-- Lane to 1 + the running number of the coefficients it holds (R115). -/
  coefs : Tab
  /-- Lane to the last 58 bits that its descrambler has taken (R95). -/
  scr : Tab
  /-- Slot tables that a commit has replaced, oldest first: the crossing from which the next ones govern, and the old ones (R112). -/
  banks : List (Nat × Tab)
  /-- Skew records: `16 q + j` for the present epoch (j = 0) and the complete epochs 1 (latest) to 8; 1 +
  256 × (MIN + 128) + (MAX + 128), 0 where the epoch holds no segment (R113). -/
  skew : Tab
deriving DecidableEq, Repr

/-! ### Cell map (chapter 5) -/

/-- The map, beside its tables. -/
structure MapSt where
  /-- Staged mask writes not yet committed, oldest first (R133). -/
  staged : List MaskWrite
  /-- Unstaged mask writes waiting for the next frame, oldest first (R132). -/
  unstaged : List MaskWrite
deriving DecidableEq, Repr

/-! ### Domes (chapter 6) -/

/-- The Domes, beside their tables: last-good images by map source (R155), and the set under which the previous frame
was composed. -/
structure DomSt where
  images : List (Nat × Tab)
  prev : Tab
deriving DecidableEq, Repr

/-! ### Frames (chapters 1, 6 to 11) -/

/-- An object kept by a Turret (R185 to R191), less what its frame gives. -/
structure Obj where
  col : Nat
  row : Nat
  e : Nat
  esat : Bool
  iso : Nat
  peak : Nat
  cls : Nat
  rank : Nat
  rtrunc : Bool
deriving DecidableEq, Repr

/-- What the Domes and Turrets make of a frame (chapters 6 and 8). -/
structure Pic where
  /-- Composed cells of Dome A and Dome B, row by row; empty until composed. -/
  outs : List (List Nat)
  /-- DSUM A and B; region sums, 16 of each Dome. -/
  dsum : List Nat
  rsum : List Nat
  /-- Kept objects of Turret A and B; seeds; OVF and RTRUNC of each. -/
  objs : List (List Obj)
  nseed : List Nat
  ovf : List Bool
  rtr : List Bool
deriving DecidableEq, Repr

/-- The decision of a frame (chapter 10). -/
structure Dec where
  /-- The core that handled it (255 none), its result word, and whether it overran (R293 to R297). -/
  core : Nat
  res : Nat
  resOk : Bool
  covr : Bool
  /-- Its core has taken it (R295). -/
  taken : Bool
  /-- Finial: ACCEPT, LRAW, passed conditions, suppression FLAGS bits 15 to 19, captured inputs, DEAD (R221 to R229). -/
  acc : Nat
  lraw : Nat
  pass : List Nat
  supp : Nat
  inputs : Nat
  deadT : Bool
  /-- The Finial has evaluated it. -/
  decided : Bool
  /-- OUT drove its NIM outputs; ACCNUM after it (R227). -/
  driven : Bool
  accnum : Nat
  /-- The Tandem digest of the frame; the partner's digest and flags where they have come (R417, R418). -/
  digest : Nat
deriving DecidableEq, Repr

/-- A frame in the pipeline, the stage buffers or both (R18, R19, R25). -/
structure Frame where
  /-- Its crossing number, the BC boundary of its creation and the engine state then. -/
  n : Nat
  born : Nat
  st : Nat
  /-- The parameter set and every other staged field that governs it, with the sprite anchors (R8, R19, R205). -/
  cfg : Tab
  /-- TIM_STAT.BEAM of its crossing. -/
  beam : Bool
  /-- It has been cut off: the engine left the states that complete it. -/
  dead : Bool
  invalid : Bool
  stale : Bool
  spr : Bool
  /-- Cells of the map sources (`cellKey`) and the sources that are not ready (R130, R134, R248). -/
  cells : Tab
  bad : List Nat
  /-- A boundary of the abort path missed its release point (R165). -/
  pathMiss : Bool
  /-- Keep: fail-safe, request, keepsum, abort state (R165 to R167). -/
  fs : Bool
  req : Bool
  keepsum : Nat
  abort : Bool
  /-- Pictures and objects. -/
  pic : Pic
  /-- Bypass and filtered bus values, and monitor codes (R241, R242, R252). -/
  byp : List Int
  flt : List Int
  mon : List Int
  /-- The decision. -/
  dec : Dec
deriving DecidableEq, Repr

/-- An accepted capture whose frames have not been copied yet (R174, R366): crossing number, ACCEPT. -/
structure Cap where
  n : Nat
  accept : Nat
  /-- It has waited for the staging buffer, and MEM_CSTALL has counted it (R366). -/
  stalled : Bool
deriving DecidableEq, Repr

/-- The Keep layer's abort state (R167, R168). -/
structure KeepSt where
  /-- Consecutive frames with req = 0 evaluated since the last request or cause. -/
  quiet : Nat
  /-- Frames created before this BC boundary were created before the last cause of R168 ended. -/
  hot : Nat
  /-- The abort state of the most recent frame, or of the cause. -/
  state : Bool
  /-- Causes of R168 that hold: bit 2 UNLOCK, 3 NOBUNDLE, 4 STATE, as in OUT_KCAUSE. -/
  causes : Nat
  /-- Crossing number of the most recent frame plus 1, and whether it was fail-safe. -/
  lastN : Nat
  lastFs : Bool
  /-- The abort level on the decision lanes (R169). -/
  laneFlag : Bool
  /-- The installed bundle object, header to body; empty where none is installed (R171, R406). -/
  object : List Byte
deriving DecidableEq, Repr

/-- The transmit side of a decision lane (R232, R233). -/
structure DlTx where
  /-- The last frame it sent, first bit most significant, its length F, and the fill bits after it. -/
  word : Nat
  len : Nat
  fill : Nat
  /-- What is left of R / f beyond whole bits, in units of 1 / f (R98). -/
  rem : Nat
  /-- The last 58 bits the scrambler sent (R95). -/
  scr : Nat
  /-- Bits that have not filled a block yet, and how many. -/
  carry : Nat
  carryN : Nat
  /-- The blocks that the lane sent with the last frame, as the line carries them. -/
  blocks : List LineBlock
  /-- Transmit disable is asserted to its module. -/
  disable : Bool
deriving DecidableEq, Repr

/-- A decision lane at reset. -/
def DlTx.reset : DlTx :=
  { word := 0, len := 0, fill := 0, rem := 0, scr := 0, carry := 0, carryN := 0, blocks := [], disable := true }

/-- The display path and the outputs, beside their registers and the frames. -/
structure OutSt where
  /-- History entries recorded in each Dome's part of the ring, modulo its depth; POST entries still to record. -/
  hidx : List Nat
  hpost : List Nat
  /-- The BC of the creation of the first frame that the ring takes since it was emptied (R178), and of the frame of the last trigger
  (R179, R180). -/
  hfrom : Nat
  htrig : Nat
  /-- Freezes that are due, by cause of OUT_HSTAT, 1 for FAULT; the first is in progress (R179, R180, R369). -/
  freezes : List Nat
  caps : List Cap
  /-- NIM output levels, eight sweep cycles each, bit 0 first (R229, R231). -/
  nim : List Nat
  /-- Monitor DAC codes (R252). -/
  mon : List Int
  /-- The ABORT SMA output is driven and asserted; the decision lanes' last frames, most significant bit first (R232). -/
  abortPin : Bool
  dl : List Nat
  dlTx : List DlTx
  /-- Outputs are undriven (OFF, Table 1.5). -/
  undriven : Bool
  /-- Relay operation counts held in the journal (R234). -/
  relayJournal : List Nat
deriving DecidableEq, Repr

/-- The Finial, beside its registers. -/
structure FinSt where
  /-- The MNU part of the active set at the last commit: changes of PS and PSOFF show against it; and the values that prescale counters
  take with the frames created from a BC on: the BC, the condition, PSOFF (R222). -/
  prev : Tab
  psets : List (Nat × Nat × Nat)
  /-- Crossing numbers of recent accepts, latest first, and the orbit length they are counted in (R223). -/
  accs : List Nat
  /-- Captured input states of recent crossings, latest first: the BC and a bit for each input (R224). -/
  nim : List (Nat × Nat)
  /-- Log streams: ring, stamp of the first entry, entries packed so far (R228). -/
  batches : List (Nat × Nat × List Byte)
deriving DecidableEq, Repr

/-- A crosspoint that keeps its old gain (R245): input, bus, old gain, the crossing number of its timeout. -/
structure Wait where
  i : Nat
  n : Nat
  old : Int
  limit : Nat
deriving DecidableEq, Repr

/-- The Belfry, beside its registers. -/
structure BelSt where
  /-- Input to its accumulator (R238), its count of quiet frames in the pulse state (R239), of silent frames (R250), and
  1 + 2 × (d + 2^15) + 1 of the previous frame where its sample was present (R244). -/
  acc : Tab
  quiet : Tab
  silent : Tab
  prevD : Tab
  /-- Delay line of each bus, latest first (R242); an empty list holds zeros. -/
  delay : List (List Int)
  waits : List Wait
  /-- Wake requests held: input and crossing number (R251). -/
  wakes : List (Nat × Nat)
  /-- Staged set of the previous frame: changes of MODE, K and SEN show against it (R240, R250). -/
  prev : Tab
deriving DecidableEq, Repr

/-! ### Memories (chapter 17) -/

/-- A record of the settings journal (R370): its sequence number, what it holds, its CRC-32 and the bytes it takes. `kind` and what goes
with it: 0 the configuration (`set`), 1 the Keep bundle (`data`) with SEC_KEEPVER (`val`), 2 the Lantern bitstream (`data`), 3 the owner
key (`data`); an item that is absent has no bytes. -/
structure JRec where
  seq : Nat
  kind : Nat
  val : Nat
  set : Tab
  data : List Byte
  crc : Nat
  size : Nat
deriving DecidableEq, Repr

/-- The settings journal (R32, R33, R370, R405): what survives loss of power. -/
structure Journal where
  /-- Its records, oldest first. -/
  recs : List JRec
  /-- Sequence number of the next record. -/
  seq : Nat
  /-- Bytes written to the device so far, which go round it (R370). -/
  written : Nat
deriving DecidableEq, Repr

/-- The newest record of a kind. -/
def Journal.newest (j : Journal) (kind : Nat) : Option JRec := j.recs.reverse.find? (fun r => r.kind == kind)

/-- The configuration that the journal holds (R33): that of the last accepted commit. -/
def Journal.cfg (j : Journal) : Tab := ((j.newest 0).map (·.set)).getD []

/-- The Keep bundle that the journal holds; empty where there is none. -/
def Journal.bundle (j : Journal) : List Byte := ((j.newest 1).map (·.data)).getD []

/-- SEC_KEEPVER, held with the bundle (R405). -/
def Journal.keepVer (j : Journal) : Nat := ((j.newest 1).map (·.val)).getD 0

/-- The Lantern bitstream that the journal holds; empty where there is none. -/
def Journal.bits (j : Journal) : List Byte := ((j.newest 2).map (·.data)).getD []

/-- The owner key that the journal holds; empty where there is none (R401). -/
def Journal.owner (j : Journal) : List Byte := ((j.newest 3).map (·.data)).getD []

/-- The engine's memories, beside their registers and the tables. -/
structure MemSt where
  /-- SRAM and capture memory: engine address to byte, in canonical form (`memWf`); an address not listed holds 0. A word
  that holds an error lists the byte it should hold. -/
  cells : List Host.Cell
  /-- SRAM words that hold an error: 8-byte word index to the inverted data bits + 2^64 × the inverted check bits. -/
  ecc : Tab
  /-- Which of the two program-table banks of Table 17.1 is active (R303). -/
  bank : Nat
  /-- Corrected words that have still to be written back (R360). -/
  wback : List Nat
  /-- Bursts of capture memory that hold an error, by address / 64: 1 for a single-bit error, 2 for more (R372). -/
  lecc : Tab
  /-- Port-1 accesses that have not been served, oldest first, and bank to 1 + the place of the requester it served last (R357). -/
  waiting : List (Requester × PortAccess)
  served : Tab
  /-- What the accesses of ports 0 and 1 in the last bank cycle returned, with the error flag (R358, R360). -/
  portRead : List (Nat × Bool)
  /-- Bytes of the copier's staging buffer that have not drained to capture memory (R366). -/
  stageUsed : Nat
  /-- Held freeze slots, oldest first (R369). -/
  held : List Nat
  /-- 1 + the BC of the last CECC event, which comes once per second at most (R372); 0 before the first. -/
  ceccAt : Nat
  journal : Journal
deriving DecidableEq, Repr

/-! ### Spire cores (chapters 13 and 14) -/

/-- A write on its way (R274, R301): a physical register (0 to 31, fast bank 32 to 39) or a half-word address of data
memory, the value, and the core cycle at whose start it arrives. -/
structure Flight where
  dst : Nat
  val : Nat
  due : Nat
deriving DecidableEq, Repr

/-- An outstanding CP2 fetch (R303, R304): source, destination, length and the BC in which it issued. -/
structure Fetch where
  src : Nat
  dst : Nat
  len : Nat
  bc : Nat
deriving DecidableEq, Repr

/-- One Spire core (chapters 13, 14). -/
structure SpireCore where
  /-- SPR_CSTAT.STATE: 0 STOPPED, 1 RUNNING, 2 HALTED, 3 IN WFF. -/
  st : Nat
  pc : Nat
  /-- Physical registers: g0 to g31 of the normal bank, 32 to 39 the fast g24 to g31 (R266). -/
  regs : Tab
  /-- Control words by number, held exclusive-ORed with their reset values (Tables 13.6, 14.2). -/
  cw : Tab
  /-- The cycle in which the next instruction issues, counted since reset (CW_CYC). -/
  cyc : Nat
  /-- The frozen CW_CYC_HI (R281). -/
  cycHi : Option Nat
  /-- Results, and GATHER half-words, still to arrive, in the order of arrival (R276, R301). -/
  flight : List Flight
  gather : List Flight
  /-- Which delay slot the next instruction is, 0 for none, and the target where the transfer is taken (R278). -/
  slot : Nat
  slotTgt : Option Nat
  /-- The destination of the WFF that waits (R290). -/
  waitRd : Nat
  /-- The frame taken last (R295), the cycle of its taking, and whether it is finished (R296). -/
  frame : Option Frame
  tookAt : Nat
  /-- The first cycle after that frame's budget. -/
  endAt : Nat
  done : Bool
  /-- The result word and the histogram bins (R300). -/
  resw : Nat
  bins : Tab
  fetch : Option Fetch
  /-- Cycles at which the interrupts presented to it, normal and fast, were presented (R286). -/
  presN : Nat
  presF : Nat
deriving DecidableEq, Repr

/-- A core after power-on reset (R281, R298, R313). -/
def SpireCore.reset : SpireCore :=
  { st := 0, pc := 0, regs := [], cw := [], cyc := 0, cycHi := none, flight := [], gather := [], slot := 0, slotTgt := none,
    waitRd := 0, frame := none, tookAt := 0, endAt := 0, done := true, resw := 0, bins := [], fetch := none, presN := 0,
    presF := 0 }

/-- STOP, images and START of a commit on their way to crossing v of its frame (R310): the frame's crossing number and
the masks of cores. -/
structure SpireRun where
  n : Nat
  stops : Nat
  starts : Nat
  imem : Nat
  dmem : Nat
deriving DecidableEq, Repr

/-- The inputs that the Lantern has from the die in a BC (Table 14.5): the slot of the frame that enters the Finial, if one does, and the NIM
inputs after INV in each sweep cycle. SCIDX is the index into the last. -/
structure LanIn where
  fslot : Nat
  fvalid : Bool
  nimin : List Nat
deriving DecidableEq, Repr

/-- The cores, the core cycle at which the present BC starts, and the runs on their way. -/
structure SprSt where
  cores : List SpireCore
  base : Nat
  runs : List SpireRun
  lan : LanIn
  /-- Words of the core memories that hold an error (R298): the word's key to the inverted data bits + 2^32 × the inverted check bits. The
  word itself lists the value it should hold. -/
  ecc : Tab
deriving DecidableEq, Repr

/-! ### DMA movers and blitters (chapter 18) -/

/-- One DMA channel, beside its registers. DMA_CUR holds the address of its descriptor, or of the next one to be read. -/
structure Chan where
  /-- The descriptor it has read, 32 bytes; empty where it has still to read it (R375). -/
  desc : List Byte
  /-- Its address was chosen at a hand-over (R379), not taken from DMA_HEAD. -/
  linked : Bool
  /-- Bytes of the descriptor moved or compared, and the position at which the burst under way ends (R380). -/
  pos : Nat
  burst : Nat
  /-- A COMPARE has found a difference at `pos` (R376). -/
  mism : Bool
  /-- LATE is due in the next write-back (R379). -/
  late : Bool
  /-- Held writes to DMA_HEAD_HI and DMA_NEXT_HI. -/
  headHi : Option Nat
  nextHi : Option Nat
  /-- Data read from host memory and not used yet, and whether a read has failed (R377, R380). -/
  buf : List Byte
  failed : Bool
  /-- The host interface has been reset under the chain (R38, R377). -/
  cut : Bool
  /-- An abort waits for the burst under way (R382); the ABORT commands that wait for it: ring, tag, NOTIFY. -/
  aborting : Bool
  waiters : List (Nat × Nat × Bool)
deriving DecidableEq, Repr

/-- A channel after reset. -/
def Chan.reset : Chan :=
  { desc := [], linked := false, pos := 0, burst := 0, mism := false, late := false, headHi := none, nextHi := none,
    buf := [], failed := false, cut := false, aborting := false, waiters := [] }

/-- One blitter, beside its registers. -/
structure Blt where
  /-- The operation that runs: the images of words +0x000 to +0x03C, and the pattern, as they were at its start. -/
  img : List Nat
  pat : List Nat
  /-- Rows written, and elements written of the present row. -/
  row : Nat
  col : Nat
  /-- The BLIT command that started it: ring, tag, NOTIFY. -/
  cmd : Option (Nat × Nat × Bool)
deriving DecidableEq, Repr

/-- The movers and blitters. -/
structure MovSt where
  chans : List Chan
  /-- The channel that holds the mover within a burst, and the channel last served (R380). -/
  holder : Option Nat
  last : Nat
  blts : List Blt
deriving DecidableEq, Repr

/-! ### Security (chapter 19) -/

/-- An open transfer (R396): its opcode, ring, context and target, the total length, the next SEQ and the bytes so far. -/
structure Xfer where
  op : Nat
  ring : Nat
  ctx : Nat
  target : Nat
  total : Nat
  seq : Nat
  data : List Byte
deriving DecidableEq, Repr

/-- A delivered object that waits for SC0, or is being verified (R395): its opcode, its last packet less the payload, and its
bytes. -/
structure Verif where
  op : Nat
  p : Packet
  obj : List Byte
deriving DecidableEq, Repr

/-- A verified owner claim that waits for CONFIRM (R402): the command, and the key. -/
structure Claim where
  ring : Nat
  tag : Nat
  notify : Bool
  key : List Byte
deriving DecidableEq, Repr

/-- An ATTEST command in order of starting (R409); `body` is empty until its report starts. -/
structure Report where
  ring : Nat
  tag : Nat
  notify : Bool
  addr : Nat
  nonce : List Byte
  body : List Byte
deriving DecidableEq, Repr

/-- The security block, beside its registers. -/
structure SecSt where
  xfers : List Xfer
  /-- Verifications in their order; the first is under way (R395). -/
  verifs : List Verif
  /-- The owner key, 64 bytes; empty where none is held (R401). -/
  ownerKey : List Byte
  /-- The objects in firmware slots A and B (R397, R399). -/
  slots : List (List Byte)
  /-- The active bitstream object; empty where there is none (R309). -/
  bits : List Byte
  /-- The verified bundle, and bitstream, whose commit is pending (R171, R309). -/
  bundleDue : List Byte
  bitsDue : List Byte
  claim : Option Claim
  reports : List Report
  /-- The device identity public key, as derived from the seed at the last start-up; empty before it (R392). -/
  deviceKey : List Byte
deriving DecidableEq, Repr

/-! ### Tandem pair (chapter 20) -/

/-- A partner's frame (R414, R418): the crossing number it carries, VALID and DIGEST, and its FLAGS. -/
structure Partner where
  n : Nat
  valid : Bool
  digest : Nat
  flags : Nat
deriving DecidableEq, Repr

/-- A planned switch that this unit holds the permit for (R427). -/
structure Switch where
  k : Nat
  ring : Nat
  tag : Nat
  notify : Bool
  echoed : Bool
deriving DecidableEq, Repr

/-- The Tandem block, beside its registers. -/
structure TdmSt where
  /-- Partner frames received, latest first. -/
  partners : List Partner
  /-- Consecutive frames that agreed with this unit's own (R415). -/
  agree : Nat
  /-- Consecutive crossings without a valid frame; a valid frame has come in the present crossing, and in the previous
  one (R414, R415). -/
  silent : Nat
  got : Bool
  rxOk : Bool
  /-- A partner frame with PERMIT = 1 has been received since ARMED was entered (R424). -/
  seen : Bool
  /-- Consecutive frames under R424's second condition. -/
  failing : Nat
  /-- Permit changes, latest first: from frame `n` on, taken or released (R422). -/
  permits : List (Nat × Bool)
  /-- Crossing numbers of recent mismatches (R419). -/
  mism : List Nat
  sw : Option Switch
  /-- The switch frame this unit has echoed (R427). -/
  echo : Option Nat
  /-- The Tandem frame sent last, 168 bits, its first bit the most significant. -/
  tx : Nat
deriving DecidableEq, Repr

/-! ### The engine -/

/-- The whole block but its command queue. -/
structure Engine where
  /-- Active copies of staged fields and tables (R8), key to value exclusive-ORed with the reset value. -/
  active : Tab
  /-- Staged copies of the same. -/
  staged : Tab
  /-- Fields that are not staged, and the local event matrices. -/
  regs : Tab
  /-- Writes to fields that are not staged, waiting for the next boundary, oldest first (R9). -/
  r9 : List (Fld × Nat)
  /-- The model's own field: the running number of the next free value (assumption 1). -/
  free : Nat
  host : HostSt
  tim : TimSt
  lnk : LnkSt
  map : MapSt
  dom : DomSt
  keep : KeepSt
  out : OutSt
  fin : FinSt
  bel : BelSt
  mem : MemSt
  /-- Frames in the pipeline and the stage buffers, latest first (R18, R25). -/
  frames : List Frame
  spr : SprSt
  mov : MovSt
  evt : EvtSt
  cnt : CntSt
  pwr : PwrSt
  sec : SecSt
  tdm : TdmSt
deriving DecidableEq, Repr

/-- The machine: the engine and the queue of commands that wait, first in, first out. -/
structure State where
  eng : Engine
  pending : List Instr
deriving DecidableEq, Repr

/-! ### Reset -/

/-- The fields whose value after power-on reset depends on their index: EVT_SOWN.SEC of the secure sources (Table 15.1)
and IRQ_SFILT.LEVEL of the level sources; and the presence and status of the supply modules, which the spec leaves open
(assumption 38). -/
def resetRegs : List (Fld × Nat) :=
  (([(0, 6), (16, 11), (32, 11), (48, 9), (96, 2), (224, 3)] : List (Nat × Nat)).flatMap (fun r =>
    (List.range r.2).map (fun i => (Reg.EVT_SOWN_SEC (r.1 + i), 1))))
  ++ (List.range 16).map (fun i => (Reg.IRQ_SFILT_LEVEL (320 + i), 1))
  ++ (List.range 2).flatMap (fun m => [(Reg.PWR_SUP_PRES m, 1), (Reg.PWR_SUP_ACOK m, 1), (Reg.PWR_SUP_DCOK m, 1)])

/-- The host interface after reset (R38, Table 2.13). -/
def HostSt.reset : HostSt :=
  { rings := [], ctxs := [], owners := [], locks := [], pends := [], started := [], held := [], rr := 0,
    nextUid := 0, out := [], wait := [], used := 0, usedCtl := 0,
    msix := [], pba := [], fnMask := false, d3hot := false, crs := true, cfgAnswer := 0, cfgData := [],
    lastRead := 0, frozen := [], draining := false, ptmTime := 0, ptmBc := 0, ptmFails := 0, ptmSeen := false }

/-- Beam timing after reset: step 1 of acquisition (R76, Table 3.8). -/
def TimSt.reset : TimSt :=
  { orbit := 0, slot := 0, nextOrbit := 0, pll := false, freqOk := false, goodChars := 0, sinceMark := 0, marks := 0,
    acqWords := [], acqOrbit := 0, orbitIn := false, recWords := [], recFails := 0, absent := 0, errs := [],
    prevCmd := 0, acted := 0, cmdDue := none, rmissFresh := true, rpWorst := [], acqReady := false, resume := none,
    beams := [], bc := 0, orbits := 0 }

/-- The outputs after reset: safe levels, ABORT asserted (Table 1.5). -/
def OutSt.reset : OutSt :=
  { hidx := [0, 0], hpost := [0, 0], hfrom := 0, htrig := 0, freezes := [], caps := [], nim := List.replicate 16 0, mon := List.replicate 8 0,
    abortPin := true, dl := List.replicate 8 0, dlTx := List.replicate 8 DlTx.reset, undriven := false, relayJournal := [0, 0] }

/-- The memories after power-on reset: all 0, an empty journal (R361, R370). -/
def MemSt.reset : MemSt :=
  { cells := [], ecc := [], bank := 0, wback := [], lecc := [], waiting := [], served := [], portRead := [], stageUsed := 0, held := [],
    ceccAt := 0, journal := { recs := [], seq := 0, written := 0 } }

/-- The Tandem block after reset: its link is down (Table 20.4). -/
def TdmSt.reset : TdmSt :=
  { partners := [], agree := 0, silent := 0, got := false, rxOk := false, seen := false, failing := 0, permits := [],
    mism := [], sw := none, echo := none, tx := 0 }

/-- The security block after power-on reset. The firmware in the two slots is the unit's (R397; assumption 33). -/
def SecSt.reset : SecSt :=
  { xfers := [], verifs := [], ownerKey := [], slots := [Config.slotImage 0, Config.slotImage 1], bits := [],
    bundleDue := [], bitsDue := [], claim := none, reports := [], deviceKey := [] }

/-- The engine after power-on reset (R10, Table 21.4): every field at its reset value. -/
def Engine.reset : Engine :=
  { active := [], staged := [], regs := Tab.puts [] resetRegs, r9 := [], free := 0
    host := HostSt.reset, tim := TimSt.reset
    lnk := { rx := [], buf := [], good := [], bad := [], adapting := [], coefs := [], scr := [], banks := [], skew := [] }
    map := { staged := [], unstaged := [] }
    dom := { images := [], prev := [] }
    keep := { quiet := 0, hot := 0, state := true, causes := 0, lastN := 0, lastFs := false, laneFlag := true, object := [] }
    out := OutSt.reset
    fin := { prev := [], psets := [], accs := [], nim := [], batches := [] }
    bel := { acc := [], quiet := [], silent := [], prevD := [], delay := [], waits := [], wakes := [], prev := [] }
    mem := MemSt.reset, frames := []
    spr := { cores := List.replicate 34 SpireCore.reset, base := 0, runs := [], lan := { fslot := 0, fvalid := false, nimin := List.replicate 8 0 }, ecc := [] }
    mov := { chans := List.replicate 64 Chan.reset, holder := none, last := 63,
             blts := List.replicate 2 { img := [], pat := [], row := 0, col := 0, cmd := none } }
    evt := { inbox := [], armbox := [], hold := [], window := [], notes := [], lines := [], taken := [],
             due := [], nimNow := 0, oldbox := [], oldHold := [], lineN := [], msgs := [], redir := [] }
    cnt := { writes := [], acts := [], snapping := false, latched := [], snaps := [] }
    pwr := { reqs := [], faultDue := 0, fillDue := 0, lowRuns := [], wakers := [], hot := false, acOut := false, armed := none, unrecorded := [], reached := false }
    sec := SecSt.reset, tdm := TdmSt.reset }

/-- The machine right after power-on reset: BOOT, no command waiting. -/
def State.reset : State := { eng := Engine.reset, pending := [] }

end Sys2Proof.Machine
end

