-- ==== Sys2Proof/Machine/Ops.lean ====
section
/-! DEFINITION. The operations every block shares: register fields and tables, crossing stamps, writes to host memory,
completions, stream records, MSI-X messages, contexts and owners. -/

namespace Sys2Proof.Machine

/-! ### Registers -/

/-- The value of a field that is not staged. -/
def Engine.reg (e : Engine) (f : Fld) : Nat := e.regs.fld f

/-- Give a field that is not staged its value. -/
def Engine.setReg (e : Engine) (f : Fld) (v : Nat) : Engine := { e with regs := e.regs.put f v }

/-- The active value of a staged field (R8). -/
def Engine.act (e : Engine) (f : Fld) : Nat := e.active.fld f

/-- The staged value of a staged field (R8). -/
def Engine.stg (e : Engine) (f : Fld) : Nat := e.staged.fld f

/-- Add `n` to a counter, which saturates at its greatest value (R339, R450; assumption 14). -/
def Engine.bumpBy (e : Engine) (f : Fld) (n : Nat) : Engine := e.setReg f (satU f.width (e.reg f + n))

/-- Add 1 to a saturating counter. -/
def Engine.bump (e : Engine) (f : Fld) : Engine := e.bumpBy f 1

/-- Set a bit field to 1. -/
def Engine.raiseBit (e : Engine) (f : Fld) : Engine := e.setReg f 1

/-- A free value (assumption 1): the value and the engine that has used it. -/
def Engine.freeVal (e : Engine) : Nat × Engine := (Config.freeValue e.free, { e with free := e.free + 1 })

/-! ### Key space of the three tables -/

/-- First key of block table `t`, 1 and up (assumption 15). -/
def tabBase (t : Nat) : Nat := t * 2 ^ 32

/-- Entry `i` of table `t`, `w` bits wide, with value `r` at reset. -/
def tabFld (t i w r : Nat) : Fld := ⟨tabBase t + i, w, r⟩


/-- Table numbers. -/
def tRel : Nat := 1
/-- Tile map (R129). -/
def tTile : Nat := 2
/-- Conversion LUTs (R125). -/
def tConv : Nat := 3
/-- Dead-cell masks (R132). -/
def tDead : Nat := 4
/-- Hot-cell masks (R132). -/
def tHot : Nat := 5
/-- Input LUTs (R147). -/
def tIlut : Nat := 6
/-- Output LUTs (R151). -/
def tOlut : Nat := 7
/-- Alpha planes (R148). -/
def tAlpha : Nat := 8
/-- Sprite memory (R197). -/
def tSprite : Nat := 9
/-- Slot-list entries (R207). -/
def tSeq : Nat := 10
/-- Conditions (R219). -/
def tCond : Nat := 11
/-- Belfry gains (R241). -/
def tGain : Nat := 12
/-- FIR coefficients (R242). -/
def tFir : Nat := 13
/-- Core instruction memories (R298). -/
def tImem : Nat := 14
/-- Core data memories (R298). -/
def tDmem : Nat := 15
/-- Program tables (R303). -/
def tProg : Nat := 16
/-- Keep thresholds of the installed bundle (R163). -/
def tKthr : Nat := 17
/-- Keep placement and limits (R163). -/
def tKeep : Nat := 18
/-- Keep sources: tile entries of source q (R163). -/
def tKsrc : Nat := 19
/-- Keep sources: their lane and slot (R163). -/
def tKlane : Nat := 20
/-- Local event matrices (R316). -/
def tMatrix : Nat := 21
/-- Sprite anchors (R199). -/
def tAnchor : Nat := 22

/-- Oculus set-ups, by ring (R175). -/
def tOcul : Nat := 23
/-- Object-stream set-ups, by ring (R195). -/
def tObjs : Nat := 24
/-- Log-stream set-ups, by ring (R228). -/
def tLogs : Nat := 25
/-- Capture-stream set-ups, by ring (R368). -/
def tCaps : Nat := 26
/-- RUN requests and changed images of staged SPR commits (R310). -/
def tSpr : Nat := 27
/-- User-region windows of shared SRAM (R356). -/
def tWin : Nat := 28

/-- The items of a list with their positions. -/
def indexed {α : Type} (l : List α) : List (Nat × α) := (List.range l.length).zip l

/-- Block code of BAR0 address `a` (Table 0.3); 23 is the ID window, 0 a reserved address. -/
def blockOfAddr (a : Nat) : Nat :=
  if a < 0x100000 then 1 else if a < 0x200000 then 2 else if a < 0x400000 then 3 else if a < 0x600000 then 4
  else if a < 0x800000 then 5 else if a < 0x900000 then 7 else if a < 0xA00000 then 8 else if a < 0xB00000 then 9
  else if a < 0xC00000 then 10 else if a < 0xD00000 then 11 else if a < 0xE00000 then 12 else if a < 0xE80000 then 13
  else if a < 0xF00000 then 14 else if a < 0x1000000 then 15 else if a < 0x1100000 then 16 else if a < 0x1180000 then 17
  else if a < 0x1200000 then 18 else if a < 0x1300000 then 19 else if a < 0x1400000 then 20 else if a < 0x1500000 then 21
  else if a < 0x1600000 then 22 else if a < 0x1F00000 then 0 else if a < 0x2000000 then 23 else 0

/-- Block code of table `t`; the masks (tables 4, 5) are not swapped at a commit (R132, R133). -/
def blockOfTab (t : Nat) : Nat :=
  if t = 1 then 2 else if t ≤ 3 then 4 else if t ≤ 5 then 0 else if t ≤ 8 then 5 else if t = 9 then 7 else if t = 10 then 8 else if t = 11 then 9
  else if t ≤ 13 then 10 else if t ≤ 16 then 11 else if t ≤ 20 then 6 else if t = 21 then 13 else if t = 22 then 7
  else if t = 23 then 22 else if t = 24 then 7 else if t = 25 then 9 else if t = 26 then 16 else if t = 27 then 11 else 0

/-- Block code of a key of the three tables. -/
def blockOfKey (k : Nat) : Nat := if k < 2 ^ 32 then blockOfAddr (k / 32) else blockOfTab (k / 2 ^ 32)

/-- The staged keys of some blocks, out of a table. -/
def Tab.ofBlocks (bs : List Nat) (t : Tab) : Tab := t.filter (fun kv => bs.contains (blockOfKey kv.1))

/-- Staged copies of some blocks that still hold the value `old` gives them take the one `new` gives (R211). -/
def Tab.follow (bs : List Nat) (old new staged : Tab) : Tab :=
  (Tab.ofBlocks bs old ++ Tab.ofBlocks bs new).foldl
    (fun t kv => if staged.get kv.1 = old.get kv.1 then t.set kv.1 (new.get kv.1) else t) staged

/-- Replace the entries of some blocks by those of another table (R8: a captured set becomes active; DISCARD). -/
def Tab.swapBlocks (bs : List Nat) (t u : Tab) : Tab := Tab.replace (fun k => bs.contains (blockOfKey k)) t u

/-- In the set that governs a frame: which bank of the program tables is active for its crossing (R303). -/
def bankFld : Fld := tabFld tAnchor 65 1 0

/-! ### Engine state and crossings -/

/-- TIM is locked (R76). -/
def Engine.locked (e : Engine) : Bool := e.reg Reg.TIM_STAT_LOCK == 1

/-- The engine state (R432). -/
def Engine.st (e : Engine) : Nat := e.reg Reg.PWR_STAT_STATE

/-- SAFE, ARMED or HOLD: the states in which frames are created (Table 1.5, R92). -/
def Engine.running (e : Engine) : Bool := e.st == stSafe || e.st == stArmed || e.st == stHold

/-- ⌈f · t⌉ (R259). -/
def ceilTerm (khz ns : Nat) : Nat := (khz * ns + 999999) / 1000000

/-- Orbit length S. -/
def orbitLen (t : Tab) : Nat := t.fld Reg.TIM_ORBIT_LEN

/-- L_rx (R97, Table 12.1). -/
def lRx (t : Tab) : Nat :=
  ceilTerm (t.fld Reg.TIM_FNOM_KHZ) (if t.fld Reg.LNK_CTL_TRX = 1 then 260 else 110)

/-- BC from a crossing to the creation of its frame: O + L_rx + A (R85). -/
def createDelay (t : Tab) : Nat := t.fld Reg.TIM_ORIGIN_O + lRx t + t.fld Reg.TIM_ALIGN_A

/-- Crossing numbers name crossings modulo 2^50 orbits (R2, R77). -/
def crossMod (s : Nat) : Nat := 2 ^ 50 * s

/-- A crossing number moved by an integer. Crossings are counted on past the wrap of the orbit number, which has no effect (R77); below
0 they are the last ones of the orbit numbers. -/
def crossAdd (s n : Nat) (d : Int) : Nat :=
  let x := (n : Int) + d
  (if x < 0 then x + (crossMod s : Nat) else x).toNat

/-- The crossing number of the crossing being counted (R2, R83). -/
def Engine.counted (e : Engine) : Nat := e.tim.orbit * orbitLen e.active + e.tim.slot

/-- The crossing being created: the crossing whose frame is created in this BC (R83, R85). -/
def Engine.creating (e : Engine) : Nat := crossAdd (orbitLen e.active) e.counted (-(createDelay e.active : Nat))

/-- The 64-bit stamp of crossing number `n` in orbits of `s` slots (R1). -/
def stampOf (s n : Nat) : Nat := n / s % 2 ^ 50 * 2 ^ 14 + n % s

/-- The crossing number a stamp names (R2). -/
def numberOf (s st : Nat) : Nat := st / 2 ^ 14 * s + st % 2 ^ 14

/-- The crossing, counted on as `Engine.counted` is, that a stamp names: the one nearest to the crossing being counted (R58, R77). -/
def Engine.crossingNamed (e : Engine) (st : Nat) : Nat :=
  let m := crossMod (orbitLen e.active)
  let x := e.counted / m * m + numberOf (orbitLen e.active) st % m
  if x + m / 2 < e.counted then x + m else if e.counted + m / 2 < x ∧ m ≤ x then x - m else x

/-- The 32-bit crossing field of a completion (Table 2.6). -/
def cxField (s n : Nat) : Nat := n / s % 2 ^ 18 * 2 ^ 14 + n % s

/-- The crossing field of a completion that commits nothing: the crossing being created, 0 while unlocked (R60, R84;
assumption 16). -/
def Engine.cxNow (e : Engine) : Nat := if e.locked then cxField (orbitLen e.active) e.creating else 0

/-- The stamp of the crossing being created, 0 while unlocked (R84). -/
def Engine.stampNow (e : Engine) : Nat := if e.locked then stampOf (orbitLen e.active) e.creating else 0

/-- HST_CMTLEAD.LEAD: ⌈2.000 µs · f⌉, 0 while unlocked (R58). -/
def Engine.lead (e : Engine) : Nat := if e.locked then ceilTerm (e.act Reg.TIM_FNOM_KHZ) 2000 else 0

/-! ### Writes to host memory -/

/-- Bytes of the outbound buffer, 256 KiB less the reserve, and of the reserve of the Control completion ring (R66). -/
def outLimit : Nat := 15 * 2 ^ 14
/-- See `outLimit`. -/
def ctlLimit : Nat := 2 ^ 14

/-- The outbound buffer has a place for `n` bytes more: in the reserve for Control completion entries, outside it for all else, behind
what waits already. An empty buffer takes a write of any length (assumption 115). -/
def Engine.admits (e : Engine) (ctl : Bool) (n : Nat) : Bool :=
  if ctl then e.host.wait.all (fun x => !x.ctl) && (e.host.usedCtl == 0 || decide (e.host.usedCtl + n ≤ ctlLimit))
  else e.host.wait.isEmpty && (e.host.used == 0 || decide (e.host.used + n ≤ outLimit))

/-- A write to host memory enters the outbound queue, or waits for a place in its buffer (R63, R66). -/
def Engine.postAs (e : Engine) (x : Posted) : Engine :=
  let n := x.bytes.length
  if e.admits x.ctl n then
    { e with host := { e.host with out := e.host.out ++ [x], used := if x.ctl then e.host.used else e.host.used + n
                                   usedCtl := if x.ctl then e.host.usedCtl + n else e.host.usedCtl } }
  else { e with host := { e.host with wait := e.host.wait ++ [x] } }

/-- Queue a write to host memory that keeps its order (R63). -/
def Engine.post (e : Engine) (addr : Nat) (bs : List Byte) : Engine := e.postAs ⟨addr, bs, false, false⟩

/-- The outbound buffer empties over the link; what waits enters it in turn, Control completion entries ahead of all else (R66;
assumption 115). -/
def Engine.linkDrain (e : Engine) : Engine :=
  let w := e.host.wait
  let e1 : Engine := { e with host := { e.host with wait := [], used := 0, usedCtl := 0 } }
  (w.filter (·.ctl) ++ w.filter (fun x => !x.ctl)).foldl Engine.postAs e1

/-- Rings are served: HST_CTL.EN is 1, and the function is in D0 (R38, R70). -/
def Engine.serving (e : Engine) : Bool := e.reg Reg.HST_CTL_EN == 1 && !e.host.d3hot

/-- Word `i` of MSI-X vector `v`; the vector control word has its Mask bit set at reset (assumption 17). -/
def msixFld (v i : Nat) : Fld := ⟨4 * v + i, 32, if i = 3 then 1 else 0⟩

/-- Send the message of MSI-X vector `v`, or set its pending bit where the vector or the function is masked (R51,
R337). -/
def Engine.sendMsix (e : Engine) (v : Nat) : Engine :=
  if e.host.fnMask || tbit (e.host.msix.fld (msixFld v 3)) 0 then
    { e with host := { e.host with pba := e.host.pba.set v (Nat.lor (e.host.pba.get v) 1) } }
  else
    e.post (e.host.msix.fld (msixFld v 0) + 2 ^ 32 * e.host.msix.fld (msixFld v 1))
      (leBytes 4 (e.host.msix.fld (msixFld v 2)))

/-- Send the messages of pending bits whose mask has been lifted (R337). A message that the interrupt controller holds
stays with it (MSIX_SEND). -/
def Engine.flushPba (e : Engine) : Engine :=
  e.host.pba.foldl (fun a kv =>
    if a.host.fnMask || tbit (a.host.msix.fld (msixFld kv.1 3)) 0 || !tbit kv.2 0 then a
    else Engine.sendMsix { a with host := { a.host with pba := a.host.pba.set kv.1 (kv.2 - 1) } } kv.1) e

/-! ### Rings -/

/-- The ring with this ID. -/
def Engine.ring? (e : Engine) (id : Nat) : Option Ring := e.host.rings.find? (fun r => r.id == id)

/-- Give a ring its new contents. -/
def Engine.putRing (e : Engine) (r : Ring) : Engine :=
  { e with host := { e.host with rings := e.host.rings.map (fun q => if q.id == r.id then r else q) } }

/-- Place a new ring, in rising ring ID. -/
def insertRing (r : Ring) : List Ring → List Ring
  | [] => [r]
  | q :: qs => if r.id ≤ q.id then r :: q :: qs else q :: insertRing r qs

/-- Entries in use: producer count − consumer count modulo 2^32. -/
def Ring.used (r : Ring) : Nat := (r.prod + 2 ^ 32 - r.cons) % 2 ^ 32

/-- Free entries. -/
def Ring.space (r : Ring) : Nat := 2 ^ r.k - r.used

/-- The phase bit of the pass that holds count `c`: 1 on the first pass, then alternating (R49). -/
def Ring.phase (r : Ring) (c : Nat) : Nat := 1 - c / 2 ^ r.k % 2

/-- Bytes in an entry (Table 2.4). -/
def Ring.entry (r : Ring) : Nat := if r.typ = 0 ∨ r.typ = 2 then 64 else 16

/-- Host address of the entry that count `c` addresses. -/
def Ring.addr (r : Ring) (c : Nat) : Nat := r.base + r.entry * (c % 2 ^ r.k)

/-- Raise a ring's vector if it has raised none since the last consumer doorbell (R51). -/
def Engine.ringIrq (e : Engine) (r : Ring) : Engine :=
  if r.armed then (e.putRing { r with armed := false }).sendMsix r.vec else e.putRing r

/-- A CPL ring that can take an entry (R50). -/
def Engine.cplOpen (e : Engine) (id : Nat) : Bool :=
  match e.ring? id with
  | some r => e.serving && !r.fault && decide (0 < r.space)
  | none => false

/-- Write one completion entry (Table 2.6, R49, R51). -/
def Engine.writeCpl (e : Engine) (c : Cpl) : Engine :=
  match e.ring? c.cplRing with
  | none => e
  | some r =>
    let bs := leBytes 8 c.tag ++ leBytes 2 c.code ++ leBytes 1 c.detail ++ leBytes 1 (128 * r.phase r.prod)
      ++ leBytes 4 c.crossing
    let e1 := e.postAs ⟨r.addr r.prod, bs, false, r.id == 1⟩
    let r1 := { r with prod := (r.prod + 1) % 2 ^ 32 }
    if c.notify then e1.ringIrq r1 else e1.putRing r1

/-- Write the held completions whose ring has space again, in order (R50). -/
def Engine.flushHeld (e : Engine) : Engine :=
  e.host.held.foldl (fun a c =>
    if a.cplOpen c.cplRing then a.writeCpl c
    else if (a.ring? c.cplRing).isSome then { a with host := { a.host with held := a.host.held ++ [c] } } else a)
    { e with host := { e.host with held := [] } }

/-- The oldest command of ring `ring` with tag `tag` is no longer started (R53 leaves the tags to the host: two may be equal;
assumption 116). -/
def Engine.endStarted (e : Engine) (ring tag : Nat) : Engine :=
  { e with host := { e.host with started := e.host.started.eraseP (fun s => s.ring == ring && s.tag == tag) } }

/-- A completion of this CPL ring waits (R50). -/
def Engine.heldFor (e : Engine) (cpl : Nat) : Bool := e.host.held.any (fun c => c.cplRing == cpl)

/-- Complete a command of CMD ring `ring`: its completion entry goes to the bound CPL ring, or waits, behind those of that ring that wait already, where it is
full or rings are not served; it is discarded where the ring is gone (R41, R50, R60, R70). The command is no longer
started. -/
def Engine.completeAt (e : Engine) (ring tag : Nat) (notify : Bool) (st : Status) (cx : Nat) : Engine :=
  let e := e.endStarted ring tag
  match e.ring? ring with
  | none => e
  | some r =>
    let c : Cpl := ⟨r.cpl, tag, st.code, st.detail % 256, cx, notify⟩
    if !e.heldFor r.cpl && e.cplOpen r.cpl then e.writeCpl c
    else if (e.ring? r.cpl).isSome then { e with host := { e.host with held := e.host.held ++ [c] } } else e

/-- Complete the command of packet `p` with the crossing being created (R60). -/
def Engine.complete (e : Engine) (p : Packet) (st : Status) : Engine :=
  e.completeAt p.ring p.tag p.notify st e.cxNow

/-- Slots of a stream record with `n` payload bytes (R62). -/
def recSlots (n : Nat) : Nat := ceilDiv (16 + n) 64

/-- Drop a record or notification of a ring (R50). -/
def Engine.dropOn (e : Engine) (r : Ring) : Engine := e.putRing { r with drops := r.drops + 1, lost := true }

/-- Flag bit positions of a stream record: STALE, INVALID (Table 2.8). -/
def strFlags (stale invalid : Bool) : Nat := b2n stale + 2 * b2n invalid

/-- Write a stream record: payload slots first, with relaxed ordering, bytes 0 to 15 of the header slot last, without it; a ring that is
stopped, full, in FAULT or not served drops it (R47, R50, R51, R62, R63, R67, R70; assumption 117). Answers whether the record was
written. -/
def Engine.strWrite (e : Engine) (id kind stamp flags : Nat) (payload : List Byte) : Engine × Bool :=
  match e.ring? id with
  | none => (e, false)
  | some r =>
    let n := recSlots payload.length
    if r.fault || !e.serving || r.stopped || decide (r.space < n) then (e.dropOn r, false)
    else
      let hdr := leBytes 8 stamp ++ leBytes 2 kind ++ leBytes 1 (flags + 4 * b2n r.lost)
        ++ leBytes 1 (128 * r.phase r.prod) ++ leBytes 4 payload.length
      let e1 := (List.range n).foldl (fun a i =>
        a.postAs ⟨if i = 0 then r.addr r.prod + 16 else r.addr (r.prod + i),
          if i = 0 then payload.take 48 else (payload.drop (48 + 64 * (i - 1))).take 64, true, false⟩) e
      let e2 := e1.post (r.addr r.prod) hdr
      let r1 := { r with prod := (r.prod + n) % 2 ^ 32, lost := false }
      (if r.intr then e2.ringIrq r1 else e2.putRing r1, true)

/-! ### Contexts, rights, owners, stage locks -/

/-- The context is open. -/
def Engine.ctxOpen (e : Engine) (c : Nat) : Bool := c == 0 || e.host.ctxs.get c != 0

/-- The context holds right `r` of Table 2.3 (R39); context 0 holds every right. -/
def Engine.hasRight (e : Engine) (c r : Nat) : Bool :=
  r == 0 || c == 0 || (e.host.ctxs.get c != 0 && tbit (e.host.ctxs.get c - 1) (r - 1))

/-- Resource kinds (R40; the numbers are the model's, assumption 18): 0 Dome, 1 lane, 2 source, 3 core, 4 DMA channel,
5 blitter, 6 counter, 7 global channel. -/
def resKey (kind i : Nat) : Nat := kind * 2 ^ 16 + i

/-- The number of resources of a kind. -/
def resCount (kind : Nat) : Nat := [2, 144, 1152, 34, 64, 2, 64, 1024].getD kind 0

/-- The context a resource belongs to (R40). -/
def Engine.ownerOf (e : Engine) (kind i : Nat) : Nat := e.host.owners.get (resKey kind i)

/-- ST_OWNER detail for a command of context `c` acting on a resource: none where it may, and where there is no such resource, which no
context owns (R40). -/
def Engine.ownerBad (e : Engine) (c kind i : Nat) : Option Nat :=
  if c = 0 ∨ resCount kind ≤ i ∨ e.ownerOf kind i = c then none else some (e.ownerOf kind i)

/-- The context that holds a block's stage lock, plus 1; 0 for none (R57). -/
def Engine.lockOf (e : Engine) (blk : Nat) : Nat := e.host.locks.get blk

/-- Context `c` takes a block's stage lock if none holds it. -/
def Engine.takeLock (e : Engine) (blk c : Nat) : Engine :=
  if e.lockOf blk = 0 then { e with host := { e.host with locks := e.host.locks.set blk (c + 1) } } else e

/-- End a block's stage lock. -/
def Engine.dropLock (e : Engine) (blk : Nat) : Engine :=
  { e with host := { e.host with locks := e.host.locks.set blk 0 } }

/-- Where the context of a pending commit was: it is closed (R38, R41). No context has this number. -/
def closedCtx : Nat := 1024

/-- A block has an accepted commit pending (R58). -/
def Engine.pendingOn (e : Engine) (blk : Nat) : Bool := e.host.pends.any (fun p => p.blocks.contains blk)

/-- DISCARD (R57, Table 2.10): the staged copies of a block return to the active values and its lock ends. They follow a pending commit of
the block when it becomes active (R8, R211; assumption 118). -/
def Engine.discardBlock (e : Engine) (blk : Nat) : Engine :=
  let note : Pend → Pend := fun p => if p.blocks.contains blk then { p with follow := blk :: p.follow } else p
  let e1 : Engine := { e with staged := Tab.swapBlocks [blk] e.staged e.active
                              host := { e.host with pends := e.host.pends.map note }
                              map := if blk = 4 then { e.map with staged := [] } else e.map }
  e1.dropLock blk

/-! ### Fields that are not staged, written while the engine runs (R9) -/

/-- A write to a field that is not staged: it takes effect at the next frame or BC boundary (R9). -/
def Engine.later (e : Engine) (f : Fld) (v : Nat) : Engine := { e with r9 := e.r9 ++ [(f, v)] }

/-- Several such writes. -/
def Engine.laterAll (e : Engine) (fs : List (Fld × Nat)) : Engine := { e with r9 := e.r9 ++ fs }

/-- The value that a field has once the writes that wait for the boundary have taken effect (R9). -/
def Engine.soon (e : Engine) (f : Fld) : Nat :=
  e.r9.foldl (fun v w => if w.1.width = 33 ∧ w.1.key = f.key / 32 * 32 then w.2 / 2 ^ (f.key % 32) % 2 ^ f.width
    else if w.1 = f then w.2 % 2 ^ f.width else v) (e.reg f)

end Sys2Proof.Machine
end

