-- ==== Sys2Proof/Machine/Bar.lean ====
section
/-! DEFINITION. BAR0 words: the fields that the register tables give a word, and the word they make (R3 to R5, R10). -/

namespace Sys2Proof.Machine

/-- The row has an instance at word address `a`. -/
def RegRow.covers (r : RegRow) (a : Nat) : Bool :=
  (List.range r.count2).any (fun j =>
    let b := r.base + j * r.stride2
    decide (b ≤ a) && (if r.stride = 0 then a == b else (a - b) % r.stride == 0 && decide ((a - b) / r.stride < r.count)))

/-- The fields of word `a` of BAR0, with their access codes. -/
def fieldsAt (a : Nat) : List (Fld × Access) :=
  ((regRowsOf (blockOfAddr a)).filter (fun r => r.covers a)).map (fun r => (⟨32 * a + r.lo, r.width, r.reset⟩, r.acc))

/-- The lowest bit of a field of a BAR0 word. -/
def Fld.lo (f : Fld) : Nat := f.key % 32

/-- The value a read gives for a field: the staged copy of a staged one, 0 for a write-only one (Table 0.2). MAP_SDEF.KIND of MS31
reads 3 (Table 5.5). -/
def fieldValue (e : Engine) (f : Fld) (acc : Access) : Nat := match acc with
  | .st => if f = Reg.MAP_SDEF_KIND 31 then 3 else e.staged.fld f
  | .wo => 0
  | .rw | .ro | .w1c | .w1s | .rc => e.regs.fld f

/-- Word `a` as a read gives it; reserved bits read 0 (R4). -/
def barWord (e : Engine) (a : Nat) : Nat :=
  (fieldsAt a).foldl (fun v fa => v + fieldValue e fa.1 fa.2 * 2 ^ fa.1.lo) 0

/-- The image of the staged fields of word `a` in a set. -/
def imageWord (t : Tab) (a : Nat) : Nat := (fieldsAt a).foldl (fun v fa => v + t.fld fa.1 * 2 ^ fa.1.lo) 0

end Sys2Proof.Machine
end

