-- ==== Sys2Proof/Machine/Events.lean ====
section
/-! DEFINITION. Raising an event (R314 to R318, R322 to R327): what a source reaches at once. Consumer inputs, the
interrupt controller and the notification queue hold what has arrived until their own commands take it. -/

namespace Sys2Proof.Machine

/-! ### Sources (Table 15.1) -/

/-- The listed sources, first and last of each run (Table 15.1 and the event lists of chapters 17 to 21). -/
def sourceRuns : List (Nat × Nat) :=
  [(0, 5), (16, 26), (32, 42), (48, 56), (64, 65), (80, 81), (96, 97), (128, 135), (144, 146), (160, 163), (176, 178),
   (192, 195), (208, 209), (224, 230), (256, 258), (264, 264), (272, 278), (304, 307), (320, 335), (384, 447),
   (512, 639), (640, 767), (768, 895)]

/-- The source is listed: it may fire and be routed (R314). -/
def sourceListed (s : Nat) : Bool := sourceRuns.any (fun r => decide (r.1 ≤ s) && decide (s ≤ r.2))

/-- Secure producers (Table 15.1, R321). -/
def sourceSecure (s : Nat) : Bool :=
  decide (s ≤ 63) || s == 96 || s == 97 || (decide (224 ≤ s) && decide (s ≤ 226))

/-- Timing F (Table 15.1, R331). -/
def sourceFixed (s : Nat) : Bool :=
  decide (s ≤ 31) || s == 80 || s == 81 || (decide (128 ≤ s) && decide (s ≤ 226)) || s == 256 || s == 257
    || (decide (384 ≤ s) && decide (s ≤ 447))

/-- Level sources: the NIM inputs (Table 15.1). -/
def sourceLevel (s : Nat) : Bool := decide (320 ≤ s) && decide (s ≤ 335)

/-- The context that owns a source (Table 15.1, R320). -/
def Engine.sourceOwner (e : Engine) (s : Nat) : Nat :=
  if 304 ≤ s ∧ s ≤ 307 then e.ownerOf 5 ((s - 304) / 2)
  else if 512 ≤ s ∧ s ≤ 639 then e.ownerOf 6 ((s - 512) / 2)
  else if 640 ≤ s ∧ s ≤ 767 then e.ownerOf 4 ((s - 640) / 2) else 0

/-! Source numbers by name. -/

namespace Src
/-- TIM. -/
def lock : Nat := 0
/-- TIM. -/
def unlock : Nat := 1
/-- TIM. -/
def orbit : Nat := 2
/-- TIM. -/
def cmd : Nat := 3
/-- TIM. -/
def rmiss : Nat := 4
/-- TIM. -/
def recerr : Nat := 5
/-- TDM (chapter 20). -/
def linkUp : Nat := 16
/-- TDM. -/
def linkDown : Nat := 17
/-- TDM. -/
def mismatch : Nat := 18
/-- TDM. -/
def missing : Nat := 19
/-- TDM. -/
def take : Nat := 20
/-- TDM. -/
def release : Nat := 21
/-- TDM. -/
def dual : Nat := 22
/-- TDM. -/
def cfgMis : Nat := 23
/-- TDM. -/
def demote : Nat := 24
/-- TDM. -/
def switch : Nat := 25
/-- TDM. -/
def roleMis : Nat := 26
/-- SEC (chapter 19). -/
def vfail : Nat := 48
/-- SEC. -/
def keepAct : Nat := 49
/-- SEC. -/
def fwDone : Nat := 50
/-- SEC. -/
def fwFall : Nat := 51
/-- SEC. -/
def owner : Nat := 52
/-- SEC. -/
def attDone : Nat := 53
/-- SEC. -/
def floor : Nat := 54
/-- SEC. -/
def xferLost : Nat := 55
/-- SEC. -/
def ulaAct : Nat := 56
/-- PWR (chapter 21). -/
def state : Nat := 32
/-- PWR. -/
def supLoss : Nat := 33
/-- PWR. -/
def supOk : Nat := 34
/-- PWR. -/
def acFail : Nat := 35
/-- PWR. -/
def fanFail : Nat := 36
/-- PWR. -/
def thermWarn : Nat := 37
/-- PWR. -/
def thermOk : Nat := 38
/-- PWR. -/
def avsLim : Nat := 39
/-- PWR. -/
def fault : Nat := 40
/-- PWR. -/
def wake : Nat := 41
/-- PWR. -/
def fwFailBoot : Nat := 42
/-- HST. -/
def ringFault : Nat := 64
/-- HST. -/
def stopDone : Nat := 65
/-- SEQ. -/
def seqSwap : Nat := 80
/-- SEQ. -/
def seqBeyond : Nat := 81
/-- EVT. -/
def loop : Nat := 96
/-- IRQ. -/
def redir : Nat := 97
/-- LNK: LANE_UP; LANE_DOWN, TAGERR, LCHK, LATE, EARLY, CRC and ABSENT follow. -/
def lnk : Nat := 128
/-- MAP: NRDY; MCLR and SAT follow. -/
def map : Nat := 144
/-- DOM: STALE; VETO, AGE and SAT follow. -/
def dom : Nat := 160
/-- OBJ: OVF; RTRUNC and ESAT follow. -/
def obj : Nat := 176
/-- BEL: IDLE; WAKE, XTMO and BMISS follow. -/
def bel : Nat := 192
/-- MNU. -/
def busy : Nat := 208
/-- MNU. -/
def invSup : Nat := 209
/-- OUT. -/
def kreq : Nat := 224
/-- OUT. -/
def kfs : Nat := 225
/-- OUT. -/
def krelay : Nat := 226
/-- OUT. -/
def capDrop : Nat := 227
/-- OUT. -/
def hfreeze : Nat := 228
/-- OUT. -/
def dlFault : Nat := 229
/-- OUT. -/
def rlyWear : Nat := 230
/-- SPR. -/
def halt : Nat := 256
/-- SPR. -/
def ovr : Nat := 257
/-- SPR. -/
def fetchDone : Nat := 258
/-- ULA. -/
def loaded : Nat := 264
/-- MEM. -/
def cecc : Nat := 272
/-- MEM. -/
def uecc : Nat := 273
/-- MEM. -/
def wwcol : Nat := 274
/-- MEM. -/
def bistDone : Nat := 275
/-- MEM. -/
def luecc : Nat := 276
/-- MEM. -/
def freeze : Nat := 277
/-- MEM. -/
def fzDrop : Nat := 278
/-- Done of blitter 0; its fault is one more, blitter 1 two more. -/
def blt : Nat := 304
/-- NIM input 0. -/
def nim : Nat := 320
/-- Lantern EVENT line 0. -/
def lantern : Nat := 384
/-- Match of CNT0; its overflow is one more, CNT1 two more. -/
def cnt : Nat := 512
/-- Done of DMA channel 0; its fault is one more, channel 1 two more. -/
def dma : Nat := 640
/-- Software producer 0. -/
def sw : Nat := 768
end Src

/-! ### Consumer inputs (Table 15.2) -/

/-- The listed consumer inputs. -/
def consumerInputs : List Nat :=
  [256, 257, 258, 264, 265] ++ (List.range 64).map (· + 512) ++ (List.range 64).map (· + 640)

/-- The input is listed. -/
def consumerListed (c : Nat) : Bool :=
  c == 256 || c == 257 || c == 258 || c == 264 || c == 265 || (decide (512 ≤ c) && decide (c ≤ 575))
    || (decide (640 ≤ c) && decide (c ≤ 703))

/-- The context that owns a consumer input (Table 15.2). -/
def Engine.consumerOwner (e : Engine) (c : Nat) : Nat :=
  if c = 264 ∨ c = 265 then e.ownerOf 5 (c - 264)
  else if 512 ≤ c ∧ c ≤ 575 then e.ownerOf 6 (c - 512)
  else if 640 ≤ c ∧ c ≤ 703 then e.ownerOf 4 (c - 640) else 0

/-- The channel an input subscribes to: input 258 through OUT_HFRZ (Table 15.2). -/
def Engine.subscription (e : Engine) (c : Nat) : Option Nat :=
  if c = 258 then (if e.act Reg.OUT_HFRZ_EVEN = 1 then some (e.act Reg.OUT_HFRZ_CH) else none)
  else if e.reg (Reg.EVT_CSUB_EN c) = 1 then some (e.reg (Reg.EVT_CSUB_CH c)) else none

/-- An event reaches consumer input `c`. -/
def Engine.arrive (e : Engine) (c : Nat) : Engine :=
  { e with evt := { e.evt with inbox := e.evt.inbox.set c (e.evt.inbox.get c + 1) } }

/-- The channel is secure (R321). -/
def Engine.secureCh (e : Engine) (k : Nat) : Bool := e.reg (Reg.EVT_KOWN_SEC k) == 1

/-- Source `s` may not publish on channel `k`: the channel is secure and the source is not (R321). A route that a BAR write makes all the
same stands in its registers and carries nothing (assumption 129). -/
def pubInsecure (e : Engine) (s k : Nat) : Bool := e.secureCh k && !sourceSecure s

/-- Input `c` may not listen to channel `k`: the channel is secure and the input's owner does not hold SECURE (R321). -/
def subInsecure (e : Engine) (c k : Nat) : Bool := e.secureCh k && !e.hasRight (e.consumerOwner c) rightSecure

/-- The gate of an input. -/
def Engine.gateOf (e : Engine) (c : Nat) : Gate :=
  { kind := e.reg (Reg.EVT_CGATE_KIND c), sel := e.reg (Reg.EVT_CGATE_SEL c), inv := e.reg (Reg.EVT_CGATE_INV c) }

/-- The inputs that hear channel `k` (R317, R321). -/
def Engine.listeners (e : Engine) (k : Nat) : List Nat := consumerInputs.filter (fun c => e.subscription c == some k && !subInsecure e c k)

/-- The inputs whose ARM gate a firing of channel `k` opens (R319, R321). -/
def Engine.armedBy (e : Engine) (k : Nat) : List Nat :=
  consumerInputs.filter (fun c => e.reg (Reg.EVT_CGATE_KIND c) == 2 && e.reg (Reg.EVT_CGATE_SEL c) == k && !subInsecure e c k)

/-- A firing reaches the ARM gate of input `c`. -/
def Engine.arm (e : Engine) (c : Nat) : Engine := { e with evt := { e.evt with armbox := e.evt.armbox.set c 1 } }

/-- Channel `k` fires (R317 to R319): subscribed inputs receive an event, gates armed by it see the firing. -/
def Engine.fire (e : Engine) (k : Nat) : Engine :=
  let e1 := e.bump (Reg.EVT_KFIRE_COUNT k)
  let e2 := { e1 with evt := { e1.evt with hold := e1.evt.hold.set k 1 } }
  (e.armedBy k).foldl Engine.arm ((e.listeners k).foldl Engine.arrive e2)

/-- Bit (p, j) of ward `w`'s matrix (R316). -/
def matrixFld (w p j : Nat) : Fld := tabFld tMatrix (w * 16384 + j * 128 + p) 1 0

/-- The consumer inputs that the ward's matrix joins to producer `p` of ward `w`. -/
def Engine.joined (e : Engine) (w p : Nat) : List Nat :=
  (List.range 128).filterMap (fun j =>
    let c := 128 * w + j
    if consumerListed c && e.regs.get (matrixFld w p j).key == 1 then some c else none)

/-- Queue a notification of source `s`, or merge it into the one that waits (R327). -/
def Engine.notifyHost (e : Engine) (s data : Nat) : Engine :=
  if e.reg (Reg.EVT_SNOTE_EN s) = 1 then
    if e.evt.notes.any (fun n => n.src == s) then
      { e with evt := { e.evt with
        notes := e.evt.notes.map (fun n => if n.src == s then { n with count := min 255 (n.count + 1) } else n) } }
    else
      { e with evt := { e.evt with
        notes := e.evt.notes ++ [⟨s, e.reg (Reg.EVT_SNOTE_RING s), e.stampNow, 0, data⟩] } }
  else e

/-- The line of a pulse source at the interrupt controller goes high (R329), to be filtered as IRQ_SFILT says now (R325). -/
def Engine.irqPulse (e : Engine) (s : Nat) : Engine :=
  if e.evt.lines.get s = 0 then
    { e with evt := { e.evt with lines := e.evt.lines.set s (e.tim.bc + 1), lineN := e.evt.lineN.set s (e.reg (Reg.IRQ_SFILT_N s)) } }
  else e

/-- Raise source `s`: the fuel bounds the LOOP events that a trip of the guard raises in turn, one for each of the 1,024
channels (R317, R318, R326). -/
def Engine.raiseFuel : Nat → Engine → Nat → Nat → Engine
  | 0, e, _, _ => e
  | fuel + 1, e, s, data =>
    let e1 := e.bump (Reg.EVT_SCNT_COUNT s)
    let e2 := (e1.joined (s / 128) (s % 128)).foldl (fun a c => a.arrive c) e1
    let e3 := e2.notifyHost s data
    let e4 := if sourceLevel s then e3 else e3.irqPulse s
    if e4.reg (Reg.EVT_SPUB_EN s) = 1 ∧ pubInsecure e4 s (e4.reg (Reg.EVT_SPUB_CH s)) = false then
      let k := e4.reg (Reg.EVT_SPUB_CH s)
      let e5 : Engine := e4.bump (Reg.EVT_KREQ_COUNT k)
      let n := e5.evt.window.get k + 1
      let e6 : Engine := { e5 with evt := { e5.evt with window := e5.evt.window.set k n } }
      if e6.reg (Reg.EVT_KSTAT_STOP k) = 1 then e6
      else if e6.reg Reg.EVT_GUARD_COUNT ≠ 0 ∧ e6.reg Reg.EVT_GUARD_COUNT < n then
        let e7 := e6.raiseBit (Reg.EVT_KSTAT_STOP k)
        let e8 := if e7.reg Reg.EVT_LOOP_FLAG = 0 then (e7.setReg Reg.EVT_LOOP_CH k).raiseBit Reg.EVT_LOOP_FLAG else e7
        Engine.raiseFuel fuel (e8.bump Reg.EVT_LOOPCNT_COUNT) Src.loop k
      else if e6.evt.hold.get k = 0 then e6.fire k
      else { e6 with evt := { e6.evt with hold := e6.evt.hold.set k 2 } }
    else e4

/-- Raise event source `s` with data `data` (R317, R327, R329). A reserved source never fires (R314). -/
def Engine.raise (e : Engine) (s data : Nat) : Engine :=
  if sourceListed s then Engine.raiseFuel 1025 e s (data % 2 ^ 32) else e

/-- Raise a source for each item of a list. -/
def Engine.raiseEach (e : Engine) (l : List (Nat × Nat)) : Engine := l.foldl (fun a sd => a.raise sd.1 sd.2) e

end Sys2Proof.Machine
end

