-- ==== Sys2Proof/Machine/Journal.lean ====
section
/-! DEFINITION. The settings journal (R32, R33, R370, R431): its records, what they must hold, compaction, and what a start-up keeps
of them. -/

namespace Sys2Proof.Machine

/-- The active set as the accepted commits that are still pending leave it; an object's items are its own affair. -/
def plannedSet (e : Engine) : Tab :=
  (e.host.pends.filter (fun q => q.object != 1 && q.object != 2 && !q.waiting)).foldl (fun t q => Tab.swapBlocks q.blocks t q.set) e.active

/-- VER of a signed object (Table 19.2). -/
def objVer (o : List Byte) : Nat := leAt o 12 4

/-! ### Records (R370) -/

/-- The CRC-32 that a record should carry. -/
def JRec.code (r : JRec) : Nat := Config.journalCrc r.seq r.kind r.val r.set r.data

/-- The record's CRC-32 holds. -/
def JRec.intact (r : JRec) : Bool := r.crc == r.code

/-- Bytes of the device (R370). -/
def journalSize : Nat := 2 ^ 26

/-- The journal takes its new contents: MEM_JUSED counts the bytes of its records; writes go round the whole device, so that no location is
written more than once more often than another, and MEM_JWEAR gives the most in thousands (R370, R372). -/
def Engine.putJournal (e : Engine) (j : Journal) : Engine :=
  let used := (j.recs.map (·.size)).foldl (· + ·) 0
  (Engine.setReg { e with mem := { e.mem with journal := j } } Reg.MEM_JUSED_BYTES used).setReg Reg.MEM_JWEAR_MAX (ceilDiv j.written journalSize / 1000)

/-- Append a record with the next sequence number. -/
def Journal.append (j : Journal) (kind val : Nat) (set : Tab) (data : List Byte) (size : Nat) : Journal :=
  let r : JRec := { seq := j.seq, kind := kind, val := val, set := set, data := data, crc := 0, size := size }
  { recs := j.recs ++ [{ r with crc := r.code }], seq := j.seq + 1, written := j.written + size }

/-- The journal holds an item already. -/
def Journal.holds (j : Journal) (kind val : Nat) (set : Tab) (data : List Byte) : Bool :=
  match j.newest kind with
  | some r => r.val == val && r.set == set && r.data == data
  | none => val == 0 && set.isEmpty && data.isEmpty

/-- Record an item that the journal does not hold. How many bytes a record takes is free (assumption 1). -/
def journalPut (e : Engine) (kind val : Nat) (set : Tab) (data : List Byte) : Engine :=
  if e.mem.journal.holds kind val set data then e
  else
    let (v, e1) := e.freeVal
    e1.putJournal (e1.mem.journal.append kind val set data (v % journalSize))

/-- The journal takes what it should hold: the configuration as the last accepted commit leaves it, the bundle accepted last and the version
held with it, the bitstream, and the owner key. A bundle that failed at start-up stays what the journal has. No record is started while no module
reports AC good (R32, R33, R370, R405, R431). -/
def journalSync (e : Engine) : Engine :=
  if e.pwr.acOut then e
  else
    let due : Nat → Bool := fun k => e.host.pends.any (fun p => p.object == k)
    let e1 := journalPut e 0 0 (plannedSet e) []
    let e2 := if due 1 then journalPut e1 1 (objVer e.sec.bundleDue) [] e.sec.bundleDue
      else if e.keep.object.isEmpty && e.reg Reg.SEC_KEEPVER_VER != 0 then e1
      else journalPut e1 1 (e.reg Reg.SEC_KEEPVER_VER) [] e.keep.object
    let e3 := journalPut e2 2 0 [] (if due 2 then e.sec.bitsDue else e.sec.bits)
    journalPut e3 3 0 [] e.sec.ownerKey

/-- Compaction ends: the newest record of each kind stands anew, and the others are gone (R370). -/
def journalCompact (e : Engine) : Engine :=
  let j := e.mem.journal
  e.putJournal ((([0, 1, 2, 3] : List Nat).filterMap j.newest).foldl
    (fun a r => a.append r.kind r.val r.set r.data r.size) { j with recs := [] })

/-! ### Start-up -/

/-- The records that a start-up keeps, and those it discards: their CRC fails, or their number does not follow on (R370). -/
def followOn : Option Nat → List JRec → List JRec × List JRec
  | _, [] => ([], [])
  | prev, r :: rs =>
    if r.intact && prev.all (fun n => n + 1 == r.seq) then ((followOn (some r.seq) rs).1.cons r, (followOn (some r.seq) rs).2)
    else ((followOn prev rs).1, (followOn prev rs).2.cons r)

/-- The journal at start-up: what fails is discarded, with MEM_JSTAT.RECOVER (R370). Answers whether an owner record was among it (R401). -/
def journalStart (e : Engine) : Engine × Bool :=
  let j := e.mem.journal
  let (keep, gone) := followOn none j.recs
  if gone.isEmpty then (e, false)
  else
    let next := (keep.getLast?.map (·.seq + 1)).getD 0
    ((e.putJournal { j with recs := keep, seq := next }).raiseBit Reg.MEM_JSTAT_RECOVER, gone.any (fun r => r.kind == 3))

end Sys2Proof.Machine
end

