-- ==== Sys2Proof/Machine/Latency.lean ====
section
/-! DEFINITION. Decision latency (chapter 12): the terms of Table 12.1 as functions of a set of staged fields, and the
registers that show them (R258, R259, R264, R265). -/

namespace Sys2Proof.Machine

/-- Core clock multiplier M of a code (R82). -/
def mulOf (code : Nat) : Nat := [16, 20, 24, 32].getD code 16

/-- Frame interleave I (R293). -/
def interleave (t : Tab) : Nat := t.fld Reg.SPR_CTL_I

/-- Layer (d, l) is composed: l < NL of Dome d (R139). -/
def domNL (t : Tab) (d : Nat) : Nat := t.fld (Reg.DOM_CTL_NL d)

/-- A composed layer that reads a source and is resampled (R140): SRC not 63 and KIND RESAMPLED. -/
def layerResampled (t : Tab) (d l : Nat) : Bool :=
  t.fld (Reg.DOM_LSRC_SRC d l) != 63 && t.fld (Reg.DOM_LKIND_KIND d l) == 1

/-- L_dome = 2 + ⌈n_L / 4⌉ + r (R140). -/
def lDome (t : Tab) : Nat :=
  let r := [0, 1].any (fun d => (List.range (domNL t d)).any (fun l => layerResampled t d l))
  2 + ceilDiv (max (domNL t 0) (domNL t 1)) 4 + b2n r

/-- L_obj (R192). -/
def lObj (t : Tab) : Nat :=
  if [0, 1].any (fun d => decide (7 ≤ t.fld (Reg.OBJ_TFOOT_FW d)) || decide (7 ≤ t.fld (Reg.OBJ_TFOOT_FH d))) then 3
  else 2

/-- Word `w`, 0 to 15, of condition `i` (Table 10.2). -/
def condFld (i w : Nat) : Fld := tabFld tCond (16 * i + w) 32 0

/-- The conditions that hold any word that is not 0, rising, each once. -/
def condList (t : Tab) : List Nat :=
  ((t.range (tabBase tCond) (tabBase (tCond + 1))).map (fun kv => (kv.1 - tabBase tCond) / 16)).dedup

/-- Some NIM output selects condition `i` (R229). -/
def condSelected (t : Tab) (i : Nat) : Bool :=
  (List.range 16).any (fun n => t.fld (Reg.OUT_NOCFG_SRC n) == 3 && t.fld (Reg.OUT_NOCFG_IDX n) == i)

/-- The condition is in use: it feeds a line, or a NIM output selects it. -/
def condInUse (t : Tab) (i : Nat) : Bool :=
  t.fld (condFld i 12) != 0 || t.fld (condFld i 13) != 0 || condSelected t i

/-- TYPE of term `j` of condition `i` (R218). -/
def termType (t : Tab) (i j : Nat) : Nat := t.fld (condFld i (2 * j)) % 16

/-- INDEX of a term. -/
def termIndex (t : Tab) (i j : Nat) : Nat := bits (t.fld (condFld i (2 * j))) 25 16

/-- A condition in use holds a CORE term (R225). -/
def coreInUse (t : Tab) : Bool :=
  (condList t).any (fun i => condInUse t i && (List.range 4).any (fun j => termType t i j == 6))

/-- L_core (Table 12.1). -/
def lCore (t : Tab) : Nat := if coreInUse t then interleave t + 1 else 0

/-- L_tx of the NIM outputs. -/
def lTxN (t : Tab) : Nat := ceilTerm (t.fld Reg.TIM_FNOM_KHZ) 40

/-- L_tx of the decision lanes. -/
def lTxD (t : Tab) : Nat := ceilTerm (t.fld Reg.TIM_FNOM_KHZ) 90

/-- L_pin = A. -/
def lPin (t : Tab) : Nat := t.fld Reg.TIM_ALIGN_A

/-- The terms of Table 12.1 in the order of Table 12.4: L_rx, L_pin, L_map, L_dome, L_obj, L_core, L_menu, L_tx NIM,
L_tx lane. -/
def terms (t : Tab) : List Nat := [lRx t, lPin t, 1, lDome t, lObj t, lCore t, 2, lTxN t, lTxD t]

/-- BC from the arrival origin to the frame's entry into the Finial (R224). -/
def toFinial (t : Tab) : Nat := lRx t + lPin t + 1 + lDome t + lObj t + lCore t

/-- L of the NIM outputs (R258). -/
def lNim (t : Tab) : Nat := toFinial t + 2 + lTxN t

/-- L of the decision lanes. -/
def lLane (t : Tab) : Nat := toFinial t + 2 + lTxD t

/-- Crossings from t to the ABORT level of frame t (Table 12.2). -/
def abortTime (t : Tab) : Nat := t.fld Reg.TIM_ORIGIN_O + lRx t + lPin t + 2 + lTxN t

/-- Crossings from t to the abort flag on the decision lanes (Table 12.2). -/
def abortLaneTime (t : Tab) : Nat := t.fld Reg.TIM_ORIGIN_O + lRx t + lPin t + 2 + lTxD t

/-- Crossings from t to the monitor level of frame t (Table 12.2). -/
def monTime (t : Tab) : Nat := t.fld Reg.TIM_ORIGIN_O + lRx t + lPin t + 2

/-- The latency registers of the active configuration (R264), and the terms other blocks show (R140, R192). -/
def Engine.latencyRegs (e : Engine) : Engine :=
  let t := e.active
  let ws : List (Fld × Nat) :=
    [(Reg.TIM_LAT0_LRX, lRx t), (Reg.TIM_LAT0_LPIN, lPin t), (Reg.TIM_LAT0_LDOME, lDome t), (Reg.TIM_LAT0_LOBJ, lObj t),
     (Reg.TIM_LAT0_LCORE, lCore t), (Reg.TIM_LAT1_LTXN, lTxN t), (Reg.TIM_LAT1_LTXD, lTxD t), (Reg.TIM_LAT1_LNIM, lNim t),
     (Reg.TIM_LAT1_LDL, lLane t), (Reg.TIM_LAT2_ABORT, abortTime t), (Reg.TIM_LAT2_MON, monTime t),
     (Reg.DOM_GSTAT_LDOME, lDome t), (Reg.OBJ_GSTAT_LOBJ, lObj t)]
  { e with regs := e.regs.puts ws }

/-- The fields of the clock set (R81). -/
def clockSet : List Fld :=
  [Reg.TIM_CTL_SRC, Reg.TIM_FNOM_KHZ, Reg.TIM_ORBIT_LEN, Reg.TIM_CLK_M, Reg.TIM_ALIGN_A, Reg.TIM_ORIGIN_O]

/-- The clock set differs between two sets. -/
def clockDiffers (t u : Tab) : Bool := clockSet.any (fun f => t.fld f != u.fld f)

/-- The 32-byte result of PREVIEW_LATENCY (Table 12.4) for set `t`, against the active set `a`. -/
def previewBytes (t a : Tab) : List Byte :=
  let o := t.fld Reg.TIM_ORIGIN_O
  (terms t).flatMap (leBytes 1) ++ leBytes 1 (lNim t) ++ leBytes 1 (lLane t)
    ++ leBytes 1 (b2n (terms t != terms a) + 2 * b2n (clockDiffers t a)) ++ leBytes 2 o ++ leBytes 2 0
    ++ leBytes 2 (o + lNim t) ++ leBytes 2 (o + lLane t) ++ leBytes 2 (abortTime t) ++ leBytes 2 (monTime t)
    ++ leBytes 2 (o + toFinial t) ++ leBytes 6 0

/-! ### Release points (R87, R88) -/

/-- Entry of the release-point table: 0 where the firmware's offset is used, else 1 + the offset. -/
def relFld (b : Nat) : Fld := tabFld tRel b 13 0

/-- The active release offset of boundary `b` under set `t`. -/
def releaseOf (t : Tab) (b : Nat) : Nat :=
  if t.fld (relFld b) = 0 then Config.releaseOffset b (terms t) % 4096 else t.fld (relFld b) - 1

/-- TIM_RPSET and TIM_RPWORST show the boundary that TIM_RPIDX selects. -/
def showRelease (e : Engine) : Engine :=
  let b := e.reg Reg.TIM_RPIDX_ID
  let ws : List (Fld × Nat) := [(Reg.TIM_RPSET_SC, releaseOf e.active b), (Reg.TIM_RPWORST_SC, satU 12 (e.tim.rpWorst.get b))]
  { e with regs := e.regs.puts ws }

end Sys2Proof.Machine
end

