-- ==== Sys2Proof/Machine/SlotLists.lean ====
section
/-! DEFINITION. The entries of the slot lists (R205 to R207, R212): the crossing-aligned parameters they may set, and whose resources those
are. -/

namespace Sys2Proof.Machine

/-! ### Parameters (R205, R206) -/

/-- A crossing-aligned parameter (Table 9.1): the bits of the field it overlays, its greatest value, whether an entry's
mask may be partial, and its resource: a Dome, or context 0 only. -/
structure Param where
  fld : Fld
  lo : Nat
  width : Nat
  top : Nat
  partialMask : Bool
  dome : Option Nat

/-- The parameter of a PID; none where it is reserved. The Dome of a sprite's enable is the one its active DOME names. -/
def paramOf (act : Tab) (pid : Nat) : Option Param :=
  if pid < 0x10 then some ⟨Reg.DOM_LALPHA_A (pid / 8) (pid % 8), 0, 9, 256, false, some (pid / 8)⟩
  else if pid < 0x12 then some ⟨Reg.DOM_BG_VAL (pid - 0x10), 0, 18, 262143, true, some (pid - 0x10)⟩
  else if 0x80 ≤ pid ∧ pid < 0x82 then some ⟨Reg.OBJ_TSEED_THR (pid - 0x80), 0, 16, 65535, true, some (pid - 0x80)⟩
  else if 0x90 ≤ pid ∧ pid < 0xB0 then
    some ⟨Reg.OBJ_CEMIN_EMIN ((pid - 0x90) / 16) (pid % 16), 0, 22, 4194303, true, some ((pid - 0x90) / 16)⟩
  else if 0xC0 ≤ pid ∧ pid < 0x100 then
    some ⟨Reg.OBJ_SCFG_EN (pid - 0xC0), 0, 1, 1, true, some (act.fld (Reg.OBJ_SCFG_DOME (pid - 0xC0)))⟩
  else if 0x100 ≤ pid ∧ pid < 0x140 then some ⟨Reg.MNU_LCTL_EN (pid - 0x100), 0, 1, 1, true, none⟩
  else if 0x200 ≤ pid ∧ pid < 0x400 then some ⟨condFld (pid - 0x200) 8, 31, 1, 1, true, none⟩
  else none

/-! ### List entries (R207) -/

/-- Word `w` of entry `i` of list `l`. -/
def seqFld (l i w : Nat) : Fld := tabFld tSeq ((l * 4096 + i) * 4 + w) 32 0

/-- A staged change of list `l` that no commit has captured yet (R210). -/
def seqMark (l : Nat) : Fld := tabFld tSeq (32768 + l) 1 0

/-- A valid list entry (Table 9.2). -/
structure SeqEntry where
  slot : Nat
  pid : Nat
  len : Nat
  value : Nat
  mask : Nat

/-- The entry of four words; none where V is 0. -/
def entryOf (w0 w1 w2 w3 : Nat) : Option SeqEntry :=
  if tbit w0 31 then some ⟨bits w0 13 0, bits w0 25 16, bits w1 13 0, w2, w3⟩ else none

/-- The context to which the resource of an entry belongs, where context `c` may not write it (R212). -/
def entryOwner (e : Engine) (c : Nat) (x : SeqEntry) : Option Nat :=
  if c = 0 then none
  else if 0x100 ≤ x.pid then some 0
  else match paramOf e.active x.pid with
  | some q => (match q.dome with
    | some d => e.ownerBad c 0 d
    | none => some 0)
  | none => none

/-- The owner of the first staged entry, differing from the active bank, that context `c` may not commit (R212). -/
def stagedOwner (e : Engine) (c : Nat) : Option Nat :=
  if c = 0 then none
  else
    [0, 1].findSome? (fun l =>
      let base := (seqFld l 0 0).key
      ((e.staged.range base (seqFld l 4096 0).key).filter (fun kv => (kv.1 - base) % 4 == 0)).findSome? (fun kv =>
        let i := (kv.1 - base) / 4
        let w := fun (t : Tab) => (List.range 4).map (fun j => t.fld (seqFld l i j))
        if w e.staged = w e.active then none
        else (entryOf (e.stg (seqFld l i 0)) (e.stg (seqFld l i 1)) (e.stg (seqFld l i 2)) (e.stg (seqFld l i 3))).bind (entryOwner e c)))

end Sys2Proof.Machine
end

