-- ==== Sys2Proof/Machine/Cmd.lean ====
section
/-! DEFINITION. Command packets: the header checks of R53, the stage lock, staging and the acceptance of commits (R14,
R56 to R58, R80, R81, R97, R112, R120, R210, R262), and the runners every function is built on. -/

namespace Sys2Proof.Machine

/-- How a function treats the STAGE and COMMIT flags (R14, R56). -/
inductive FnKind where
  /-- A basic command over staged fields: stages and commits. -/
  | basic
  /-- A basic command over fields that are not staged, or an action. Its apply-at, which names a crossing for a commit, has nothing to
  name where it commits nothing, and is then accepted and not used (DESIGN CHOICE; assumption 76). -/
  | action
  /-- A basic command that writes nothing to any block and commits nothing (R265). -/
  | query
  /-- An expert function over staged fields and tables only: needs STAGE. -/
  | stage
  /-- An expert function over fields that are not staged. -/
  | direct
  /-- An expert function that reads. -/
  | read
  /-- A common function of Table 2.10. -/
  | common
deriving DecidableEq, Repr

/-- What the header checks need to know of a function: its opcode, kind, the right it needs (Table 2.3; 0 none), the
context its target belongs to (R40: an ST_OWNER detail), the payload lengths it takes, the first field out of range or
misaligned (header and payload offsets in words), whether a non-zero apply-at is out of range, whether it is accepted
in FAULT (R448) and whether its block is in retention in STANDBY (R443). -/
structure Fn where
  op : Nat
  kind : FnKind
  right : Packet → Nat := fun _ => 0
  owner : Engine → Packet → Option Nat := fun _ _ => none
  len : Packet → Bool := fun p => p.length == 0
  range : Engine → Packet → Option Nat := fun _ _ => none
  align : Packet → Option Nat := fun _ => none
  noApply : Bool := false
  inFault : Bool := false

/-- Block code of a function. -/
def Fn.block (f : Fn) : Nat := f.op / 256

/-- The first check that fails gives its offset. -/
def firstBad (l : List (Bool × Nat)) : Option Nat := (l.find? (fun x => !x.1)).map (·.2)

/-- The offset of payload byte `b` in header plus payload (Table 2.7). -/
def payOff (b : Nat) : Nat := 16 + b / 4

/-- A payload of `unit × n` bytes, 1 ≤ n ≤ max. -/
def lenTimes (unit max : Nat) (p : Packet) : Bool :=
  p.length % unit == 0 && decide (unit ≤ p.length) && decide (p.length ≤ unit * max)

/-- A payload of exactly `n` bytes. -/
def lenIs (n : Nat) (p : Packet) : Bool := p.length == n

/-- Payload words whose value `ok` refuses: the first one's offset; `ok` gets the word's index too. -/
def wordsBad (p : Packet) (ok : Nat → Nat → Bool) : Option Nat :=
  ((List.range p.nwords).find? (fun i => !ok i (p.word i))).map (fun i => 16 + i)

/-- No bit of `v` outside `mask` is set. -/
def within (mask v : Nat) : Bool := Nat.land v mask == v

/-- An expert function: 0x80 and up. -/
def Fn.expert (f : Fn) : Bool := decide (128 ≤ f.op % 256)

/-- The command commits, or is basic (R58). -/
def Fn.commits (f : Fn) (p : Packet) : Bool := f.kind == .basic || f.kind == .action || f.kind == .query || p.commit

/-- The blocks whose stage lock another context must not hold, for a command that does not stage fields: its own, where the command is
basic and writes, or carries STAGE (R57). -/
def Fn.locks (f : Fn) (p : Packet) : List Nat := if f.kind = .action ∨ (f.kind = .direct ∧ p.stage) then [f.block] else []

/-- How a command that commits nothing completes: with ST_STAGED where it carries STAGE, though it names no staged field (R56;
assumption 76). -/
def Fn.done (f : Fn) (p : Packet) : Status := if f.kind = .direct ∧ p.stage then .staged f.block else .ok

/-- The checks of R53 in their order, with R15, R56 and R470. A basic command with the EXPERT flag needs the right and then acts as
without the flag (DESIGN CHOICE: R15 speaks of raw tables, which a basic command does not name; assumption 78). -/
def checkHeader (f : Fn) (e : Engine) (p : Packet) : Option Status :=
  if 32 ≤ p.flags ∨ p.reserved ≠ 0 then some .badop
  else if f.expert ∧ !p.expert then some .badop
  else if f.kind = .stage ∧ !p.stage then some .badop
  else if f.kind = .direct ∧ p.commit ∧ !p.stage then some .badop
  else if f.op % 256 = 1 ∧ !p.commit then some .badop
  else if p.ctx ≠ p.ring / 256 then some (.owner (p.ring / 256))
  else match f.owner e p with
  | some d => some (.owner d)
  | none =>
    if p.expert ∧ f.block = 6 then some (.perm 5)
    else if (p.expert ∨ f.op % 256 = 3) ∧ !e.hasRight p.ctx rightExpert then some (.perm rightExpert)
    else if !e.hasRight p.ctx (f.right p) then some (.perm (f.right p))
    else if 65536 < p.length ∨ !f.len p then some .badlen
    else if p.applyAt ≠ 0 ∧ (f.noApply ∨ !f.commits p) then some (.range 5)
    else match f.range e p with
    | some d => some (.range d)
    | none => (f.align p).map .align

/-- The engine states in which a function is served: FAULT (R448) and STANDBY (R443). QUERY is always served. -/
def checkState (f : Fn) (e : Engine) : Option Status :=
  let b := f.block
  if e.st = stFault ∧ !(f.inFault || f.op % 256 == 0 || b == 1 || b == 21 || b == 13 || b == 14 || b == 15) then
    some (.state stFault)
  else if e.st = stStandby ∧ !(f.op % 256 == 0 || b == 1 || b == 21 || b == 19 || b == 13 || b == 14 || b == 15) then
    some (.state stStandby)
  else none

/-- The stage lock of a block is held by another context (R57). -/
def Engine.lockedOut (e : Engine) (blk ctx : Nat) : Bool := e.lockOf blk != 0 && e.lockOf blk != ctx + 1

/-- The context's staged set: its own staged copies where it holds the block's lock, the active set elsewhere
(R265). -/
def Engine.viewOf (e : Engine) (blks : List Nat) (ctx : Nat) : Tab :=
  Tab.swapBlocks (blks.filter (fun b => e.lockOf b == ctx + 1)) e.active e.staged

/-- The blocks with staged fields, by code. -/
def stagedBlocks : List Nat := [2, 3, 4, 5, 6, 7, 8, 9, 10, 11, 12, 16, 20, 22]

/-- A field of the source-slot tables differs between two sets (R112). -/
def slotsDiffer (t u : Tab) : Bool :=
  let f : Tab → Tab := fun x => (x.range (32 * 0x208000) (32 * 0x211000)).filter (fun kv => kv.1 / 32 % 32 == 0)
  f t != f u

/-- The named crossing of a commit (R58, R80, R112), or the status that refuses it. The first crossing whose frame is created
`lead` BC from now is no earlier than the first crossing that has a frame. -/
def nameCrossing (e : Engine) (applyAt : Nat) (long : Bool) : Status ⊕ Option Nat :=
  let s := orbitLen e.active
  if !e.locked then (if applyAt ≠ 0 then .inl (.state e.st) else .inr none)
  else
    let lead := e.lead + (if long then lRx e.active + 128 else 0)
    let now := e.counted - createDelay e.active
    let first := max (e.counted + lead - createDelay e.active) (e.tim.resume.getD 0)
    if applyAt = 0 then .inr (some first)
    else
      let n := e.crossingNamed applyAt
      if s ≤ applyAt % 2 ^ 14 then .inl (.range 5)
      else if n < first then .inl .late
      else if now + 2 ^ 40 < n then .inl (.range 5)
      else .inr (some n)

/-- A staged request that acts once, at the commit that captures it: the swap of a slot list, and the STOP, START and image
changes of SPR (R210, R310). -/
def onceKey (k : Nat) : Bool :=
  (decide (tabBase tSeq + 32768 ≤ k) && decide (k < tabBase (tSeq + 1))) || (decide (tabBase tSpr ≤ k) && decide (k < tabBase (tSpr + 1)))

/-- A commit of some blocks changes a term of Table 12.1, by itself or together with the pending ones (R262). -/
def termsChange (e : Engine) (blocks : List Nat) : Bool :=
  let now := plannedSet e
  terms e.active != terms (Tab.swapBlocks blocks e.active e.staged) || terms now != terms (Tab.swapBlocks blocks now e.staged)

/-- Accept a commit of some blocks, capturing their staged copies (R8, R56 to R58, R81, R97, R120, R210, R212, R262,
R364, R420). `object` as in `Pend`. -/
def acceptCommit (e : Engine) (p : Packet) (blocks : List Nat) (object : Nat) : Status ⊕ Engine :=
  match blocks.find? (fun b => e.pendingOn b) with
  | some b => .inl (.busy b)
  | none =>
  match if blocks.contains 8 then stagedOwner e p.ctx else none with
  | some c => .inl (.owner c)
  | none =>
    let new := Tab.swapBlocks blocks e.active e.staged
    let trx := e.active.fld Reg.LNK_CTL_TRX != new.fld Reg.LNK_CTL_TRX
    let clock := clockDiffers e.active new || trx
    let relock := e.locked && (clock || termsChange e blocks)
    let geom := e.active.fld Reg.MAP_GEOM_COLS != new.fld Reg.MAP_GEOM_COLS
      || e.active.fld Reg.MAP_GEOM_ROWS != new.fld Reg.MAP_GEOM_ROWS
    let logsz := e.active.fld Reg.MEM_CAPCFG_LOGSZ != new.fld Reg.MEM_CAPCFG_LOGSZ
    let role := e.active.fld Reg.TDM_CFG_ROLE != new.fld Reg.TDM_CFG_ROLE
    if (logsz ∨ role ∨ (e.locked ∧ (relock ∨ geom))) ∧ e.st ≠ stSafe then .inl (.state e.st)
    else
      match nameCrossing e p.applyAt (object == 1 || (blocks.contains 3 && slotsDiffer e.active new)) with
      | .inl st => .inl st
      | .inr named =>
        let s := orbitLen e.active
        let named' := if blocks.contains 8 && !relock then named.map (fun n => ceilDiv n s * s) else named
        let pend : Pend :=
          { uid := e.host.nextUid, ring := p.ring, tag := p.tag, ctx := p.ctx, notify := p.notify, blocks := blocks
            set := Tab.ofBlocks blocks e.staged, named := named', relock := relock, clock := clock
            masks := if blocks.contains 4 then e.map.staged else [], object := object, waiting := false, follow := [] }
        let e0 := blocks.foldl (fun a b => a.dropLock b) e
        let e1 := if blocks.contains 10 then e0.setReg Reg.BEL_STAT_PEND 1 else e0
        .inr { e1 with
          staged := e1.staged.filter (fun kv => !(onceKey kv.1 && blocks.contains (blockOfKey kv.1)))
          host := { e1.host with pends := e1.host.pends ++ [pend], nextUid := e1.host.nextUid + 1 }
          map := if blocks.contains 4 then { e1.map with staged := [] } else e1.map }

/-- The blocks in which a context holds staged changes. -/
def Engine.lockedBlocks (e : Engine) (ctx : Nat) : List Nat := stagedBlocks.filter (fun b => e.lockOf b == ctx + 1)

/-- A commit that its tests accept waits until its record can be started (R370, R431). -/
def holdCommit (e : Engine) (u : Unrecorded) : Engine := { e with pwr := { e.pwr with unrecorded := e.pwr.unrecorded ++ [u] } }

/-- Commit on behalf of packet `p`, or complete it with the status that refuses it: the staged copies keep what was
written, by a basic command too (R8, R56; assumption 37). A commit is accepted with its journal record, and waits where none may be
started (R370, R431; assumption 130). -/
def commitOr (e : Engine) (p : Packet) (blocks : List Nat) (object : Nat) : Engine :=
  match acceptCommit e p blocks object with
  | .inl st => e.complete p st
  | .inr e' => if e.pwr.acOut then holdCommit e { p := p, blocks := blocks, object := object, obj := [] } else journalSync e'

/-- Everything that can complete a command before it acts: the header, the engine state, the stage lock of the blocks it
stages into, and what the function itself refuses. -/
def refuse (f : Fn) (locks : List Nat) (extra : Engine → Packet → Option Status) (e : Engine) (p : Packet) :
    Option Status :=
  match checkHeader f e p with
  | some st => some st
  | none =>
    match checkState f e with
    | some st => some st
    | none =>
      match locks.find? (fun b => e.lockedOut b p.ctx) with
      | some b => some (.busy b)
      | none => extra e p

/-- Run a function over staged copies (R14, R56, R57): `stage` writes them. -/
def runStage (f : Fn) (extra : Engine → Packet → Option Status) (stage : Engine → Packet → Engine) (object : Nat)
    (p : Packet) (e : Engine) : Engine :=
  match refuse f [f.block] extra e p with
  | some st => e.complete p st
  | none =>
    let e1 := (stage e p).takeLock f.block p.ctx
    if f.kind = .basic then commitOr e1 p [f.block] object
    else if p.commit then commitOr e1 p (e1.lockedBlocks p.ctx) object
    else e1.complete p (.staged f.block)

/-- Run a function over staged fields: `writes` gives the fields and their values. -/
def runConfig (f : Fn) (extra : Engine → Packet → Option Status) (writes : Engine → Packet → List (Fld × Nat))
    (object : Nat) (p : Packet) (e : Engine) : Engine :=
  runStage f extra (fun e p => { e with staged := e.staged.puts (writes e p) }) object p e

/-- The blocks that a command over fields that are not staged commits: those the flag COMMIT asks for, or, for a basic command, its
own block where the context has staged changes in it (R56). None where it commits nothing. -/
def alsoCommits (f : Fn) (e : Engine) (p : Packet) : Option (List Nat) :=
  if f.kind = .query then none
  else if f.kind = .action then (if stagedBlocks.contains f.block && e.lockOf f.block == p.ctx + 1 then some [f.block] else none)
  else if p.commit then some (e.lockedBlocks p.ctx) else none

/-- A function that has acted completes with ST_OK or ST_STAGED, or as the commit that it carries (R14, R56). A non-zero apply-at
names the crossing of the commit that it carries; without one it is accepted and the function acts at once, or under R9 (DESIGN CHOICE; assumption
76). -/
def endAction (f : Fn) (e : Engine) (p : Packet) : Engine := match alsoCommits f e p with
  | some bs => commitOr e p bs 0
  | none => e.complete p (f.done p)

/-- Run a function that acts at once (R14, R56). Its stage lock is tested (R57). -/
def runAction (f : Fn) (extra : Engine → Packet → Option Status) (act : Engine → Packet → Engine) (p : Packet)
    (e : Engine) : Engine :=
  match refuse f (f.locks p) extra e p with
  | some st => e.complete p st
  | none => endAction f (act e p) p

/-- Run a function that acts at once and completes by itself, now or later. It carries no commit of its own completion (assumption
76). -/
def runAsync (f : Fn) (extra : Engine → Packet → Option Status) (act : Engine → Packet → Engine) (p : Packet)
    (e : Engine) : Engine :=
  match refuse f (f.locks p) extra e p with
  | some st => e.complete p st
  | none => act e p

/-- No further refusal. -/
def noExtra : Engine → Packet → Option Status := fun _ _ => none

end Sys2Proof.Machine
end

