-- ==== Sys2Proof/Machine/KeepItems.lean ====
section
/-! DEFINITION. The items that only the installed Keep bundle sets (R122, R162): which fields they are, and the refusal
of a command that would change one. -/

namespace Sys2Proof.Machine

/-- Entry `i` of the installed bundle's list of Keep sources: 1 + source index, 0 where there is none (R163). -/
def ksrcFld (i : Nat) : Fld := tabFld tKsrc i 32 0

/-- The Keep sources of a set. -/
def keepSources (t : Tab) : List Nat :=
  (t.range (tabBase tKsrc) (tabBase (tKsrc + 1))).map (fun kv => kv.2 - 1)

/-- Tile map entry `i` (R127). -/
def tileFld (i : Nat) : Fld := tabFld tTile i 32 0

/-- EN of a tile map entry. -/
def tileEn (v : Nat) : Bool := tbit v 31
/-- MS of a tile map entry. -/
def tileMs (v : Nat) : Nat := bits v 30 26
/-- X of a tile map entry. -/
def tileX (v : Nat) : Nat := bits v 25 18
/-- Y of a tile map entry. -/
def tileY (v : Nat) : Nat := bits v 17 11

/-- The entry places its word into MS31. -/
def tileKeep (v : Nat) : Bool := tileEn v && tileMs v == 31

/-- Writing `v` to field `f` would change an item of the installed bundle (R122, R162). -/
def keepChange (e : Engine) (f : Fld) (v : Nat) : Bool :=
  let t := e.active
  let old := t.fld f
  if old == v then false
  else if tabBase tTile ≤ f.key ∧ f.key < tabBase (tTile + 1) then tileKeep old || tileKeep v
  else
    let a := f.key / 32
    let ks := keepSources t
    if 0x4007E0 ≤ a ∧ a < 0x400800 then true
    else if 0x402000 ≤ a ∧ a < 0x406800 then ks.contains ((a - 0x402000) / 16)
    else if 0x208000 ≤ a ∧ a < 0x211000 then ks.contains ((a - 0x208000) / 32)
    else if 0x201000 ≤ a ∧ a < 0x203400 then
      (f.key % 32 == 0 || f.key % 32 == 4) && ks.any (fun q => q / 8 == (a - 0x201000) / 64)
    else false

/-- ST_PERM, detail 5, where one of the writes would change a Keep item (R122, R162). -/
def keepPerm (e : Engine) (ws : List (Fld × Nat)) : Option Status :=
  if ws.any (fun w => keepChange e w.1 w.2) then some (.perm 5) else none

end Sys2Proof.Machine
end

