-- ==== Sys2Proof/Machine/Lanes.lean ====
section
/-! DEFINITION. Shevo links (chapter 4): lane states, the parsing of a Shevo frame, alignment, skew statistics,
equaliser holding, the checker of LNK, and the LNK functions. -/

namespace Sys2Proof.Machine

/-- Fields of LNK_SCFG of source `q` in a set (R104). -/
structure Slot where
  en : Bool
  wave : Bool
  wsize : Nat
  count : Nat
  lag : Nat
  wbase : Nat
deriving DecidableEq, Repr

/-- The slot of source `q`. -/
def slotOf (t : Tab) (q : Nat) : Slot :=
  { en := t.fld (Reg.LNK_SCFG_EN q) == 1, wave := t.fld (Reg.LNK_SCFG_TYPE q) == 1, wsize := t.fld (Reg.LNK_SCFG_WSIZE q)
    count := t.fld (Reg.LNK_SCFG_COUNT q), lag := t.fld (Reg.LNK_SCFG_LAG q), wbase := t.fld (Reg.LNK_SCFG_WBASE q) }

/-- Bits of a word of a slot (Table 4.4, R105). -/
def Slot.bits (s : Slot) : Nat := if s.wave then 14 else [8, 10, 12, 16].getD s.wsize 10

/-- Payload bits of a slot's segment (R103). -/
def Slot.size (s : Slot) : Nat := s.bits * s.count

/-- The enabled sources of a set, rising. -/
def enabledSources (t : Tab) : List Nat :=
  ((t.range (32 * 0x208000) (32 * 0x211000)).filter (fun kv => kv.1 % 1024 == 0)).map (fun kv => (kv.1 / 32 - 0x208000) / 32)

/-- Lane mode of lane `l` (R94). -/
def laneMode (t : Tab) (l : Nat) : Nat := t.fld (Reg.LNK_LCFG_MODE l)

/-- Frame length F = ⌊R / f⌋ in bits (R98). -/
def frameBits (t : Tab) (l : Nat) : Nat :=
  (if laneMode t l = 2 then 50000000 else 25000000) / t.fld Reg.TIM_FNOM_KHZ

/-- The payload test of R103, R106, R107: every lane's enabled slots fit its frames. -/
def lanesFit (t : Tab) : Bool :=
  let qs := enabledSources t
  (qs.map (· / 8)).dedup.all (fun l =>
    let js := qs.filter (fun q => q / 8 == l)
    decide ((js.map (fun q => (slotOf t q).size)).foldl (· + ·) 0 + 34 + 16 * js.length ≤ frameBits t l))

/-- The LNK consistency checker (R106, R107): true where it accepts. -/
def lnkCheck (t : Tab) : Bool :=
  let qs := enabledSources t
  let waves := qs.filter (fun q => (slotOf t q).wave)
  let feeds := waves.flatMap (fun q => (List.range (slotOf t q).count).map (· + (slotOf t q).wbase))
  qs.all (fun q =>
    let s := slotOf t q
    laneMode t (q / 8) != 0 && (if s.wave then decide (1 ≤ s.count) && decide (s.count ≤ 8) && decide (s.wbase + s.count ≤ 64)
      else s.count != 0))
  && decide feeds.Nodup
  && lanesFit t
  && (List.range 144).all (fun l =>
    laneMode t l != 3 && t.fld (Reg.LNK_LCFG_EQ l) != 3 && !(laneMode t l == 2 && t.fld Reg.LNK_CTL_TRX == 0))

/-! ### Lane states (R108, R115) -/

/-- State codes of Table 4.6: 0 OFF, 1 DOWN, 2 HUNT, 3 UP. -/
def Engine.laneState (e : Engine) (l : Nat) : Nat := e.reg (Reg.LNK_LSTAT_STATE l)

/-- The word and bit of LNK_UP that show lane `l`. -/
def upFld (l : Nat) : Fld :=
  [Reg.LNK_UP0_MASK, Reg.LNK_UP1_MASK, Reg.LNK_UP2_MASK, Reg.LNK_UP3_MASK, Reg.LNK_UP4_MASK].getD (l / 32) Reg.LNK_UP0_MASK

/-- Set or clear bit `i` of a field. -/
def Engine.putBit (e : Engine) (f : Fld) (i : Nat) (b : Bool) : Engine :=
  let v := e.reg f
  e.setReg f (v - 2 ^ i * bit v i + 2 ^ i * b2n b)

/-- The lane's equaliser mode asks for holding now (R115). -/
def Engine.holdMode (e : Engine) (l : Nat) : Bool :=
  e.act (Reg.LNK_LCFG_EQ l) == 1 || (e.act (Reg.LNK_LCFG_EQ l) == 2 && e.reg Reg.TIM_STAT_BEAM == 1)

/-- LNK_LSTAT.EQF of a lane: it is UP, in a holding mode, and its millisecond of adaptation has passed (R115). As holding starts, the
coefficients are those found till then; they stay until it ends. -/
def Engine.eqRefresh (e : Engine) (l : Nat) : Engine :=
  let hold := e.laneState l == 3 && e.holdMode l && e.lnk.adapting.get l == 0
  let e1 := e.setReg (Reg.LNK_LSTAT_EQF l) (b2n hold)
  if hold && e.reg (Reg.LNK_LSTAT_EQF l) == 0 then
    { e1 with lnk := { e1.lnk with coefs := e1.lnk.coefs.set l (1 + e1.free) }, free := e1.free + 1 }
  else e1

/-- LNK_LSTAT.FOM of a lane: measured by its receiver, 0 where the lane has no signal (R118; assumption 20). -/
def Engine.fom (e : Engine) (l : Nat) : Nat := if e.laneState l < 2 then 0 else Config.eyeMerit l e.tim.bc % 256

/-- LNK_LSTAT.EQF of every lane anew: the modes, TIM_STAT.BEAM or the lanes have changed (R115). -/
def Engine.eqAll (e : Engine) : Engine := (List.range 144).foldl (fun a l => a.eqRefresh l) e

/-- The frames of a lane in its receive stage are lost (R108, R112). -/
def Engine.dropRx (e : Engine) (l : Nat) : Engine :=
  { e with lnk := { e.lnk with rx := e.lnk.rx.filter (fun g => g.q / 8 != l) } }

/-- Move a lane to a state (R108): LANE_UP on entry into UP, LANE_DOWN on leaving it, READAPT where it was holding. No segment of a lane
that is not UP is delivered. -/
def Engine.setLane (e : Engine) (l st : Nat) : Engine :=
  let old := e.laneState l
  let e1 := (e.setReg (Reg.LNK_LSTAT_STATE l) st).putBit (upFld l) (l % 32) (st == 3)
  let lnk := e1.lnk
  let ad := if st = 3 then (if old ≠ 3 ∧ e1.act (Reg.LNK_LCFG_EQ l) ≠ 0 then 1 else lnk.adapting.get l) else 0
  let lnk' : LnkSt := { lnk with good := lnk.good.set l 0, bad := lnk.bad.set l 0, adapting := lnk.adapting.set l ad }
  let e2 : Engine := { e1 with lnk := lnk' }
  let e3 := if old = 3 ∧ st ≠ 3 then
      let a := ((e2.dropRx l).bump (Reg.LNK_SYNCLOSS_COUNT l)).raise (Src.lnk + 1) l
      if e.reg (Reg.LNK_LSTAT_EQF l) = 1 then a.raiseBit (Reg.LNK_LSTAT_READAPT l) else a
    else if old ≠ 3 ∧ st = 3 then e2.raise Src.lnk l else e2
  e3.eqRefresh l

/-! ### The coding layer (R95) -/

/-- The data bits that the coding layer delivers, how many, the descrambler's last 58 bits, and the code errors. N25: received polarity as
LNK_LCFG.INV says, the self-synchronous scrambler x^58 + x^39 + 1, and 64 zero bits for a block with another sync header than 0b01,
counted with its end. P50: its transcoding and RS(544,514) are those of IEEE 802.3, which the command brings done (assumption 123). -/
def lineBits (n25 inv : Bool) (hist : Nat) (bs : List LineBlock) : Nat × Nat × Nat × Nat :=
  bs.foldl (fun a b =>
    let m := 2 ^ b.n
    if !n25 then (a.1 * m + b.bits % m, a.2.1 + b.n, a.2.2.1, a.2.2.2)
    else
      let s := a.2.2.1 * m + (if inv then m - 1 - b.bits % m else b.bits % m)
      let good := (if inv then 3 - b.header else b.header) == 1
      (a.1 * m + (if good then Nat.xor s (Nat.xor (s / 2 ^ 39) (s / 2 ^ 58)) % m else 0), a.2.1 + b.n, s % 2 ^ 58,
        a.2.2.2 + b2n (!good && b.ends))) (0, 0, hist, 0)

/-! ### Receiving a frame (R99 to R102, R109 to R112) -/

/-- The number in the `n` bits from bit `pos` on of a frame of `f` bits whose first bit is the most significant. -/
def frameField (frame f pos n : Nat) : Nat := frame / 2 ^ (f - pos - n) % 2 ^ n

/-- The lane check: CRC-8 over the 26 header bits (R101). -/
def laneCheck (hdr : Nat) : Nat := crcBits 8 0x07 0xFF (msbBits 26 hdr)

/-- A segment's CRC-16 over TAG and payload (R102). -/
def segCrc (tag : Nat) (payload : List Bool) : Nat := crcBits 16 0x8BB7 0xFFFF (msbBits 14 tag ++ payload)

/-- The header is valid: SYNC and lane check (R100, R101). -/
def headerOk (frame f : Nat) : Bool :=
  frameField frame f 0 4 == 0b1011 && laneCheck (frameField frame f 0 26) == frameField frame f 26 8

/-- The skew of a frame that enters the lanes in counted crossing `k` with tag `tag` (R85, R109): (k − tag − O) mod S
reduced to −⌊S/2⌋ to ⌈S/2⌉ − 1. -/
def frameSkew (t : Tab) (k tag : Nat) : Int :=
  let s := orbitLen t
  let d := ((k : Int) - tag - (t.fld Reg.TIM_ORIGIN_O : Nat)) % s
  if d ≤ ((s + 1) / 2 : Nat) - 1 then d else d - s

/-- The greatest early skew E = min(64 − A, ⌊S/2⌋) (R86). -/
def earlyLimit (t : Tab) : Nat := min (64 - t.fld Reg.TIM_ALIGN_A) (orbitLen t / 2)

/-- Record a segment's skew in the present epoch, saturated to −128 to 127 (R113). -/
def Engine.recordSkew (e : Engine) (q : Nat) (sk : Int) : Engine :=
  let v := (max (-128) (min 127 sk) + 128).toNat
  let old := e.lnk.skew.get (16 * q)
  let new := if old = 0 then 1 + 256 * v + v else 1 + 256 * min ((old - 1) / 256) v + max ((old - 1) % 256) v
  { e with lnk := { e.lnk with skew := e.lnk.skew.set (16 * q) new } }

/-- One enabled slot of a frame at bit `pos`: absent, failing its CRC, or sent on to its alignment buffer (R102, R109 to
R111). `bank` is the slot table that parses the frame. -/
def receiveSlot (bank : Tab) (f frame tag pres : Nat) (skew : Int) (a : Engine × Nat) (j q : Nat) : Engine × Nat :=
  let (e, pos) := a
  let s := slotOf bank q
  if !s.en then (e, pos)
  else
    let n := s.size
    let pos' := pos + n + 16
    if !tbit pres j then ((e.bump (Reg.LNK_SABSENT_COUNT q)).raise (Src.lnk + 7) q, pos')
    else
      let pay := frameField frame f pos n
      if segCrc tag (msbBits n pay) ≠ frameField frame f (pos + n) 16 then
        ((e.bump (Reg.LNK_SCRC_COUNT q)).raise (Src.lnk + 6) q, pos')
      else if !e.locked then (e, pos')
      else
        let orb := orbitLen e.active
        let sk := skew + (s.lag : Nat)
        let n0 := crossAdd orb e.counted (-((e.act Reg.TIM_ORIGIN_O : Nat) : Int) - sk)
        let ws := (List.range s.count).map (fun i => frameField frame f (pos + i * s.bits) s.bits)
        let seg : Seg := ⟨q, n0, sk, crossAdd orb e.counted (lRx e.active : Nat), ws⟩
        let e1 := e.recordSkew q sk
        ({ e1 with lnk := { e1.lnk with rx := e1.lnk.rx ++ [seg] } }, pos')

/-- A frame with a valid header on a lane that is UP (R109 to R112). -/
def receiveValid (bankOf : Nat → Tab) (l frame : Nat) (e : Engine) : Engine :=
  let f := frameBits e.active l
  let tag := frameField frame f 4 14
  let pres := frameField frame f 18 8
  let e0 := e.setReg (Reg.LNK_LSTAT_TAG l) tag
  if orbitLen e.active ≤ tag then (e0.bump (Reg.LNK_TAGERR_COUNT l)).raise (Src.lnk + 2) l
  else
    let sk := frameSkew e.active e.counted tag
    let tl := crossAdd (orbitLen e.active) e.counted (-((e.act Reg.TIM_ORIGIN_O : Nat) : Int) - sk)
    let bank := bankOf tl
    ((List.range 8).foldl (fun a j => receiveSlot bank f frame tag pres sk a j (8 * l + j)) (e0, 34)).1

/-- A frame taken whole on lane `l`, `gap` bits after the end of the frame before it (R95, R98, R108, R109). -/
def receiveFrame (bankOf : Nat → Tab) (l gap : Nat) (line : List LineBlock) (codeErrs fecCorr : Nat) (e : Engine) : Engine :=
  let st := e.laneState l
  let n25 := laneMode e.active l == 1
  let d := lineBits n25 (e.act (Reg.LNK_LCFG_INV l) == 1) (e.lnk.scr.get l) line
  if 144 ≤ l ∨ st < 2 ∨ d.2.1 ≠ gap + frameBits e.active l then e
  else
    let frame := d.1 % 2 ^ frameBits e.active l
    let e0 := Engine.bumpBy { e with lnk := { e.lnk with scr := e.lnk.scr.set l d.2.2.1 } } (Reg.LNK_CODEERR_COUNT l)
      (if n25 then d.2.2.2 else codeErrs)
    let e1 := if laneMode e.active l = 2 then e0.bumpBy (Reg.LNK_FECCORR_COUNT l) fecCorr else e0
    let ok := headerOk frame (frameBits e.active l)
    if st = 2 then
      let g := e1.lnk.good.get l
      if !ok then { e1 with lnk := { e1.lnk with good := e1.lnk.good.set l 0 } }
      else
        let g' := if g = 0 ∨ 15 < gap then 1 else g + 1
        let e2 := ({ e1 with lnk := { e1.lnk with good := e1.lnk.good.set l g' } }).setReg (Reg.LNK_LSTAT_TAG l)
          (frameField frame (frameBits e.active l) 4 14)
        if 4 ≤ g' then receiveValid bankOf l frame (e2.setLane l 3) else e2
    else if !ok || decide (15 < gap) then
      let e2 := (e1.bump (Reg.LNK_LCHKERR_COUNT l)).raise (Src.lnk + 3) l
      let b := e2.lnk.bad.get l + 1
      if 4 ≤ b then e2.setLane l 2 else { e2 with lnk := { e2.lnk with bad := e2.lnk.bad.set l b } }
    else receiveValid bankOf l frame { e1 with lnk := { e1.lnk with bad := e1.lnk.bad.set l 0 } }

/-! ### Alignment (R86) -/

/-- A segment reaches its alignment buffer: accepted, late, early or duplicate (R86). -/
def alignSegment (e : Engine) (g : Seg) : Engine :=
  let t := e.active
  if (t.fld Reg.TIM_ALIGN_A : Nat) ≤ g.skew then (e.bump (Reg.LNK_SLATE_COUNT g.q)).raise (Src.lnk + 4) g.q
  else if g.skew < -((earlyLimit t : Nat) : Int) then (e.bump (Reg.LNK_SEARLY_COUNT g.q)).raise (Src.lnk + 5) g.q
  else if e.lnk.buf.any (fun b => b.q == g.q && b.n == g.n) then e.bump (Reg.LNK_SDUP_COUNT g.q)
  else
    let e1 := e.bump (Reg.LNK_SGOOD_COUNT g.q)
    { e1 with lnk := { e1.lnk with buf := e1.lnk.buf ++ [g] } }

/-- The segments whose buffer crossing is `k` reach their buffers, in the order in which they arrived (R85). -/
def alignDue (e : Engine) (k : Nat) : Engine :=
  let due := e.lnk.rx.filter (fun g => g.due == k)
  due.foldl alignSegment { e with lnk := { e.lnk with rx := e.lnk.rx.filter (fun g => g.due != k) } }

/-- The segments held for crossing `n`. -/
def Engine.segments (e : Engine) (n : Nat) : List Seg := e.lnk.buf.filter (fun g => g.n == n)

/-- The segments of crossing `n` leave their buffers (R85). -/
def Engine.releaseSegs (e : Engine) (n : Nat) : Engine :=
  { e with lnk := { e.lnk with buf := e.lnk.buf.filter (fun g => g.n != n) } }

/-! ### Lane modes and power at a commit, in STANDBY and at the wake (R112, R116) -/

/-- After a commit: a lane whose mode changed restarts from DOWN, or is OFF (R108, R112, R116). -/
def lanesCommitted (old : Tab) (e : Engine) : Engine :=
  let e1 := (List.range 144).foldl (fun a l =>
    if laneMode old l = laneMode a.active l then a
    else if a.st = stStandby then a
    else (a.setLane l (if laneMode a.active l = 0 then 0 else 1)).dropRx l) e
  e1.eqAll

/-- The slot tables `old` are kept for the frames that they still govern, those of crossings before `c` (R112); those of frames that no
skew reaches any more are forgotten. -/
def keepBank (old : Tab) (c : Nat) (e : Engine) : Engine :=
  if !slotsDiffer old e.active then e
  else
    let live := e.lnk.banks.filter (fun b => decide (e.counted < b.1 + 2 * orbitLen e.active))
    { e with lnk := { e.lnk with banks := live ++ [(c, Tab.ofBlocks [3] old)] } }

/-- Every lane powers down (R116, R443). -/
def lanesOff (e : Engine) : Engine :=
  (List.range 144).foldl (fun a l => if a.laneState l = 0 then a else (a.setLane l 0).dropRx l) e

/-- Every lane returns to its active mode from DOWN (R116, R444). -/
def lanesOn (e : Engine) : Engine :=
  (List.range 144).foldl (fun a l => if laneMode a.active l = 0 then a else a.setLane l 1) e

/-! ### Skew statistics (R113, R114) -/

/-- The report of a source over its eight complete epochs: VALID, MIN + 128, MAX + 128 (R113). -/
def skewReport (sk : Tab) (q : Nat) : Bool × Nat × Nat :=
  let vs := ((List.range 8).map (fun j => sk.get (16 * q + 1 + j))).filter (· != 0)
  match vs with
  | [] => (false, 128, 128)
  | _ => (true, (vs.map (fun v => (v - 1) / 256)).foldl min 255, (vs.map (fun v => (v - 1) % 256)).foldl max 0)

/-- Write the report of source `q` into its register (R113). -/
def Engine.reportSkew (e : Engine) (q : Nat) : Engine :=
  let r := skewReport e.lnk.skew q
  let ws : List (Fld × Nat) := [(Reg.LNK_SSKEW_MIN q, r.2.1 + 128), (Reg.LNK_SSKEW_MAX q, r.2.2 + 128),
    (Reg.LNK_SSKEW_VALID q, b2n r.1)]
  { e with regs := e.regs.puts ws }

/-- The sources that hold skew records. -/
def skewed (sk : Tab) : List Nat := (sk.map (fun kv => kv.1 / 16)).dedup

/-- LNK_SKEWSUM and LNK_SKEWSRC over the valid sources; the lower index where two share an extreme (R114). -/
def Engine.skewSum (e : Engine) : Engine :=
  let vs := (skewed e.lnk.skew).filter (fun q => (skewReport e.lnk.skew q).1)
  let lo := vs.foldl (fun a q => match a with
    | none => some q
    | some b => if (skewReport e.lnk.skew q).2.1 < (skewReport e.lnk.skew b).2.1 then some q else some b) (none : Option Nat)
  let hi := vs.foldl (fun a q => match a with
    | none => some q
    | some b => if (skewReport e.lnk.skew b).2.2 < (skewReport e.lnk.skew q).2.2 then some q else some b) (none : Option Nat)
  let ws : List (Fld × Nat) := match lo, hi with
    | some l, some h =>
      [(Reg.LNK_SKEWSUM_MIN, (skewReport e.lnk.skew l).2.1 + 128), (Reg.LNK_SKEWSUM_MAX, (skewReport e.lnk.skew h).2.2 + 128),
       (Reg.LNK_SKEWSUM_VALID, 1), (Reg.LNK_SKEWSRC_MINSRC, l), (Reg.LNK_SKEWSRC_MAXSRC, h)]
    | _, _ =>
      [(Reg.LNK_SKEWSUM_MIN, 0), (Reg.LNK_SKEWSUM_MAX, 0), (Reg.LNK_SKEWSUM_VALID, 0), (Reg.LNK_SKEWSRC_MINSRC, 0),
       (Reg.LNK_SKEWSRC_MAXSRC, 0)]
  { e with regs := e.regs.puts ws }

/-- The present epoch becomes the latest complete one (R113). -/
def shiftEpochs (sk : Tab) : Tab :=
  sk.foldl (fun a kv => if kv.1 % 16 < 8 then a.set (kv.1 + 1) kv.2 else a) []

/-- An epoch of 128 orbits ends: the reports are formed anew (R113, R114). -/
def skewEpochEnd (e : Engine) : Engine :=
  if !e.locked || decide (e.tim.orbits < 128) then e
  else
    let qs := skewed e.lnk.skew
    let e1 : Engine := { e with lnk := { e.lnk with skew := shiftEpochs e.lnk.skew }, tim := { e.tim with orbits := e.tim.orbits - 128 } }
    (qs.foldl Engine.reportSkew e1).skewSum

/-- Lock clears all statistics (R113). -/
def clearSkew (e : Engine) : Engine :=
  let qs := skewed e.lnk.skew
  (qs.foldl Engine.reportSkew { e with lnk := { e.lnk with skew := [] } }).skewSum

/-! ### Functions (Table 4.8) -/

/-- The lanes a target names: one, or all. -/
def laneTargets (target : Nat) : List Nat := if target = allInstances then List.range 144 else [target]

/-- The first resource of a kind that a context may not act on. -/
def ownersBad (e : Engine) (c kind : Nat) (is : List Nat) : Option Nat := is.findSome? (fun i => e.ownerBad c kind i)

/-- LANE_MODE. -/
def fnLaneMode : Fn :=
  { op := 0x0310, kind := .basic, owner := fun e p => ownersBad e p.ctx 1 (laneTargets p.target)
    range := fun _ p => firstBad [(p.target == allInstances || decide (p.target < 144), 7), (decide (p.arg 0 ≤ 2), 8)] }

/-- The field LANE_MODE writes. -/
def wLaneMode (_ : Engine) (p : Packet) : List (Fld × Nat) :=
  (laneTargets p.target).map (fun l => (Reg.LNK_LCFG_MODE l, p.arg 0))

/-- EQ_MODE. -/
def fnEqMode : Fn := { fnLaneMode with op := 0x0312 }

/-- The field EQ_MODE writes. -/
def wEqMode (_ : Engine) (p : Packet) : List (Fld × Nat) :=
  (laneTargets p.target).map (fun l => (Reg.LNK_LCFG_EQ l, p.arg 0))

/-- The fields of an LNK_SCFG image (Table 4.11). -/
def scfgImage (q v : Nat) : List (Fld × Nat) :=
  [(Reg.LNK_SCFG_EN q, bit v 0), (Reg.LNK_SCFG_TYPE q, bit v 1), (Reg.LNK_SCFG_WSIZE q, bits v 3 2),
   (Reg.LNK_SCFG_COUNT q, bits v 14 4), (Reg.LNK_SCFG_LAG q, bits v 20 15), (Reg.LNK_SCFG_WBASE q, bits v 26 21)]

/-- The bits of an LNK_SCFG image that are not reserved. -/
def scfgMask : Nat := 0x07FFFFFF

/-- SET_SOURCES. -/
def fnSetSources : Fn :=
  { op := 0x0311, kind := .basic, len := lenIs 32
    owner := fun e p => match e.ownerBad p.ctx 1 p.target with
      | some o => some o
      | none => ownersBad e p.ctx 2 ((List.range 8).map (8 * p.target + ·))
    range := fun _ p => match firstBad [(decide (p.target < 144), 7)] with
      | some d => some d
      | none => wordsBad p (fun _ v => within scfgMask v) }

/-- The fields SET_SOURCES writes. -/
def wSetSources (_ : Engine) (p : Packet) : List (Fld × Nat) :=
  (List.range 8).flatMap (fun j => scfgImage (8 * p.target + j) (p.word j))

/-- SET_TRX. -/
def fnSetTrx : Fn :=
  { op := 0x0313, kind := .basic, range := fun _ p => firstBad [(p.target == 0, 7), (decide (p.arg 0 ≤ 1), 8)] }

/-- The field SET_TRX writes. -/
def wSetTrx (_ : Engine) (p : Packet) : List (Fld × Nat) := [(Reg.LNK_CTL_TRX, p.arg 0)]

/-- RAW_LANES. -/
def fnRawLanes : Fn :=
  { op := 0x0380, kind := .stage, len := lenTimes 4 144
    owner := fun e p => ownersBad e p.ctx 1 ((List.range (p.length / 4)).map (· + p.target))
    range := fun _ p => match firstBad [(decide (p.target + p.length / 4 ≤ 144), 7)] with
      | some d => some d
      | none => wordsBad p (fun _ v => within 0x133 v) }

/-- The fields RAW_LANES writes. -/
def wRawLanes (_ : Engine) (p : Packet) : List (Fld × Nat) :=
  (List.range (p.length / 4)).flatMap (fun i =>
    let l := p.target + i
    let v := p.word i
    [(Reg.LNK_LCFG_MODE l, bits v 1 0), (Reg.LNK_LCFG_EQ l, bits v 5 4), (Reg.LNK_LCFG_INV l, bit v 8)])

/-- RAW_SOURCES. -/
def fnRawSources : Fn :=
  { op := 0x0381, kind := .stage, len := lenTimes 4 1152
    owner := fun e p => ownersBad e p.ctx 2 ((List.range (p.length / 4)).map (· + p.target))
    range := fun _ p => match firstBad [(decide (p.target + p.length / 4 ≤ 1152), 7)] with
      | some d => some d
      | none => wordsBad p (fun _ v => within scfgMask v) }

/-- The fields RAW_SOURCES writes. -/
def wRawSources (_ : Engine) (p : Packet) : List (Fld × Nat) :=
  (List.range (p.length / 4)).flatMap (fun i => scfgImage (p.target + i) (p.word i))

/-- A function whose arguments 0 and 1 are a host buffer, 8-byte aligned. -/
def bufAlign (p : Packet) : Option Nat := if p.arg 0 % 8 = 0 then none else some 8

/-- EQ_READ. -/
def fnEqRead : Fn :=
  { op := 0x0382, kind := .read, owner := fun e p => e.ownerBad p.ctx 1 p.target
    range := fun _ p => firstBad [(decide (p.target < 144), 7)], align := bufAlign }

/-- EQ_READ writes 64 B: CTLE gain, DFE taps 1 to 12, FOM. The coefficients are those held while the lane holds, else those that
adaptation has found by now (R115; assumption 20). -/
def actEqRead (e : Engine) (p : Packet) : Engine :=
  let l := p.target
  let held := e.reg (Reg.LNK_LSTAT_EQF l) == 1
  let k := if held then e.lnk.coefs.get l - 1 else e.free
  let e1 : Engine := if held then e else { e with free := e.free + 1 }
  e1.post (p.arg64 0) ((List.range 13).flatMap (fun i => leBytes 2 (Config.eqCoef l i k)) ++ leBytes 2 (e.fom l) ++ leBytes 36 0)

/-- A Keep item would change (R162). -/
def lnkExtra (w : Engine → Packet → List (Fld × Nat)) (e : Engine) (p : Packet) : Option Status := keepPerm e (w e p)

/-! ### Meanings -/

/-- LANE_MODE (R94, R117). -/
def execLaneMode (p : Packet) (s : State) : Host.Outcome State Fault Refusal :=
  .next { s with eng := runConfig fnLaneMode (lnkExtra wLaneMode) wLaneMode 0 p s.eng }

/-- SET_SOURCES (R104, R117). -/
def execSetSources (p : Packet) (s : State) : Host.Outcome State Fault Refusal :=
  .next { s with eng := runConfig fnSetSources (lnkExtra wSetSources) wSetSources 0 p s.eng }

/-- EQ_MODE (R115, R117). -/
def execEqMode (p : Packet) (s : State) : Host.Outcome State Fault Refusal :=
  .next { s with eng := runConfig fnEqMode (lnkExtra wEqMode) wEqMode 0 p s.eng }

/-- SET_TRX (R97, R117). -/
def execSetTrx (p : Packet) (s : State) : Host.Outcome State Fault Refusal :=
  .next { s with eng := runConfig fnSetTrx noExtra wSetTrx 0 p s.eng }

/-- RAW_LANES (R117). -/
def execRawLanes (p : Packet) (s : State) : Host.Outcome State Fault Refusal :=
  .next { s with eng := runConfig fnRawLanes (lnkExtra wRawLanes) wRawLanes 0 p s.eng }

/-- RAW_SOURCES (R117). -/
def execRawSources (p : Packet) (s : State) : Host.Outcome State Fault Refusal :=
  .next { s with eng := runConfig fnRawSources (lnkExtra wRawSources) wRawSources 0 p s.eng }

/-- EQ_READ (R117). -/
def execEqRead (p : Packet) (s : State) : Host.Outcome State Fault Refusal :=
  .next { s with eng := runAction fnEqRead noExtra actEqRead p s.eng }

/-- LANE_SIGNAL_CHANGE: the CDR and coding layer of a lane lock, or are lost (R95, R108, R453). `inverted`: the line comes with inverted polarity,
on which the coding layer locks only where LNK_LCFG.INV inverts it (R118; assumption 123). -/
def execLaneSignalChange (lane : Nat) (signal : LaneSignal) (s : State) : Host.Outcome State Fault Refusal :=
  let e := s.eng
  let st := e.laneState lane
  .next { s with eng :=
    if 144 ≤ lane ∨ st = 0 then e
    else if signal.locked && signal.inverted == (e.act (Reg.LNK_LCFG_INV lane) == 1) then (if st = 1 then e.setLane lane 2 else e)
    else if st = 1 then e else e.setLane lane 1 }

/-- SKEW_EPOCH_END (R113, R114). -/
def execSkewEpochEnd (s : State) : Host.Outcome State Fault Refusal := .next { s with eng := skewEpochEnd s.eng }

/-- EQ_HOLD_START: the millisecond of adaptation after entry into UP has passed (R115). -/
def execEqHoldStart (lane : Nat) (s : State) : Host.Outcome State Fault Refusal :=
  let e := s.eng
  .next { s with eng :=
    if 144 ≤ lane ∨ e.laneState lane ≠ 3 then e
    else ({ e with lnk := { e.lnk with adapting := e.lnk.adapting.set lane 0 } } : Engine).eqRefresh lane }

end Sys2Proof.Machine
end

