-- ==== Sys2Proof/Machine/CellMap.lean ====
section
/-! DEFINITION. The cell map (chapter 5): conversion, merging, masks and readiness of the map sources for one frame, the
MAP checker, and the MAP functions. -/

namespace Sys2Proof.Machine

/-- MAP_SDEF.KIND; MS31 reads KEEP (R121, Table 5.5). -/
def srcKind (t : Tab) (m : Nat) : Nat := if m = 31 then 3 else t.fld (Reg.MAP_SDEF_KIND m)
/-- Width of a map source. -/
def srcW (t : Tab) (m : Nat) : Nat := t.fld (Reg.MAP_SDEF_W m)
/-- Height of a map source. -/
def srcH (t : Tab) (m : Nat) : Nat := t.fld (Reg.MAP_SDEF_H m)
/-- Map columns. -/
def mapCols (t : Tab) : Nat := t.fld Reg.MAP_GEOM_COLS
/-- Map rows. -/
def mapRows (t : Tab) : Nat := t.fld Reg.MAP_GEOM_ROWS

/-- Key of cell `i` = y × W + x of map source `m` in a table of source cells. -/
def cellKey (m i : Nat) : Nat := m * 2 ^ 15 + i

/-- Entry `i` of conversion LUT `k`; `i` at power-on reset (R125). -/
def convFld (k i : Nat) : Fld := tabFld tConv (4096 * k + i) 18 i

/-- Full scale, 262,143. -/
def full18 : Nat := 262143

/-- A word of source `q` in energy units, and whether the conversion saturated (R124, R126). -/
def convert (t : Tab) (q w : Nat) : Nat × Bool :=
  let b := (slotOf t q).bits
  if t.fld (Reg.MAP_CONV_SATCODE q) = 1 ∧ w = 2 ^ b - 1 then (full18, false)
  else if t.fld (Reg.MAP_CONV_MODE q) = 1 then
    (t.fld (convFld (t.fld (Reg.MAP_CONV_LUT q)) (if b = 16 then w / 16 else w)), false)
  else
    let sh := t.fld (Reg.MAP_CONV_SH q)
    let v := w - t.fld (Reg.MAP_CGAIN_PED q)
    let x := (v * t.fld (Reg.MAP_CGAIN_GAIN q) + (if sh = 0 then 0 else 2 ^ (sh - 1))) / 2 ^ sh
    (min x full18, decide (full18 < x))

/-- Merge energy `v` into a cell (R130): the cell and whether a SUM saturated. -/
def mergeCell (t : Tab) (m old v : Nat) : Nat × Bool :=
  if t.fld (Reg.MAP_SDEF_MERGE m) = 1 then (max old v, false)
  else (min (old + v) full18, decide (full18 < old + v))

/-- Place one word by its tile map entry (R127, R130): cells and saturations per source. -/
def placeWord (t : Tab) (q : Nat) (a : Tab × Tab) (iw : Nat × Nat) : Tab × Tab :=
  let en := t.fld (tileFld (t.fld (Reg.MAP_TBASE_BASE q) + iw.1))
  if !tileEn en then a
  else
    let m := tileMs en
    let c := convert t q iw.2
    let k := cellKey m (tileY en * srcW t m + tileX en)
    let r := mergeCell t m (a.1.get k) c.1
    (a.1.set k r.1, if c.2 || r.2 then a.2.set m (a.2.get m + b2n c.2 + b2n r.2) else a.2)

/-- The merged cells of a frame from its CELL segments, and the saturations of each source (R130). -/
def mergeSegments (t : Tab) (segs : List Seg) : Tab × Tab :=
  (segs.filter (fun g => !(slotOf t g.q).wave && (slotOf t g.q).en)).foldl
    (fun a g => (indexed g.words).foldl (placeWord t g.q) a) ([], [])

/-- Bit `b` of the dead (`hot` false) or hot mask of map source `m`. -/
def maskFld (hot : Bool) (m b : Nat) : Fld := tabFld (if hot then tHot else tDead) (m * 2 ^ 15 + b) 1 0

/-- The bits set in a mask of source `m`. -/
def maskBits (t : Tab) (hot : Bool) (m : Nat) : List Nat :=
  let b := tabBase (if hot then tHot else tDead) + m * 2 ^ 15
  (t.range b (b + 2 ^ 15)).map (fun kv => kv.1 - b)

/-- Mask the cells of source `m` (R131): dead cells take the dead value, hot cells are capped, the dead rule first. -/
def maskSource (t : Tab) (cells : Tab) (m : Nat) : Tab :=
  let dead := maskBits t false m
  let c1 := (maskBits t true m).foldl (fun a b =>
    if dead.contains b then a else a.set (cellKey m b) (min (a.get (cellKey m b)) (t.fld (Reg.MAP_SHOT_CAP m)))) cells
  dead.foldl (fun a b => a.set (cellKey m b) (t.fld (Reg.MAP_SDEAD_VAL m))) c1

/-- The map sources of kind TILE, and MS31. -/
def tileSources (t : Tab) : List Nat := (List.range 32).filter (fun m => srcKind t m == 1 || srcKind t m == 3)

/-- The map sources that the enabled tile map entries of a CELL source's run target. -/
def feedsOf (t : Tab) (q : Nat) : List Nat :=
  let b := t.fld (Reg.MAP_TBASE_BASE q)
  ((t.range (tileFld b).key (tileFld (b + (slotOf t q).count)).key).filterMap (fun kv =>
    if tileEn kv.2 then some (tileMs kv.2) else none)).dedup

/-- The enabled CELL sources. -/
def cellSources (t : Tab) : List Nat := (enabledSources t).filter (fun q => !(slotOf t q).wave)

/-- The TILE and KEEP sources that are not ready for a frame with these segments (R134). -/
def notReady (t : Tab) (segs : List Seg) : List Nat :=
  let missing := (cellSources t).filter (fun q => !segs.any (fun g => g.q == q))
  let ms := missing.flatMap (feedsOf t)
  (tileSources t).filter (fun m => ms.contains m)

/-! ### The checker (R119, R121 to R124, R128, R129) -/

/-- Two runs overlap. -/
def runsOverlap (a b : Nat × Nat) : Bool := decide (a.1 < b.1 + b.2) && decide (b.1 < a.1 + a.2)

/-- No two of a list of runs overlap. -/
def runsDisjoint : List (Nat × Nat) → Bool
  | [] => true
  | r :: rs => rs.all (fun x => !runsOverlap r x) && runsDisjoint rs

/-- The runs of the enabled CELL sources lie in the tile map and do not overlap (R128). -/
def mapRuns (t : Tab) : Bool :=
  let runs := (cellSources t).map (fun q => (t.fld (Reg.MAP_TBASE_BASE q), (slotOf t q).count))
  runs.all (fun x => decide (x.1 + x.2 ≤ 36864)) && runsDisjoint runs

/-- The MAP consistency checker: true where it accepts. MS31 has no size where no bundle is installed. -/
def mapCheck (t : Tab) : Bool :=
  let c := mapCols t
  let r := mapRows t
  let on := (List.range 32).filter (fun m => srcKind t m != 0)
  decide (32 ≤ c) && decide (c ≤ 256) && c % 16 == 0 && decide (8 ≤ r) && decide (r ≤ 128) && r % 8 == 0
  && (List.range 31).all (fun m => srcKind t m != 3)
  && on.all (fun m => (m == 31 && srcW t m == 0 && srcH t m == 0) ||
    (decide (1 ≤ srcW t m) && decide (srcW t m ≤ 256) && decide (1 ≤ srcH t m) && decide (srcH t m ≤ 128)))
  && decide ((on.map (fun m => srcW t m * srcH t m)).foldl (· + ·) 0 ≤ 524288)
  && (List.range 1152).all (fun q => decide (t.fld (Reg.MAP_CONV_MODE q) ≤ 1) && t.fld (Reg.MAP_CGAIN_GAIN q) != 0)
  && mapRuns t
  && (t.range (tabBase tTile) (tabBase (tTile + 1))).all (fun kv =>
    let m := tileMs kv.2
    !tileEn kv.2 || ((srcKind t m == 1 || m == 31) && decide (tileX kv.2 < srcW t m) && decide (tileY kv.2 < srcH t m)))

/-! ### Mask writes (R132, R133) -/

/-- The mask bit an item of a write names under the sizes of set `t`: none where it lies outside the mask. -/
def maskIndex (t : Tab) (w : MaskWrite) (it : Nat × Nat × Nat × Bool) : Option Nat :=
  let wd := srcW t w.src
  if w.cells then (if it.1 < wd ∧ it.2.1 < srcH t w.src then some (it.2.1 * wd + it.1) else none)
  else if it.1 < wd * srcH t w.src then some it.1 else none

/-- An item that lies outside the mask is dropped and counted (R133): a bit of RAW_MASK only where it is written as 1. -/
def maskDrops (t : Tab) (w : MaskWrite) (it : Nat × Nat × Nat × Bool) : Bool :=
  (maskIndex t w it).isNone && (w.cells || it.2.2.1 == 1)

/-- Apply a mask write to the active masks: every item, or only those that no later unstaged write has overtaken. -/
def applyMask (all : Bool) (e : Engine) (w : MaskWrite) : Engine :=
  let t := e.active
  let its := w.items.filter (fun it => all || it.2.2.2)
  let t' := its.foldl (fun a it => match maskIndex t w it with
    | some b => a.put (maskFld w.hot w.src b) it.2.2.1
    | none => a) t
  let e1 := { e with active := t' }
  if its.any (maskDrops t w) then (e1.bump Reg.MAP_MDROP_COUNT).raiseBit Reg.MAP_STAT_MDROP else e1

/-- The active counts of masks, tile map entries and store cells (Tables 5.4, 5.5). -/
def mapStatus (e : Engine) : Engine :=
  let t := e.active
  let on := (List.range 32).filter (fun m => srcKind t m != 0)
  let used := (cellSources t).map (fun q => (slotOf t q).count)
  let ws : List (Fld × Nat) :=
    [(Reg.MAP_STUSE_CELLS, (on.map (fun m => srcW t m * srcH t m)).foldl (· + ·) 0), (Reg.MAP_TMUSE_COUNT, used.foldl (· + ·) 0)]
      ++ (List.range 32).flatMap (fun m =>
        [(Reg.MAP_SMASK_NDEAD m, (maskBits t false m).length), (Reg.MAP_SMASK_NHOT m, (maskBits t true m).length)])
  { e with regs := e.regs.puts ws }

/-- The unstaged mask writes take effect, in order (R132, R135). -/
def applyUnstaged (e : Engine) : Engine :=
  if e.map.unstaged.isEmpty then e
  else mapStatus ((e.map.unstaged).foldl (applyMask true) { e with map := { e.map with unstaged := [] } })

/-- Clear both masks of source `m`. -/
def clearMasks (t : Tab) (m : Nat) : Tab :=
  t.filter (fun kv => !((tabBase tDead + m * 2 ^ 15 ≤ kv.1 ∧ kv.1 < tabBase tDead + (m + 1) * 2 ^ 15) ∨
    (tabBase tHot + m * 2 ^ 15 ≤ kv.1 ∧ kv.1 < tabBase tHot + (m + 1) * 2 ^ 15)))

/-- The masks at a MAP commit whose old set is `old` (R133). -/
def commitMasks (old : Tab) (masks : List MaskWrite) (e : Engine) : Engine :=
  let resized := (List.range 32).filter (fun m => srcW old m != srcW e.active m || srcH old m != srcH e.active m)
  let e1 : Engine := { e with active := resized.foldl clearMasks e.active }
  let e2 := masks.foldl (fun a w => applyMask (resized.contains w.src) a w) e1
  let e3 := resized.foldl (fun a m => (a.raiseBit Reg.MAP_STAT_MCLR).raise (Src.map + 1) m) e2
  mapStatus e3

/-- An unstaged write overtakes the bits of staged writes that it also writes (R132). -/
def overtake (t : Tab) (w : MaskWrite) (s : MaskWrite) : MaskWrite :=
  if s.src = w.src ∧ s.hot = w.hot then
    let bs := w.items.filterMap (maskIndex t w)
    { s with items := s.items.map (fun it => match maskIndex t s it with
      | some b => if bs.contains b then (it.1, it.2.1, it.2.2.1, false) else it
      | none => it) }
  else s

/-! ### Functions (Table 5.3) -/

/-- SET_GEOM. -/
def fnSetGeom : Fn :=
  { op := 0x0410, kind := .basic
    range := fun _ p => firstBad [(p.target == 0, 7), (decide (32 ≤ p.arg 0) && decide (p.arg 0 ≤ 256) && p.arg 0 % 16 == 0, 8),
      (decide (8 ≤ p.arg 1) && decide (p.arg 1 ≤ 128) && p.arg 1 % 8 == 0, 9)] }

/-- The fields SET_GEOM writes. -/
def wSetGeom (_ : Engine) (p : Packet) : List (Fld × Nat) := [(Reg.MAP_GEOM_COLS, p.arg 0), (Reg.MAP_GEOM_ROWS, p.arg 1)]

/-- DEFINE_SOURCE. -/
def fnDefineSource : Fn :=
  { op := 0x0411, kind := .basic
    range := fun _ p => firstBad [(decide (p.target < 32), 7), (decide (p.arg 0 ≤ 2) || (p.target == 31 && p.arg 0 == 3), 8),
        (decide (1 ≤ p.arg 1 ∧ p.arg 1 ≤ 256), 9), (decide (1 ≤ p.arg 2 ∧ p.arg 2 ≤ 128), 10),
        (decide (p.arg 3 ≤ 1), 11), (decide (p.arg 4 ≤ full18), 12), (decide (p.arg 5 ≤ full18), 13)] }

/-- The fields DEFINE_SOURCE writes. -/
def wDefineSource (_ : Engine) (p : Packet) : List (Fld × Nat) :=
  let m := p.target
  [(Reg.MAP_SDEF_KIND m, if m = 31 then 0 else p.arg 0), (Reg.MAP_SDEF_W m, p.arg 1), (Reg.MAP_SDEF_H m, p.arg 2),
   (Reg.MAP_SDEF_MERGE m, p.arg 3), (Reg.MAP_SDEAD_VAL m, p.arg 4), (Reg.MAP_SHOT_CAP m, p.arg 5)]

/-- A MAP command would change a Keep item (R122); DEFINE_SOURCE of MS31 with another kind than KEEP would too. -/
def mapExtra (w : Engine → Packet → List (Fld × Nat)) (e : Engine) (p : Packet) : Option Status := keepPerm e (w e p)

/-- See `mapExtra`. -/
def extraDefine (e : Engine) (p : Packet) : Option Status :=
  if p.target = 31 ∧ p.arg 0 ≠ 3 then some (.perm 5) else keepPerm e (wDefineSource e p)

/-- An entry that places a word at (x, y) of source `m`. -/
def tileEntry (m x y : Nat) : Nat := 2 ^ 31 + m * 2 ^ 26 + x * 2 ^ 18 + y * 2 ^ 11

/-- The layer, its source, origin and the geometry that PLACE reads (R136). -/
structure PlaceView where
  native : Bool
  m : Nat
  pc : Nat
  pr : Int
  kind : Nat
  w : Nat
  h : Nat
  cols : Nat
  rows : Nat
  base : Nat

/-- What PLACE reads: the issuing context's staged DOM and MAP sets where it holds their locks (R136). -/
def placeView (e : Engine) (p : Packet) : PlaceView :=
  let t := e.viewOf [4, 5] p.ctx
  let d := bit (p.arg 0) 0
  let l := bits (p.arg 0) 3 1
  let m := t.fld (Reg.DOM_LSRC_SRC d l)
  { native := t.fld (Reg.DOM_LKIND_KIND d l) == 0, m := m, pc := t.fld (Reg.DOM_LPOS_PC d l)
    pr := sval 10 (t.fld (Reg.DOM_LPOS_PR d l)), kind := if m < 31 then srcKind t m else 0, w := srcW t m, h := srcH t m
    cols := mapCols t, rows := mapRows t, base := t.fld (Reg.MAP_TBASE_BASE p.target) }

/-- Word k's column and row under PLACE: X and Y in the source, and the map row (R136). -/
def placeAt (v : PlaceView) (p : Packet) (k : Nat) : Nat × Int × Nat :=
  let c := (p.arg 1 + k % p.arg 5) % v.cols
  let r := p.arg 2 + k / p.arg 5
  ((((c : Int) - v.pc) % v.cols).toNat, (r : Int) - v.pr, r)

/-- A run of words of a source, at least one of the 2,047 that a source has, fits the tile map; the source's own COUNT is not asked, since entries
past it are never read (DESIGN CHOICE: R136 gives FIRST and COUNT no range; assumption 125). -/
def runFits (base first count : Nat) : Bool := decide (1 ≤ count) && decide (count ≤ 2047) && decide (base + first + count ≤ 36864)

/-- PLACE. -/
def fnPlace : Fn :=
  { op := 0x0412, kind := .basic, owner := fun e p => e.ownerBad p.ctx 2 p.target
    range := fun e p =>
      let v := placeView e p
      match firstBad [(decide (p.target < 1152), 7), (decide (p.arg 0 < 16) && v.native && v.kind == 1, 8),
        (decide (p.arg 2 < v.rows), 10), (decide (p.arg 3 ≤ 2046), 11),
        (runFits v.base (p.arg 3) (p.arg 4), 12), (decide (1 ≤ p.arg 5) && decide (p.arg 5 ≤ 256), 13)] with
      | some d => some d
      | none =>
        if (List.range (p.arg 4)).all (fun k =>
          let a := placeAt v p k
          decide (a.2.2 < v.rows) && decide (a.1 < v.w) && decide (0 ≤ a.2.1) && decide (a.2.1 < (v.h : Int))) then none
        else some 10 }

/-- The entries PLACE writes. -/
def wPlace (e : Engine) (p : Packet) : List (Fld × Nat) :=
  let v := placeView e p
  (List.range (p.arg 4)).map (fun k =>
    let a := placeAt v p k
    (tileFld (v.base + p.arg 3 + k), tileEntry v.m a.1 a.2.1.toNat))

/-- X and Y of word k under PLACE_SRC (R136). -/
def srcAt (w : Nat) (p : Packet) (k : Nat) : Nat × Nat :=
  let x := p.arg 1 + k % p.arg 5
  (if p.arg 6 = 1 ∧ w ≠ 0 then x % w else x, p.arg 2 + k / p.arg 5)

/-- PLACE_SRC. -/
def fnPlaceSrc : Fn :=
  { op := 0x0413, kind := .basic, owner := fun e p => e.ownerBad p.ctx 2 p.target
    right := fun _ => 0
    range := fun e p =>
      let t := e.viewOf [4] p.ctx
      let m := p.arg 0
      if m = 31 then none
      else match firstBad [(decide (p.target < 1152), 7), (decide (m < 32) && srcKind t m == 1, 8), (decide (p.arg 3 ≤ 2046), 11),
        (runFits (t.fld (Reg.MAP_TBASE_BASE p.target)) (p.arg 3) (p.arg 4), 12),
        (decide (1 ≤ p.arg 5) && decide (p.arg 5 ≤ 256), 13), (decide (p.arg 6 ≤ 1), 14)] with
      | some d => some d
      | none =>
        if (List.range (p.arg 4)).all (fun k =>
          let a := srcAt (srcW t m) p k
          decide (a.1 < srcW t m) && decide (a.2 < srcH t m)) then none
        else some 10 }

/-- MS31 is refused (R136); a Keep item would change (R122). -/
def extraPlaceSrc (e : Engine) (p : Packet) : Option Status := if p.arg 0 = 31 then some (.perm 5) else keepPerm e
  ((List.range (p.arg 4)).map (fun k =>
    let t := e.viewOf [4] p.ctx
    let a := srcAt (srcW t (p.arg 0)) p k
    (tileFld (t.fld (Reg.MAP_TBASE_BASE p.target) + p.arg 3 + k), tileEntry (p.arg 0) a.1 a.2)))

/-- The entries PLACE_SRC writes. -/
def wPlaceSrc (e : Engine) (p : Packet) : List (Fld × Nat) :=
  let t := e.viewOf [4] p.ctx
  (List.range (p.arg 4)).map (fun k =>
    let a := srcAt (srcW t (p.arg 0)) p k
    (tileFld (t.fld (Reg.MAP_TBASE_BASE p.target) + p.arg 3 + k), tileEntry (p.arg 0) a.1 a.2))

/-- The base SET_CONV writes: the one it names, or the lowest free run (R469). -/
def convBase (e : Engine) (p : Packet) : Option Nat :=
  if p.arg 6 ≠ allInstances then (if p.arg 6 ≤ 36863 then some (p.arg 6) else none)
  else
    let t := e.viewOf [3, 4] p.ctx
    let s := slotOf t p.target
    if s.wave || s.count == 0 then none
    else
      let runs := ((cellSources t).filter (· != p.target)).map (fun q => (t.fld (Reg.MAP_TBASE_BASE q), (slotOf t q).count))
      let cands := (0 :: runs.map (fun r => r.1 + r.2)).filter (fun b =>
        decide (b + s.count ≤ 36864) && runs.all (fun r => !runsOverlap (b, s.count) r))
      cands.foldl (fun a b => match a with
        | none => some b
        | some x => some (min x b)) (none : Option Nat)

/-- SET_CONV. -/
def fnSetConv : Fn :=
  { op := 0x0414, kind := .basic, owner := fun e p => e.ownerBad p.ctx 2 p.target
    range := fun e p => firstBad [(decide (p.target < 1152), 7), (decide (p.arg 0 ≤ 1), 8),
      (decide (1 ≤ p.arg 1) && decide (p.arg 1 ≤ 65535), 9), (decide (p.arg 2 ≤ 15), 10), (decide (p.arg 3 ≤ 65535), 11),
      (decide (p.arg 4 ≤ 63), 12), (decide (p.arg 5 ≤ 1), 13), ((convBase e p).isSome, 14)] }

/-- The fields SET_CONV writes. -/
def wSetConv (e : Engine) (p : Packet) : List (Fld × Nat) :=
  let q := p.target
  [(Reg.MAP_CONV_MODE q, p.arg 0), (Reg.MAP_CGAIN_GAIN q, p.arg 1), (Reg.MAP_CONV_SH q, p.arg 2), (Reg.MAP_CGAIN_PED q, p.arg 3),
   (Reg.MAP_CONV_LUT q, p.arg 4), (Reg.MAP_CONV_SATCODE q, p.arg 5), (Reg.MAP_TBASE_BASE q, (convBase e p).getD 0)]

/-- The mask write of MASK_CELLS. -/
def cellsWrite (p : Packet) : MaskWrite :=
  { src := p.target, hot := p.arg 0 == 1, cells := true
    items := (List.range p.nwords).map (fun i => (bits (p.word i) 7 0, bits (p.word i) 22 16, p.arg 1, true)) }

/-- The mask write of RAW_MASK. -/
def rawMaskWrite (p : Packet) : MaskWrite :=
  { src := p.target, hot := p.arg 0 == 1, cells := false
    items := (List.range (32 * p.nwords)).map (fun i => (32 * p.arg 1 + i, 0, bit (p.word (i / 32)) (i % 32), true)) }

/-- A mask write would change a bit of MS31 (R122). -/
def maskPerm (e : Engine) (w : MaskWrite) : Option Status :=
  if w.src = 31 ∧ w.items.any (fun it => match maskIndex e.active w it with
    | some b => e.active.fld (maskFld w.hot 31 b) != it.2.2.1
    | none => false) then some (.perm 5) else none

/-- Stage a mask write. -/
def stageMask (w : MaskWrite) (e : Engine) : Engine := { e with map := { e.map with staged := e.map.staged ++ [w] } }

/-- MASK_CELLS. -/
def fnMaskCells : Fn :=
  { op := 0x0415, kind := .basic, len := fun p => p.length % 4 == 0 && decide (4 ≤ p.length)
    range := fun _ p => match firstBad [(decide (p.target < 32), 7), (decide (p.arg 0 ≤ 1), 8), (decide (p.arg 1 ≤ 1), 9)] with
      | some d => some d
      | none => wordsBad p (fun _ v => within 0x007F00FF v) }

/-- UNPLACE. -/
def fnUnplace : Fn :=
  { op := 0x0416, kind := .basic, owner := fun e p => e.ownerBad p.ctx 2 p.target
    range := fun e p => firstBad [(decide (p.target < 1152), 7), (decide (p.arg 0 ≤ 2046), 8),
      (runFits ((e.viewOf [4] p.ctx).fld (Reg.MAP_TBASE_BASE p.target)) (p.arg 0) (p.arg 1), 9)] }

/-- The entries UNPLACE writes: EN = 0. -/
def wUnplace (e : Engine) (p : Packet) : List (Fld × Nat) :=
  let t := e.viewOf [4] p.ctx
  (List.range (p.arg 1)).map (fun k =>
    let f := tileFld (t.fld (Reg.MAP_TBASE_BASE p.target) + p.arg 0 + k)
    (f, t.fld f % 2 ^ 31))

/-- RAW_TMAP. -/
def fnRawTmap : Fn :=
  { op := 0x0480, kind := .stage, len := lenTimes 4 16384
    range := fun _ p => match firstBad [(decide (p.target + p.length / 4 ≤ 36864), 7)] with
      | some d => some d
      | none => wordsBad p (fun _ v => v % 2048 == 0) }

/-- The entries RAW_TMAP writes. -/
def wRawTmap (_ : Engine) (p : Packet) : List (Fld × Nat) :=
  (List.range (p.length / 4)).map (fun i => (tileFld (p.target + i), p.word i))

/-- RAW_CONV. -/
def fnRawConv : Fn :=
  { op := 0x0481, kind := .stage, len := lenTimes 16 1152
    owner := fun e p => ownersBad e p.ctx 2 ((List.range (p.length / 16)).map (· + p.target))
    range := fun _ p => match firstBad [(decide (p.target + p.length / 16 ≤ 1152), 7)] with
      | some d => some d
      | none => wordsBad p (fun i v => within ([0xF3F7, 0xFFFFFFFF, 0xFFFF, 0].getD (i % 4) 0) v) }

/-- The fields RAW_CONV writes. -/
def wRawConv (_ : Engine) (p : Packet) : List (Fld × Nat) :=
  (List.range (p.length / 16)).flatMap (fun i =>
    let q := p.target + i
    let c := p.word (4 * i)
    let g := p.word (4 * i + 1)
    [(Reg.MAP_CONV_MODE q, bits c 1 0), (Reg.MAP_CONV_SATCODE q, bit c 2), (Reg.MAP_CONV_LUT q, bits c 9 4),
     (Reg.MAP_CONV_SH q, bits c 15 12), (Reg.MAP_CGAIN_GAIN q, bits g 15 0), (Reg.MAP_CGAIN_PED q, bits g 31 16),
     (Reg.MAP_TBASE_BASE q, p.word (4 * i + 2))])

/-- RAW_LUT. -/
def fnRawLut : Fn :=
  { op := 0x0482, kind := .stage, len := lenIs 16384
    range := fun _ p => match firstBad [(decide (p.target < 64), 7)] with
      | some d => some d
      | none => wordsBad p (fun _ v => decide (v ≤ full18)) }

/-- The entries RAW_LUT writes. -/
def wRawLut (_ : Engine) (p : Packet) : List (Fld × Nat) := (List.range 4096).map (fun i => (convFld p.target i, p.word i))

/-- RAW_MASK: its writes are not staged unless STAGE is set (R132). Bits beyond the mask are dropped, not refused (R133). -/
def fnRawMask : Fn :=
  { op := 0x0483, kind := .direct, len := fun p => p.length % 4 == 0 && decide (4 ≤ p.length)
    range := fun _ p => firstBad [(decide (p.target < 32), 7), (decide (p.arg 0 ≤ 1), 8)] }

/-- An unstaged mask write waits for the next frame and overtakes staged writes to its bits, those that a pending commit has captured among
them (R132). -/
def unstagedMask (e : Engine) (p : Packet) : Engine :=
  let w := rawMaskWrite p
  let supersede := fun (ms : List MaskWrite) => ms.map (overtake e.active w)
  { e with map := { staged := supersede e.map.staged, unstaged := e.map.unstaged ++ [w] }
           host := { e.host with pends := e.host.pends.map (fun q => { q with masks := supersede q.masks }) } }

/-- RAW_MASK, staged or not (R132, R56). -/
def runRawMask (p : Packet) (e : Engine) : Engine :=
  let extra := fun e p => maskPerm e (rawMaskWrite p)
  if p.stage then runStage fnRawMask extra (fun e p => stageMask (rawMaskWrite p) e) 0 p e
  else runAction fnRawMask extra unstagedMask p e

/-! ### Meanings -/

/-- SET_GEOM (R119, R120, R137). -/
def execSetGeom (p : Packet) (s : State) : Host.Outcome State Fault Refusal :=
  .next { s with eng := runConfig fnSetGeom noExtra wSetGeom 0 p s.eng }

/-- DEFINE_SOURCE (R121 to R123, R137). -/
def execDefineSource (p : Packet) (s : State) : Host.Outcome State Fault Refusal :=
  .next { s with eng := runConfig fnDefineSource extraDefine wDefineSource 0 p s.eng }

/-- PLACE (R136, R137). -/
def execPlace (p : Packet) (s : State) : Host.Outcome State Fault Refusal :=
  .next { s with eng := runConfig fnPlace (mapExtra wPlace) wPlace 0 p s.eng }

/-- PLACE_SRC (R136, R137). -/
def execPlaceSrc (p : Packet) (s : State) : Host.Outcome State Fault Refusal :=
  .next { s with eng := runConfig fnPlaceSrc extraPlaceSrc wPlaceSrc 0 p s.eng }

/-- SET_CONV (R124, R469, R137). -/
def execSetConv (p : Packet) (s : State) : Host.Outcome State Fault Refusal :=
  .next { s with eng := runConfig fnSetConv (mapExtra wSetConv) wSetConv 0 p s.eng }

/-- MASK_CELLS (R132, R133, R137). -/
def execMaskCells (p : Packet) (s : State) : Host.Outcome State Fault Refusal :=
  .next { s with eng := runStage fnMaskCells (fun e p => maskPerm e (cellsWrite p)) (fun e p => stageMask (cellsWrite p) e) 0 p s.eng }

/-- UNPLACE (R137). -/
def execUnplace (p : Packet) (s : State) : Host.Outcome State Fault Refusal :=
  .next { s with eng := runConfig fnUnplace (mapExtra wUnplace) wUnplace 0 p s.eng }

/-- RAW_TMAP (R137). -/
def execRawTmap (p : Packet) (s : State) : Host.Outcome State Fault Refusal :=
  .next { s with eng := runConfig fnRawTmap (mapExtra wRawTmap) wRawTmap 0 p s.eng }

/-- RAW_CONV (R137). -/
def execRawConv (p : Packet) (s : State) : Host.Outcome State Fault Refusal :=
  .next { s with eng := runConfig fnRawConv (mapExtra wRawConv) wRawConv 0 p s.eng }

/-- RAW_LUT (R125, R137). -/
def execRawLut (p : Packet) (s : State) : Host.Outcome State Fault Refusal :=
  .next { s with eng := runConfig fnRawLut noExtra wRawLut 0 p s.eng }

/-- RAW_MASK (R132, R137). -/
def execRawMask (p : Packet) (s : State) : Host.Outcome State Fault Refusal :=
  .next { s with eng := runRawMask p s.eng }

end Sys2Proof.Machine
end

