-- ==== Sys2Proof/Machine/Domes.lean ====
section
/-! DEFINITION. The Domes (chapter 6): resampling, alpha, blending, the Keep and output LUT, Dome sums, the not-ready
policies, the DOM checker, and the DOM functions. -/

namespace Sys2Proof.Machine

/-! ### Layers (R141 to R146) -/

/-- A layer's attributes in a set (Table 6.1), with the size of the source it reads. -/
structure Layer where
  src : Nat
  test : Bool
  resampled : Bool
  xDown : Bool
  xf : Nat
  yDown : Bool
  yf : Nat
  linear : Bool
  mean : Bool
  pc : Nat
  pr : Int
  lw : Nat
  lh : Nat
  w : Nat
  h : Nat
  lut : Bool
  ish : Nat
  mode : Nat
  pre : Bool
  apen : Bool
  apl : Nat
  alpha : Nat
deriving DecidableEq, Repr

/-- Layer `l` of Dome `d`. -/
def layerOf (t : Tab) (d l : Nat) : Layer :=
  let m := t.fld (Reg.DOM_LSRC_SRC d l)
  { src := m, test := t.fld (Reg.DOM_LSRC_TEST d l) == 1, resampled := t.fld (Reg.DOM_LKIND_KIND d l) == 1
    xDown := t.fld (Reg.DOM_LKIND_XDIR d l) == 1, xf := t.fld (Reg.DOM_LKIND_XF d l) + 1
    yDown := t.fld (Reg.DOM_LKIND_YDIR d l) == 1, yf := t.fld (Reg.DOM_LKIND_YF d l) + 1
    linear := t.fld (Reg.DOM_LKIND_FILT d l) == 1, mean := t.fld (Reg.DOM_LKIND_BOXM d l) == 1
    pc := t.fld (Reg.DOM_LPOS_PC d l), pr := sval 10 (t.fld (Reg.DOM_LPOS_PR d l))
    lw := t.fld (Reg.DOM_LSIZE_LW d l), lh := t.fld (Reg.DOM_LSIZE_LH d l)
    w := if m < 32 then srcW t m else 0, h := if m < 32 then srcH t m else 0
    lut := t.fld (Reg.DOM_LFMT_FMT d l) == 1, ish := t.fld (Reg.DOM_LFMT_ISH d l)
    mode := t.fld (Reg.DOM_LBLEND_MODE d l), pre := t.fld (Reg.DOM_LBLEND_PRE d l) == 1
    apen := t.fld (Reg.DOM_LBLEND_APEN d l) == 1, apl := t.fld (Reg.DOM_LBLEND_APL d l), alpha := t.fld (Reg.DOM_LALPHA_A d l) }

/-- Scaled size on an axis: native size, times the factor on an UP axis, divided by it on a DOWN axis. -/
def scaledSize (resampled down : Bool) (k n : Nat) : Nat := if !resampled then n else if down then n / k else n * k

/-- Scaled width of a layer. -/
def Layer.sw (y : Layer) : Nat := scaledSize y.resampled y.xDown y.xf y.w
/-- Scaled height of a layer. -/
def Layer.sh (y : Layer) : Nat := scaledSize y.resampled y.yDown y.yf y.h
/-- LW′. -/
def Layer.lw' (y : Layer) : Nat := if y.lw = 0 then y.sw else y.lw
/-- LH′. -/
def Layer.lh' (y : Layer) : Nat := if y.lh = 0 then y.sh else y.lh

/-- Source cell (x, y) of a grid `w` wide. -/
def srcCell (cells : Tab) (m w x y : Nat) : Nat := cells.get (cellKey m (y * w + x))

/-- The source indices of the BOX window on an axis (R144). -/
def boxWindow (down : Bool) (k x : Nat) : List Nat := if down then (List.range k).map (· + k * x) else [x / k]

/-- The BOX divisor of an axis (R144). -/
def boxDiv (down mean : Bool) (k : Nat) : Nat := if down == mean then k else 1

/-- The BOX kernel: placed value and saturation (R144). -/
def boxValue (y : Layer) (cells : Tab) (x r : Nat) : Nat × Bool :=
  let s := ((boxWindow y.yDown y.yf r).map (fun yy =>
    ((boxWindow y.xDown y.xf x).map (fun xx => srcCell cells y.src y.w xx yy)).foldl (· + ·) 0)).foldl (· + ·) 0
  let dv := boxDiv y.xDown y.mean y.xf * boxDiv y.yDown y.mean y.yf
  let p := (s + dv / 2) / dv
  (min p full18, decide (full18 < p))

/-- Index and weight pairs of the LINEAR kernel on an axis of factor `k` at layer coordinate `x` (R145). -/
def linearTaps (k x : Nat) : List (Int × Nat) :=
  let n : Int := 2 * (x : Int) + 1 - k
  let i0 := n / (2 * (k : Int))
  let rho := (n - 2 * k * i0).toNat
  [(i0, 2 * k - rho), (i0 + 1, rho)]

/-- A column index of the LINEAR kernel (R146): wrapped where the scaled width is the whole map, else none outside. -/
def linearCol (y : Layer) (cols : Nat) (i : Int) : Option Nat :=
  if 0 ≤ i ∧ i < y.w then some i.toNat
  else if y.sw = cols ∧ y.w ≠ 0 then some (i % (y.w : Int)).toNat else none

/-- The LINEAR kernel (R145, R146). -/
def linearValue (y : Layer) (cols : Nat) (cells : Tab) (x r : Nat) : Nat :=
  let tt := ((linearTaps y.yf r).map (fun iy =>
    if iy.1 < 0 ∨ (y.h : Int) ≤ iy.1 then 0
    else ((linearTaps y.xf x).map (fun ix =>
      match linearCol y cols ix.1 with
      | some c => srcCell cells y.src y.w c iy.1.toNat * ix.2 * iy.2
      | none => 0)).foldl (· + ·) 0)).foldl (· + ·) 0
  let dv := 4 * y.xf * y.yf
  (tt + dv / 2) / dv

/-- The placed value of layer cell (x, r) and whether its kernel saturated (R142, R144, R145). -/
def placedValue (y : Layer) (cols : Nat) (cells : Tab) (x r : Nat) : Nat × Bool :=
  if !y.resampled then (srcCell cells y.src y.w x r, false)
  else if y.linear then (linearValue y cols cells x r, false) else boxValue y cells x r

/-- The layer's footprint holds map cell (c, r): the layer cell that lies there (R142). -/
def layerCell (y : Layer) (cols c r : Nat) : Option (Nat × Nat) :=
  if y.src = 63 then none
  else
    let x := (c + cols - y.pc % cols) % cols
    let yy := (r : Int) - y.pr
    if x < y.lw' ∧ 0 ≤ yy ∧ yy < y.lh' then some (x, yy.toNat) else none

/-! ### Blending (R147 to R151) -/

/-- Entry of the input LUT of layer (d, l); i × 256 at power-on reset (R147). -/
def ilutFld (d l i : Nat) : Fld := tabFld tIlut ((8 * d + l) * 1024 + i) 18 (i * 256)
/-- Entry of the output LUT of Dome d; i × 16 at power-on reset (R151). -/
def olutFld (d i : Nat) : Fld := tabFld tOlut (4096 * d + i) 16 (i * 16)
/-- Entry of an alpha plane; 256 at power-on reset (R148). -/
def alphaFld (pl i : Nat) : Fld := tabFld tAlpha (32768 * pl + i) 9 256

/-- The effective alpha of a layer at a map cell (R148). -/
def alphaAt (t : Tab) (y : Layer) (c r : Nat) : Nat :=
  let ac := if y.apen then t.fld (alphaFld y.apl (256 * r + c)) else 256
  (ac * y.alpha + 128) / 256

/-- One blend operation: the accumulator and whether it saturated (R149). -/
def blend (mode : Nat) (pre : Bool) (acc v a : Nat) : Nat × Bool :=
  let va := (v * a + 128) / 256
  if mode = 0 then
    if pre then
      let x := v + (acc * (256 - a) + 128) / 256
      (min x full18, decide (full18 < x))
    else ((v * a + acc * (256 - a) + 128) / 256, false)
  else if mode = 1 then (min (acc + va) full18, decide (full18 < acc + va))
  else (max acc va, false)

/-- One layer at one map cell (R142, R147 to R149, R153): the accumulator and saturations so far. `sprite` lists 1 + the
value of the map cells that sprites cover. -/
def layerStep (t : Tab) (d : Nat) (imgs : Nat → Tab) (sprite : Tab) (cols c r : Nat) (a : Nat × Nat) (l : Nat) : Nat × Nat :=
  let y := layerOf t d l
  let sp := if y.test then sprite.get (256 * r + c) else 0
  let placed : Option (Nat × Bool) :=
    match layerCell y cols c r with
    | some xy => some (placedValue y cols (imgs l) xy.1 xy.2)
    | none => none
  let val : Option (Nat × Bool) := if sp ≠ 0 then some (sp - 1, match placed with | some q => q.2 | none => false) else placed
  match val with
  | none => a
  | some (p, psat) =>
    let v := if y.lut then t.fld (ilutFld d l (min 1023 (p / 2 ^ y.ish))) else p
    let b := blend y.mode y.pre a.1 v (alphaAt t y c r)
    (b.1, a.2 + b2n psat + b2n b.2)

/-- The composed cell (R149 to R151): its output and the saturations on its way. -/
def composeCell (t : Tab) (d : Nat) (imgs : Nat → Tab) (sprite : Tab) (keep : Nat → Nat → Nat) (cols c r : Nat) : Nat × Nat :=
  let a := (List.range (domNL t d)).foldl (layerStep t d imgs sprite cols c r) (t.fld (Reg.DOM_BG_VAL d), 0)
  let k := keep c r
  let acc := max a.1 k
  (max (t.fld (olutFld d (acc / 64))) (k / 4), a.2)

/-- A composed picture, row by row: outputs and saturations. -/
def composeDome (t : Tab) (d : Nat) (imgs : Nat → Tab) (sprite : Tab) (keep : Nat → Nat → Nat) : List Nat × Nat :=
  let cols := mapCols t
  let cs := (List.range (cols * mapRows t)).map (fun i => composeCell t d imgs sprite keep cols (i % cols) (i / cols))
  (cs.map (·.1), (cs.map (·.2)).foldl (· + ·) 0)

/-- DSUM (R157). -/
def domeSum (out : List Nat) : Nat := out.foldl (· + ·) 0

/-- Region sum g (R157). -/
def regionSum (t : Tab) (d g : Nat) (out : List Nat) : Nat :=
  let cols := mapCols t
  let c0 := t.fld (Reg.DOM_RGCOL_COL0 d g)
  let nc := t.fld (Reg.DOM_RGCOL_NCOL d g)
  let r0 := t.fld (Reg.DOM_RGROW_ROW0 d g)
  let nr := t.fld (Reg.DOM_RGROW_NROW d g)
  ((indexed out).map (fun iv =>
    let c := iv.1 % cols
    let r := iv.1 / cols
    if (c + cols - c0 % cols) % cols < nc ∧ r0 ≤ r ∧ r < r0 + nr then iv.2 else 0)).foldl (· + ·) 0

/-! ### Not-ready policies and last-good images (R154, R155) -/

/-- The last-good image of source `m`. -/
def imageOf (e : Engine) (m : Nat) : Option Tab := (e.dom.images.find? (fun x => x.1 == m)).map (·.2)

/-- The fields of MAP_SDEF of source `m`. -/
def sdefOf (t : Tab) (m : Nat) : List Nat := [srcKind t m, srcW t m, srcH t m, t.fld (Reg.MAP_SDEF_MERGE m)]

/-- Discard the images that a commit between two composed frames discards (R155): a slot that is not composed reads no source. -/
def dropImages (e : Engine) (t : Tab) : Engine :=
  let u := e.dom.prev
  let moved := [0, 1].flatMap (fun d => (List.range 8).flatMap (fun l =>
    let src := fun (s : Tab) => if l < domNL s d then s.fld (Reg.DOM_LSRC_SRC d l) else 63
    if src u = src t then [] else [src u, src t]))
  { e with dom := { images := e.dom.images.filter (fun x => sdefOf u x.1 == sdefOf t x.1 && !moved.contains x.1), prev := t } }

/-- What a composed layer does in a frame: the cells it reads, STALE, VETO. -/
structure LayerUse where
  cells : Tab
  stale : Bool
  veto : Bool

/-- The policy of layer (d, l) for a frame with source cells `cells` whose sources in `bad` are not ready (R154, R155). -/
def layerPolicy (t : Tab) (cells : Tab) (bad : List Nat) (d : Nat) (a : Engine × List LayerUse) (l : Nat) : Engine × List LayerUse :=
  let e := a.1
  let m := t.fld (Reg.DOM_LSRC_SRC d l)
  if m = 63 ∨ !bad.contains m then (e.setReg (Reg.DOM_LAGE_AGE d l) 0, a.2 ++ [⟨cells, false, false⟩])
  else
    let age := min 65535 (e.reg (Reg.DOM_LAGE_AGE d l) + 1)
    let e1 := (e.bump (Reg.DOM_LNRDY_COUNT d l)).setReg (Reg.DOM_LAGE_AGE d l) age
    let pol := t.fld (Reg.DOM_LPOL_POL d l)
    let maxAge := t.fld (Reg.DOM_LPOL_MAXAGE d l)
    let aged := pol == 0 && maxAge != 0 && decide (maxAge < age)
    let e2 := if aged then (e1.raiseBit Reg.DOM_FLAG_AGE).raise (Src.dom + 2) (8 * d + l) else e1
    match pol, aged, imageOf e m with
    | 0, false, some img => ((e2.raiseBit Reg.DOM_FLAG_STALE).raise Src.dom (8 * d + l), a.2 ++ [⟨img, true, false⟩])
    | 1, _, _ => (e2, a.2 ++ [⟨[], false, false⟩])
    | _, _, _ => ((e2.raiseBit Reg.DOM_FLAG_VETO).raise (Src.dom + 1) (8 * d + l), a.2 ++ [⟨cells, false, true⟩])

/-- Keep the images of the sources that are ready in a frame (R155). The loss of lock discarded every image, and the frames that
complete after it bring none back. -/
def keepImages (e : Engine) (t : Tab) (cells : Tab) (bad : List Nat) : Engine :=
  if !e.locked then e
  else
  let ms := (List.range 31).filter (fun m => srcKind t m != 0 && !bad.contains m)
  let imgs := ms.map (fun m => (m, cells.range (cellKey m 0) (cellKey (m + 1) 0)))
  { e with dom := { e.dom with images := imgs ++ e.dom.images.filter (fun x => !ms.contains x.1) } }

/-! ### The checker (R143, R152, R157, R158) -/

/-- A composed layer that reads a source is consistent. -/
def layerCheck (t : Tab) (d l : Nat) : Bool :=
  let y := layerOf t d l
  let cols := mapCols t
  decide (y.alpha ≤ 256) && decide (y.ish ≤ 8) && y.mode != 3 && t.fld (Reg.DOM_LPOL_POL d l) != 3 && decide (y.apl ≤ 15)
  && (y.src == 63 ||
    (decide (y.src ≤ 30) && (srcKind t y.src == 1 || srcKind t y.src == 2)
    && decide (y.pc < cols) && decide (y.lw' ≤ cols) && decide (y.lw ≤ y.sw) && decide (y.lh ≤ y.sh)
    && (!y.resampled ||
      ((!y.xDown || y.w % y.xf == 0) && (!y.yDown || y.h % y.yf == 0)
      && !(y.linear && ((y.xDown && decide (2 ≤ y.xf)) || (y.yDown && decide (2 ≤ y.yf))))))))

/-- Region g is consistent (R157). -/
def regionCheck (t : Tab) (d g : Nat) : Bool :=
  let nc := t.fld (Reg.DOM_RGCOL_NCOL d g)
  let nr := t.fld (Reg.DOM_RGROW_NROW d g)
  decide (t.fld (Reg.DOM_RGCOL_COL0 d g) < mapCols t) && decide (nc ≤ mapCols t) && (nc == 0 || nr != 0)
    && decide (t.fld (Reg.DOM_RGROW_ROW0 d g) + nr ≤ mapRows t)

/-- The DOM consistency checker: true where it accepts. A region that is off is tested too, but for its rows being none (R157). -/
def domCheck (t : Tab) : Bool :=
  [0, 1].all (fun d =>
    let nl := domNL t d
    decide (2 ≤ nl) && decide (nl ≤ 8)
    && (List.range nl).all (fun l => layerCheck t d l)
    && decide (((List.range nl).filter (fun l => t.fld (Reg.DOM_LSRC_TEST d l) == 1)).length ≤ 1)
    && (List.range 16).all (fun g => regionCheck t d g))

/-! ### Functions (Table 6.6) -/

/-- The target names a Dome. -/
def domeTarget (p : Packet) : Bool × Nat := (decide (p.target ≤ 1), 7)

/-- The issuing context may act on the target Dome (R40). -/
def domeOwner (e : Engine) (p : Packet) : Option Nat := e.ownerBad p.ctx 0 p.target

/-- A 32-bit two's complement argument lies in [lo, hi]. -/
def sWithin (v : Nat) (lo hi : Int) : Bool := decide (lo ≤ sval 32 v) && decide (sval 32 v ≤ hi)

/-- The fields of a DOM_LKIND image. -/
def lkindImage (d l v : Nat) : List (Fld × Nat) :=
  [(Reg.DOM_LKIND_KIND d l, bit v 0), (Reg.DOM_LKIND_XDIR d l, bit v 1), (Reg.DOM_LKIND_XF d l, bits v 3 2),
   (Reg.DOM_LKIND_YDIR d l, bit v 4), (Reg.DOM_LKIND_YF d l, bits v 6 5), (Reg.DOM_LKIND_FILT d l, bit v 8),
   (Reg.DOM_LKIND_BOXM d l, bit v 9)]

/-- SET_LAYER. -/
def fnSetLayer : Fn :=
  { op := 0x0510, kind := .basic, owner := domeOwner
    range := fun _ p => firstBad [domeTarget p, (decide (p.arg 0 ≤ 7), 8), (decide (p.arg 1 ≤ 30) || p.arg 1 == 63, 9),
      (decide (p.arg 2 ≤ 1), 10), (within 0x37F (p.arg 3), 11), (decide (p.arg 4 ≤ 255), 12), (sWithin (p.arg 5) (-512) 511, 13),
      (decide (p.arg 6 ≤ 256), 14), (decide (p.arg 7 ≤ 512), 15)] }

/-- The fields SET_LAYER writes. -/
def wSetLayer (_ : Engine) (p : Packet) : List (Fld × Nat) :=
  let d := p.target
  let l := p.arg 0
  [(Reg.DOM_LSRC_SRC d l, p.arg 1), (Reg.DOM_LSRC_TEST d l, p.arg 2)] ++ lkindImage d l (p.arg 3) ++
    [(Reg.DOM_LPOS_PC d l, p.arg 4), (Reg.DOM_LPOS_PR d l, p.arg 5), (Reg.DOM_LSIZE_LW d l, p.arg 6), (Reg.DOM_LSIZE_LH d l, p.arg 7)]

/-- SET_BLEND. -/
def fnSetBlend : Fn :=
  { op := 0x0511, kind := .basic, owner := domeOwner
    range := fun _ p => firstBad [domeTarget p, (decide (p.arg 0 ≤ 7), 8), (decide (p.arg 1 ≤ 2), 9), (decide (p.arg 2 ≤ 1), 10),
      (decide (p.arg 3 ≤ 256), 11), (decide (p.arg 4 ≤ 15) || p.arg 4 == allInstances, 12)] }

/-- The fields SET_BLEND writes; a plane of none clears APEN and keeps APL. -/
def wSetBlend (_ : Engine) (p : Packet) : List (Fld × Nat) :=
  let d := p.target
  let l := p.arg 0
  [(Reg.DOM_LBLEND_MODE d l, p.arg 1), (Reg.DOM_LBLEND_PRE d l, p.arg 2), (Reg.DOM_LALPHA_A d l, p.arg 3)] ++
    (if p.arg 4 = allInstances then [(Reg.DOM_LBLEND_APEN d l, 0)]
     else [(Reg.DOM_LBLEND_APEN d l, 1), (Reg.DOM_LBLEND_APL d l, p.arg 4)])

/-- SET_FORMAT. -/
def fnSetFormat : Fn :=
  { op := 0x0512, kind := .basic, owner := domeOwner
    range := fun _ p => firstBad [domeTarget p, (decide (p.arg 0 ≤ 7), 8), (decide (p.arg 1 ≤ 1), 9), (decide (p.arg 2 ≤ 8), 10)] }

/-- The fields SET_FORMAT writes. -/
def wSetFormat (_ : Engine) (p : Packet) : List (Fld × Nat) :=
  [(Reg.DOM_LFMT_FMT p.target (p.arg 0), p.arg 1), (Reg.DOM_LFMT_ISH p.target (p.arg 0), p.arg 2)]

/-- SET_POLICY. -/
def fnSetPolicy : Fn :=
  { op := 0x0513, kind := .basic, owner := domeOwner
    range := fun _ p => firstBad [domeTarget p, (decide (p.arg 0 ≤ 7), 8), (decide (p.arg 1 ≤ 2), 9), (decide (p.arg 2 ≤ 65535), 10)] }

/-- The fields SET_POLICY writes. -/
def wSetPolicy (_ : Engine) (p : Packet) : List (Fld × Nat) :=
  [(Reg.DOM_LPOL_POL p.target (p.arg 0), p.arg 1), (Reg.DOM_LPOL_MAXAGE p.target (p.arg 0), p.arg 2)]

/-- SET_DOME. -/
def fnSetDome : Fn :=
  { op := 0x0514, kind := .basic, owner := domeOwner
    range := fun _ p => firstBad [domeTarget p, (decide (2 ≤ p.arg 0) && decide (p.arg 0 ≤ 8), 8), (decide (p.arg 1 ≤ full18), 9)] }

/-- The fields SET_DOME writes. -/
def wSetDome (_ : Engine) (p : Packet) : List (Fld × Nat) := [(Reg.DOM_CTL_NL p.target, p.arg 0), (Reg.DOM_BG_VAL p.target, p.arg 1)]

/-- SET_REGION. -/
def fnSetRegion : Fn :=
  { op := 0x0515, kind := .basic, owner := domeOwner
    range := fun _ p => firstBad [domeTarget p, (decide (p.arg 0 ≤ 15), 8), (decide (p.arg 1 ≤ 255), 9), (decide (p.arg 2 ≤ 256), 10),
      (decide (p.arg 3 ≤ 127), 11), (decide (p.arg 4 ≤ 128) && (p.arg 2 == 0 || p.arg 4 != 0), 12)] }

/-- The fields SET_REGION writes. -/
def wSetRegion (_ : Engine) (p : Packet) : List (Fld × Nat) :=
  let d := p.target
  let g := p.arg 0
  [(Reg.DOM_RGCOL_COL0 d g, p.arg 1), (Reg.DOM_RGCOL_NCOL d g, p.arg 2), (Reg.DOM_RGROW_ROW0 d g, p.arg 3),
   (Reg.DOM_RGROW_NROW d g, p.arg 4)]

/-- RAW_LAYERS. -/
def fnRawLayers : Fn :=
  { op := 0x0580, kind := .stage, owner := domeOwner, len := lenTimes 32 8
    range := fun _ p => match firstBad [domeTarget p, (decide (p.arg 0 + p.length / 32 ≤ 8), 8)] with
      | some d => some d
      | none => wordsBad p (fun i v => within
          ([0x13F, 0x03FF00FF, 0x03FF01FF, 0x37F, 0xF1, 0xFF, 0x1FF, 0xFFFF0003].getD (i % 8) 0) v) }

/-- The fields RAW_LAYERS writes. -/
def wRawLayers (_ : Engine) (p : Packet) : List (Fld × Nat) :=
  let d := p.target
  (List.range (p.length / 32)).flatMap (fun i =>
    let l := p.arg 0 + i
    let w := fun j => p.word (8 * i + j)
    [(Reg.DOM_LSRC_SRC d l, bits (w 0) 5 0), (Reg.DOM_LSRC_TEST d l, bit (w 0) 8), (Reg.DOM_LPOS_PC d l, bits (w 1) 7 0),
     (Reg.DOM_LPOS_PR d l, bits (w 1) 25 16), (Reg.DOM_LSIZE_LW d l, bits (w 2) 8 0), (Reg.DOM_LSIZE_LH d l, bits (w 2) 25 16)]
    ++ lkindImage d l (w 3) ++
    [(Reg.DOM_LFMT_FMT d l, bit (w 4) 0), (Reg.DOM_LFMT_ISH d l, bits (w 4) 7 4), (Reg.DOM_LBLEND_MODE d l, bits (w 5) 1 0),
     (Reg.DOM_LBLEND_PRE d l, bit (w 5) 2), (Reg.DOM_LBLEND_APEN d l, bit (w 5) 3), (Reg.DOM_LBLEND_APL d l, bits (w 5) 7 4),
     (Reg.DOM_LALPHA_A d l, bits (w 6) 8 0), (Reg.DOM_LPOL_POL d l, bits (w 7) 1 0), (Reg.DOM_LPOL_MAXAGE d l, bits (w 7) 31 16)])

/-- RAW_ILUT. -/
def fnRawIlut : Fn :=
  { op := 0x0581, kind := .stage, owner := domeOwner, len := lenIs 4096
    range := fun _ p => match firstBad [domeTarget p, (decide (p.arg 0 ≤ 7), 8)] with
      | some d => some d
      | none => wordsBad p (fun _ v => decide (v ≤ full18)) }

/-- The entries RAW_ILUT writes. -/
def wRawIlut (_ : Engine) (p : Packet) : List (Fld × Nat) := (List.range 1024).map (fun i => (ilutFld p.target (p.arg 0) i, p.word i))

/-- RAW_OLUT. -/
def fnRawOlut : Fn :=
  { op := 0x0582, kind := .stage, owner := domeOwner, len := lenIs 16384
    range := fun _ p => match firstBad [domeTarget p] with
      | some d => some d
      | none => wordsBad p (fun _ v => decide (v ≤ 65535)) }

/-- The entries RAW_OLUT writes. -/
def wRawOlut (_ : Engine) (p : Packet) : List (Fld × Nat) := (List.range 4096).map (fun i => (olutFld p.target i, p.word i))

/-- 16-bit entry `i` of the payload. -/
def Packet.half (p : Packet) (i : Nat) : Nat := leAt p.payload (2 * i) 2

/-- RAW_ALPHA. -/
def fnRawAlpha : Fn :=
  { op := 0x0583, kind := .stage, len := lenTimes 2 32768
    range := fun _ p => match firstBad [(decide (p.target ≤ 15), 7), (decide (p.arg 0 + p.length / 2 ≤ 32768), 8)] with
      | some d => some d
      | none => ((List.range (p.length / 2)).find? (fun i => decide (256 < p.half i))).map (fun i => payOff (2 * i)) }

/-- The entries RAW_ALPHA writes. -/
def wRawAlpha (_ : Engine) (p : Packet) : List (Fld × Nat) :=
  (List.range (p.length / 2)).map (fun i => (alphaFld p.target (p.arg 0 + i), p.half i))

/-! ### Meanings -/

/-- SET_LAYER (R141, R160). -/
def execSetLayer (p : Packet) (s : State) : Host.Outcome State Fault Refusal :=
  .next { s with eng := runConfig fnSetLayer noExtra wSetLayer 0 p s.eng }

/-- SET_BLEND (R149, R160). -/
def execSetBlend (p : Packet) (s : State) : Host.Outcome State Fault Refusal :=
  .next { s with eng := runConfig fnSetBlend noExtra wSetBlend 0 p s.eng }

/-- SET_FORMAT (R147, R160). -/
def execSetFormat (p : Packet) (s : State) : Host.Outcome State Fault Refusal :=
  .next { s with eng := runConfig fnSetFormat noExtra wSetFormat 0 p s.eng }

/-- SET_POLICY (R154, R160). -/
def execSetPolicy (p : Packet) (s : State) : Host.Outcome State Fault Refusal :=
  .next { s with eng := runConfig fnSetPolicy noExtra wSetPolicy 0 p s.eng }

/-- SET_DOME (R139, R160). -/
def execSetDome (p : Packet) (s : State) : Host.Outcome State Fault Refusal :=
  .next { s with eng := runConfig fnSetDome noExtra wSetDome 0 p s.eng }

/-- SET_REGION (R157, R160). -/
def execSetRegion (p : Packet) (s : State) : Host.Outcome State Fault Refusal :=
  .next { s with eng := runConfig fnSetRegion noExtra wSetRegion 0 p s.eng }

/-- RAW_LAYERS (R160). -/
def execRawLayers (p : Packet) (s : State) : Host.Outcome State Fault Refusal :=
  .next { s with eng := runConfig fnRawLayers noExtra wRawLayers 0 p s.eng }

/-- RAW_ILUT (R147, R160). -/
def execRawIlut (p : Packet) (s : State) : Host.Outcome State Fault Refusal :=
  .next { s with eng := runConfig fnRawIlut noExtra wRawIlut 0 p s.eng }

/-- RAW_OLUT (R151, R160). -/
def execRawOlut (p : Packet) (s : State) : Host.Outcome State Fault Refusal :=
  .next { s with eng := runConfig fnRawOlut noExtra wRawOlut 0 p s.eng }

/-- RAW_ALPHA (R148, R160). -/
def execRawAlpha (p : Packet) (s : State) : Host.Outcome State Fault Refusal :=
  .next { s with eng := runConfig fnRawAlpha noExtra wRawAlpha 0 p s.eng }

end Sys2Proof.Machine
end

