-- ==== Sys2Proof/Machine/Streams.lean ====
section
/-! DEFINITION. Stream set-ups (R175, R195, R228, R368): staged entries bound to one STR ring each, the check of the ring
they name (R471), and their counts. -/

namespace Sys2Proof.Machine

/-- Word `j`, 0 to 7, of the set-up of ring `id` in table `t`. Word 0 is not 0 where the ring has a set-up. -/
def setupFld (t id j : Nat) : Fld := tabFld t (8 * id + j) 32 0

/-- The rings with a set-up in table `t` of a set, in rising ring ID. -/
def setups (s : Tab) (t : Nat) : List Nat :=
  ((s.range (tabBase t) (setupFld t (2 ^ 18) 0).key).filter (fun kv => (kv.1 - tabBase t) % 8 == 0)).map (fun kv => (kv.1 - tabBase t) / 8)

/-- MAXSP of a ring's Oculus set-up, beside its words (R177). -/
def maxspFld (id : Nat) : Fld := tabFld tOcul (2 ^ 22 + id) 15 16384

/-- Remove the set-ups of ring `id` from a set (R43, R175, R195). -/
def dropSetups (id : Nat) (s : Tab) : Tab :=
  s.filter (fun kv => !([tOcul, tObjs, tLogs, tCaps].any (fun t => kv.1 ≥ (setupFld t id 0).key && kv.1 ≤ (setupFld t id 7).key) || kv.1 == (maxspFld id).key))

/-- Another context's ring: the ST_OWNER detail (R471). -/
def ringOwner (e : Engine) (p : Packet) : Option Nat :=
  if (e.ring? p.target).isSome ∧ p.target / 256 ≠ p.ctx then some (p.target / 256 % 256) else none

/-- The target is an STR ring of stream kind `kind` (R471). -/
def ringKind (e : Engine) (p : Packet) (kind : Nat) : Bool :=
  match e.ring? p.target with
  | some r => r.typ == 2 && r.kind == kind
  | none => false

/-- A set-up in table `t` for the target ring would exceed `cap` set-ups. -/
def setupFull (e : Engine) (p : Packet) (t cap : Nat) : Bool :=
  !(setups e.staged t).contains p.target && decide (cap ≤ (setups e.staged t).length)

/-- `(N − PHASE) mod DEC = 0`. -/
def onPhase (n phase dec : Nat) : Bool := ((n : Int) - phase) % dec == 0

/-- The registers that count set-ups in use. -/
def setupCounts (e : Engine) : Engine :=
  let ws : List (Fld × Nat) := [(Reg.OUT_OCNUM_COUNT, (setups e.active tOcul).length), (Reg.OBJ_OSNUM_COUNT, (setups e.active tObjs).length),
    (Reg.MNU_LSNUM_COUNT, (setups e.active tLogs).length), (Reg.MEM_CSNUM_COUNT, (setups e.active tCaps).length)]
  { e with regs := e.regs.puts ws }

/-- The Domes a two-bit selection names. -/
def domesOf (sel : Nat) : List Nat := (if tbit sel 0 then [0] else []) ++ (if tbit sel 1 then [1] else [])

/-- The first Dome of a selection that belongs to another context (R40). -/
def domesOwner (e : Engine) (ctx sel : Nat) : Option Nat := ownersBad e ctx 0 (domesOf sel)

end Sys2Proof.Machine
end

