-- ==== Sys2Proof/Machine/Turret.lean ====
section
/-! DEFINITION. Turrets and test sprites (chapter 8): seeds, energies, isolation, limits and classes of a composed frame,
object records, sprite positions and drawing, the OBJ checker and the OBJ functions. -/

namespace Sys2Proof.Machine

/-! ### Seeds and sums (R183 to R186) -/

/-- The composed cell at column `c` modulo COLS and row `r`; 0 outside the rows (R17, R183). -/
def cellAt (cols rows : Nat) (out : List Nat) (c r : Int) : Nat :=
  if r < 0 ∨ (rows : Int) ≤ r ∨ cols = 0 then 0 else out.getD ((c % (cols : Int)).toNat + r.toNat * cols) 0

/-- The integers from −h to h. -/
def span (h : Nat) : List Int := (List.range (2 * h + 1)).map (fun (i : Nat) => (i : Int) - h)

/-- The offsets (dc, dr) of a window of half-widths `hc` and `hr`. -/
def offsets (hc hr : Nat) : List (Int × Int) := (span hr).flatMap (fun dr => (span hc).map (fun dc => (dc, dr)))

/-- An offset of the upper-left half U (R184). -/
def upperLeft (o : Int × Int) : Bool := decide (o.2 < 0) || (decide (o.2 = 0) && decide (o.1 < 0))

/-- Cell (c, r) is a seed of Turret `d` (R184). -/
def isSeed (t : Tab) (d : Nat) (out : List Nat) (c r : Nat) : Bool :=
  let cols := mapCols t
  let rows := mapRows t
  let h := t.fld (Reg.OBJ_TSEED_WIN d) + 1
  let v := cellAt cols rows out c r
  decide (t.fld (Reg.OBJ_TSEED_THR d) < v) && (offsets h h).all (fun o =>
    let u := cellAt cols rows out (c + o.1) (r + o.2)
    if upperLeft o then decide (u < v) else if o = (0, 0) then true else decide (u ≤ v))

/-- The sum over a rectangle of half-widths `hc` and `hr` centred on (c, r). -/
def rectSum (t : Tab) (out : List Nat) (c r hc hr : Nat) : Nat :=
  ((offsets hc hr).map (fun o => cellAt (mapCols t) (mapRows t) out (c + o.1) (r + o.2))).foldl (· + ·) 0

/-- The class mask of an object (R189). -/
def classMask (t : Tab) (d e iso row : Nat) : Nat :=
  ((List.range 16).map (fun k =>
    let rel := t.fld (Reg.OBJ_CREL_REL d k)
    2 ^ k * b2n (t.fld (Reg.OBJ_CEMIN_EN d k) == 1 && decide (t.fld (Reg.OBJ_CEMIN_EMIN d k) ≤ e)
      && decide (iso ≤ t.fld (Reg.OBJ_CISO_MAX d k)) && (rel == 0 || decide (iso * 256 ≤ e * rel))
      && decide (t.fld (Reg.OBJ_CROW_LO d k) ≤ row) && decide (row ≤ t.fld (Reg.OBJ_CROW_HI d k))))).foldl (· + ·) 0

/-- The object seeded at (c, r), its rank not yet known (R185, R186, R189). -/
def seedObject (t : Tab) (d : Nat) (out : List Nat) (c r : Nat) : Obj :=
  let hc := t.fld (Reg.OBJ_TFOOT_FW d) / 2
  let hr := t.fld (Reg.OBJ_TFOOT_FH d) / 2
  let s := rectSum t out c r hc hr
  let iso := rectSum t out c r (hc + 1) (hr + 1) - s
  let e := min s 4194303
  { col := c, row := r, e := e, esat := decide (4194303 < s), iso := iso, peak := cellAt (mapCols t) (mapRows t) out c r
    cls := classMask t d e iso r, rank := 0, rtrunc := false }

/-! ### Limits and order (R187, R188) -/

/-- The rank of an object among those of its row. -/
def rankIn (row : List Obj) (o : Obj) : Nat :=
  (row.filter (fun x => decide (o.e < x.e) || (x.e == o.e && decide (x.col < o.col)))).length

/-- The kept objects of a row's seeds, in column order, and whether the row dropped any (R187). -/
def limitRow (rowmax : Nat) (row : List Obj) : List Obj × Bool :=
  let cut := decide (rowmax < row.length)
  ((row.map (fun o => { o with rank := rankIn row o, rtrunc := cut })).filter (fun o => decide (o.rank < rowmax)), cut)

/-- What a Turret finds in a frame: kept objects in raster order, seeds, rows cut, objects dropped under R188. -/
structure TurretOut where
  objs : List Obj
  nseed : Nat
  rows : Nat
  dropped : Nat

/-- Turret `d` on the composed cells of its Dome (R183 to R189). -/
def turret (t : Tab) (d : Nat) (out : List Nat) : TurretOut :=
  let rows := (List.range (mapRows t)).map (fun r =>
    ((List.range (mapCols t)).filter (fun c => isSeed t d out c r)).map (fun c => seedObject t d out c r))
  let lim := rows.map (limitRow (t.fld (Reg.OBJ_TLIM_ROWMAX d)))
  let all := lim.flatMap (·.1)
  let frmax := t.fld (Reg.OBJ_TLIM_FRMAX d)
  { objs := all.take frmax, nseed := (rows.map List.length).foldl (· + ·) 0, rows := (lim.filter (·.2)).length, dropped := all.length - frmax }

/-- Class count k of a frame's kept objects (R190). -/
def classCount (objs : List Obj) (k : Nat) : Nat := (objs.filter (fun o => tbit o.cls k)).length

/-! ### Records (R191, R196) -/

/-- The four words of object record `i` of Dome `d` (Table 8.2). -/
def objWords (f : Frame) (d i : Nat) (o : Obj) : List Nat :=
  [o.e + 2 ^ 22 * o.col + 2 ^ 30 * b2n o.esat + 2 ^ 31 * d, o.iso + 2 ^ 22 * o.row, o.peak + 2 ^ 16 * o.cls,
   i % 256 + 2 ^ 8 * o.rank + 2 ^ 12 * b2n o.rtrunc + 2 ^ 13 * b2n f.stale + 2 ^ 14 * b2n f.invalid + 2 ^ 15 * b2n f.spr
     + 2 ^ 16 * (f.n % orbitLen f.cfg)]

/-- The 16 bytes of an object record. -/
def objBytes (f : Frame) (d : Nat) (io : Nat × Obj) : List Byte := (objWords f d io.1 io.2).flatMap (leBytes 4)

/-- The kept objects of Dome `d`, with their INDEX. -/
def Frame.objsOf (f : Frame) (d : Nat) : List (Nat × Obj) := indexed (f.pic.objs.getD d [])

/-- An object-stream payload, or nothing where it would carry fewer than MINOBJ objects (R195, R196, Table 8.4). -/
def objPayload (f : Frame) (d minobj mask : Nat) : Option (List Byte) :=
  let objs := (f.objsOf d).filter (fun io => mask == 0 || Nat.land io.2.cls mask != 0)
  if objs.length < minobj then none
  else
    some (leBytes 1 d ++ leBytes 1 (b2n (f.pic.ovf.getD d false) + 2 * b2n (f.pic.rtr.getD d false) + 4 * b2n f.stale + 8 * b2n f.invalid
        + 16 * b2n f.spr) ++ leBytes 2 objs.length ++ leBytes 2 (f.pic.objs.getD d []).length ++ leBytes 2 (f.pic.nseed.getD d 0)
      ++ leBytes 4 (((f.pic.objs.getD d []).map (·.e)).foldl (· + ·) 0) ++ leBytes 4 0 ++ objs.flatMap (objBytes f d))

/-- Send a frame's object records to the rings that select it (R195). -/
def objStreams (e : Engine) (f : Frame) : Engine :=
  (setups f.cfg tObjs).foldl (fun a id =>
    let w := fun j => f.cfg.fld (setupFld tObjs id j)
    if onPhase f.n (w 2) (w 1) then
      (domesOf (w 0)).foldl (fun b d => match objPayload f d (w 3) (w 4) with
        | some pl => (b.strWrite id 3 (stampOf (orbitLen f.cfg) f.n) (strFlags f.stale f.invalid) pl).1
        | none => b) a
    else a) e

/-- TURRET_FRAME: both Turrets on a composed frame, their registers, counters and events (R183 to R190, R195). -/
def turretFrame (e : Engine) (f : Frame) : Engine × Frame :=
  let ts := [0, 1].map (fun d => turret f.cfg d (f.pic.outs.getD d []))
  let pic : Pic := { f.pic with objs := ts.map (·.objs), nseed := ts.map (·.nseed), ovf := ts.map (fun x => decide (0 < x.dropped)),
                                rtr := ts.map (fun x => decide (0 < x.rows)) }
  let f' := { f with pic := pic }
  let e1 := (indexed ts).foldl (fun (a : Engine) (dx : Nat × TurretOut) =>
    let d := dx.1
    let x := dx.2
    let ns := (x.objs.filter (·.esat)).length
    let a1 := (a.setReg (Reg.OBJ_TLAST_NOBJ d) x.objs.length).setReg (Reg.OBJ_TLAST_NSEED d) x.nseed
    let a2 := if 0 < x.dropped then
        ((((a1.bump (Reg.OBJ_TOVF_COUNT d)).bumpBy (Reg.OBJ_TDROP_COUNT d) x.dropped).raiseBit Reg.OBJ_FLAG_OVF).raise Src.obj d) else a1
    let a3 := if 0 < x.rows then
        (((a2.bumpBy (Reg.OBJ_TRTR_COUNT d) x.rows).raiseBit Reg.OBJ_FLAG_RTRUNC).raise (Src.obj + 1) d) else a2
    if 0 < ns then (a3.bumpBy (Reg.OBJ_TESAT_COUNT d) ns).raiseBit Reg.OBJ_FLAG_ESAT else a3) e
  let e2 := match (indexed ts).find? (fun dx => dx.2.objs.any (·.esat)) with
    | some dx => e1.raise (Src.obj + 2) dx.1
    | none => e1
  (objStreams e2 f', f')

/-! ### Sprites (R197 to R202) -/

/-- Anchor N0 of sprite `s` (R199). -/
def anchorFld (s : Nat) : Fld := tabFld tAnchor s 64 0

/-- Sprite memory entry `i` (R197). -/
def spriteFld (i : Nat) : Fld := tabFld tSprite i 32 0

/-- Position (px, py) of sprite `s` in the frame of crossing number `n`, anchored at `n0` (R198). -/
def spritePos (t : Tab) (n0 s n : Nat) : Nat × Int :=
  let k : Int := (n : Int) - n0
  let m : Int := 16 * mapCols t
  ((((t.fld (Reg.OBJ_SPX_PX s) : Nat) + sval 8 (t.fld (Reg.OBJ_SMOV_DX s)) * k) % m).toNat,
   sval 13 (t.fld (Reg.OBJ_SPY_PY s)) + sval 8 (t.fld (Reg.OBJ_SMOV_DY s)) * k)

/-- The slot lies in the sprite's enable window (R200). -/
def inWindow (t : Tab) (s slot : Nat) : Bool :=
  let lo := t.fld (Reg.OBJ_SWIN_SLO s)
  let hi := t.fld (Reg.OBJ_SWIN_SHI s)
  if lo ≤ hi then decide (lo ≤ slot) && decide (slot ≤ hi) else decide (lo ≤ slot) || decide (slot ≤ hi)

/-- Dome `d` composes a TEST layer. -/
def hasTest (t : Tab) (d : Nat) : Bool := (List.range (domNL t d)).any (fun l => t.fld (Reg.DOM_LSRC_TEST d l) == 1)

/-- Sprite `s` is drawn into a frame of crossing number `n` created in state `st` (R200). -/
def spriteDrawn (t : Tab) (st n s : Nat) : Bool :=
  t.fld (Reg.OBJ_SCFG_EN s) == 1 && inWindow t s (n % orbitLen t) && hasTest t (t.fld (Reg.OBJ_SCFG_DOME s))
    && (st != stArmed || t.fld Reg.OBJ_SCTL_ARMED == 1)

/-- The covering cells of a sprite on the map: column, row and value (R197, R198). -/
def spriteCells (t : Tab) (n s : Nat) : List (Nat × Nat × Nat) :=
  let pos := spritePos t (t.fld (anchorFld s)) s n
  let left := pos.1 / 16
  let top : Int := pos.2 / 16
  (List.range (t.fld (Reg.OBJ_SCFG_SH s) + 1)).flatMap (fun y => (List.range (t.fld (Reg.OBJ_SCFG_SW s) + 1)).filterMap (fun x =>
    let v := t.fld (spriteFld (256 * s + 16 * y + x))
    let r : Int := top + y
    if tbit v 31 && decide (0 ≤ r) && decide (r < mapRows t) then some ((left + x) % mapCols t, r.toNat, bits v 17 0) else none))

/-- The sprites drawn into a frame. -/
def drawnSprites (t : Tab) (st n : Nat) : List Nat := (List.range 64).filter (spriteDrawn t st n)

/-- The sprite cells of Dome `d`: 256 × row + column to 1 + value, the lowest sprite deciding (R201). -/
def spriteTab (t : Tab) (st n d : Nat) : Tab :=
  ((drawnSprites t st n).filter (fun s => t.fld (Reg.OBJ_SCFG_DOME s) == d)).foldr (fun s a =>
    (spriteCells t n s).foldl (fun b x => b.set (256 * x.2.1 + x.1) (x.2.2 + 1)) a) []

/-- The frame carries SPR (R202). -/
def sprFlag (t : Tab) (st n : Nat) : Bool := (drawnSprites t st n).any (fun s => !(spriteCells t n s).isEmpty)

/-- OBJ_SPOS and OBJ_SSTAT of the most recent frame (R198, R200). -/
def showSprites (e : Engine) (t : Tab) (st n : Nat) : Engine :=
  let ws := (List.range 64).flatMap (fun s =>
    let pos := spritePos t (t.fld (anchorFld s)) s n
    let top : Int := max (-32768) (min 32767 (pos.2 / 16))
    [(Reg.OBJ_SPOS_COL s, pos.1 / 16), (Reg.OBJ_SPOS_ROW s, scode 16 top), (Reg.OBJ_SSTAT_DRAWN s, b2n (spriteDrawn t st n s))])
  { e with regs := e.regs.puts ws }

/-- The attributes of a sprite other than EN. -/
def spriteAttrs (t : Tab) (s : Nat) : List Nat :=
  [t.fld (Reg.OBJ_SCFG_DOME s), t.fld (Reg.OBJ_SCFG_SW s), t.fld (Reg.OBJ_SCFG_SH s), t.fld (Reg.OBJ_SPX_PX s), t.fld (Reg.OBJ_SPY_PY s),
   t.fld (Reg.OBJ_SMOV_DX s), t.fld (Reg.OBJ_SMOV_DY s), t.fld (Reg.OBJ_SWIN_SLO s), t.fld (Reg.OBJ_SWIN_SHI s)]

/-- Anchor every sprite that a commit re-anchors at crossing number `n` (R199). -/
def reanchor (old : Tab) (n : Nat) (e : Engine) : Engine :=
  let all := mapCols old != mapCols e.active
  let ss := (List.range 64).filter (fun s => all || spriteAttrs old s != spriteAttrs e.active s)
  { e with regs := e.regs.puts (ss.map (fun s => (anchorFld s, n))) }

/-- Anchor every sprite at crossing number `n`. -/
def anchorAll (n : Nat) (e : Engine) : Engine := { e with regs := e.regs.puts ((List.range 64).map (fun s => (anchorFld s, n))) }

/-! ### The checker (R194) -/

/-- The OBJ consistency checker: true where it accepts. -/
def objCheck (t : Tab) : Bool :=
  let sz := fun v => v == 1 || v == 3 || v == 5 || v == 7 || v == 9
  [0, 1].all (fun d =>
    decide (t.fld (Reg.OBJ_TSEED_WIN d) ≤ 1) && sz (t.fld (Reg.OBJ_TFOOT_FW d)) && sz (t.fld (Reg.OBJ_TFOOT_FH d))
    && decide (1 ≤ t.fld (Reg.OBJ_TLIM_ROWMAX d)) && decide (t.fld (Reg.OBJ_TLIM_ROWMAX d) ≤ 12)
    && decide (1 ≤ t.fld (Reg.OBJ_TLIM_FRMAX d)) && decide (t.fld (Reg.OBJ_TLIM_FRMAX d) ≤ 256)
    && (List.range 16).all (fun k => t.fld (Reg.OBJ_CEMIN_EN d k) == 0
      || decide (t.fld (Reg.OBJ_CROW_LO d k) ≤ t.fld (Reg.OBJ_CROW_HI d k))))
  && (List.range 64).all (fun s => decide (t.fld (Reg.OBJ_SPX_PX s) < 16 * mapCols t))

/-! ### Functions (Table 8.6) -/

/-- SET_SEED. -/
def fnSetSeed : Fn :=
  { op := 0x0710, kind := .basic, owner := domeOwner
    range := fun _ p => firstBad [domeTarget p, (decide (p.arg 0 ≤ 65535), 8), (decide (p.arg 1 ≤ 1), 9)] }

/-- The fields SET_SEED writes. -/
def wSetSeed (_ : Engine) (p : Packet) : List (Fld × Nat) :=
  [(Reg.OBJ_TSEED_THR p.target, p.arg 0), (Reg.OBJ_TSEED_WIN p.target, p.arg 1)]

/-- An odd footprint size from 1 to 9. -/
def footSize (v : Nat) : Bool := v % 2 == 1 && decide (v ≤ 9)

/-- SET_FOOTPRINT. -/
def fnSetFootprint : Fn :=
  { op := 0x0711, kind := .basic, owner := domeOwner
    range := fun _ p => firstBad [domeTarget p, (footSize (p.arg 0), 8), (footSize (p.arg 1), 9)] }

/-- The fields SET_FOOTPRINT writes. -/
def wSetFootprint (_ : Engine) (p : Packet) : List (Fld × Nat) :=
  [(Reg.OBJ_TFOOT_FW p.target, p.arg 0), (Reg.OBJ_TFOOT_FH p.target, p.arg 1)]

/-- SET_LIMITS. -/
def fnSetLimits : Fn :=
  { op := 0x0712, kind := .basic, owner := domeOwner
    range := fun _ p => firstBad [domeTarget p, (decide (1 ≤ p.arg 0) && decide (p.arg 0 ≤ 12), 8),
      (decide (1 ≤ p.arg 1) && decide (p.arg 1 ≤ 256), 9)] }

/-- The fields SET_LIMITS writes. -/
def wSetLimits (_ : Engine) (p : Packet) : List (Fld × Nat) :=
  [(Reg.OBJ_TLIM_ROWMAX p.target, p.arg 0), (Reg.OBJ_TLIM_FRMAX p.target, p.arg 1)]

/-- SET_CLASS. -/
def fnSetClass : Fn :=
  { op := 0x0713, kind := .basic, owner := domeOwner
    range := fun _ p => firstBad [domeTarget p, (decide (p.arg 0 ≤ 15), 8), (decide (p.arg 1 ≤ 1), 9), (decide (p.arg 2 < 2 ^ 22), 10),
      (decide (p.arg 3 < 2 ^ 22), 11), (decide (p.arg 4 ≤ 255), 12), (decide (p.arg 5 ≤ 127), 13), (decide (p.arg 6 ≤ 127), 14)] }

/-- The fields SET_CLASS writes. -/
def wSetClass (_ : Engine) (p : Packet) : List (Fld × Nat) :=
  let d := p.target
  let k := p.arg 0
  [(Reg.OBJ_CEMIN_EN d k, p.arg 1), (Reg.OBJ_CEMIN_EMIN d k, p.arg 2), (Reg.OBJ_CISO_MAX d k, p.arg 3), (Reg.OBJ_CREL_REL d k, p.arg 4),
   (Reg.OBJ_CROW_LO d k, p.arg 5), (Reg.OBJ_CROW_HI d k, p.arg 6)]

/-- The first of several owner checks that fails. -/
def orOwner (a b : Option Nat) : Option Nat := match a with
  | some x => some x
  | none => b

/-- SET_OBJSTREAM. -/
def fnSetObjstream : Fn :=
  { op := 0x0714, kind := .basic
    owner := fun e p => orOwner (ringOwner e p) (domesOwner e p.ctx (p.arg 0))
    range := fun e p => firstBad [(ringKind e p 3 && !setupFull e p tObjs 16, 7), (decide (p.arg 0 ≤ 3), 8),
      (decide (1 ≤ p.arg 1) && decide (p.arg 1 ≤ 16777216), 9), (decide (p.arg 3 ≤ 256), 11), (decide (p.arg 4 ≤ 65535), 12)] }

/-- The set-up SET_OBJSTREAM writes: Domes + 4, DEC, PHASE, MINOBJ, CLASSMASK. -/
def wSetObjstream (_ : Engine) (p : Packet) : List (Fld × Nat) :=
  let w := setupFld tObjs p.target
  [(w 0, 4 + p.arg 0), (w 1, p.arg 1), (w 2, p.arg 2), (w 3, p.arg 3), (w 4, p.arg 4)]

/-- The Dome that a sprite's active DOME names. -/
def spriteDome (e : Engine) (s : Nat) : Nat := e.act (Reg.OBJ_SCFG_DOME s)

/-- The first Dome of some sprites that belongs to another context (R203). -/
def spritesOwner (e : Engine) (ctx : Nat) (ss : List Nat) : Option Nat :=
  ownersBad e ctx 0 ((ss.filter (fun s => decide (s < 64))).map (spriteDome e))

/-- The crossing number at which a commit of OBJ by packet `p` takes effect: the one it names, or the orbit boundary at or after it where the
captured changes need a planned relock (R199, R262); the crossing being created while unlocked. -/
def commitCrossing (e : Engine) (p : Packet) : Nat :=
  match nameCrossing e p.applyAt false with
  | .inr (some n) =>
    if termsChange e [7] then
      let s := orbitLen e.active
      ceilDiv (max n (e.counted + 1)) s * s
    else n
  | _ => e.creating

/-- The position that a sprite reaches at the commit crossing of `p` under its active attributes (R199). -/
def contPos (e : Engine) (p : Packet) : Nat × Int := spritePos e.active (e.reg (anchorFld p.target)) p.target (commitCrossing e p)

/-- SET_SPRITE. -/
def fnSetSprite : Fn :=
  { op := 0x0720, kind := .basic
    owner := fun e p => orOwner (spritesOwner e p.ctx [p.target]) (if p.arg 0 ≤ 1 then e.ownerBad p.ctx 0 (p.arg 0) else none)
    range := fun e p => firstBad [(decide (p.target ≤ 63), 7), (decide (p.arg 0 ≤ 1), 8), (decide (1 ≤ p.arg 1) && decide (p.arg 1 ≤ 16), 9),
      (decide (1 ≤ p.arg 2) && decide (p.arg 2 ≤ 16), 10), (decide (p.arg 3 ≤ 4095), 11), (sWithin (p.arg 4) (-4096) 4095, 12),
      (sWithin (p.arg 5) (-128) 127, 13), (sWithin (p.arg 6) (-128) 127, 14),
      (decide (p.arg 7 ≤ 1) && (p.arg 7 == 0 || (decide (-4096 ≤ (contPos e p).2) && decide ((contPos e p).2 ≤ 4095))), 15)] }

/-- The fields SET_SPRITE writes (R199). -/
def wSetSprite (e : Engine) (p : Packet) : List (Fld × Nat) :=
  let s := p.target
  let q := contPos e p
  [(Reg.OBJ_SCFG_DOME s, p.arg 0), (Reg.OBJ_SCFG_SW s, p.arg 1 - 1), (Reg.OBJ_SCFG_SH s, p.arg 2 - 1),
   (Reg.OBJ_SPX_PX s, if p.arg 7 = 1 then q.1 else p.arg 3), (Reg.OBJ_SPY_PY s, if p.arg 7 = 1 then scode 13 q.2 else p.arg 4),
   (Reg.OBJ_SMOV_DX s, p.arg 5), (Reg.OBJ_SMOV_DY s, p.arg 6)]

/-- SPRITE_WINDOW. -/
def fnSpriteWindow : Fn :=
  { op := 0x0721, kind := .basic, owner := fun e p => spritesOwner e p.ctx [p.target]
    range := fun _ p => firstBad [(decide (p.target ≤ 63), 7), (decide (p.arg 0 ≤ 16383), 8), (decide (p.arg 1 ≤ 16383), 9)] }

/-- The fields SPRITE_WINDOW writes. -/
def wSpriteWindow (_ : Engine) (p : Packet) : List (Fld × Nat) :=
  [(Reg.OBJ_SWIN_SLO p.target, p.arg 0), (Reg.OBJ_SWIN_SHI p.target, p.arg 1)]

/-- The sprites SPRITE_ENABLE selects. -/
def selectedSprites (p : Packet) : List Nat := (List.range 64).filter (tbit (p.arg64 0))

/-- SPRITE_ENABLE. -/
def fnSpriteEnable : Fn :=
  { op := 0x0722, kind := .basic, owner := fun e p => spritesOwner e p.ctx (selectedSprites p)
    range := fun _ p => firstBad [(p.target == 0, 7), (decide (p.arg 2 ≤ 1), 10)] }

/-- The fields SPRITE_ENABLE writes. -/
def wSpriteEnable (_ : Engine) (p : Packet) : List (Fld × Nat) := (selectedSprites p).map (fun s => (Reg.OBJ_SCFG_EN s, p.arg 2))

/-- A sprite memory entry holds no reserved bit (R197). -/
def spriteEntryOk (v : Nat) : Bool := within 0x8003FFFF v

/-- LOAD_SPRITE. -/
def fnLoadSprite : Fn :=
  { op := 0x0723, kind := .basic, len := lenIs 1024, owner := fun e p => spritesOwner e p.ctx [p.target]
    range := fun _ p => match firstBad [(decide (p.target ≤ 63), 7)] with
      | some d => some d
      | none => wordsBad p (fun _ v => spriteEntryOk v) }

/-- The entries LOAD_SPRITE writes. -/
def wLoadSprite (_ : Engine) (p : Packet) : List (Fld × Nat) := (List.range 256).map (fun i => (spriteFld (256 * p.target + i), p.word i))

/-- SPRITE_ARMED. -/
def fnSpriteArmed : Fn :=
  { op := 0x0724, kind := .basic, range := fun _ p => firstBad [(p.target == 0, 7), (decide (p.arg 0 ≤ 1), 8)] }

/-- The field SPRITE_ARMED writes. -/
def wSpriteArmed (_ : Engine) (p : Packet) : List (Fld × Nat) := [(Reg.OBJ_SCTL_ARMED, p.arg 0)]

/-- RAW_TURRET. -/
def fnRawTurret : Fn :=
  { op := 0x0780, kind := .stage, len := lenIs 12, owner := domeOwner
    range := fun _ p => match firstBad [domeTarget p] with
      | some d => some d
      | none => wordsBad p (fun i v => within ([0x1FFFF, 0xF0F, 0x01FF000F].getD i 0) v) }

/-- The fields RAW_TURRET writes. -/
def wRawTurret (_ : Engine) (p : Packet) : List (Fld × Nat) :=
  let d := p.target
  [(Reg.OBJ_TSEED_THR d, bits (p.word 0) 15 0), (Reg.OBJ_TSEED_WIN d, bit (p.word 0) 16), (Reg.OBJ_TFOOT_FW d, bits (p.word 1) 3 0),
   (Reg.OBJ_TFOOT_FH d, bits (p.word 1) 11 8), (Reg.OBJ_TLIM_ROWMAX d, bits (p.word 2) 3 0), (Reg.OBJ_TLIM_FRMAX d, bits (p.word 2) 24 16)]

/-- RAW_CLASSES. -/
def fnRawClasses : Fn :=
  { op := 0x0781, kind := .stage, len := lenTimes 16 16, owner := domeOwner
    range := fun _ p => match firstBad [domeTarget p, (decide (p.arg 0 + p.length / 16 ≤ 16), 8)] with
      | some d => some d
      | none => wordsBad p (fun i v => within ([0x803FFFFF, 0x3FFFFF, 0xFF, 0x7F007F].getD (i % 4) 0) v) }

/-- The fields RAW_CLASSES writes. -/
def wRawClasses (_ : Engine) (p : Packet) : List (Fld × Nat) :=
  let d := p.target
  (List.range (p.length / 16)).flatMap (fun i =>
    let k := p.arg 0 + i
    let w := fun j => p.word (4 * i + j)
    [(Reg.OBJ_CEMIN_EMIN d k, bits (w 0) 21 0), (Reg.OBJ_CEMIN_EN d k, bit (w 0) 31), (Reg.OBJ_CISO_MAX d k, w 1), (Reg.OBJ_CREL_REL d k, w 2),
     (Reg.OBJ_CROW_LO d k, bits (w 3) 6 0), (Reg.OBJ_CROW_HI d k, bits (w 3) 22 16)])

/-- RAW_SPRITES. The read-only words +0x14 and +0x18 are ignored; the reserved word +0x1C is 0 (R53). -/
def fnRawSprites : Fn :=
  { op := 0x0782, kind := .stage, len := lenTimes 32 64
    owner := fun e p =>
      let ss := (List.range (p.length / 32)).map (· + p.target)
      orOwner (spritesOwner e p.ctx ss) (ownersBad e p.ctx 0 ((List.range (p.length / 32)).map (fun i => bit (p.word (8 * i)) 1)))
    range := fun _ p => match firstBad [(decide (p.target + p.length / 32 ≤ 64), 7)] with
      | some d => some d
      | none => wordsBad p (fun i v => match [0xFF3, 0xFFF, 0x1FFF, 0xFFFF, 0x3FFF3FFF, 0xFFFFFFFF, 0xFFFFFFFF, 0][i % 8]? with
        | some m => within m v
        | none => true) }

/-- The fields RAW_SPRITES writes. -/
def wRawSprites (_ : Engine) (p : Packet) : List (Fld × Nat) :=
  (List.range (p.length / 32)).flatMap (fun i =>
    let s := p.target + i
    let w := fun j => p.word (8 * i + j)
    [(Reg.OBJ_SCFG_EN s, bit (w 0) 0), (Reg.OBJ_SCFG_DOME s, bit (w 0) 1), (Reg.OBJ_SCFG_SW s, bits (w 0) 7 4),
     (Reg.OBJ_SCFG_SH s, bits (w 0) 11 8), (Reg.OBJ_SPX_PX s, w 1), (Reg.OBJ_SPY_PY s, w 2), (Reg.OBJ_SMOV_DX s, bits (w 3) 7 0),
     (Reg.OBJ_SMOV_DY s, bits (w 3) 15 8), (Reg.OBJ_SWIN_SLO s, bits (w 4) 13 0), (Reg.OBJ_SWIN_SHI s, bits (w 4) 29 16)])

/-- RAW_SPRMEM. -/
def fnRawSprmem : Fn :=
  { op := 0x0783, kind := .stage, len := lenTimes 4 16384
    owner := fun e p => spritesOwner e p.ctx ((List.range 64).filter (fun s => decide (p.target / 256 ≤ s) && decide (256 * s < p.target + p.length / 4)))
    range := fun _ p => match firstBad [(decide (p.target + p.length / 4 ≤ 16384), 7)] with
      | some d => some d
      | none => wordsBad p (fun _ v => spriteEntryOk v) }

/-- The entries RAW_SPRMEM writes. -/
def wRawSprmem (_ : Engine) (p : Packet) : List (Fld × Nat) :=
  (List.range (p.length / 4)).map (fun i => (spriteFld (p.target + i), p.word i))

/-! ### Meanings -/

/-- SET_SEED (R184, R203). -/
def execSetSeed (p : Packet) (s : State) : Host.Outcome State Fault Refusal :=
  .next { s with eng := runConfig fnSetSeed noExtra wSetSeed 0 p s.eng }

/-- SET_FOOTPRINT (R185, R192, R203). -/
def execSetFootprint (p : Packet) (s : State) : Host.Outcome State Fault Refusal :=
  .next { s with eng := runConfig fnSetFootprint noExtra wSetFootprint 0 p s.eng }

/-- SET_LIMITS (R187, R203). -/
def execSetLimits (p : Packet) (s : State) : Host.Outcome State Fault Refusal :=
  .next { s with eng := runConfig fnSetLimits noExtra wSetLimits 0 p s.eng }

/-- SET_CLASS (R189, R203). -/
def execSetClass (p : Packet) (s : State) : Host.Outcome State Fault Refusal :=
  .next { s with eng := runConfig fnSetClass noExtra wSetClass 0 p s.eng }

/-- SET_OBJSTREAM (R195, R471). -/
def execSetObjstream (p : Packet) (s : State) : Host.Outcome State Fault Refusal :=
  .next { s with eng := runConfig fnSetObjstream noExtra wSetObjstream 0 p s.eng }

/-- SET_SPRITE (R199, R203). -/
def execSetSprite (p : Packet) (s : State) : Host.Outcome State Fault Refusal :=
  .next { s with eng := runConfig fnSetSprite noExtra wSetSprite 0 p s.eng }

/-- SPRITE_WINDOW (R200, R203). -/
def execSpriteWindow (p : Packet) (s : State) : Host.Outcome State Fault Refusal :=
  .next { s with eng := runConfig fnSpriteWindow noExtra wSpriteWindow 0 p s.eng }

/-- SPRITE_ENABLE (R200, R203). -/
def execSpriteEnable (p : Packet) (s : State) : Host.Outcome State Fault Refusal :=
  .next { s with eng := runConfig fnSpriteEnable noExtra wSpriteEnable 0 p s.eng }

/-- LOAD_SPRITE (R197, R203). -/
def execLoadSprite (p : Packet) (s : State) : Host.Outcome State Fault Refusal :=
  .next { s with eng := runConfig fnLoadSprite noExtra wLoadSprite 0 p s.eng }

/-- SPRITE_ARMED (R200, R203). -/
def execSpriteArmed (p : Packet) (s : State) : Host.Outcome State Fault Refusal :=
  .next { s with eng := runConfig fnSpriteArmed noExtra wSpriteArmed 0 p s.eng }

/-- RAW_TURRET (R203). -/
def execRawTurret (p : Packet) (s : State) : Host.Outcome State Fault Refusal :=
  .next { s with eng := runConfig fnRawTurret noExtra wRawTurret 0 p s.eng }

/-- RAW_CLASSES (R203). -/
def execRawClasses (p : Packet) (s : State) : Host.Outcome State Fault Refusal :=
  .next { s with eng := runConfig fnRawClasses noExtra wRawClasses 0 p s.eng }

/-- RAW_SPRITES (R203). -/
def execRawSprites (p : Packet) (s : State) : Host.Outcome State Fault Refusal :=
  .next { s with eng := runConfig fnRawSprites noExtra wRawSprites 0 p s.eng }

/-- RAW_SPRMEM (R197, R203). -/
def execRawSprmem (p : Packet) (s : State) : Host.Outcome State Fault Refusal :=
  .next { s with eng := runConfig fnRawSprmem noExtra wRawSprmem 0 p s.eng }

end Sys2Proof.Machine
end

