-- ==== Sys2Proof/Machine/Seq.lean ====
section
/-! DEFINITION. The Carillon slot sequencer (chapter 9): the overlay of a frame's parameter set, the checker of the slot lists, swaps, and the SEQ functions. -/

namespace Sys2Proof.Machine

/-! ### List entries (R207) -/

/-- The valid entries of list `l` in a set, by ascending index. -/
def seqEntries (t : Tab) (l : Nat) : List SeqEntry :=
  ((t.range (seqFld l 0 0).key (seqFld l 4096 0).key).filter (fun kv => (kv.1 - (seqFld l 0 0).key) % 4 == 0)).filterMap (fun kv =>
    let i := (kv.1 - (seqFld l 0 0).key) / 4
    entryOf (t.fld (seqFld l i 0)) (t.fld (seqFld l i 1)) (t.fld (seqFld l i 2)) (t.fld (seqFld l i 3)))

/-- The entry covers slot `s`. -/
def SeqEntry.covers (x : SeqEntry) (s : Nat) : Bool := decide (x.slot ≤ s) && decide (s ≤ x.slot + x.len)

/-- Apply an entry to a parameter set (R208). -/
def applyEntry (act : Tab) (t : Tab) (x : SeqEntry) : Tab :=
  match paramOf act x.pid with
  | none => t
  | some q =>
    let v := t.fld q.fld
    let p := v / 2 ^ q.lo % 2 ^ q.width
    let p' := (p - Nat.land p x.mask + Nat.land x.value x.mask) % 2 ^ q.width
    t.put q.fld (v - p * 2 ^ q.lo + p' * 2 ^ q.lo)

/-- SEQ_PARAMETER_SET: the parameter set of the frame of slot `s`, and the lists that applied an entry (R205, R208). -/
def overlay (e : Engine) (s : Nat) : Tab × List Nat :=
  [0, 1].foldl (fun (a : Tab × List Nat) l =>
    if e.act (Reg.SEQ_LCTL_EN l) = 1 ∧ e.reg (Reg.SEQ_LSTAT_STOPPED l) = 0 then
      let xs := (seqEntries e.active l).filter (fun x => x.covers s)
      (xs.foldl (applyEntry e.active) a.1, if xs.isEmpty then a.2 else a.2 ++ [l])
    else a) (e.active, [])

/-! ### The checker (R209) and the list status -/

/-- The largest number of entries that cover one slot: it is reached at some entry's first slot. -/
def maxCover (xs : List SeqEntry) : Nat :=
  (xs.map (fun x => (xs.filter (fun y => y.covers x.slot)).length)).foldl max 0

/-- Entries stand in ascending SLOT order. -/
def slotsAscend : List SeqEntry → Bool
  | [] => true
  | [_] => true
  | x :: y :: xs => decide (x.slot ≤ y.slot) && slotsAscend (y :: xs)

/-- A valid entry obeys Table 9.1 and the orbit length. -/
def entryCheck (t : Tab) (x : SeqEntry) : Bool :=
  match paramOf t x.pid with
  | none => false
  | some q =>
    let full := x.mask == 2 ^ q.width - 1
    decide (x.mask < 2 ^ q.width) && decide (x.value < 2 ^ q.width) && (q.partialMask || full || x.mask == 0)
    && (!full || decide (x.value ≤ q.top)) && decide (x.slot + x.len + 1 ≤ orbitLen t)

/-- The SEQ consistency checker: true where it accepts. -/
def seqCheck (t : Tab) : Bool :=
  [0, 1].all (fun l =>
    let xs := seqEntries t l
    xs.all (entryCheck t) && slotsAscend xs && decide (maxCover xs ≤ 16))

/-- The entries of list `l` that reach slot S or beyond (R213). -/
def beyond (t : Tab) (l : Nat) : Nat := ((seqEntries t l).filter (fun x => decide (orbitLen t ≤ x.slot + x.len))).length

/-- SEQ_LSTAT and SEQ_LSTAT2 of the active banks (Table 9.6). -/
def seqStatus (e : Engine) : Engine :=
  let ws := [0, 1].flatMap (fun l =>
    [(Reg.SEQ_LSTAT_NENT l, (seqEntries e.active l).length), (Reg.SEQ_LSTAT_MAXCOV l, maxCover (seqEntries e.active l)),
     (Reg.SEQ_LSTAT2_NBEYOND l, beyond e.active l)])
  { e with regs := e.regs.puts ws }

/-- SEQ_SWAP: the lists a commit carries are swapped in at orbit number `orb` (R210, R211, R215). -/
def seqSwap (orb : Nat) (e : Engine) : Engine :=
  let ls := [0, 1].filter (fun l => e.act (seqMark l) == 1)
  let unmark : Tab → Tab := fun t => ls.foldl (fun a l => a.put (seqMark l) 0) t
  let e1 : Engine := { e with active := unmark e.active }
  let e2 := ls.foldl (fun (a : Engine) l =>
    let ws : List (Fld × Nat) := [(Reg.SEQ_LSTAT_STOPPED l, 0), (Reg.SEQ_LSWAP_LO_ORB l, orb % 2 ^ 32), (Reg.SEQ_LSWAP_HI_ORB l, orb / 2 ^ 32)]
    Engine.raise { a with regs := a.regs.puts ws } Src.seqSwap l) e1
  seqStatus e2

/-- SEQ_BEYOND_CHECK at every lock (R213). -/
def seqBeyond (e : Engine) : Engine :=
  [0, 1].foldl (fun (a : Engine) l =>
    if beyond a.active l = 0 then a else (a.raiseBit Reg.SEQ_STAT_BEYOND).raise Src.seqBeyond l) (seqStatus e)

/-! ### Functions (Table 9.4) -/

/-- Entry `i` of a payload, where it is valid. -/
def Packet.entry (p : Packet) (i : Nat) : Option SeqEntry :=
  entryOf (p.word (4 * i)) (p.word (4 * i + 1)) (p.word (4 * i + 2)) (p.word (4 * i + 3))

/-- The first entry of a payload that the context may not write (R212). -/
def entriesOwner (e : Engine) (p : Packet) : Option Nat :=
  (List.range (p.length / 16)).findSome? (fun i => (p.entry i).bind (entryOwner e p.ctx))

/-- The bits of an entry's words that are not reserved. -/
def entryMask (w : Nat) : Nat := [0x83FF3FFF, 0x3FFF, 0xFFFFFFFF, 0xFFFFFFFF].getD w 0

/-- The words of `n` payload entries, at index `first` of list `l`. -/
def entryWrites (p : Packet) (l first : Nat) : List (Fld × Nat) :=
  (List.range (p.length / 4)).map (fun k => (seqFld l (first + k / 4) (k % 4), p.word k))

/-- LOAD_LIST. -/
def fnLoadList : Fn :=
  { op := 0x0810, kind := .basic, len := fun p => p.length % 16 == 0, owner := entriesOwner
    range := fun _ p => match firstBad [(decide (p.target ≤ 1), 7), (decide (p.arg 0 ≤ 1), 8)] with
      | some d => some d
      | none => wordsBad p (fun i v => within (entryMask (i % 4)) v) }

/-- What LOAD_LIST writes: the entries, V = 0 in the rest of the bank, EN. -/
def wLoadList (e : Engine) (p : Packet) : List (Fld × Nat) :=
  let l := p.target
  let n := p.length / 16
  entryWrites p l 0 ++ (List.range (4096 - n)).map (fun i => (seqFld l (n + i) 0, e.stg (seqFld l (n + i) 0) % 2 ^ 31))
    ++ [(Reg.SEQ_LCTL_EN l, p.arg 0), (seqMark l, 1)]

/-- ENABLE_LIST. -/
def fnEnableList : Fn :=
  { op := 0x0811, kind := .basic
    range := fun _ p => firstBad [(decide (p.target ≤ 1) || p.target == allInstances, 7), (decide (p.arg 0 ≤ 1), 8)] }

/-- What ENABLE_LIST writes. -/
def wEnableList (_ : Engine) (p : Packet) : List (Fld × Nat) :=
  (if p.target = allInstances then [0, 1] else [p.target]).flatMap (fun l => [(Reg.SEQ_LCTL_EN l, p.arg 0), (seqMark l, 1)])

/-- RAW_LIST. -/
def fnRawList : Fn :=
  { op := 0x0880, kind := .stage, len := lenTimes 16 4096, owner := entriesOwner
    range := fun _ p => match firstBad [(decide (p.target ≤ 1), 7), (decide (p.arg 0 + p.length / 16 ≤ 4096), 8)] with
      | some d => some d
      | none => wordsBad p (fun i v => within (entryMask (i % 4)) v) }

/-- What RAW_LIST writes. -/
def wRawList (_ : Engine) (p : Packet) : List (Fld × Nat) := entryWrites p p.target (p.arg 0) ++ [(seqMark p.target, 1)]

/-! ### Meanings -/

/-- LOAD_LIST (R216). -/
def execLoadList (p : Packet) (s : State) : Host.Outcome State Fault Refusal :=
  .next { s with eng := runConfig fnLoadList noExtra wLoadList 0 p s.eng }

/-- ENABLE_LIST (R216). -/
def execEnableList (p : Packet) (s : State) : Host.Outcome State Fault Refusal :=
  .next { s with eng := runConfig fnEnableList noExtra wEnableList 0 p s.eng }

/-- RAW_LIST (R216). -/
def execRawList (p : Packet) (s : State) : Host.Outcome State Fault Refusal :=
  .next { s with eng := runConfig fnRawList noExtra wRawList 0 p s.eng }

/-- SEQ_STOP_L0: list 0 is stopped from the next frame on (R9, R215). -/
def execSeqStopL0 (s : State) : Host.Outcome State Fault Refusal :=
  .next { s with eng := s.eng.later (Reg.SEQ_LSTAT_STOPPED 0) 1 }

/-- SEQ_STOP_L1: list 1 is stopped from the next frame on (R9, R215). -/
def execSeqStopL1 (s : State) : Host.Outcome State Fault Refusal :=
  .next { s with eng := s.eng.later (Reg.SEQ_LSTAT_STOPPED 1) 1 }

end Sys2Proof.Machine
end

