-- ==== Sys2Proof/Machine/Belfry.lean ====
section
/-! DEFINITION. The Belfry waveform path (chapter 11): baselines, pulse and idle states, crosspoints, buses, filters,
placement, monitors and power-down of one frame, the BEL checker, and the BEL functions. -/

namespace Sys2Proof.Machine

/-- Crosspoint gain g(i, n) (R241). -/
def gainFld (i n : Nat) : Fld := tabFld tGain (32 * i + n) 16 0
/-- Coefficient k of bus n; 65,536 for k = 0 at power-on reset (R242). -/
def firFld (n k : Nat) : Fld := tabFld tFir (48 * n + k) 18 (if k = 0 then 65536 else 0)

/-- The sum of a list of integers. -/
def isum (l : List Int) : Int := l.foldl (· + ·) 0

/-! ### Inputs (R237 to R240, R250) -/

/-- The enabled WAVE slot that feeds input `i`, and the stream's number in it (R104, R237). -/
def feeder (t : Tab) (i : Nat) : Option (Nat × Nat) :=
  ((enabledSources t).find? (fun q =>
    let s := slotOf t q
    s.wave && decide (s.wbase ≤ i) && decide (i < s.wbase + s.count))).map (fun q => (q, i - (slotOf t q).wbase))

/-- What an input brings to a frame. -/
inductive Sample where
  | unfed
  | missing
  | present (x : Nat)

/-- The sample of input `i` among a frame's segments (R237). -/
def sampleOf (t : Tab) (segs : List Seg) (i : Nat) : Sample :=
  match feeder t i with
  | none => .unfed
  | some (q, j) => (match segs.find? (fun g => g.q == q) with
    | some g => .present (g.words.getD j 0)
    | none => .missing)

/-- The input leaves the idle state, if it is idle (R250). -/
def Engine.leaveIdle (e : Engine) (i : Nat) : Engine :=
  if e.reg (Reg.BEL_ISTAT_IDLE i) = 1 then
    let e1 := e.setReg (Reg.BEL_ISTAT_IDLE i) 0
    Engine.raise { e1 with bel := { e1.bel with silent := e1.bel.silent.set i 0 } } (Src.bel + 1) i
  else e

/-- No present frame counts as silent any more, and the input leaves the idle state (R250). -/
def Engine.notSilent (e : Engine) (i : Nat) : Engine :=
  let e1 := e.leaveIdle i
  { e1 with bel := { e1.bel with silent := e1.bel.silent.set i 0 } }

/-- The input becomes unseeded and leaves the pulse and idle states (R240). -/
def Engine.reseed (e : Engine) (i : Nat) : Engine :=
  let e1 := ((e.setReg (Reg.BEL_ISTAT_BVALID i) 0).setReg (Reg.BEL_ISTAT_PULSE i) 0).leaveIdle i
  { e1 with bel := { e1.bel with quiet := e1.bel.quiet.set i 0, silent := e1.bel.silent.set i 0 } }

/-- The pulse state after a present frame with difference `d` (R239). -/
def Engine.pulseStep (e : Engine) (t : Tab) (i : Nat) (d : Int) : Engine :=
  let thr := t.fld (Reg.BEL_IPULSE_THR i)
  let loud := decide (thr < d.natAbs)
  let put : Engine → Nat → Nat → Engine := fun a p c =>
    let b := a.setReg (Reg.BEL_ISTAT_PULSE i) p
    { b with bel := { b.bel with quiet := b.bel.quiet.set i c } }
  if thr = 0 then put e 0 0
  else if loud then put e 1 0
  else if e.reg (Reg.BEL_ISTAT_PULSE i) = 0 then e
  else
    let c := e.bel.quiet.get i + 1
    if t.fld (Reg.BEL_IPULSE_HOLD i) ≤ c then put e 0 0 else put e 1 c

/-- The idle state after a present frame with difference `d` (R250). -/
def Engine.idleStep (e : Engine) (t : Tab) (i : Nat) (d : Int) : Engine :=
  let loud := decide (t.fld (Reg.BEL_ISIL_THR i) < d.natAbs)
  if t.fld (Reg.BEL_ICFG_SEN i) = 0 then e.notSilent i
  else if loud then e.notSilent i
  else if e.reg (Reg.BEL_ISTAT_IDLE i) = 1 then e
  else
    let c := e.bel.silent.get i + 1
    if t.fld (Reg.BEL_ISIL_NS i) ≤ c then (e.setReg (Reg.BEL_ISTAT_IDLE i) 1).raise Src.bel i
    else { e with bel := { e.bel with silent := e.bel.silent.set i c } }

/-- The baseline b that earlier frames left (R238). -/
def Engine.baseline (e : Engine) (t : Tab) (i : Nat) : Nat :=
  let m := t.fld (Reg.BEL_ICFG_MODE i)
  if m = 0 then e.reg (Reg.BEL_ISTAT_BASE i) else if m = 1 then t.fld (Reg.BEL_IBFIX_VAL i) else 0

/-- The input stage of input `i` (R238): the engine after it, and d. -/
def inputStage (t : Tab) (segs : List Seg) (a : Engine × List Int) (i : Nat) : Engine × List Int :=
  let e := a.1
  let track := t.fld (Reg.BEL_ICFG_MODE i) == 0
  let k := t.fld (Reg.BEL_ICFG_K i)
  let shown := if track then e else e.setReg (Reg.BEL_ISTAT_BASE i) (e.baseline t i)
  match sampleOf t segs i with
  | .unfed => (shown, a.2 ++ [0])
  | .missing => (shown.bump (Reg.BEL_IMISS_COUNT i), a.2 ++ [0])
  | .present x =>
    if track && e.reg (Reg.BEL_ISTAT_BVALID i) == 0 then
      let e1 := (e.setReg (Reg.BEL_ISTAT_BVALID i) 1).setReg (Reg.BEL_ISTAT_BASE i) x
      ({ e1 with bel := { e1.bel with acc := e1.bel.acc.set i (x * 2 ^ k) } }, a.2 ++ [0])
    else
      let b := e.baseline t i
      let d : Int := (x : Int) - b
      let e1 := (e.pulseStep t i d).idleStep t i d
      let idle := e1.reg (Reg.BEL_ISTAT_IDLE i) == 1
      let e2 :=
        if track && e1.reg (Reg.BEL_ISTAT_PULSE i) == 0 && !idle then
          let acc := (e1.bel.acc.get i - e1.bel.acc.get i / 2 ^ k + x) % 2 ^ 35
          let e' : Engine := { e1 with bel := { e1.bel with acc := e1.bel.acc.set i acc } }
          e'.setReg (Reg.BEL_ISTAT_BASE i) ((acc + 2 ^ (k - 1)) / 2 ^ k)
        else if track then e1 else e1.setReg (Reg.BEL_ISTAT_BASE i) b
      (e2, a.2 ++ [if idle then 0 else d])

/-! ### Crosspoints (R241, R244, R245) -/

/-- The gain of crosspoint (i, n) as used now: a waiting crosspoint keeps its old gain. -/
def Engine.gainOf (e : Engine) (t : Tab) (i n : Nat) : Int :=
  match e.bel.waits.find? (fun w => w.i == i && w.n == n) with
  | some w => w.old
  | none => sval 16 (t.fld (gainFld i n))

/-- A difference and its presence, as `prevD` holds it. -/
def heldD (present : Bool) (d : Int) : Nat := if present then (d + 32769).toNat else 0

/-- The sample is present. -/
def Sample.here : Sample → Bool
  | .present _ => true
  | _ => false

/-- Input `i` has a baseline crossing at this frame, its difference being `d` (R244). -/
def Engine.baseCross (e : Engine) (t : Tab) (segs : List Seg) (i : Nat) (d : Int) : Bool :=
  match sampleOf t segs i with
  | .unfed => true
  | .missing => false
  | .present _ =>
    let p := e.bel.prevD.get i
    p != 0 && e.reg (Reg.BEL_ISTAT_PULSE i) == 0 && decide (((p : Int) - 32769) * d ≤ 0)

/-- CROSSPOINT_SWITCH: the waiting crosspoints whose input has a baseline crossing at frame `n`, or whose timeout is
reached, take their new gain (R245). -/
def switchCrosspoints (t : Tab) (segs : List Seg) (ds : List Int) (n : Nat) (e : Engine) : Engine :=
  ((e.bel.waits.map (·.i)).dedup).foldl (fun a i =>
    let late := a.bel.waits.any (fun w => w.i == i && decide (w.limit ≤ n))
    if late || a.baseCross t segs i (ds.getD i 0) then
      let a1 : Engine := { a with bel := { a.bel with waits := a.bel.waits.filter (fun w => w.i != i) } }
      let a2 := a1.setReg (Reg.BEL_ISTAT_XPEND i) 0
      if late then (a2.bump (Reg.BEL_ITMOCNT_COUNT i)).raise (Src.bel + 2) i else a2
    else a) e

/-- A BEL commit at crossing number `c` whose old set is `old`: each changed crosspoint of a fed input keeps its old gain
(R245). -/
def deferGains (old : Tab) (c : Nat) (e : Engine) : Engine :=
  let keys := (((old.range (gainFld 0 0).key (gainFld 64 0).key) ++ (e.active.range (gainFld 0 0).key (gainFld 64 0).key)).map (·.1)).dedup
  let ws := keys.filterMap (fun k =>
    let i := (k - (gainFld 0 0).key) / 32
    let n := (k - (gainFld 0 0).key) % 32
    if old.fld (gainFld i n) = e.active.fld (gainFld i n) ∨ (feeder e.active i).isNone then none
    else some (⟨i, n, sval 16 (old.fld (gainFld i n)), c + e.act (Reg.BEL_ITMO_TMO i)⟩ : Wait))
  let e1 : Engine := { e with bel := { e.bel with waits := ws } }
  { e1 with regs := e1.regs.puts (ws.map (fun w => (Reg.BEL_ISTAT_XPEND w.i, 1))) }

/-! ### Buses (R241, R242, R247 to R249) -/

/-- Bypass value of bus `n` (R241). -/
def bypass (e : Engine) (t : Tab) (ds : List Int) (n : Nat) : Int :=
  (isum ((indexed ds).map (fun id => e.gainOf t id.1 n * id.2)) + 8192) / 16384

/-- Filtered value of bus `n` over its bypass values, latest first (R242). -/
def filtered (t : Tab) (n : Nat) (ys : List Int) : Int :=
  (isum ((indexed (ys.take (t.fld (Reg.BEL_BCFG_NTAP n)))).map (fun ky => sval 18 (t.fld (firFld n ky.1)) * ky.2)) + 32768) / 65536

/-- The value bus `n` places into its map source (R247). -/
def placedBus (t : Tab) (byp flt : List Int) (n : Nat) : Nat :=
  let y := if t.fld (Reg.BEL_BMAP_SEL n) = 1 then byp.getD n 0 else flt.getD n 0
  min full18 ((max 0 y).toNat / 2 ^ t.fld (Reg.BEL_BMAP_BSH n))

/-- The buses that are placed. -/
def placedBuses (t : Tab) : List Nat := (List.range 32).filter (fun n => t.fld (Reg.BEL_BMAP_EN n) == 1)

/-- Monitor code of output `m` (R252). -/
def monCode (t : Tab) (ds byp flt : List Int) (m : Nat) : Int :=
  let idx := t.fld (Reg.BEL_MCFG_IDX m)
  let msh := t.fld (Reg.BEL_MCFG_MSH m)
  let src := t.fld (Reg.BEL_MCFG_SRC m)
  let v := if src = 1 then ds.getD idx 0 else if src = 2 then byp.getD idx 0 else if src = 3 then flt.getD idx 0 else 0
  max (-8192) (min 8191 ((v + (if msh = 0 then 0 else (2 ^ (msh - 1) : Nat))) / (2 ^ msh : Nat)))

/-! ### Power-down (R251) -/

/-- The crosspoint multipliers of input `i` are powered down (R251). -/
def rowDown (e : Engine) (i : Nat) : Bool := e.reg (Reg.BEL_ISTAT_IDLE i) == 1 && !e.bel.wakes.any (fun w => w.1 == i)

/-- The power state of the sections, from the idle inputs and the wake requests held (R251). -/
def belPower (e : Engine) : Engine :=
  let t := e.active
  let pdn := (List.range 32).map (fun n =>
    (List.range 64).all (fun i => e.gainOf t i n == 0 || rowDown e i) && (e.bel.delay.getD n []).all (· == 0))
  let ws := (indexed pdn).map (fun nb => (Reg.BEL_BSTAT_PDN nb.1, b2n nb.2))
    ++ [(Reg.BEL_PWR_NPDN, (pdn.filter (·)).length),
        (Reg.BEL_PWR_NIDLE, ((List.range 64).filter (fun i => e.reg (Reg.BEL_ISTAT_IDLE i) == 1)).length)]
  { e with regs := e.regs.puts ws }

/-- All waiting crosspoints switch at once: at loss of lock and at entry into STANDBY (R246); the power state of the sections
follows (R251). -/
def switchAll (e : Engine) : Engine :=
  let is := (e.bel.waits.map (·.i)).dedup
  let e1 : Engine := { e with bel := { e.bel with waits := [] } }
  if is.isEmpty then e else belPower { e1 with regs := e1.regs.puts (is.map (fun i => (Reg.BEL_ISTAT_XPEND i, 0))) }

/-- BELFRY_WAKE_REQUEST: segments that reached their buffers in crossing `k` (R251). -/
def wakeRequests (k : Nat) (e : Engine) : Engine :=
  let t := e.active
  let ws := (e.lnk.buf.filter (fun g => g.due == k && (slotOf t g.q).wave)).flatMap (fun g =>
    (indexed g.words).filterMap (fun jx =>
      let i := (slotOf t g.q).wbase + jx.1
      let d : Int := (jx.2 : Int) - e.baseline t i
      if e.reg (Reg.BEL_ISTAT_IDLE i) = 1 ∧ t.fld (Reg.BEL_ISIL_THR i) < d.natAbs then some (i, g.n) else none))
  if ws.isEmpty then e else belPower { e with bel := { e.bel with wakes := e.bel.wakes ++ ws } }

/-! ### A frame (R243) -/

/-- What a commit between two frames does to the input states (R240, R250). -/
def belCommitted (t : Tab) (e : Engine) : Engine :=
  let u := e.bel.prev
  (List.range 64).foldl (fun a i =>
    if u.fld (Reg.BEL_ICFG_MODE i) ≠ t.fld (Reg.BEL_ICFG_MODE i) ∨ u.fld (Reg.BEL_ICFG_K i) ≠ t.fld (Reg.BEL_ICFG_K i) then a.reseed i
    else if t.fld (Reg.BEL_ICFG_SEN i) = 0 then a.notSilent i else a) { e with bel := { e.bel with prev := t } }

/-- What the Belfry gives a frame. -/
structure BelOut where
  byp : List Int
  flt : List Int
  mon : List Int
  cells : List (Nat × Nat)
  bad : List Nat

/-- BELFRY_FRAME: the Belfry on the segments of crossing number `n` under set `t` (R238 to R252). -/
def belfryFrame (t : Tab) (segs : List Seg) (n : Nat) (e : Engine) : Engine × BelOut :=
  let e0 := belCommitted t e
  let (e1, ds) := (List.range 64).foldl (inputStage t segs) (e0, [])
  let e2 := switchCrosspoints t segs ds n e1
  let byp := (List.range 32).map (bypass e2 t ds)
  let lines := (indexed byp).map (fun ny => ny.2 :: (e2.bel.delay.getD ny.1 []))
  let flt := (indexed lines).map (fun nl => filtered t nl.1 nl.2)
  let missing := (List.range 64).filter (fun i => match sampleOf t segs i with
    | .missing => true
    | _ => false)
  let hit := (List.range 32).filter (fun b => missing.any (fun i => e2.gainOf t i b != 0))
  let bad := ((placedBuses t).filter (fun b => hit.contains b)).map (fun b => t.fld (Reg.BEL_BMAP_MS b))
  let cells := (placedBuses t).map (fun b =>
    let m := t.fld (Reg.BEL_BMAP_MS b)
    (cellKey m (t.fld (Reg.BEL_BMAP_Y b) * srcW t m + t.fld (Reg.BEL_BMAP_X b)), placedBus t byp flt b))
  let prevD := (indexed ds).foldl (fun (a : Tab) id => a.set id.1 (heldD (sampleOf t segs id.1).here id.2)) e2.bel.prevD
  let e3 : Engine := { e2 with bel := { e2.bel with delay := lines.map (List.take 47), prevD := prevD
                                                    wakes := e2.bel.wakes.filter (fun w => w.2 != n) } }
  let ws := (indexed byp).map (fun ny => (Reg.BEL_BBYP_VAL ny.1, scode 22 ny.2)) ++ (indexed flt).map (fun ny => (Reg.BEL_BFLT_VAL ny.1, scode 32 ny.2))
  let e4 : Engine := { e3 with regs := e3.regs.puts ws }
  let e5 := hit.foldl (fun a b => a.bump (Reg.BEL_BMISS_COUNT b)) e4
  let e6 := match hit with
    | b :: _ => e5.raise (Src.bel + 3) b
    | [] => e5
  (belPower e6, { byp := byp, flt := flt, mon := (List.range 8).map (monCode t ds byp flt), cells := cells, bad := bad.dedup })

/-- Lock and the return from STANDBY: baselines re-seed and delay lines are clear (R240, R242, R254). -/
def belRestart (e : Engine) : Engine :=
  let e1 := (List.range 64).foldl Engine.reseed e
  belPower { e1 with bel := { e1.bel with delay := [], wakes := [], prevD := [] } }

/-! ### The checker (R255) -/

/-- No two of a list are equal. -/
def allDistinct (l : List (Nat × Nat × Nat)) : Bool := decide l.Nodup

/-- The BEL consistency checker: true where it accepts. -/
def belCheck (t : Tab) : Bool :=
  (List.range 64).all (fun i =>
    let mode := t.fld (Reg.BEL_ICFG_MODE i)
    let k := t.fld (Reg.BEL_ICFG_K i)
    let tmo := t.fld (Reg.BEL_ITMO_TMO i)
    let sen := t.fld (Reg.BEL_ICFG_SEN i) == 1
    let thr := t.fld (Reg.BEL_IPULSE_THR i)
    mode != 3 && (mode != 0 || (decide (4 ≤ k) && decide (k ≤ 20))) && decide (1 ≤ tmo) && decide (tmo ≤ 4096)
    && !(sen && t.fld (Reg.BEL_ISIL_NS i) == 0) && !(sen && thr != 0 && decide (thr ≤ t.fld (Reg.BEL_ISIL_THR i))))
  && (List.range 32).all (fun n =>
    let nt := t.fld (Reg.BEL_BCFG_NTAP n)
    let m := t.fld (Reg.BEL_BMAP_MS n)
    decide (1 ≤ nt) && decide (nt ≤ 48) && (t.fld (Reg.BEL_BMAP_EN n) == 0 ||
      (srcKind t m == 2 && decide (t.fld (Reg.BEL_BMAP_X n) < srcW t m) && decide (t.fld (Reg.BEL_BMAP_Y n) < srcH t m))))
  && allDistinct ((placedBuses t).map (fun n => (t.fld (Reg.BEL_BMAP_MS n), t.fld (Reg.BEL_BMAP_X n), t.fld (Reg.BEL_BMAP_Y n))))
  && (List.range 8).all (fun m =>
    let src := t.fld (Reg.BEL_MCFG_SRC m)
    let idx := t.fld (Reg.BEL_MCFG_IDX m)
    !(src == 1 && decide (63 < idx)) && !(decide (2 ≤ src) && decide (31 < idx)) && decide (t.fld (Reg.BEL_MCFG_MSH m) ≤ 24))

/-! ### Functions (Table 11.3) -/

/-- SET_INPUT of BEL. -/
def fnBelSetInput : Fn :=
  { op := 0x0A10, kind := .basic
    range := fun _ p => firstBad [(decide (p.target ≤ 63), 7), (decide (p.arg 0 ≤ 2), 8), (decide (p.arg 1 ≤ 31), 9),
      (decide (p.arg 2 ≤ 16383), 10), (decide (p.arg 3 ≤ 16383), 11), (decide (1 ≤ p.arg 4) && decide (p.arg 4 ≤ 255), 12),
      (decide (p.arg 5 ≤ 1), 13), (decide (p.arg 6 ≤ 16383), 14), (decide (1 ≤ p.arg 7) && decide (p.arg 7 ≤ 65535), 15)] }

/-- The fields SET_INPUT of BEL writes. -/
def wBelSetInput (_ : Engine) (p : Packet) : List (Fld × Nat) :=
  let i := p.target
  [(Reg.BEL_ICFG_MODE i, p.arg 0), (Reg.BEL_ICFG_K i, p.arg 1), (Reg.BEL_IBFIX_VAL i, p.arg 2), (Reg.BEL_IPULSE_THR i, p.arg 3),
   (Reg.BEL_IPULSE_HOLD i, p.arg 4), (Reg.BEL_ICFG_SEN i, p.arg 5), (Reg.BEL_ISIL_THR i, p.arg 6), (Reg.BEL_ISIL_NS i, p.arg 7)]

/-- SET_TMO. -/
def fnSetTmo : Fn :=
  { op := 0x0A11, kind := .basic
    range := fun _ p => firstBad [(decide (p.target ≤ 63), 7), (decide (1 ≤ p.arg 0) && decide (p.arg 0 ≤ 4096), 8)] }

/-- The field SET_TMO writes. -/
def wSetTmo (_ : Engine) (p : Packet) : List (Fld × Nat) := [(Reg.BEL_ITMO_TMO p.target, p.arg 0)]

/-- SET_GAINS. -/
def fnSetGains : Fn :=
  { op := 0x0A12, kind := .basic, len := lenTimes 4 2048
    range := fun _ p => match firstBad [(p.target == 0, 7)] with
      | some d => some d
      | none => wordsBad p (fun _ v => within 0xFFFF1F3F v) }

/-- The gains SET_GAINS writes. -/
def wSetGains (_ : Engine) (p : Packet) : List (Fld × Nat) :=
  (List.range p.nwords).map (fun k => (gainFld (bits (p.word k) 5 0) (bits (p.word k) 12 8), bits (p.word k) 31 16))

/-- SET_FIR. -/
def fnSetFir : Fn :=
  { op := 0x0A13, kind := .basic
    len := fun p => lenTimes 4 48 p && !(decide (1 ≤ p.arg 0) && decide (p.arg 0 ≤ 48) && p.length != 4 * p.arg 0)
    range := fun _ p => match firstBad [(decide (p.target ≤ 31), 7), (decide (1 ≤ p.arg 0) && decide (p.arg 0 ≤ 48), 8)] with
      | some d => some d
      | none => wordsBad p (fun _ v => decide (v < 2 ^ 18)) }

/-- The fields SET_FIR writes. -/
def wSetFir (_ : Engine) (p : Packet) : List (Fld × Nat) :=
  (Reg.BEL_BCFG_NTAP p.target, p.arg 0) :: (List.range 48).map (fun k => (firFld p.target k, if k < p.arg 0 then p.word k else 0))

/-- SET_BUSMAP. -/
def fnSetBusmap : Fn :=
  { op := 0x0A14, kind := .basic
    range := fun _ p => firstBad [(decide (p.target ≤ 31), 7), (decide (p.arg 0 ≤ 1), 8), (decide (p.arg 1 ≤ 30), 9),
      (decide (p.arg 2 ≤ 255), 10), (decide (p.arg 3 ≤ 127), 11), (decide (p.arg 4 ≤ 1), 12), (decide (p.arg 5 ≤ 15), 13)] }

/-- The fields SET_BUSMAP writes. -/
def wSetBusmap (_ : Engine) (p : Packet) : List (Fld × Nat) :=
  let n := p.target
  [(Reg.BEL_BMAP_EN n, p.arg 0), (Reg.BEL_BMAP_MS n, p.arg 1), (Reg.BEL_BMAP_X n, p.arg 2), (Reg.BEL_BMAP_Y n, p.arg 3),
   (Reg.BEL_BMAP_SEL n, p.arg 4), (Reg.BEL_BMAP_BSH n, p.arg 5)]

/-- SET_MONITOR. -/
def fnSetMonitor : Fn :=
  { op := 0x0A15, kind := .basic
    range := fun _ p => firstBad [(decide (p.target ≤ 7), 7), (decide (p.arg 0 ≤ 3), 8), (decide (p.arg 1 ≤ 63), 9), (decide (p.arg 2 ≤ 24), 10)] }

/-- The fields SET_MONITOR writes. -/
def wSetMonitor (_ : Engine) (p : Packet) : List (Fld × Nat) :=
  let m := p.target
  [(Reg.BEL_MCFG_SRC m, p.arg 0), (Reg.BEL_MCFG_IDX m, p.arg 1), (Reg.BEL_MCFG_MSH m, p.arg 2)]

/-- RAW_MATRIX of BEL. -/
def fnBelRawMatrix : Fn :=
  { op := 0x0A80, kind := .stage, len := lenIs 4096, range := fun _ p => firstBad [(p.target == 0, 7)] }

/-- The gains RAW_MATRIX of BEL writes. -/
def wBelRawMatrix (_ : Engine) (p : Packet) : List (Fld × Nat) :=
  (List.range 2048).map (fun k => (gainFld (k / 32) (k % 32), p.half k))

/-- RAW_FIR. -/
def fnRawFir : Fn :=
  { op := 0x0A81, kind := .stage, len := lenTimes 192 32
    range := fun _ p => match firstBad [(decide (p.target + p.length / 192 ≤ 32), 7)] with
      | some d => some d
      | none => wordsBad p (fun _ v => decide (v < 2 ^ 18)) }

/-- The coefficients RAW_FIR writes. -/
def wRawFir (_ : Engine) (p : Packet) : List (Fld × Nat) :=
  (List.range p.nwords).map (fun k => (firFld (p.target + k / 48) (k % 48), p.word k))

/-- RAW_INPUTS. -/
def fnRawInputs : Fn :=
  { op := 0x0A82, kind := .stage, len := lenTimes 16 64
    range := fun _ p => match firstBad [(decide (p.target + p.length / 16 ≤ 64), 7)] with
      | some d => some d
      | none => wordsBad p (fun i v => within ([0x11F03, 0x3FFF, 0x00FF3FFF, 0xFFFF3FFF].getD (i % 4) 0) v) }

/-- The fields RAW_INPUTS writes. -/
def wRawInputs (_ : Engine) (p : Packet) : List (Fld × Nat) :=
  (List.range (p.length / 16)).flatMap (fun j =>
    let i := p.target + j
    let w := fun k => p.word (4 * j + k)
    [(Reg.BEL_ICFG_MODE i, bits (w 0) 1 0), (Reg.BEL_ICFG_K i, bits (w 0) 12 8), (Reg.BEL_ICFG_SEN i, bit (w 0) 16),
     (Reg.BEL_IBFIX_VAL i, w 1), (Reg.BEL_IPULSE_THR i, bits (w 2) 13 0), (Reg.BEL_IPULSE_HOLD i, bits (w 2) 23 16),
     (Reg.BEL_ISIL_THR i, bits (w 3) 13 0), (Reg.BEL_ISIL_NS i, bits (w 3) 31 16)])

/-! ### Meanings -/

/-- SET_INPUT of BEL (R238, R256). -/
def execBelSetInput (p : Packet) (s : State) : Host.Outcome State Fault Refusal :=
  .next { s with eng := runConfig fnBelSetInput noExtra wBelSetInput 0 p s.eng }

/-- SET_TMO (R245, R256). -/
def execSetTmo (p : Packet) (s : State) : Host.Outcome State Fault Refusal :=
  .next { s with eng := runConfig fnSetTmo noExtra wSetTmo 0 p s.eng }

/-- SET_GAINS (R241, R256). -/
def execSetGains (p : Packet) (s : State) : Host.Outcome State Fault Refusal :=
  .next { s with eng := runConfig fnSetGains noExtra wSetGains 0 p s.eng }

/-- SET_FIR (R242, R256). -/
def execSetFir (p : Packet) (s : State) : Host.Outcome State Fault Refusal :=
  .next { s with eng := runConfig fnSetFir noExtra wSetFir 0 p s.eng }

/-- SET_BUSMAP (R247, R256). -/
def execSetBusmap (p : Packet) (s : State) : Host.Outcome State Fault Refusal :=
  .next { s with eng := runConfig fnSetBusmap noExtra wSetBusmap 0 p s.eng }

/-- SET_MONITOR (R252, R256). -/
def execSetMonitor (p : Packet) (s : State) : Host.Outcome State Fault Refusal :=
  .next { s with eng := runConfig fnSetMonitor noExtra wSetMonitor 0 p s.eng }

/-- RAW_MATRIX of BEL (R256). -/
def execBelRawMatrix (p : Packet) (s : State) : Host.Outcome State Fault Refusal :=
  .next { s with eng := runConfig fnBelRawMatrix noExtra wBelRawMatrix 0 p s.eng }

/-- RAW_FIR (R256). -/
def execRawFir (p : Packet) (s : State) : Host.Outcome State Fault Refusal :=
  .next { s with eng := runConfig fnRawFir noExtra wRawFir 0 p s.eng }

/-- RAW_INPUTS (R256). -/
def execRawInputs (p : Packet) (s : State) : Host.Outcome State Fault Refusal :=
  .next { s with eng := runConfig fnRawInputs noExtra wRawInputs 0 p s.eng }

end Sys2Proof.Machine
end

