-- ==== Sys2Proof/Machine/Memory.lean ====
section
/-! DEFINITION. Byte-addressed engine memory (R355, Table 17.1): a list of (address, byte) pairs with strictly rising
addresses and no byte 0, which is what an address not listed holds (R361; assumption 21 for capture memory). -/

namespace Sys2Proof.Machine

/-- The byte at an address. -/
def memGet : List Host.Cell → Nat → Byte
  | [], _ => 0
  | (k, v) :: t, a => if a = k then v else if a < k then 0 else memGet t a

/-- Store a byte; a byte of 0 removes the entry. -/
def memSet : List Host.Cell → Nat → Byte → List Host.Cell
  | [], a, v => if v = 0 then [] else [(a, v)]
  | (k, w) :: t, a, v =>
    if a = k then (if v = 0 then t else (k, v) :: t)
    else if a < k then (if v = 0 then (k, w) :: t else (a, v) :: (k, w) :: t)
    else (k, w) :: memSet t a v

/-- Every listed address is at least `b`, addresses rise strictly, no byte is 0. -/
def memWfFrom : Nat → List Host.Cell → Bool
  | _, [] => true
  | b, (k, v) :: t => decide (b ≤ k) && decide (v ≠ 0) && memWfFrom (k + 1) t

/-- The canonical form. -/
def memWf (m : List Host.Cell) : Bool := memWfFrom 0 m

/-- The `n` bytes from address `a` on. -/
def memRead (m : List Host.Cell) (a n : Nat) : List Byte := (List.range n).map (fun i => memGet m (a + i))

/-- Store bytes from address `a` on. -/
def memWrite (m : List Host.Cell) (a : Nat) : List Byte → List Host.Cell
  | [] => m
  | b :: bs => memWrite (memSet m a b) (a + 1) bs

/-- Set the `n` bytes from address `a` on to 0. -/
def memClear (m : List Host.Cell) (a n : Nat) : List Host.Cell := m.filter (fun c => !(decide (a ≤ c.1) && decide (c.1 < a + n)))

/-- Bytes of engine memory. -/
def Engine.bytes (e : Engine) (a n : Nat) : List Byte := memRead e.mem.cells a n

/-- The bytes of a word whose bits `m` are inverted. -/
def xorBytes (bs : List Byte) (m : Nat) : List Byte := (List.range bs.length).map (fun i => bs.getD i 0 ^^^ BitVec.ofNat 8 (m / 2 ^ (8 * i)))

/-- Forget the SRAM words and capture-memory bursts of `[a, a + n)` that hold an error, and the write-backs due to those words. -/
def Engine.clearErrs (e : Engine) (a n : Nat) : Engine :=
  let out : Nat → Nat → Bool := fun unit k => !(decide (a / unit ≤ k) && decide (unit * k < a + n))
  { e with mem := { e.mem with ecc := e.mem.ecc.filter (fun kv => out 8 kv.1), wback := e.mem.wback.filter (out 8)
                               lecc := e.mem.lecc.filter (fun kv => out 64 kv.1) } }

/-- Store bytes in engine memory; the words written hold no error any more, and a write-back due to one of them is dropped (R360). -/
def Engine.storeBytes (e : Engine) (a : Nat) (bs : List Byte) : Engine :=
  let e1 : Engine := { e with mem := { e.mem with cells := memWrite e.mem.cells a bs } }
  if e.mem.ecc.isEmpty && e.mem.wback.isEmpty && e.mem.lecc.isEmpty then e1 else e1.clearErrs a bs.length

/-- Set the `n` bytes from address `a` on to 0, free of errors. -/
def Engine.zeroBytes (e : Engine) (a n : Nat) : Engine :=
  Engine.clearErrs { e with mem := { e.mem with cells := memClear e.mem.cells a n } } a n

end Sys2Proof.Machine
end

