-- ==== Sys2Proof/Machine/Keep.lean ====
section
/-! DEFINITION. The Keep layer's abort path (R163 to R170), the relays (R170, R234), the frame history ring (R178 to
R180), and the records of the display path (R173 to R177). -/

namespace Sys2Proof.Machine

/-! ### The installed bundle's items (R163 to R167, Table 7.1) -/

/-- Item `i` of the Keep configuration: 0 EN A, 1 PC A, 2 PR A, 3 EN B, 4 PC B, 5 PR B, 6 STHR, 7 FSVAL, 8 FSREQ,
9 MINHOLD. -/
def keepFld (i : Nat) : Fld := tabFld tKeep i 32 0

/-- CTHR of MS31 cell `i`. -/
def cthrFld (i : Nat) : Fld := tabFld tKthr i 18 0

/-- The keep value of Dome `d` at map column `c` and row `r` (R150, R164). -/
def keepAt (t : Tab) (cells : Tab) (d c r : Nat) : Nat :=
  let cols := mapCols t
  let w := srcW t 31
  let x := (c + cols - t.fld (keepFld (3 * d + 1)) % cols) % cols
  let pr := t.fld (keepFld (3 * d + 2))
  if t.fld (keepFld (3 * d)) = 1 ∧ x < w ∧ pr ≤ r ∧ r - pr < srcH t 31 then srcCell cells 31 w x (r - pr) else 0

/-- The MS31 cells. -/
def keepCells (t : Tab) (cells : Tab) : List Nat := (List.range (srcW t 31 * srcH t 31)).map (fun i => cells.get (cellKey 31 i))

/-- req and keepsum of a frame (R166). -/
def keepRequest (t : Tab) (cs : List Nat) (fs : Bool) : Bool × Nat :=
  let sum := min (cs.foldl (· + ·) 0) 0xFFFFFFFF
  let hit := (indexed cs).any (fun ic => t.fld (cthrFld ic.1) != 0 && decide (t.fld (cthrFld ic.1) ≤ ic.2))
  let sthr := t.fld (keepFld 6)
  (hit || (sthr != 0 && decide (sthr ≤ sum)) || (fs && t.fld (keepFld 8) == 1), sum)

/-! ### Relays (R170, R234) -/

/-- Evaluate the wear bits (R234). -/
def evalWear (e : Engine) : Engine :=
  let old := e.reg Reg.OUT_RLYSTAT_WEAR
  let w := fun (c : Fld) => decide (e.reg Reg.OUT_RLYWARN_LIMIT ≤ e.reg c)
  let a := w Reg.OUT_RLYCNT_A_COUNT
  let b := w Reg.OUT_RLYCNT_B_COUNT
  let e1 := e.setReg Reg.OUT_RLYSTAT_WEAR (b2n a + 2 * b2n b)
  let e2 := if a && !tbit old 0 then e1.raise Src.rlyWear 0 else e1
  if b && !tbit old 1 then e2.raise Src.rlyWear 1 else e2

/-- De-energise both coils: an operation of each relay that was energised, whose contact opens (R170, R234; the sense bit of a relay
follows a change of its coil, assumption 22). -/
def coilsOff (e : Engine) : Engine :=
  let c := e.reg Reg.OUT_KSTAT_COIL
  let e1 := (e.setReg Reg.OUT_KSTAT_COIL 0).setReg Reg.OUT_KSTAT_SENSE (Nat.land (e.reg Reg.OUT_KSTAT_SENSE) (3 - c % 4))
  let e2 := if tbit c 0 then e1.bump Reg.OUT_RLYCNT_A_COUNT else e1
  let e3 := if tbit c 1 then e2.bump Reg.OUT_RLYCNT_B_COUNT else e2
  if c = 0 then e3 else evalWear e3

/-- Energise both coils: the contact of a relay that was not energised closes. -/
def coilsOn (e : Engine) : Engine :=
  (e.setReg Reg.OUT_KSTAT_COIL 3).setReg Reg.OUT_KSTAT_SENSE (Nat.lor (e.reg Reg.OUT_KSTAT_SENSE) (3 - e.reg Reg.OUT_KSTAT_COIL % 4))

/-- The ABORT output is asserted and the coils are off. -/
def abortOn (e : Engine) : Engine :=
  let e1 := (coilsOff e).setReg Reg.OUT_KSTAT_ABORT 1
  { e1 with out := { e1.out with abortPin := true } }

/-- The ABORT output is released and the coils are on. -/
def abortOff (e : Engine) : Engine :=
  let e1 := (coilsOn e).setReg Reg.OUT_KSTAT_ABORT 0
  { e1 with out := { e1.out with abortPin := false } }

/-! ### The history ring (R178 to R180) -/

/-- Bytes of a history entry, E (R178). -/
def histEntry (t : Tab) : Nat := 64 + 64 * ceilDiv (2 * mapCols t * mapRows t) 64

/-- The depth of Dome `d` in a set. -/
def histDepth (t : Tab) (d : Nat) : Nat := if d = 0 then t.fld Reg.OUT_HCFG_DEPTHA else t.fld Reg.OUT_HCFG_DEPTHB

/-- The ring is empty: it takes frames created from now on (R178). Only RUN and OFF follow the depths; a ring in POST or FROZEN stays
there, but OFF where both depths are 0 (R179). -/
def histReset (e : Engine) : Engine :=
  let state := e.reg Reg.OUT_HSTAT_STATE
  let off := histDepth e.active 0 + histDepth e.active 1 = 0
  let e1 := e.setReg Reg.OUT_HSTAT_STATE (if off then 0 else if state = 0 then 1 else state)
  let left := [0, 1].map (fun d => if histDepth e.active d = 0 then 0 else e.out.hpost.getD d 0)
  { e1 with out := { e1.out with hidx := [0, 0], hpost := left, hfrom := e.tim.bc }
            mem := { e1.mem with cells := memClear e1.mem.cells 0x400000 (257 * 262144) } }

/-- The ring after a start-up: empty, and in RUN or OFF (R179). -/
def histStart (e : Engine) : Engine := histReset (e.setReg Reg.OUT_HSTAT_STATE 0)

/-- The ring is FROZEN and its post-mortem freeze is due (R179). -/
def histFrozen (e : Engine) (cause : Nat) : Engine :=
  let e1 := (e.setReg Reg.OUT_HSTAT_STATE 3).raise Src.hfreeze cause
  { e1 with out := { e1.out with hpost := [0, 0], freezes := e1.out.freezes ++ [cause] } }

/-- HISTORY_TRIGGER at the frame of stamp `st`, created in BC `born`: cause 1 FAULT, 2 Keep, 3 event, 4 host. A ring with no entry to
record after that frame freezes with it; at once where there is none, TIM being unlocked (R179, R180). -/
def histTrigger (e : Engine) (cause st born : Nat) : Engine :=
  let state := e.reg Reg.OUT_HSTAT_STATE
  let mark := fun (a : Engine) =>
    let b := ((a.setReg Reg.OUT_HSTAT_CAUSE cause).setReg Reg.OUT_HTSTAMP_LO_STAMP (st % 2 ^ 32)).setReg Reg.OUT_HTSTAMP_HI_STAMP (st / 2 ^ 32)
    ({ b with out := { b.out with htrig := born } } : Engine)
  if cause = 1 then
    let e1 := mark e
    if state = 0 then { e1 with out := { e1.out with freezes := e1.out.freezes ++ [1] } } else histFrozen e1 1
  else if state = 1 then
    let e1 := (mark e).setReg Reg.OUT_HSTAT_STATE 2
    let left := [0, 1].map (fun d => if histDepth e.active d = 0 then 0 else e.act Reg.OUT_HPOST_POST)
    let e2 : Engine := { e1 with out := { e1.out with hpost := left } }
    if left = [0, 0] ∧ !e.locked then histFrozen e2 cause else e2
  else if state = 0 then e
  else if e.out.htrig = born then
    if cause < e.reg Reg.OUT_HSTAT_CAUSE then e.setReg Reg.OUT_HSTAT_CAUSE cause else e
  else e.bump Reg.OUT_HTLOST_COUNT

/-! ### Abort state (R165 to R169) -/

/-- The abort state rises: `slot`, `stamp` and the BC of its creation name the frame, or the crossing being created under R168. -/
def abortRise (e : Engine) (slot stamp born : Nat) : Engine :=
  if e.keep.state then e
  else
    let e1 := ((e.setReg Reg.OUT_KLAST_LO_STAMP (stamp % 2 ^ 32)).setReg Reg.OUT_KLAST_HI_STAMP (stamp / 2 ^ 32)).raise Src.kreq slot
    let e2 : Engine := { e1 with keep := { e1.keep with state := true } }
    if e2.act Reg.OUT_HFRZ_FRZK = 1 then histTrigger e2 2 stamp born else e2

/-- OR a cause bit into OUT_KCAUSE. -/
def Engine.addCause (e : Engine) (b : Nat) : Engine := e.setReg Reg.OUT_KCAUSE_CAUSE (Nat.lor (e.reg Reg.OUT_KCAUSE_CAUSE) (2 ^ b))

/-- The causes of R168 that hold now: bit 2 TIM not locked, bit 3 no verified bundle, bit 4 the engine state, or a FAULT
cause detected and not yet entered (R447). -/
def Engine.causesNow (e : Engine) : Nat :=
  4 * b2n (!e.locked) + 8 * b2n (e.reg Reg.OUT_KSTAT_BUNDLE == 0) + 16 * b2n (!e.running || e.pwr.faultDue != 0)

/-- ABORT_CAUSE: take over the causes of R168 that hold now. A cause asserts ABORT and opens the relays at once, whether or
not a frame exists; when the last one ends the state stays asserted (R168). -/
def keepCauses (e : Engine) : Engine :=
  let new := e.causesNow
  if new = 0 ∧ e.keep.causes = 0 then e
  else
    let fresh := [2, 3, 4].filter (fun b => tbit new b && !tbit e.keep.causes b)
    let e1 := fresh.foldl Engine.addCause e
    let e2 : Engine := { e1 with keep := { e1.keep with causes := new, hot := e.tim.bc + 1, quiet := 0 } }
    if new = 0 then e2
    else
      let slot := if e.locked then e.creating % orbitLen e.active else 0
      let e3 := abortOn (abortRise e2 slot e.stampNow e.tim.bc)
      { e3 with keep := { e3.keep with laneFlag := true } }

/-- A FAULT cause of Table 21.7 is detected (R447): it shows in PWR_FCAUSE, and ABORT and the relay coils act at once. OFF
has no causes; in FAULT the bit accumulates. -/
def faultDetect (b : Nat) (e : Engine) : Engine :=
  if e.st = stOff then e
  else
    let e1 := e.setReg Reg.PWR_FCAUSE_CAUSE (Nat.lor (e.reg Reg.PWR_FCAUSE_CAUSE) (2 ^ b))
    if e.st = stFault then e1
    else keepCauses { e1 with pwr := { e1.pwr with faultDue := Nat.lor e1.pwr.faultDue (2 ^ b) } }

/-- The cells of a frame whose MS31 cells have all taken FSVAL (R165). -/
def failSafeCells (t : Tab) (cells : Tab) : Tab :=
  (List.range (srcW t 31 * srcH t 31)).foldl (fun a i => a.set (cellKey 31 i) (t.fld (keepFld 7))) cells

/-- OUT_KSTAT and OUT_KSUM show a frame (R165, R166). -/
def showKeep (req fs : Bool) (sum : Nat) (e : Engine) : Engine :=
  let ws : List (Fld × Nat) := [(Reg.OUT_KSTAT_REQ, b2n req), (Reg.OUT_KSTAT_FS, b2n fs), (Reg.OUT_KSUM_SUM, sum)]
  { e with regs := e.regs.puts ws }

/-- A fail-safe frame is counted, with the event and the causes it brings: `run` says that the frame before it was one, `miss` that it is
one for a missed release point (R165; assumption 50). -/
def countFailSafe (req miss run : Bool) (e : Engine) : Engine :=
  let a := e.bump Reg.OUT_KFSCNT_COUNT
  let b := if run then a else a.raise Src.kfs 0
  let c := if req then b.addCause 1 else b
  if req && miss then c.addCause 5 else c

/-- KEEP_EVALUATE: fail-safe, request, keepsum and abort state of a frame (R165 to R168). Until then the frame's `abort` says that a cause
of R168 held when it was created. OUT_KCAUSE shows a request of the thresholds as REQ and one of a fail-safe frame as FS (assumption 50). -/
def keepEvaluate (e : Engine) (f : Frame) : Engine × Frame :=
  let t := f.cfg
  let fs := f.bad.contains 31 || f.pathMiss
  let cells := if fs then failSafeCells t f.cells else f.cells
  let (req, sum) := keepRequest t (keepCells t cells) fs
  let early := f.abort || decide (f.born < e.keep.hot)
  let quiet := if early || req then 0 else e.keep.quiet + 1
  let abort := early || decide (quiet < t.fld (keepFld 9))
  let slot := f.n % orbitLen t
  let e0 := if req then e.bump Reg.OUT_KREQCNT_COUNT else e
  let e1 := if (keepRequest t (keepCells t cells) false).1 then e0.addCause 0 else e0
  let e2 := if fs then countFailSafe req f.pathMiss (e.keep.lastN == f.n && e.keep.lastFs) e1 else e1
  let e3 := showKeep req fs sum { e2 with keep := { e2.keep with quiet := quiet, lastN := f.n + 1, lastFs := fs } }
  let e4 := if abort then abortRise e3 slot (stampOf (orbitLen t) f.n) f.born
    else { e3 with keep := { e3.keep with state := e3.keep.causes != 0 } }
  (e4, { f with cells := cells, fs := fs, req := req, keepsum := sum, abort := abort })

/-- A release point of the abort path is missed after the frame's evaluation (R165): the frame becomes a fail-safe frame in what is still
to come of it, and its request holds the abort state for it and the frames that MINHOLD ties to it (R167). -/
def keepLateMiss (f : Frame) (e : Engine) : Engine :=
  let t := f.cfg
  let cells := failSafeCells t f.cells
  let (req, sum) := keepRequest t (keepCells t cells) true
  let fresh := req && !f.req
  let last := e.keep.lastN - 1
  let e1 := if fresh then e.bump Reg.OUT_KREQCNT_COUNT else e
  let e2 := countFailSafe req true (e.frames.any (fun g => g.n + 1 == f.n && g.fs)) e1
  let e3 := if last = f.n then showKeep req true sum { e2 with keep := { e2.keep with lastFs := true } } else e2
  let quiet := if fresh then min e.keep.quiet (last - f.n) else e.keep.quiet
  let e4 := if fresh then abortRise e3 (f.n % orbitLen t) (stampOf (orbitLen t) f.n) f.born else e3
  let keep : KeepSt := { e4.keep with quiet := quiet,
                                      state := if fresh then e4.keep.causes != 0 || decide (quiet < t.fld (keepFld 9)) else e4.keep.state }
  { e4 with keep := keep
            frames := e4.frames.map (fun g =>
              if g.n = f.n then { g with cells := cells, fs := true, req := req, keepsum := sum, abort := g.abort || req }
              else if fresh && decide (f.n < g.n) && decide (g.n < f.n + g.cfg.fld (keepFld 9)) then { g with abort := true } else g) }

/-- ABORT_STATE_CHANGE at the output crossing of a frame: the ABORT output and the coils take its abort state; no release
while a cause holds (R168, R169). -/
def abortOutput (e : Engine) (f : Frame) : Engine :=
  if f.abort then (if e.out.abortPin then e else abortOn e)
  else if e.keep.causes = 0 ∧ e.keep.hot ≤ f.born ∧ e.out.abortPin then abortOff e else e

/-- The abort flag of the decision lanes takes the abort state of a frame (R169). -/
def abortLane (e : Engine) (f : Frame) : Engine :=
  if f.abort then { e with keep := { e.keep with laneFlag := true } }
  else if e.keep.causes = 0 ∧ e.keep.hot ≤ f.born then { e with keep := { e.keep with laneFlag := false } } else e

/-! ### Display records (R174 to R178) -/

/-- Cell (c, r) of Dome `d`'s composed picture. -/
def Frame.cell (f : Frame) (d c r : Nat) : Nat := (f.pic.outs.getD d []).getD (r * mapCols f.cfg + c) 0

/-- The 32 bytes of Table 7.3, from byte 0 to byte 27 as there, and the last four bytes. -/
def pictureHeader (f : Frame) (d fmt : Nat) (trunc : Bool) (col0 ncol row0 nrow n last : Nat) : List Byte :=
  leBytes 1 d ++ leBytes 1 fmt ++ leBytes 1 (b2n f.req + 2 * b2n f.fs + 4 * b2n trunc) ++ leBytes 1 f.st ++ leBytes 2 col0 ++ leBytes 2 ncol
    ++ leBytes 2 row0 ++ leBytes 2 nrow ++ leBytes 4 n ++ leBytes 4 (f.pic.dsum.getD d 0) ++ leBytes 4 f.keepsum
    ++ leBytes 2 (mapCols f.cfg) ++ leBytes 2 (mapRows f.cfg) ++ leBytes 4 last

/-- The map cells of a window, in the order of R176. -/
def windowCells (t : Tab) (col0 ncol row0 nrow : Nat) : List (Nat × Nat) :=
  (List.range nrow).flatMap (fun i => (List.range ncol).map (fun j => ((col0 + j) % mapCols t, row0 + i)))

/-- An Oculus payload (R176). Set-up words: 0 Domes + 4, 1 DEC, 2 PHASE, 3 COL0, 4 NCOL, 5 ROW0, 6 NROW, 7 FMT and THR;
`maxsp` its MAXSP. -/
def oculusPayload (f : Frame) (d : Nat) (w : Nat → Nat) (maxsp : Nat) : List Byte :=
  let fmt := bits (w 7) 1 0
  let cs := windowCells f.cfg (w 3) (w 4) (w 5) (w 6)
  let thr := bits (w 7) 31 14
  let sp := if fmt = 2 then cs.filter (fun x => decide (thr < f.cell d x.1 x.2)) else cs
  let trunc := fmt == 2 && decide (maxsp < sp.length)
  let kept := if fmt = 2 then sp.take maxsp else sp
  let body := kept.flatMap (fun x =>
    let v := f.cell d x.1 x.2
    if fmt = 0 then leBytes 2 v else if fmt = 1 then leBytes 1 (v / 256) else leBytes 4 (x.1 + 256 * x.2 + 65536 * v))
  pictureHeader f d fmt trunc (w 3) (w 4) (w 5) (w 6) kept.length 0 ++ body

/-- OCULUS_RECORD: a composed frame goes to the rings that select it (R173, R175). -/
def oculusRecords (e : Engine) (f : Frame) : Engine :=
  (setups f.cfg tOcul).foldl (fun a id =>
    let w := fun j => f.cfg.fld (setupFld tOcul id j)
    if onPhase f.n (w 2) (w 1) then
      (domesOf (w 0)).foldl (fun b d =>
        (b.strWrite id 1 (stampOf (orbitLen f.cfg) f.n) (strFlags f.stale f.invalid) (oculusPayload f d w (f.cfg.fld (maxspFld id)))).1) a
    else a) e

/-- The bytes of a history entry of a frame (R178). -/
def historyBytes (f : Frame) (d : Nat) : List Byte :=
  let cols := mapCols f.cfg
  let rows := mapRows f.cfg
  let body := (f.pic.outs.getD d []).flatMap (leBytes 2)
  pictureHeader f d 0 false 0 cols 0 rows (cols * rows) (f.n % 2 ^ 32) ++ leBytes 8 (stampOf (orbitLen f.cfg) f.n) ++ leBytes 24 0
    ++ body ++ leBytes ((64 - body.length % 64) % 64) 0

/-- HISTORY_RECORD of Dome `d` (R178, R179): a frame created before the ring was last emptied is none of its entries, and the frames up to
that of the trigger are no POST entries. -/
def historyRecord (e : Engine) (f : Frame) (d : Nat) : Engine :=
  let t := f.cfg
  let depth := histDepth t d
  let state := e.reg Reg.OUT_HSTAT_STATE
  let left := e.out.hpost.getD d 0
  let post := state == 2 && decide (e.out.htrig < f.born)
  if f.born < e.out.hfrom ∨ depth = 0 ∨ t.fld Reg.OUT_HDEC_DEC = 0 ∨ f.n % t.fld Reg.OUT_HDEC_DEC ≠ 0 then e
  else if state = 1 ∨ (state = 2 ∧ (!post ∨ left ≠ 0)) then
    let k := e.out.hidx.getD d 0 % depth
    let base := 0x400000 + (k + (if d = 0 then 0 else histDepth t 0)) * histEntry t
    let e1 := e.storeBytes base (historyBytes f d)
    { e1 with out := { e1.out with hidx := e1.out.hidx.set d (k + 1)
                                   hpost := if post then e1.out.hpost.set d (left - 1) else e1.out.hpost } }
  else e

/-- The display tap of a composed frame: Oculus records and the history ring, which freezes when the POST entries after the trigger's
frame are in (R173, R175, R178, R179). -/
def displayFrame (e : Engine) (f : Frame) : Engine :=
  let e1 := historyRecord (historyRecord (oculusRecords e f) f 0) f 1
  if e1.reg Reg.OUT_HSTAT_STATE = 2 ∧ e1.out.hpost = [0, 0] ∧ e1.out.htrig ≤ f.born then histFrozen e1 (e1.reg Reg.OUT_HSTAT_CAUSE) else e1

/-! ### The checkers (R163, R178) -/

/-- The KEEP checker over a set with an installed bundle (R163). -/
def keepCheck (t : Tab) : Bool :=
  let ks := keepSources t
  decide (ks.length ≤ 64) && ks.all (fun q => !(slotOf t q).wave && t.fld (Reg.MAP_CONV_MODE q) == 0)
  && [0, 1].all (fun d => t.fld (keepFld (3 * d)) == 0 || (decide (t.fld (keepFld (3 * d + 1)) < mapCols t)
    && decide (t.fld (keepFld (3 * d + 2)) < mapRows t) && decide (srcW t 31 ≤ mapCols t)))
  && t.fld (keepFld 9) != 0

/-- The history part of the OUT checker (R178). -/
def historyCheck (t : Tab) : Bool := decide (histDepth t 0 + histDepth t 1 ≤ 1024)

/-! ### Functions (Tables 7.4, 10.7) -/

/-- SET_OCULUS. The window is tested against the active geometry (R177). -/
def fnSetOculus : Fn :=
  { op := 0x1640, kind := .basic
    owner := fun e p => orOwner (ringOwner e p) (domesOwner e p.ctx (p.arg 0))
    range := fun e p =>
      let cols := mapCols e.active
      let rows := mapRows e.active
      firstBad [(ringKind e p 1 && !setupFull e p tOcul 16, 7), (decide (p.arg 0 ≤ 3), 8),
        (decide (1 ≤ p.arg 1) && decide (p.arg 1 ≤ 16777216), 9), (decide (p.arg 3 < cols), 11),
        (decide (1 ≤ p.arg 4) && decide (p.arg 4 ≤ cols), 12), (decide (p.arg 5 < rows), 13),
        (p.arg 6 != 0 && decide (p.arg 5 + p.arg 6 ≤ rows), 14), (decide (bits (p.arg 7) 1 0 ≤ 2) && within 0xFFFFC003 (p.arg 7), 15)] }

/-- The set-up SET_OCULUS writes; a new one starts with MAXSP 16,384 (R177). -/
def wSetOculus (e : Engine) (p : Packet) : List (Fld × Nat) :=
  let w := setupFld tOcul p.target
  [(w 0, 4 + p.arg 0), (w 1, p.arg 1), (w 2, p.arg 2), (w 3, p.arg 3), (w 4, p.arg 4), (w 5, p.arg 5), (w 6, p.arg 6), (w 7, p.arg 7)]
    ++ (if e.stg (w 0) = 0 then [(maxspFld p.target, 16384)] else [])

/-- SET_CAPTURE. -/
def fnSetCapture : Fn :=
  { op := 0x1641, kind := .basic, range := fun _ p => firstBad [(p.target == 0, 7), (within 0x33 (p.arg 0), 8)] }

/-- The fields SET_CAPTURE writes. -/
def wSetCapture (_ : Engine) (p : Packet) : List (Fld × Nat) :=
  [(Reg.OUT_DCAP_SAFE, bit (p.arg 0) 0), (Reg.OUT_DCAP_HOLD, bit (p.arg 0) 1), (Reg.OUT_DCAP_DOMEA, bit (p.arg 0) 4),
   (Reg.OUT_DCAP_DOMEB, bit (p.arg 0) 5), (Reg.OUT_DCAPMASK_LO_MASK, p.arg 1), (Reg.OUT_DCAPMASK_HI_MASK, p.arg 2)]

/-- SET_HISTORY. Depths that their fields hold and R178 does not allow are the checker's to refuse. -/
def fnSetHistory : Fn :=
  { op := 0x1642, kind := .basic
    range := fun _ p => firstBad [(p.target == 0, 7), (decide (p.arg 0 ≤ 2047), 8), (decide (p.arg 1 ≤ 2047), 9),
      (decide (1 ≤ p.arg 2) && decide (p.arg 2 < 2 ^ 24), 10), (decide (p.arg 3 ≤ 1023), 11), (within 0x83FF0003 (p.arg 4), 12)] }

/-- The fields SET_HISTORY writes. -/
def wSetHistory (_ : Engine) (p : Packet) : List (Fld × Nat) :=
  [(Reg.OUT_HCFG_DEPTHA, p.arg 0), (Reg.OUT_HCFG_DEPTHB, p.arg 1), (Reg.OUT_HDEC_DEC, p.arg 2), (Reg.OUT_HPOST_POST, p.arg 3),
   (Reg.OUT_HFRZ_FRZK, bit (p.arg 4) 0), (Reg.OUT_HFRZ_EVEN, bit (p.arg 4) 1), (Reg.OUT_HFRZ_CH, bits (p.arg 4) 25 16),
   (Reg.OUT_HFRZ_AUTO, bit (p.arg 4) 31)]

/-- FREEZE_HISTORY. -/
def fnFreezeHistory : Fn := { op := 0x1643, kind := .basic, range := fun _ p => firstBad [(p.target == 0, 7)] }

/-- RELEASE_HISTORY. -/
def fnReleaseHistory : Fn :=
  { op := 0x1644, kind := .basic, inFault := true, range := fun _ p => firstBad [(p.target == 0, 7)] }

/-- RELEASE_HISTORY is refused in FAULT (Table 7.4). -/
def extraRelease (e : Engine) (_ : Packet) : Option Status := if e.st = stFault then some (.state stFault) else none

/-- No field is written. -/
def wNone (_ : Engine) (_ : Packet) : List (Fld × Nat) := []

/-- SET_OCULUS_SPARSE. -/
def fnSetOculusSparse : Fn :=
  { op := 0x1645, kind := .basic, owner := ringOwner
    range := fun e p => firstBad [(ringKind e p 1 && e.stg (setupFld tOcul p.target 0) != 0, 7), (decide (1 ≤ p.arg 0) && decide (p.arg 0 ≤ 16384), 8)] }

/-- The field SET_OCULUS_SPARSE writes. -/
def wSetOculusSparse (_ : Engine) (p : Packet) : List (Fld × Nat) := [(maxspFld p.target, p.arg 0)]

/-- A commit that changes MAP_GEOM sets every Oculus window to the full map (R177). -/
def fullWindows (t : Tab) : Tab :=
  (setups t tOcul).foldl (fun a id =>
    a.puts [(setupFld tOcul id 3, 0), (setupFld tOcul id 4, mapCols t), (setupFld tOcul id 5, 0), (setupFld tOcul id 6, mapRows t)]) t

/-! ### Meanings -/

/-- SET_OCULUS (R175, R177, R181). -/
def execSetOculus (p : Packet) (s : State) : Host.Outcome State Fault Refusal :=
  .next { s with eng := runConfig fnSetOculus noExtra wSetOculus 0 p s.eng }

/-- SET_CAPTURE (R174, R181). -/
def execSetCapture (p : Packet) (s : State) : Host.Outcome State Fault Refusal :=
  .next { s with eng := runConfig fnSetCapture noExtra wSetCapture 0 p s.eng }

/-- SET_HISTORY (R178, R181). -/
def execSetHistory (p : Packet) (s : State) : Host.Outcome State Fault Refusal :=
  .next { s with eng := runConfig fnSetHistory noExtra wSetHistory 0 p s.eng }

/-- FREEZE_HISTORY: a trigger at its commit crossing (R179, R181). -/
def execFreezeHistory (p : Packet) (s : State) : Host.Outcome State Fault Refusal :=
  .next { s with eng := runConfig fnFreezeHistory noExtra wNone 4 p s.eng }

/-- RELEASE_HISTORY: a FROZEN ring returns to RUN at its commit crossing (R179, R181). -/
def execReleaseHistory (p : Packet) (s : State) : Host.Outcome State Fault Refusal :=
  .next { s with eng := runConfig fnReleaseHistory extraRelease wNone 5 p s.eng }

/-- SET_OCULUS_SPARSE (R177, R181). -/
def execSetOculusSparse (p : Packet) (s : State) : Host.Outcome State Fault Refusal :=
  .next { s with eng := runConfig fnSetOculusSparse noExtra wSetOculusSparse 0 p s.eng }

/-- RELAY_COUNT_JOURNAL: the count of a relay is written to the settings journal (R234). -/
def execRelayCountJournal (relay : Nat) (s : State) : Host.Outcome State Fault Refusal :=
  let e := s.eng
  if 1 < relay then .next s
  else
    let c := e.reg (if relay = 0 then Reg.OUT_RLYCNT_A_COUNT else Reg.OUT_RLYCNT_B_COUNT)
    .next { s with eng := { e with out := { e.out with relayJournal := e.out.relayJournal.set relay c } } }

end Sys2Proof.Machine
end

