-- ==== Sys2Proof/Machine/Sram.lean ====
section
/-! DEFINITION. Shared SRAM as its requesters reach it (R354 to R362): error correction, the program tables, the bit-set
and bit-clear aliases, the address map and who may reach what. -/

namespace Sys2Proof.Machine

/-! ### Error correction (R360) -/

/-- Set bits among the `n` low bits of a number. -/
def popCount (n v : Nat) : Nat := ((List.range n).filter (tbit v)).length

/-- A corrected error: the count, and the CECC event once per second at most (R360, R372). -/
def countCecc (e : Engine) : Engine :=
  let e1 := e.bump Reg.MEM_CECC_COUNT
  if e.mem.ceccAt = 0 ∨ e.mem.ceccAt + 1000 * e.act Reg.TIM_FNOM_KHZ ≤ e.tim.bc + 1 then
    Engine.raise { e1 with mem := { e1.mem with ceccAt := e.tim.bc + 1 } } Src.cecc (e1.reg Reg.MEM_CECC_COUNT)
  else e1

/-- An uncorrectable error in word `k`. -/
def countUecc (e : Engine) (k : Nat) : Engine :=
  let e1 := if e.reg Reg.MEM_UECC_COUNT = 0 then e.setReg Reg.MEM_UADDR_ADDR (8 * k) else e
  (e1.bump Reg.MEM_UECC_COUNT).raise Src.uecc (8 * k)

/-- Word `k`, corrected, waits for a bank cycle in which it can be written back (R360). -/
def awaitBack (e : Engine) (k : Nat) : Engine :=
  if e.mem.wback.contains k then e else { e with mem := { e.mem with wback := e.mem.wback ++ [k] } }

/-- Word `k` is written back as corrected (R360). -/
def wordBack (e : Engine) (k : Nat) : Engine :=
  { e with mem := { e.mem with ecc := e.mem.ecc.set k 0, wback := e.mem.wback.filter (· != k) } }

/-- ECC_CHECK of a read of word `k`: the bits by which the data returned differ from the data the word should hold, and the
error flag. One inverted bit is corrected, and the corrected word is to be written back; two are flagged; of more the spec says nothing, and
whether they are flagged and what is returned are free (assumption 28). -/
def eccRead (e : Engine) (k : Nat) : Engine × Nat × Bool :=
  let m := e.mem.ecc.get k
  if m = 0 then (e, 0, false)
  else if popCount 72 m = 1 then (countCecc (awaitBack e k), 0, false)
  else if popCount 72 m = 2 then (countUecc e k, m % 2 ^ 64, true)
  else
    let (v, e1) := e.freeVal
    if v % 2 = 0 then (countUecc e1 k, m % 2 ^ 64, true) else (countCecc e1, v / 2 % 2 ^ 64, false)

/-- The words of `[a, a + n)` that hold an error. -/
def errWords (e : Engine) (a n : Nat) : List Nat :=
  (e.mem.ecc.filter (fun kv => decide (a < 8 * kv.1 + 8) && decide (8 * kv.1 < a + n))).map (·.1)

/-- A byte of the program tables: the active bank or the standby one (R303, Table 17.1). -/
def progByte (e : Engine) (a : Nat) : Byte :=
  let t := if a / 2 ^ 21 = e.mem.bank then e.active else e.staged
  BitVec.ofNat 8 (t.fld (tabFld tProg (a % 2 ^ 21 / 4) 32 0) / 2 ^ (8 * (a % 4)))

/-- The byte an SRAM offset should hold. -/
def sramByte (e : Engine) (a : Nat) : Byte := if a < 2 ^ 22 then progByte e a else memGet e.mem.cells a

/-- A read of `n` bytes at SRAM offset `a`: the bytes, and whether any word was flagged. -/
def sramRead (e : Engine) (a n : Nat) : Engine × List Byte × Bool :=
  let bs := (List.range n).map (fun i => sramByte e (a + i))
  (errWords e a n).foldl (fun (r : Engine × List Byte × Bool) k =>
    let (e1, m, bad) := eccRead r.1 k
    (e1, (indexed r.2.1).map (fun ib =>
      if (a + ib.1) / 8 = k then ib.2 ^^^ BitVec.ofNat 8 (m / 2 ^ (8 * ((a + ib.1) % 8))) else ib.2), r.2.2 || bad)) (e, bs, false)

/-- The read half of a read-modify-write: words of `[a, a + n)` that hold an error are checked, and what was returned is
what the word holds from now on (R359, R360). Answers whether any word was flagged. -/
def sramBake (e : Engine) (a n : Nat) : Engine × Bool :=
  (errWords e a n).foldl (fun r k =>
    let (e1, m, bad) := eccRead r.1 k
    (e1.storeBytes (8 * k) (xorBytes (e1.bytes (8 * k) 8) m), r.2 || bad)) (e, false)

/-- A write of bytes at SRAM offset `a`; words written in part are read first, and the flag answers for that read (R359, R360). The
program tables are written by LOAD_TABLE only (Table 17.1). -/
def sramWrite (e : Engine) (a : Nat) (bs : List Byte) : Engine × Bool :=
  if a < 2 ^ 22 then (e, false)
  else
    let (e1, bad1) := if a % 8 = 0 then (e, false) else sramBake e (a / 8 * 8) 8
    let last := a + bs.length
    let (e2, bad2) := if last % 8 = 0 then (e1, false) else sramBake e1 (last / 8 * 8) 8
    (e2.storeBytes a bs, bad1 || bad2)

/-- An alias write: the bits at 1 in the data are set, or cleared; the flag answers for the read half (R359, R360). -/
def aliasWrite (setBits : Bool) (e : Engine) (a : Nat) (bs : List Byte) : Engine × Bool :=
  if a < 2 ^ 22 then (e, false)
  else
    let (e1, bad) := sramBake e (a / 8 * 8) (a % 8 + bs.length)
    (e1.storeBytes a ((indexed bs).map (fun ib =>
      let old := memGet e1.mem.cells (a + ib.1)
      if setBits then old ||| ib.2 else old &&& ~~~ib.2)), bad)

/-! ### The address map (R355, R356, Table 17.1) -/

/-- Bytes of shared SRAM. -/
def sramSize : Nat := 96 * 2 ^ 20

/-- What an engine address names: 0 nothing, 1 SRAM, 2 its bit-set alias, 3 its bit-clear alias, 4 capture memory; with the
SRAM offset, or the address. -/
def addrKind (a : Nat) : Nat × Nat :=
  if a < sramSize then (1, a)
  else if 2 ^ 27 ≤ a ∧ a < 2 ^ 27 + sramSize then (2, a - 2 ^ 27)
  else if 2 ^ 28 ≤ a ∧ a < 2 ^ 28 + sramSize then (3, a - 2 ^ 28)
  else if 2 ^ 37 ≤ a ∧ a < 2 ^ 38 then (4, a) else (0, a)

/-- Field `j` of user-region window `w` (R356): 0 first bank, 1 bank count (0 off), 2 owner context. -/
def winFld (w j : Nat) : Fld := tabFld tWin (3 * w + j) 10 0

/-- The window that holds SRAM bank `b`. -/
def windowOf (e : Engine) (b : Nat) : Option Nat :=
  (List.range 16).find? (fun w => decide (e.reg (winFld w 0) ≤ b) && decide (b < e.reg (winFld w 0) + e.reg (winFld w 1)))

/-- Why context `ctx` may not reach SRAM bank `b`: none where it may, 0 for an address it may not reach, 1 + the owner of
another context's window. -/
def bankBad (e : Engine) (ctx : Nat) (wr : Bool) (b : Nat) : Option Nat :=
  if 16 ≤ b ∧ b ≤ 272 then (if wr && ctx != 0 then some 0 else none)
  else if 273 ≤ b ∧ b ≤ 351 then
    match windowOf e b with
    | none => some 0
    | some w => if ctx = 0 ∨ e.reg (winFld w 2) = ctx then none else some (1 + e.reg (winFld w 2))
  else some 0

/-- What keeps context `ctx` from `n` bytes at engine address `a`, as in `bankBad`, bank by bank (R355, R356). -/
def accessFails (e : Engine) (ctx a n : Nat) (wr : Bool) : List Nat :=
  let (k, off) := addrKind a
  let (k2, _) := addrKind (a + (n - 1))
  if k = 0 ∨ k2 ≠ k then [0]
  else if k = 4 then (if wr then [0] else [])
  else ((List.range (ceilDiv (off % 262144 + n) 262144)).map (· + off / 262144)).filterMap (bankBad e ctx wr)

/-- The failure that decides where an access meets several: an address the requester may not reach comes before another context's window
(R386, checks 3 and 4). -/
def worstFail (fails : List Nat) : Option Nat := if fails.contains 0 then some 0 else fails.head?

/-- Why context `ctx` may not access `n` bytes at engine address `a`: none where it may. -/
def accessBad (e : Engine) (ctx a n : Nat) (wr : Bool) : Option Nat := worstFail (accessFails e ctx a n wr)

/-- A burst of capture memory that holds an error is read: one bad bit is corrected, more raise LUECC and flag the data (R372,
assumption 22). -/
def burstRead (r : Engine × Bool) (b : Nat) : Engine × Bool :=
  let m := r.1.mem.lecc.get b
  if m = 0 then r
  else if m = 1 then (r.1.bump Reg.MEM_LCECC_COUNT, r.2)
  else ((r.1.bump Reg.MEM_LUECC_COUNT).raise Src.luecc 0, true)

/-- A read of `n` bytes of capture memory at address `a`. -/
def captureRead (e : Engine) (a n : Nat) : Engine × List Byte × Bool :=
  let bad := (e.mem.lecc.filter (fun kv => decide (a / 64 ≤ kv.1) && decide (64 * kv.1 < a + n))).map (·.1)
  let (e1, flag) := bad.foldl burstRead (e, false)
  (e1, e.bytes a n, flag)

/-- Read `n` bytes at an engine address: the bytes, and the error flag. -/
def engRead (e : Engine) (a n : Nat) : Engine × List Byte × Bool :=
  let (k, off) := addrKind a
  if k = 4 then captureRead e a n else sramRead e off n

/-- Write bytes at an engine address, plain or through an alias. The flag answers for the words that are read to be written in part
(R360). -/
def engWrite (e : Engine) (a : Nat) (bs : List Byte) : Engine × Bool :=
  let (k, off) := addrKind a
  if k = 1 then sramWrite e off bs
  else if k = 2 then aliasWrite true e off bs
  else if k = 3 then aliasWrite false e off bs else (e, false)

/-! ### Banks as a whole (R361, R363) -/

/-- Words of a bank of the program tables, which hold 65,536 words of 32 bits each. -/
def progBankKeys (b k : Nat) : Bool :=
  decide ((tabFld tProg (b % 8 * 65536) 32 0).key ≤ k) && decide (k < (tabFld tProg ((b % 8 + 1) * 65536) 32 0).key)

/-- Bank `b` holds 0 with valid check bits; the banks of the program tables are held as the active or the standby table (R303). -/
def clearBank (e : Engine) (b : Nat) : Engine :=
  let e1 := e.zeroBytes (b * 262144) 262144
  let clear : Tab → Tab := fun t => t.filter (fun kv => !progBankKeys b kv.1)
  if 16 ≤ b then e1
  else if b / 8 = e1.mem.bank then { e1 with active := clear e1.active } else { e1 with staged := clear e1.staged }

/-- Both program-table banks as the journal has them: the standby bank holds what was accepted last, and so does the active one, but
where a commit of the tables still waits for its crossing (R363; assumption 30). -/
def restoreTables (before e : Engine) : Engine :=
  let prog : Nat → Bool := fun k => decide (tabBase tProg ≤ k) && decide (k < tabBase (tProg + 1))
  let j := e.mem.journal.cfg
  let running := if e.pendingOn 11 then before.active else j
  { e with active := Tab.replace prog e.active running, staged := Tab.replace prog e.staged j }

end Sys2Proof.Machine
end

