-- ==== Sys2Proof/Machine/Spire.lean ====
section
/-! DEFINITION. The Spire cores (chapter 13): registers, results in flight, local memory, control words, exceptions, and
the issue of one instruction. The instructions themselves stand in `Instructions.lean`, frames and coprocessors in
`Coproc.lean`. A command for a core that does not run, or whose memory holds another word at the program counter, changes
nothing; on a service core the row is itself the word at the program counter (R292; assumption 23). -/

namespace Sys2Proof.Machine

/-! ### Cores -/

/-- Core `k`, 0 to 31 for SP0 to SP31, 32 for SC0, 33 for SC1. -/
def Engine.core (e : Engine) (k : Nat) : SpireCore := e.spr.cores.getD k SpireCore.reset

/-- A service core. -/
def isService (k : Nat) : Bool := decide (32 ≤ k)

/-- The bit `b` of a 32-bit mask register given the value `v`. -/
def maskBit (e : Engine) (f : Fld) (b : Nat) (v : Bool) : Engine :=
  e.setReg f (e.reg f - 2 ^ b * bit (e.reg f) b + 2 ^ b * b2n v)

/-- Give a core its new state, and the registers that show it (Table 14.8). -/
def Engine.putCore (e : Engine) (k : Nat) (c : SpireCore) : Engine :=
  let e1 : Engine := { e with spr := { e.spr with cores := e.spr.cores.set k c } }
  let e2 := e1.setReg (Reg.SPR_CSTAT_STATE k) c.st
  if isService k then e2
  else maskBit (maskBit e2 Reg.SPR_RUN_MASK k (c.st == 1 || c.st == 3)) Reg.SPR_HALT_MASK k (c.st == 2)

/-! ### Control words (R280, R281, R299) -/

/-- Control word `n`; CW_FLEN is 8 at reset. -/
def cwFld (n : Nat) : Fld := ⟨n, 32, if n = 0x104 then 8 else 0⟩

/-- The stored value of a control word. -/
def SpireCore.cwv (c : SpireCore) (n : Nat) : Nat := c.cw.fld (cwFld n)

/-- Store a control word. -/
def SpireCore.setCw (c : SpireCore) (n v : Nat) : SpireCore := { c with cw := c.cw.put (cwFld n) v }

/-- CW_STAT.IE. -/
def SpireCore.ie (c : SpireCore) : Bool := tbit (c.cwv 0) 0
/-- CW_STAT.FIE. -/
def SpireCore.fie (c : SpireCore) : Bool := tbit (c.cwv 0) 1
/-- CW_STAT.INN. -/
def SpireCore.inn (c : SpireCore) : Bool := tbit (c.cwv 0) 2
/-- CW_STAT.INF: the fast bank is in use. -/
def SpireCore.inf (c : SpireCore) : Bool := tbit (c.cwv 0) 3
/-- CW_STAT.INX. -/
def SpireCore.inx (c : SpireCore) : Bool := tbit (c.cwv 0) 4

/-- Give bit `b` of CW_STAT a value. -/
def SpireCore.setStat (c : SpireCore) (b : Nat) (v : Bool) : SpireCore :=
  c.setCw 0 (c.cwv 0 - 2 ^ b * bit (c.cwv 0) b + 2 ^ b * b2n v)

/-! ### Registers and results in flight (R266, R274, R276) -/

/-- The physical register of g`r`: g24 to g31 lie in the bank in use. -/
def SpireCore.phys (c : SpireCore) (r : Nat) : Nat := if 24 ≤ r ∧ c.inf then r + 8 else r

/-- The value g`r` holds. g0 reads as 0. -/
def SpireCore.get (c : SpireCore) (r : Nat) : Nat := if r = 0 then 0 else c.regs.get (c.phys r)

/-- Place a write in the order of arrival, behind those of the same cycle that were issued before (R276). -/
def insertFlight (x : Flight) : List Flight → List Flight
  | [] => [x]
  | y :: ys => if y.due ≤ x.due then y :: insertFlight x ys else x :: y :: ys

/-- The result `v` of an instruction issued now reaches g`r` at distance `d`. -/
def SpireCore.result (c : SpireCore) (r v d : Nat) : SpireCore :=
  { c with flight := insertFlight ⟨if r = 0 then 0 else c.phys r, v % 2 ^ 32, c.cyc + d⟩ c.flight }

/-- A result reaches its register; one for g0 is discarded. -/
def SpireCore.arrive (c : SpireCore) (x : Flight) : SpireCore :=
  if x.dst = 0 then c else { c with regs := c.regs.set x.dst x.val }

/-- The cycle in which the last result in flight arrives; 0 where none is. -/
def SpireCore.lastDue (c : SpireCore) : Nat := c.flight.foldl (fun a x => max a x.due) 0

/-! ### Local memory (R267, R268, R277, R298) -/

/-- Word `w` of a core's instruction memory. -/
def imemFld (k w : Nat) : Fld := tabFld tImem (16384 * k + w) 32 0

/-- Word `w` of a core's data memory. -/
def dmemFld (k w : Nat) : Fld := tabFld tDmem (16384 * k + w) 32 0

/-- A read of a word of a core's memory is checked with SEC-DED (R298): one inverted bit is corrected and counted in SPR_CECC, two are
uncorrectable (true); of more the spec says nothing, and which of the two is free (assumption 28). -/
def coreCheck (e : Engine) (k : Nat) (f : Fld) : Engine × Bool :=
  let m := e.spr.ecc.get f.key
  if m = 0 then (e, false)
  else if popCount 39 m = 1 then (e.bump (Reg.SPR_CECC_COUNT k), false)
  else if popCount 39 m = 2 then (e, true)
  else
    let (v, e1) := e.freeVal
    if v % 2 = 0 then (e1, true) else (e1.bump (Reg.SPR_CECC_COUNT k), false)

/-- Words of the core memories whose keys lie in `[lo, hi)` have been written whole: they hold valid check bits. -/
def Engine.coreFresh (e : Engine) (lo hi : Nat) : Engine :=
  if e.spr.ecc.isEmpty then e
  else { e with spr := { e.spr with ecc := e.spr.ecc.filter (fun kv => !(decide (lo ≤ kv.1) && decide (kv.1 < hi))) } }

/-- The `n`-byte value at byte address `a` of core `k`'s data memory, within one word. -/
def Engine.dmemGet (e : Engine) (k a n : Nat) : Nat := e.reg (dmemFld k (a / 4)) / 2 ^ (8 * (a % 4)) % 2 ^ (8 * n)

/-- Store an `n`-byte value at byte address `a` of core `k`'s data memory, within one word. -/
def Engine.dmemSet (e : Engine) (k a n v : Nat) : Engine :=
  let f := dmemFld k (a / 4)
  e.setReg f (e.reg f - 2 ^ (8 * (a % 4)) * e.dmemGet k a n + 2 ^ (8 * (a % 4)) * (v % 2 ^ (8 * n)))

/-- A store of a core: the word then holds valid check bits (R298). -/
def Engine.dmemStore (e : Engine) (k a n v : Nat) : Engine :=
  (e.dmemSet k a n v).coreFresh (dmemFld k (a / 4)).key (dmemFld k (a / 4 + 1)).key

/-- Store bytes from byte address `a` of core `k`'s data memory on. -/
def Engine.dmemBytes (e : Engine) (k : Nat) : Nat → List Byte → Engine
  | _, [] => e
  | a, b :: bs => Engine.dmemBytes (e.dmemSet k a 1 b.toNat) k (a + 1) bs

/-- Everything due by the core's present cycle arrives (R274, R301). -/
def Engine.settle (e : Engine) (k : Nat) : Engine :=
  let c := e.core k
  let now := c.flight.takeWhile (fun x => decide (x.due ≤ c.cyc))
  let mem := c.gather.takeWhile (fun x => decide (x.due ≤ c.cyc))
  if now.isEmpty && mem.isEmpty then e
  else
    let c1 := now.foldl SpireCore.arrive { c with flight := c.flight.drop now.length, gather := c.gather.drop mem.length }
    mem.foldl (fun a x => a.dmemSet k x.dst 2 x.val) (e.putCore k c1)

/-! ### Sequence (R278) -/

/-- The core after an instruction that issues in its cycle and does not transfer control. -/
def SpireCore.advance (c : SpireCore) : SpireCore :=
  let next := (c.pc + 4) % 2 ^ 32
  if c.slot = 1 then { c with cyc := c.cyc + 1, pc := next, slot := 2 }
  else if c.slot = 2 then { c with cyc := c.cyc + 1, pc := c.slotTgt.getD next, slot := 0, slotTgt := none }
  else { c with cyc := c.cyc + 1, pc := next }

/-- The core after a jump or branch with target `tgt` where it is taken: two delay slots follow. -/
def SpireCore.jump (c : SpireCore) (tgt : Option Nat) : SpireCore :=
  { c.advance with slot := 1, slotTgt := tgt.map (· % 2 ^ 32) }

/-! ### Exceptions (R282 to R285, Table 13.7) -/

/-- EXCEPTION_ENTRY and DOUBLE_FAULT: core `k` raises cause `cause` with the given CW_EPC and CW_EADDR in its present
cycle. -/
def Engine.except (e : Engine) (k cause epc eaddr : Nat) : Engine :=
  let c := e.core k
  let dslot := if c.slotTgt.isSome then c.slot else 0
  let c1 := (c.setCw 4 epc).setCw 6 eaddr
  let c2 := if dslot = 0 then c1 else c1.setCw 7 (c.slotTgt.getD 0)
  if c.inx then
    let e1 := (e.putCore k { c2.setCw 5 (8 + 16 * dslot) with st := 2, slot := 0, slotTgt := none }).raise Src.halt k
    if isService k then faultDetect 1 e1 else e1
  else
    e.putCore k { (c2.setCw 5 (cause + 16 * dslot)).setStat 4 true with
      pc := c2.cwv 8, slot := 0, slotTgt := none, cyc := max (c.cyc + 3) (c.lastDue + 1) }

/-! ### Words (R269, R270, R291, Tables 13.2, 13.3) -/

/-- A word of format A: major opcode, rd, ra, rb and function. -/
def wordA (op : Nat) (rd ra rb : BitVec 5) (func : Nat) : Nat :=
  op * 2 ^ 26 + rd.toNat * 2 ^ 21 + ra.toNat * 2 ^ 16 + rb.toNat * 2 ^ 11 + func

/-- A word of format K, S, B or Y: major opcode, two register fields, 16 bits. -/
def wordK (op : Nat) (a b : BitVec 5) (low : BitVec 16) : Nat := op * 2 ^ 26 + a.toNat * 2 ^ 21 + b.toNat * 2 ^ 16 + low.toNat

/-- A word of format J, ERET or FERET: major opcode and 26 bits. -/
def wordJ (op : Nat) (low : BitVec 26) : Nat := op * 2 ^ 26 + low.toNat

/-- The cause a word raises by its form alone: 0 none, 1 ILLEGAL, 6 CP. -/
def wordCause (w : Nat) : Nat :=
  let op := bits w 31 26
  let rd := bits w 25 21
  let ra := bits w 20 16
  let rb := bits w 15 11
  let func := bits w 10 0
  let ill : Bool → Nat := fun ok => if ok then 0 else 1
  let cp : Nat → Nat := fun last => if 1 ≤ func ∧ func ≤ last then 0 else 6
  if op = 0 then ill (decide (1 ≤ func ∧ func ≤ 0x10) && (func != 0x10 || rb == 0))
  else if op = 1 then ill (decide (func ≤ 6))
  else if op = 2 then ill (rb == 0 && (func == 1 || (func == 0 && rd == 0)))
  else if op = 4 ∨ op = 5 ∨ (8 ≤ op ∧ op ≤ 13) ∨ (0x18 ≤ op ∧ op ≤ 0x25 ) then 0
  else if 14 ≤ op ∧ op ≤ 16 then ill (bits w 15 5 == 0)
  else if op = 17 then ill (ra == 0)
  else if op = 0x30 then ill (bits w 14 12 == 0)
  else if op = 0x31 then ill (rb == 0 && func == 0)
  else if op = 0x32 ∨ op = 0x33 then ill (bits w 25 0 == 0)
  else if op = 0x34 then ill (rd == 0 && ra == 0)
  else if op = 0x38 then (if func = 1 ∧ rb ≠ 0 then 6 else cp 2)
  else if op = 0x39 then cp 2
  else if op = 0x3A ∨ op = 0x3B then cp 4
  else if 0x3C ≤ op ∧ op ≤ 0x3F then 0
  else 1

/-! ### Issue -/

/-- What an instruction does when it issues: the engine and the core after it, or an exception with its cause, CW_EPC and
CW_EADDR. -/
inductive Issued where
  | next (e : Engine) (c : SpireCore)
  | exc (cause epc eaddr : Nat)

/-- Core `k` issues an instruction whose word is `w` (R268, R270, R279, R298). `control`: not allowed in a delay slot. -/
def issue (k w : Nat) (control : Bool) (act : Engine → SpireCore → Issued) (e : Engine) : Engine :=
  if 34 ≤ k ∨ (e.core k).st ≠ 1 then e
  else
    let e1 := e.settle k
    let c := e1.core k
    let got := if isService k then (e1, false) else coreCheck e1 k (imemFld k (c.pc / 4))
    if (!isService k && decide (65536 ≤ c.pc)) || c.pc % 4 != 0 then e1.except k 2 c.pc c.pc
    else if got.2 then got.1.except k 7 c.pc c.pc
    else
      let at_pc := if isService k then w else e1.reg (imemFld k (c.pc / 4))
      if wordCause at_pc ≠ 0 then got.1.except k (wordCause at_pc) c.pc 0
      else if at_pc ≠ w then e
      else if control ∧ c.slot ≠ 0 then got.1.except k 1 c.pc 0
      else
        match act got.1 c with
        | .next e2 c2 => e2.putCore k c2
        | .exc cause epc eaddr => got.1.except k cause epc eaddr

/-- An instruction that only writes `rd` at distance `d`. -/
def issueTo (k w : Nat) (rd : BitVec 5) (d : Nat) (value : Engine → SpireCore → Nat) (e : Engine) : Engine :=
  issue k w false (fun e c => .next e (c.result rd.toNat (value e c) d).advance) e

/-! ### Operations of Table 13.3 on 32-bit values -/

/-- A register value as a 32-bit word. -/
def w32 (v : Nat) : BitVec 32 := BitVec.ofNat 32 v

/-- DIV and DIVU (R273). -/
def divWord (signed : Bool) (a b : BitVec 32) : BitVec 32 :=
  if b = 0 then BitVec.allOnes 32 else if signed then BitVec.sdiv a b else a / b

/-- REM and REMU (R273). -/
def remWord (signed : Bool) (a b : BitVec 32) : BitVec 32 :=
  if b = 0 then a else if signed then BitVec.srem a b else a % b

/-- Leading zero bits of a word. -/
def clzWord (a : BitVec 32) : Nat := ((List.range 32).takeWhile (fun i => !a.getLsbD (31 - i))).length

end Sys2Proof.Machine
end

