-- ==== Sys2Proof/Machine/Instructions.lean ====
section
/-! DEFINITION. The instructions of Table 13.3, one meaning each (R271 to R273, R277 to R284, R289, R290), and the arrival
of a result. -/

namespace Sys2Proof.Machine

/-- Operands ra and rb of format A as words. -/
def SpireCore.word (c : SpireCore) (r : BitVec 5) : BitVec 32 := w32 (c.get r.toNat)

/-- An instruction of format A that computes `f ra rb` at distance `d` (R271). -/
def opA (k op func d : Nat) (rd ra rb : BitVec 5) (f : BitVec 32 → BitVec 32 → BitVec 32) (e : Engine) : Engine :=
  issueTo k (wordA op rd ra rb func) rd d (fun _ c => (f (c.word ra) (c.word rb)).toNat) e

/-- An instruction of format K that computes `f ra imm16` at distance 1 (R271). -/
def opK (k op : Nat) (rd ra : BitVec 5) (imm : BitVec 16) (f : BitVec 32 → BitVec 16 → BitVec 32) (e : Engine) : Engine :=
  issueTo k (wordK op rd ra imm) rd 1 (fun _ c => (f (c.word ra) imm).toNat) e

/-- 1 or 0 as a word. -/
def flagWord (b : Bool) : BitVec 32 := if b then 1 else 0

/-- Address of a load or store: ra + sext(imm16). -/
def SpireCore.addr (c : SpireCore) (ra : BitVec 5) (imm : BitVec 16) : Nat := (c.word ra + imm.signExtend 32).toNat

/-- The exception an `n`-byte access at `a` raises (R267, R268): ALIGN, else BUS. -/
def accessCause (a n : Nat) : Nat := if a % n ≠ 0 then 3 else if 65536 ≤ a then 4 else 0

/-- A load of `n` bytes, extended by `ext` (R271, R277); an uncorrectable error in the word raises MEMERR (R298, Table 13.7). -/
def opLoad (k op n : Nat) (rd ra : BitVec 5) (imm : BitVec 16) (ext : Nat → BitVec 32) (e : Engine) : Engine :=
  issue k (wordK op rd ra imm) false (fun e c =>
    let a := c.addr ra imm
    if accessCause a n ≠ 0 then .exc (accessCause a n) c.pc a
    else
      let got := coreCheck e k (dmemFld k (a / 4))
      if got.2 then .exc 7 c.pc a else .next got.1 (c.result rd.toNat (ext (e.dmemGet k a n)).toNat 3).advance) e

/-- A store of `n` bytes (R271, R277). One of less than a word reads the rest of the word, and its check bits (R298; assumption 128). -/
def opStore (k op n : Nat) (rs ra : BitVec 5) (imm : BitVec 16) (e : Engine) : Engine :=
  issue k (wordK op rs ra imm) false (fun e c =>
    let a := c.addr ra imm
    if accessCause a n ≠ 0 then .exc (accessCause a n) c.pc a
    else
      let got := if n = 4 then (e, false) else coreCheck e k (dmemFld k (a / 4))
      if got.2 then .exc 7 c.pc a else .next (got.1.dmemStore k a n (c.get rs.toNat)) c.advance) e

/-- A branch (R271, R278). -/
def opBranch (k op : Nat) (ra rb : BitVec 5) (off : BitVec 16) (cond : BitVec 32 → BitVec 32 → Bool) (e : Engine) : Engine :=
  issue k (wordK op ra rb off) true (fun e c =>
    .next e (c.jump (if cond (c.word ra) (c.word rb) then some (w32 c.pc + 4 * off.signExtend 32).toNat else none))) e

/-- ADD: rd := ra + rb (R271). -/
def execAdd (k : Nat) (rd ra rb : BitVec 5) (s : State) : Host.Outcome State Fault Refusal :=
  .next { s with eng := opA k 0 1 1 rd ra rb (fun a b => a + b) s.eng }

/-- SUB: rd := ra − rb (R271). -/
def execSub (k : Nat) (rd ra rb : BitVec 5) (s : State) : Host.Outcome State Fault Refusal :=
  .next { s with eng := opA k 0 2 1 rd ra rb (fun a b => a - b) s.eng }

/-- AND: rd := ra and rb (R271). -/
def execAnd (k : Nat) (rd ra rb : BitVec 5) (s : State) : Host.Outcome State Fault Refusal :=
  .next { s with eng := opA k 0 3 1 rd ra rb (fun a b => a &&& b) s.eng }

/-- OR: rd := ra or rb (R271). -/
def execOr (k : Nat) (rd ra rb : BitVec 5) (s : State) : Host.Outcome State Fault Refusal :=
  .next { s with eng := opA k 0 4 1 rd ra rb (fun a b => a ||| b) s.eng }

/-- XOR: rd := ra xor rb (R271). -/
def execXor (k : Nat) (rd ra rb : BitVec 5) (s : State) : Host.Outcome State Fault Refusal :=
  .next { s with eng := opA k 0 5 1 rd ra rb (fun a b => a ^^^ b) s.eng }

/-- NOR: rd := not (ra or rb) (R271). -/
def execNor (k : Nat) (rd ra rb : BitVec 5) (s : State) : Host.Outcome State Fault Refusal :=
  .next { s with eng := opA k 0 6 1 rd ra rb (fun a b => ~~~(a ||| b)) s.eng }

/-- SLT: signed less-than (R271). -/
def execSlt (k : Nat) (rd ra rb : BitVec 5) (s : State) : Host.Outcome State Fault Refusal :=
  .next { s with eng := opA k 0 7 1 rd ra rb (fun a b => flagWord (a.slt b)) s.eng }

/-- SLTU: unsigned less-than (R271). -/
def execSltu (k : Nat) (rd ra rb : BitVec 5) (s : State) : Host.Outcome State Fault Refusal :=
  .next { s with eng := opA k 0 8 1 rd ra rb (fun a b => flagWord (a.ult b)) s.eng }

/-- SHL: rd := ra << rb[4:0] (R271). -/
def execShl (k : Nat) (rd ra rb : BitVec 5) (s : State) : Host.Outcome State Fault Refusal :=
  .next { s with eng := opA k 0 9 1 rd ra rb (fun a b => a <<< (b.toNat % 32)) s.eng }

/-- SHR: rd := ra >> rb[4:0], zeros shifted in (R271). -/
def execShr (k : Nat) (rd ra rb : BitVec 5) (s : State) : Host.Outcome State Fault Refusal :=
  .next { s with eng := opA k 0 10 1 rd ra rb (fun a b => a >>> (b.toNat % 32)) s.eng }

/-- SHRA: rd := ra >> rb[4:0], sign shifted in (R271). -/
def execShra (k : Nat) (rd ra rb : BitVec 5) (s : State) : Host.Outcome State Fault Refusal :=
  .next { s with eng := opA k 0 11 1 rd ra rb (fun a b => a.sshiftRight (b.toNat % 32)) s.eng }

/-- MIN: signed minimum (R271). -/
def execMin (k : Nat) (rd ra rb : BitVec 5) (s : State) : Host.Outcome State Fault Refusal :=
  .next { s with eng := opA k 0 12 1 rd ra rb (fun a b => if a.slt b then a else b) s.eng }

/-- MAX: signed maximum (R271). -/
def execMax (k : Nat) (rd ra rb : BitVec 5) (s : State) : Host.Outcome State Fault Refusal :=
  .next { s with eng := opA k 0 13 1 rd ra rb (fun a b => if a.slt b then b else a) s.eng }

/-- MINU: unsigned minimum (R271). -/
def execMinu (k : Nat) (rd ra rb : BitVec 5) (s : State) : Host.Outcome State Fault Refusal :=
  .next { s with eng := opA k 0 14 1 rd ra rb (fun a b => if a.ult b then a else b) s.eng }

/-- MAXU: unsigned maximum (R271). -/
def execMaxu (k : Nat) (rd ra rb : BitVec 5) (s : State) : Host.Outcome State Fault Refusal :=
  .next { s with eng := opA k 0 15 1 rd ra rb (fun a b => if a.ult b then b else a) s.eng }

/-- CLZ: leading zero bits of ra; rb = 0 (R271). -/
def execClz (k : Nat) (rd ra rb : BitVec 5) (s : State) : Host.Outcome State Fault Refusal :=
  .next { s with eng := opA k 0 16 1 rd ra rb (fun a _ => w32 (clzWord a)) s.eng }

/-- MUL: low word of the product (R271). -/
def execMul (k : Nat) (rd ra rb : BitVec 5) (s : State) : Host.Outcome State Fault Refusal :=
  .next { s with eng := opA k 1 0 3 rd ra rb (fun a b => a * b) s.eng }

/-- MULH: high word of the signed product (R271). -/
def execMulh (k : Nat) (rd ra rb : BitVec 5) (s : State) : Host.Outcome State Fault Refusal :=
  .next { s with eng := opA k 1 1 3 rd ra rb (fun a b => (a.signExtend 64 * b.signExtend 64).extractLsb' 32 32) s.eng }

/-- MULHU: high word of the unsigned product (R271). -/
def execMulhu (k : Nat) (rd ra rb : BitVec 5) (s : State) : Host.Outcome State Fault Refusal :=
  .next { s with eng := opA k 1 2 3 rd ra rb (fun a b => (a.zeroExtend 64 * b.zeroExtend 64).extractLsb' 32 32) s.eng }

/-- DIV: signed quotient; special cases under R273 (R271). -/
def execDiv (k : Nat) (rd ra rb : BitVec 5) (s : State) : Host.Outcome State Fault Refusal :=
  .next { s with eng := opA k 1 3 18 rd ra rb (divWord true) s.eng }

/-- DIVU: unsigned quotient; special cases under R273 (R271). -/
def execDivu (k : Nat) (rd ra rb : BitVec 5) (s : State) : Host.Outcome State Fault Refusal :=
  .next { s with eng := opA k 1 4 18 rd ra rb (divWord false) s.eng }

/-- REM: signed remainder; special cases under R273 (R271). -/
def execRem (k : Nat) (rd ra rb : BitVec 5) (s : State) : Host.Outcome State Fault Refusal :=
  .next { s with eng := opA k 1 5 18 rd ra rb (remWord true) s.eng }

/-- REMU: unsigned remainder; special cases under R273 (R271). -/
def execRemu (k : Nat) (rd ra rb : BitVec 5) (s : State) : Host.Outcome State Fault Refusal :=
  .next { s with eng := opA k 1 6 18 rd ra rb (remWord false) s.eng }

/-- JR: jump to ra after two delay slots; rd = 0, rb = 0 (R271, R278). -/
def execJr (k : Nat) (rd ra rb : BitVec 5) (s : State) : Host.Outcome State Fault Refusal :=
  .next { s with eng := issue k (wordA 2 rd ra rb 0) true (fun e c => .next e (c.jump (some (c.get ra.toNat)))) s.eng }

/-- JALR: rd := address + 12; jump to ra (R271, R278). -/
def execJalr (k : Nat) (rd ra rb : BitVec 5) (s : State) : Host.Outcome State Fault Refusal :=
  .next { s with eng := issue k (wordA 2 rd ra rb 1) true (fun e c => .next e ((c.result rd.toNat (c.pc + 12) 1).jump (some (c.get ra.toNat)))) s.eng }

/-- JMP: jump to address + 4 × sext(off26) (R271, R278). -/
def execJmp (k : Nat) (off : BitVec 26) (s : State) : Host.Outcome State Fault Refusal :=
  .next { s with eng := issue k (wordJ 4 off) true (fun e c => .next e (c.jump (some (w32 c.pc + 4 * off.signExtend 32).toNat))) s.eng }

/-- JAL: g31 := address + 12; jump as JMP (R266, R271, R278). -/
def execJal (k : Nat) (off : BitVec 26) (s : State) : Host.Outcome State Fault Refusal :=
  .next { s with eng := issue k (wordJ 5 off) true (fun e c =>
    .next e ((c.result 31 (c.pc + 12) 1).jump (some (w32 c.pc + 4 * off.signExtend 32).toNat))) s.eng }

/-- ADDK: rd := ra + sext(imm16) (R271). -/
def execAddk (k : Nat) (rd ra : BitVec 5) (imm : BitVec 16) (s : State) : Host.Outcome State Fault Refusal :=
  .next { s with eng := opK k 8 rd ra imm (fun a i => a + i.signExtend 32) s.eng }

/-- ANDK: rd := ra and zext(imm16) (R271). -/
def execAndk (k : Nat) (rd ra : BitVec 5) (imm : BitVec 16) (s : State) : Host.Outcome State Fault Refusal :=
  .next { s with eng := opK k 9 rd ra imm (fun a i => a &&& i.zeroExtend 32) s.eng }

/-- ORK: rd := ra or zext(imm16) (R271). -/
def execOrk (k : Nat) (rd ra : BitVec 5) (imm : BitVec 16) (s : State) : Host.Outcome State Fault Refusal :=
  .next { s with eng := opK k 10 rd ra imm (fun a i => a ||| i.zeroExtend 32) s.eng }

/-- XORK: rd := ra xor zext(imm16) (R271). -/
def execXork (k : Nat) (rd ra : BitVec 5) (imm : BitVec 16) (s : State) : Host.Outcome State Fault Refusal :=
  .next { s with eng := opK k 11 rd ra imm (fun a i => a ^^^ i.zeroExtend 32) s.eng }

/-- SLTK: signed less-than immediate (R271). -/
def execSltk (k : Nat) (rd ra : BitVec 5) (imm : BitVec 16) (s : State) : Host.Outcome State Fault Refusal :=
  .next { s with eng := opK k 12 rd ra imm (fun a i => flagWord (a.slt (i.signExtend 32))) s.eng }

/-- SLTUK: unsigned less-than, against sext(imm16) (R271). -/
def execSltuk (k : Nat) (rd ra : BitVec 5) (imm : BitVec 16) (s : State) : Host.Outcome State Fault Refusal :=
  .next { s with eng := opK k 13 rd ra imm (fun a i => flagWord (a.ult (i.signExtend 32))) s.eng }

/-- SHLK: shift left by imm16[4:0]; imm16[15:5] = 0 (R271). -/
def execShlk (k : Nat) (rd ra : BitVec 5) (imm : BitVec 16) (s : State) : Host.Outcome State Fault Refusal :=
  .next { s with eng := opK k 14 rd ra imm (fun a i => a <<< (i.toNat % 32)) s.eng }

/-- SHRK: logical shift right by imm16[4:0] (R271). -/
def execShrk (k : Nat) (rd ra : BitVec 5) (imm : BitVec 16) (s : State) : Host.Outcome State Fault Refusal :=
  .next { s with eng := opK k 15 rd ra imm (fun a i => a >>> (i.toNat % 32)) s.eng }

/-- SHRAK: arithmetic shift right by imm16[4:0] (R271). -/
def execShrak (k : Nat) (rd ra : BitVec 5) (imm : BitVec 16) (s : State) : Host.Outcome State Fault Refusal :=
  .next { s with eng := opK k 16 rd ra imm (fun a i => a.sshiftRight (i.toNat % 32)) s.eng }

/-- MOVH: rd := imm16 << 16; ra = 0 (R271). -/
def execMovh (k : Nat) (rd ra : BitVec 5) (imm : BitVec 16) (s : State) : Host.Outcome State Fault Refusal :=
  .next { s with eng := opK k 17 rd ra imm (fun _ i => i.zeroExtend 32 <<< 16) s.eng }

/-- LDB: load of 1 byte (R267, R268, R271, R277). -/
def execLdb (k : Nat) (rd ra : BitVec 5) (imm : BitVec 16) (s : State) : Host.Outcome State Fault Refusal :=
  .next { s with eng := opLoad k 24 1 rd ra imm (fun v => (BitVec.ofNat 8 v).signExtend 32) s.eng }

/-- LDBU: load of 1 byte (R267, R268, R271, R277). -/
def execLdbu (k : Nat) (rd ra : BitVec 5) (imm : BitVec 16) (s : State) : Host.Outcome State Fault Refusal :=
  .next { s with eng := opLoad k 25 1 rd ra imm (w32) s.eng }

/-- LDH: load of 2 bytes (R267, R268, R271, R277). -/
def execLdh (k : Nat) (rd ra : BitVec 5) (imm : BitVec 16) (s : State) : Host.Outcome State Fault Refusal :=
  .next { s with eng := opLoad k 26 2 rd ra imm (fun v => (BitVec.ofNat 16 v).signExtend 32) s.eng }

/-- LDHU: load of 2 bytes (R267, R268, R271, R277). -/
def execLdhu (k : Nat) (rd ra : BitVec 5) (imm : BitVec 16) (s : State) : Host.Outcome State Fault Refusal :=
  .next { s with eng := opLoad k 27 2 rd ra imm (w32) s.eng }

/-- LDW: load of 4 bytes (R267, R268, R271, R277). -/
def execLdw (k : Nat) (rd ra : BitVec 5) (imm : BitVec 16) (s : State) : Host.Outcome State Fault Refusal :=
  .next { s with eng := opLoad k 28 4 rd ra imm (w32) s.eng }

/-- STB: store of 1 byte (R267, R268, R271, R277). -/
def execStb (k : Nat) (rs ra : BitVec 5) (imm : BitVec 16) (s : State) : Host.Outcome State Fault Refusal :=
  .next { s with eng := opStore k 29 1 rs ra imm s.eng }

/-- STH: store of 2 bytes (R267, R268, R271, R277). -/
def execSth (k : Nat) (rs ra : BitVec 5) (imm : BitVec 16) (s : State) : Host.Outcome State Fault Refusal :=
  .next { s with eng := opStore k 30 2 rs ra imm s.eng }

/-- STW: store of 4 bytes (R267, R268, R271, R277). -/
def execStw (k : Nat) (rs ra : BitVec 5) (imm : BitVec 16) (s : State) : Host.Outcome State Fault Refusal :=
  .next { s with eng := opStore k 31 4 rs ra imm s.eng }

/-- BEQ: branch to address + 4 × sext(off16) (R271, R278). -/
def execBeq (k : Nat) (ra rb : BitVec 5) (off : BitVec 16) (s : State) : Host.Outcome State Fault Refusal :=
  .next { s with eng := opBranch k 32 ra rb off (fun a b => a == b) s.eng }

/-- BNE: branch to address + 4 × sext(off16) (R271, R278). -/
def execBne (k : Nat) (ra rb : BitVec 5) (off : BitVec 16) (s : State) : Host.Outcome State Fault Refusal :=
  .next { s with eng := opBranch k 33 ra rb off (fun a b => a != b) s.eng }

/-- BLT: branch to address + 4 × sext(off16) (R271, R278). -/
def execBlt (k : Nat) (ra rb : BitVec 5) (off : BitVec 16) (s : State) : Host.Outcome State Fault Refusal :=
  .next { s with eng := opBranch k 34 ra rb off (fun a b => a.slt b) s.eng }

/-- BGE: branch to address + 4 × sext(off16) (R271, R278). -/
def execBge (k : Nat) (ra rb : BitVec 5) (off : BitVec 16) (s : State) : Host.Outcome State Fault Refusal :=
  .next { s with eng := opBranch k 35 ra rb off (fun a b => !a.slt b) s.eng }

/-- BLTU: branch to address + 4 × sext(off16) (R271, R278). -/
def execBltu (k : Nat) (ra rb : BitVec 5) (off : BitVec 16) (s : State) : Host.Outcome State Fault Refusal :=
  .next { s with eng := opBranch k 36 ra rb off (fun a b => a.ult b) s.eng }

/-- BGEU: branch to address + 4 × sext(off16) (R271, R278). -/
def execBgeu (k : Nat) (ra rb : BitVec 5) (off : BitVec 16) (s : State) : Host.Outcome State Fault Refusal :=
  .next { s with eng := opBranch k 37 ra rb off (fun a b => !a.ult b) s.eng }

/-! ### SYS (R280, R281, R299) -/

/-- The core's frame budget: cycles left, counting the present one (CW_FLEFT). -/
def SpireCore.left (c : SpireCore) : Nat := c.endAt - c.cyc

/-- The value of control word `n`; none where Tables 13.6 and 14.2 list none. -/
def cwRead (e : Engine) (k : Nat) (c : SpireCore) (n : Nat) : Option Nat :=
  if n = 1 then some (if isService k then k + 256 else k)
  else if n = 2 then some (c.cyc % 2 ^ 32)
  else if n = 3 then some (c.cycHi.getD (c.cyc / 2 ^ 32 % 2 ^ 32))
  else if 0x40 ≤ n ∧ n ≤ 0x47 then some (c.regs.get (n - 0x40 + 32))
  else if 0x48 ≤ n ∧ n ≤ 0x4F then some (c.regs.get (n - 0x48 + 24))
  else if n = 0x101 then some (min c.left 65535)
  else if n = 0x102 then some (interleave e.active + 256 * mulOf (e.act Reg.TIM_CLK_M))
  else if n ≤ 15 ∨ (0x100 ≤ n ∧ n ≤ 0x105) then some (c.cwv n)
  else none

/-- What reading a control word does: CW_CYC_LO freezes CW_CYC_HI, reading that frees it, CW_IWMAX clears (R281). -/
def cwAfterRead (c : SpireCore) (n : Nat) : SpireCore :=
  if n = 2 then { c with cycHi := some (c.cycHi.getD (c.cyc / 2 ^ 32 % 2 ^ 32)) }
  else if n = 3 then { c with cycHi := none }
  else if n = 15 then c.setCw 15 0 else c

/-- The bits of a control word that a write sets (RW fields). -/
def cwMask (n : Nat) : Nat :=
  if n = 0 then 3 else if n = 5 then 0x3F else if n = 4 ∨ n = 7 ∨ n = 9 ∨ n = 12 then 0xFFFFFFFF
  else if n = 8 ∨ n = 10 ∨ n = 13 then 0xFFFFFFFC else if n = 0x104 then 0x1FFF else if n = 0x105 then 0x3FFF else 0

/-- Write a control word (R280). -/
def cwWrite (c : SpireCore) (n v : Nat) : SpireCore :=
  if 0x40 ≤ n ∧ n ≤ 0x47 then { c with regs := c.regs.set (n - 0x40 + 32) v }
  else if 0x48 ≤ n ∧ n ≤ 0x4F then { c with regs := c.regs.set (n - 0x48 + 24) v }
  else if n = 0x103 then (if tbit v 0 then c.setCw n (c.cwv n - bit (c.cwv n) 0) else c)
  else c.setCw n (c.cwv n - Nat.land (c.cwv n) (cwMask n) + Nat.land v (cwMask n))

/-- SYS: read a control word, or exchange it with ra (R280). -/
def execSys (k : Nat) (rd ra : BitVec 5) (low : BitVec 16) (s : State) : Host.Outcome State Fault Refusal :=
  .next { s with eng := issue k (wordK 0x30 rd ra low) false (fun e c =>
    let n := bits low.toNat 11 0
    match cwRead e k c n with
    | none => .exc 1 c.pc 0
    | some v =>
      let c1 := (cwAfterRead c n).result rd.toNat v 1
      .next e (if tbit low.toNat 15 then cwWrite c1 n (c.get ra.toNat) else c1).advance) s.eng }

/-- TRAP: cause 5 with CW_EPC after it (R284); rd = 0, ra = 0. -/
def execTrap (k : Nat) (rd ra : BitVec 5) (imm : BitVec 16) (s : State) : Host.Outcome State Fault Refusal :=
  .next { s with eng := issue k (wordK 0x34 rd ra imm) true (fun _ c => .exc 5 ((c.pc + 4) % 2 ^ 32) imm.toNat) s.eng }

/-- The core resumes at `pc` once no result is in flight (R283, R287, R289). -/
def SpireCore.resume (c : SpireCore) (pc : Nat) : SpireCore := { c with cyc := max (c.cyc + 1) c.lastDue, pc := pc }

/-- ERET: return from an exception, else from a normal interrupt (R283, R287). -/
def execEret (k : Nat) (low : BitVec 26) (s : State) : Host.Outcome State Fault Refusal :=
  .next { s with eng := issue k (wordJ 0x32 low) true (fun e c =>
    if c.inx then
      let d := bits (c.cwv 5) 5 4
      let c1 := (c.setStat 4 false).resume (c.cwv 4)
      .next e (if d = 1 ∨ d = 2 then { c1 with slot := d, slotTgt := some (c.cwv 7) } else c1)
    else if c.inn then .next e ((c.setStat 2 false).resume (c.cwv 9))
    else .exc 1 c.pc 0) s.eng }

/-- FERET: return from a fast interrupt (R289). -/
def execFeret (k : Nat) (low : BitVec 26) (s : State) : Host.Outcome State Fault Refusal :=
  .next { s with eng := issue k (wordJ 0x33 low) true (fun e c =>
    if c.inf && !c.inx then .next e ((c.setStat 3 false).resume (c.cwv 12)) else .exc 1 c.pc 0) s.eng }

/-- The frame in the list that is frame `f`, changed by `g`. -/
def mapFrame (e : Engine) (f : Frame) (g : Frame → Frame) : Engine :=
  { e with frames := e.frames.map (fun x => if x.n == f.n && x.born == f.born then g x else x) }

/-- The WFF issued now finishes the frame last taken, where its budget still runs (R296). -/
def finishFrame (e : Engine) (k : Nat) (c : SpireCore) : Engine × SpireCore :=
  match c.frame with
  | none => (e, c)
  | some f =>
    if c.done ∨ c.endAt ≤ c.cyc then (e, c)
    else
      let e1 := mapFrame e f (fun x => if x.dec.covr then x else { x with dec := { x.dec with res := c.resw, resOk := true } })
      let e2 := e1.setReg (Reg.SPR_CRES_RES k) c.resw
      let m := Reg.SPR_CMAXC_CYC k
      (e2.setReg m (satU 16 (max (e2.reg m) (c.cyc - c.tookAt))), { c with done := true })

/-- WFF: the core waits; rb = 0, func = 0 (R290, R296). -/
def execWff (k : Nat) (rd ra rb : BitVec 5) (func : BitVec 11) (s : State) : Host.Outcome State Fault Refusal :=
  .next { s with eng := issue k (wordA 0x31 rd ra rb func.toNat) true (fun e c =>
    let ec := if isService k then (e, c) else finishFrame e k c
    .next ec.1 { ec.2 with st := 3, waitRd := rd.toNat }) s.eng }

/-- RESULT_ARRIVE: what is due at a core arrives; a core that issues nothing comes to the cycle of the next arrival
(R274, R276, R282, R290). -/
def execResultArrive (k : Nat) (s : State) : Host.Outcome State Fault Refusal :=
  .next { s with eng := (
    let c := s.eng.core k
    if 34 ≤ k then s.eng
    else if c.st = 1 then s.eng.settle k
    else
      let due := ((c.flight ++ c.gather).map (·.due)).min?
      (s.eng.putCore k { c with cyc := max c.cyc (due.getD 0) }).settle k) }

end Sys2Proof.Machine
end

