-- ==== Sys2Proof/Machine/Coproc.lean ====
section
/-! DEFINITION. Frames, budgets and coprocessors of the decision cores, and the SPR and ULA functions (chapter 14). -/

namespace Sys2Proof.Machine

/-! ### Budgets (R293 to R297) -/

/-- BC from a frame's creation to crossing v, in which it becomes available (R294). -/
def availAge (t : Tab) : Nat := 1 + lDome t + lObj t

/-- The age of a frame: BC since its creation. -/
def Engine.age (e : Engine) (f : Frame) : Nat := e.tim.bc - f.born

/-- The core cycle at which a frame becomes available, M core cycles to the BC (R82, R294). -/
def availCycle (e : Engine) (f : Frame) : Nat :=
  let m := mulOf (f.cfg.fld Reg.TIM_CLK_M)
  e.spr.base + m * (f.born + availAge f.cfg) - m * e.tim.bc

/-- The first core cycle after a frame's budget of I × M cycles (R294). -/
def budgetEnd (e : Engine) (f : Frame) : Nat :=
  availCycle e f + interleave f.cfg * mulOf (f.cfg.fld Reg.TIM_CLK_M)

/-- The frames of core `k` that have become available, oldest first. -/
def framesOf (e : Engine) (k : Nat) : List Frame :=
  (e.frames.filter (fun f => !f.dead && decide (f.n % interleave f.cfg = k) && decide (availAge f.cfg ≤ e.age f))).reverse

/-- A budget overrun: the frame is not finished at its budget's end (R297). -/
def overrun (e : Engine) (f : Frame) : Engine :=
  if f.dec.resOk ∨ f.dec.covr ∨ f.dead then e
  else
    let k := f.n % interleave f.cfg
    let e1 := mapFrame e f (fun x => { x with dec := { x.dec with covr := true } })
    let e2 := e1.bump (if f.dec.taken then Reg.SPR_COVR_COUNT k else Reg.SPR_CSKIP_COUNT k)
    (maskBit e2 Reg.SPR_OVRSEEN_MASK k true).raise Src.ovr k

/-- The BC in which cycle `c` of the core clock lies. -/
def bcOfCycle (e : Engine) (c : Nat) : Nat :=
  let m := mulOf (e.act Reg.TIM_CLK_M)
  if e.spr.base ≤ c then e.tim.bc + (c - e.spr.base) / m else e.tim.bc - ceilDiv (e.spr.base - c) m

/-- 32-bit word `i` of the program tables (R303, LOAD_TABLE). -/
def progFld (i : Nat) : Fld := tabFld tProg i 32 0

/-- The bytes of a fetch reach data memory, whole words with valid check bits (R298, R303, R304). -/
def fetchWrite (k : Nat) (x : Fetch) (bs : List Byte) (e : Engine) : Engine :=
  (e.dmemBytes k x.dst bs).coreFresh (dmemFld k (x.dst / 4)).key (dmemFld k ((x.dst + x.len) / 4)).key

/-- Deliver the core's outstanding fetch with frame `f`, where it is due, from the table bank active for that frame (R303,
R360). -/
def deliverFetch (e : Engine) (k : Nat) (f : Frame) : Engine :=
  let c := e.core k
  match c.fetch with
  | none => e
  | some x =>
    if f.born + availAge f.cfg < x.bc + ceilDiv x.len 64 + 1 then e
    else
      let (e1, bs, _) := sramRead { e with active := f.cfg, mem := { e.mem with bank := f.cfg.fld bankFld } } (f.cfg.fld bankFld * 2 ^ 21 + x.src) x.len
      let e2 : Engine := { e1 with active := e.active, mem := { e1.mem with bank := e.mem.bank } }
      fetchWrite k x bs (e2.putCore k { c.setCw 0x103 1 with fetch := none })

/-- A decision core that waits in WFF takes the frame whose budget is running, unless it has taken it (R290, R295). -/
def takeFrame (e : Engine) (k : Nat) : Engine :=
  let c := e.core k
  let q := max c.cyc c.lastDue
  let newer : Frame → Bool := fun f => match c.frame with
    | none => true
    | some g => decide (g.born < f.born)
  match (framesOf e k).find? (fun f => newer f && decide (q < budgetEnd e f)) with
  | none => e
  | some f =>
    let p := max q (availCycle e f)
    let e1 := ((e.putCore k { c with cyc := p }).settle k)
    let e2 := mapFrame e1 f (fun x => { x with dec := { x.dec with taken := true } })
    let c2 := e2.core k
    let c3 := (c2.setCw 0x100 (f.n % 2 ^ 32)).result c.waitRd (f.n % 2 ^ 32) 1
    let e3 := e2.putCore k { c3.advance with
      st := 1, resw := 0, frame := some f, tookAt := p, endAt := budgetEnd e f, done := false }
    deliverFetch e3 k f

/-- BUDGET_OVERRUN: the frame of core `k` whose budget has ended (R297). -/
def execBudgetOverrun (k : Nat) (s : State) : Host.Outcome State Fault Refusal :=
  let ended : Frame → Bool := fun f =>
    decide (availAge f.cfg + interleave f.cfg ≤ s.eng.age f) && !f.dec.resOk && !f.dec.covr
  .next { s with eng := match (framesOf s.eng k).find? ended with
    | some f => overrun s.eng f
    | none => s.eng }

/-! ### Coprocessor instructions (R291, R300, Table 14.3) -/

/-- An instruction of CP`n`, not available on a service core unless it is CP2 (R292). `gives`: it returns a result; one
that does not must have rd = 0. -/
def opCp (k n cfunc : Nat) (gives : Bool) (rd ra rb : BitVec 5) (act : Engine → SpireCore → Issued) (e : Engine) : Engine :=
  issue k (wordA (0x38 + n) rd ra rb cfunc) false (fun e c =>
    if (isService k && n != 2) || (!gives && rd != 0) then .exc 6 c.pc 0 else act e c) e

/-- Objects kept by Turret `d` in the frame taken. -/
def SpireCore.objs (c : SpireCore) (d : Nat) : List Obj := match c.frame with
  | some f => f.pic.objs.getD d []
  | none => []

/-- OCNT (R300). -/
def execOcnt (k : Nat) (rd ra rb : BitVec 5) (s : State) : Host.Outcome State Fault Refusal :=
  .next { s with eng := opCp k 0 1 true rd ra rb (fun e c =>
    .next e (c.result rd.toNat (c.objs (c.get ra.toNat % 2)).length 2).advance) s.eng }

/-- OREC (R300). -/
def execOrec (k : Nat) (rd ra rb : BitVec 5) (s : State) : Host.Outcome State Fault Refusal :=
  .next { s with eng := opCp k 0 2 true rd ra rb (fun e c =>
    let a := c.get ra.toNat
    let d := bit a 8
    let v := match c.frame, (c.objs d)[a % 256]? with
      | some f, some o => (objWords f d (a % 256) o).getD (c.get rb.toNat % 4) 0
      | _, _ => 0
    .next e (c.result rd.toNat v 3).advance) s.eng }

/-- The frame of age `a` of the frame taken, where the stage buffers hold it in the BC of issue (R302). -/
def heldFrame (e : Engine) (c : SpireCore) (a : Nat) : Option Frame :=
  match c.frame with
  | none => none
  | some f =>
    let m := mulOf (f.cfg.fld Reg.TIM_CLK_M)
    let j := (c.cyc + interleave f.cfg * m - c.endAt) / m
    match e.frames.find? (fun x => decide (x.n = crossAdd (orbitLen f.cfg) f.n (-(a : Nat))) && decide (x.born + a = f.born) && !x.pic.outs.isEmpty) with
    | none => none
    | some x =>
      let later := e.frames.filter (fun y => !y.pic.outs.isEmpty && decide (x.born < y.born)
        && decide (y.born ≤ f.born + lObj f.cfg + j))
      if later.length ≤ 63 then some x else none

/-- Cell (column, row) of Dome `d` of a held frame: columns wrap, rows beyond ROWS read 0 (R17, R300). -/
def stageCell (x : Frame) (d col row : Nat) : Nat :=
  if row < mapRows x.cfg then x.cell d (col % mapCols x.cfg) row else 0

/-- CELL (R300, R302). -/
def execCell (k : Nat) (rd ra rb : BitVec 5) (s : State) : Host.Outcome State Fault Refusal :=
  .next { s with eng := opCp k 1 1 true rd ra rb (fun e c =>
    let a := c.get ra.toNat
    let v := if c.frame.isNone then 0 else match heldFrame e c (c.get rb.toNat % 64) with
      | some x => stageCell x (bit a 16) (a % 256) (bits a 14 8)
      | none => 2 ^ 31
    .next e (c.result rd.toNat v 4).advance) s.eng }

/-- GATHER (R300 to R302). -/
def execGather (k : Nat) (rd ra rb : BitVec 5) (s : State) : Host.Outcome State Fault Refusal :=
  .next { s with eng := opCp k 1 2 true rd ra rb (fun e c =>
    let a := c.get ra.toNat
    let b := c.get rb.toNat
    let win := c.cwv 0x105
    let w := win % 16 + 1
    let n := w * (bits win 7 4 + 1)
    if b % 2 ≠ 0 then .exc 3 c.pc b
    else if 65536 < b + 2 * n then .exc 4 c.pc b
    else
      let x := heldFrame e c (bits win 13 8)
      let v : Nat → Nat := fun j => match x with
        | some x => stageCell x (bit a 16) (a % 256 + j % w) (bits a 14 8 + j / w)
        | none => 0
      let g := (List.range n).foldl (fun g j => insertFlight ⟨b + 2 * j, v j, c.cyc + 4 + j / 4⟩ g) c.gather
      let r := if x.isNone && c.frame.isSome then 2 ^ 31 + n else n
      .next e { (c.result rd.toNat r (4 + ceilDiv n 4)).advance with gather := g }) s.eng }

/-- HADD (R300). -/
def execHadd (k : Nat) (rd ra rb : BitVec 5) (s : State) : Host.Outcome State Fault Refusal :=
  .next { s with eng := opCp k 2 1 false rd ra rb (fun e c =>
    let i := c.get ra.toNat % 256
    .next e { c.advance with bins := c.bins.set i ((c.bins.get i + c.get rb.toNat) % 2 ^ 32) }) s.eng }

/-- HGET (R300). -/
def execHget (k : Nat) (rd ra rb : BitVec 5) (s : State) : Host.Outcome State Fault Refusal :=
  .next { s with eng := opCp k 2 2 true rd ra rb (fun e c =>
    .next e (c.result rd.toNat (c.bins.get (c.get ra.toNat % 256)) 2).advance) s.eng }

/-- HCLR (R300). -/
def execHclr (k : Nat) (rd ra rb : BitVec 5) (s : State) : Host.Outcome State Fault Refusal :=
  .next { s with eng := opCp k 2 3 false rd ra rb (fun e c => .next e { c.advance with bins := [] }) s.eng }

/-- FETCH: the program tables on a decision core, shared SRAM on a service core (R303, R304). -/
def execFetch (k : Nat) (rd ra rb : BitVec 5) (s : State) : Host.Outcome State Fault Refusal :=
  .next { s with eng := opCp k 2 4 false rd ra rb (fun e c =>
    let a := c.get ra.toNat
    let b := c.get rb.toNat
    let len := c.cwv 0x104
    let top := if isService k then 96 * 2 ^ 20 else 2 ^ 21
    if a % 8 ≠ 0 then .exc 3 c.pc a
    else if b % 8 ≠ 0 ∨ len % 8 ≠ 0 then .exc 3 c.pc b
    else if top < a + len then .exc 4 c.pc a
    else if 65536 < b + len then .exc 4 c.pc b
    else if tbit (c.cwv 0x103) 1 then .exc 6 c.pc 0
    else .next e { (c.setCw 0x103 (c.cwv 0x103 + 2)).advance with fetch := some ⟨a, b, len, bcOfCycle e c.cyc⟩ }) s.eng }

/-- SERVICE_FETCH_DONE: the data of a service core's fetch have been written (R304). -/
def execServiceFetchDone (k : Nat) (s : State) : Host.Outcome State Fault Refusal :=
  let e := s.eng
  let c := e.core k
  match isService k && decide (k < 34), c.fetch with
  | true, some x =>
    let (e1, bs, _) := sramRead e x.src x.len
    let e2 := fetchWrite k x bs (e1.putCore k { c.setCw 0x103 1 with fetch := none })
    .next { s with eng := e2.raise Src.fetchDone k }
  | _, _ => .next s

/-- RESW (R300). -/
def execResw (k : Nat) (rd ra rb : BitVec 5) (s : State) : Host.Outcome State Fault Refusal :=
  .next { s with eng := opCp k 3 1 false rd ra rb (fun e c => .next e { c.advance with resw := c.get ra.toNat }) s.eng }

/-- RESOR (R300). -/
def execResor (k : Nat) (rd ra rb : BitVec 5) (s : State) : Host.Outcome State Fault Refusal :=
  .next { s with eng := opCp k 3 2 false rd ra rb (fun e c =>
    .next e { c.advance with resw := Nat.lor c.resw (c.get ra.toNat) }) s.eng }

/-- RESGET (R300). -/
def execResget (k : Nat) (rd ra rb : BitVec 5) (s : State) : Host.Outcome State Fault Refusal :=
  .next { s with eng := opCp k 3 3 true rd ra rb (fun e c => .next e (c.result rd.toNat c.resw 1).advance) s.eng }

/-- The quantity a QGET selector names (Table 14.4); none where the selector is reserved or out of range (R305). -/
def frameQuantity (c : SpireCore) (sel : Nat) : Option Nat :=
  let kind := bits sel 15 12
  let d := bit sel 8
  let i := sel % 32
  let q : (Frame → Nat) → Option Nat := fun g => some ((c.frame.map g).getD 0)
  if kind = 0 ∧ i ≤ 15 then q (fun f => classCount (f.pic.objs.getD d []) i)
  else if kind = 1 ∧ i = 0 then q (fun f => f.pic.dsum.getD d 0)
  else if kind = 2 ∧ i ≤ 15 then q (fun f => f.pic.rsum.getD (16 * d + i) 0)
  else if kind = 3 ∧ d = 0 then q (fun f => scode 32 (f.flt.getD i 0))
  else if kind = 4 ∧ d = 0 then q (fun f => scode 32 (f.byp.getD i 0))
  else if kind = 5 ∧ d = 0 ∧ i = 0 then q (fun f =>
    b2n (f.pic.ovf.getD 0 false) + 2 * b2n (f.pic.ovf.getD 1 false) + 4 * b2n (f.pic.rtr.getD 0 false)
      + 8 * b2n (f.pic.rtr.getD 1 false) + 16 * b2n f.stale + 32 * b2n f.invalid + 64 * b2n f.spr + 128 * b2n f.req
      + 256 * b2n f.fs)
  else none

/-- QGET (R305). -/
def execQget (k : Nat) (rd ra rb : BitVec 5) (s : State) : Host.Outcome State Fault Refusal :=
  .next { s with eng := opCp k 3 4 true rd ra rb (fun e c =>
    match frameQuantity c (c.get ra.toNat) with
    | some v => .next e (c.result rd.toNat v 2).advance
    | none => .exc 6 c.pc 0) s.eng }

/-- The core port CP`cp` is assigned to (R307). -/
def portCore (e : Engine) (cp : Nat) : Nat :=
  e.act ([Reg.ULA_PMAP_CP4, Reg.ULA_PMAP_CP5, Reg.ULA_PMAP_CP6, Reg.ULA_PMAP_CP7].getD (cp - 4) Reg.ULA_PMAP_CP4)

/-- LANTERN_PORT_REQUEST: a request to port CP4 to CP7, sampled at the declared distance (R291, R307). What the fabric's
lines hold then is the user's design's (assumption 6). -/
def execLanternPortRequest (k cp : Nat) (rd ra rb : BitVec 5) (cfunc : BitVec 11) (s : State) : Host.Outcome State Fault Refusal :=
  if cp < 4 ∨ 7 < cp then .next s
  else .next { s with eng := issue k (wordA (0x38 + cp) rd ra rb cfunc.toNat) false (fun e c =>
    let d := e.reg Reg.ULA_PDIST_DIST / 2 ^ (8 * (cp - 4)) % 256
    if isService k ∨ portCore e cp ≠ k ∨ d = 0 then .exc 6 c.pc 0
    else
      let v := Config.lantern 1 [e.free, c.cyc, cp, cfunc.toNat, c.get ra.toNat, c.get rb.toNat]
      .next { e with free := e.free + 1 } (c.result rd.toNat v d).advance) s.eng }

/-! ### STOP, images, START (R310) -/

/-- Request of core `k` in a staged SPR commit: bit 0 STOP, bit 1 START. -/
def runFld (k : Nat) : Fld := tabFld tSpr k 2 0

/-- Bit 0: the commit changes core `k`'s instruction memory; bit 1: its data memory. -/
def imageFld (k : Nat) : Fld := tabFld tSpr (64 + k) 2 0

/-- The active image of a core's memory replaces what the memory holds. -/
def swapImage (e : Engine) (t k : Nat) : Engine :=
  let lo := tabBase t + 16384 * k
  Engine.coreFresh { e with regs := Tab.replace (fun x => decide (lo ≤ x) && decide (x < lo + 16384)) e.regs e.active } lo (lo + 16384)

/-- STOP, images and START of core `k`, in this order (R310). A halted core does not start. -/
def runCore (r : SpireRun) (e : Engine) (k : Nat) : Engine :=
  let e1 := if tbit r.stops k then (e.putCore k { e.core k with st := 0, slot := 0, slotTgt := none }) else e
  let e2 := if tbit r.imem k then swapImage e1 tImem k else e1
  let e3 := if tbit r.dmem k then swapImage e2 tDmem k else e2
  let c := e3.core k
  if tbit r.starts k && c.st != 2 then
    let kept : Nat → Bool := fun n => n == 6 || n == 11 || n == 14 || n == 15 || decide (0x100 ≤ n)
    let c1 := { c with cw := c.cw.filter (fun kv => kept kv.1) }
    e3.putCore k { c1.setCw 0x103 (bit (c.cwv 0x103) 0) with
      st := 1, pc := 4 * e3.act (Reg.SPR_CENTRY_PC k), regs := [], bins := [], fetch := none, slot := 0, slotTgt := none,
      done := true, cyc := max c.cyc e3.spr.base }
  else e3

/-- A run acts on the decision cores. -/
def applyRun (e : Engine) (r : SpireRun) : Engine := (List.range 32).foldl (runCore r) e

/-- CORE_STOP_START: an SPR commit with crossing number `c` has become active; its runs act at crossing v of frame `c`, at
once while unlocked (R80, R310). -/
def sprCommitted (c : Nat) (e : Engine) : Engine :=
  let mask : (Nat → Bool) → Nat := fun p => ((List.range 32).filter p).foldl (fun a k => a + 2 ^ k) 0
  let req : Nat → Nat := fun k => e.act (runFld k)
  let img : Nat → Nat := fun k => e.act (imageFld k)
  let r : SpireRun := ⟨c, mask (fun k => tbit (req k) 0), mask (fun k => tbit (req k) 1), mask (fun k => tbit (img k) 0),
    mask (fun k => tbit (img k) 1)⟩
  if r.stops + r.starts + r.imem + r.dmem = 0 then e
  else
    let keep : Tab → Tab := fun t => t.filter (fun kv => !(decide (tabBase tSpr ≤ kv.1) && decide (kv.1 < tabBase (tSpr + 1))))
    let e1 : Engine := { e with active := keep e.active }
    if e.locked then { e1 with spr := { e1.spr with runs := e1.spr.runs ++ [r] } } else applyRun e1 r

/-- One BC of the core clock (R82, R294): cores that do not issue keep step, and the runs whose frame becomes available in
this BC act. -/
def sprTick (e : Engine) : Engine :=
  let b := e.spr.base + mulOf (e.act Reg.TIM_CLK_M)
  let e1 : Engine := { e with spr := { e.spr with base := b } }
  let e2 := (List.range 34).foldl (fun a k =>
    let c := a.core k
    if c.st = 0 ∨ c.st = 2 then (if c.cyc < b then (a.putCore k { c with cyc := b }).settle k else a) else a) e1
  let s := crossMod (orbitLen e.active)
  let due : SpireRun → Bool := fun r =>
    !e.locked || decide ((e.creating + s - (r.n + availAge e.active) % s) % s < 2 ^ 48)
  (e2.spr.runs.filter due).foldl applyRun { e2 with spr := { e2.spr with runs := e2.spr.runs.filter (fun r => !due r) } }

/-- Core `k` is stopped at the crossing a commit with staged set `t` names (R310, R311). -/
def stoppedAt (e : Engine) (t : Tab) (k : Nat) : Bool :=
  tbit (t.fld (runFld k)) 0 || match (e.spr.runs.filter (fun r => tbit r.stops k || tbit r.starts k)).getLast? with
    | some r => !tbit r.starts k
    | none => (e.core k).st == 0

/-- The checker of block 11 (R310, R311). -/
def sprCheck (e : Engine) (t : Tab) : Bool :=
  decide (1 ≤ interleave t ∧ interleave t ≤ 32)
    && (interleave t == interleave e.active || (List.range 32).all (stoppedAt e t))
    && (List.range 32).all (fun k => t.fld (imageFld k) == 0 || stoppedAt e t k)

/-! ### Functions (R312, Table 14.7) -/

/-- The target is a decision core (R292). -/
def coreTarget (p : Packet) : Bool × Nat := (decide (p.target ≤ 31), 7)

/-- The context check of the target core (R40). -/
def coreOwner (e : Engine) (p : Packet) : Option Nat := e.ownerBad p.ctx 3 p.target

/-- LOAD_PROGRAM. -/
def fnLoadProgram : Fn :=
  { op := 0x0B10, kind := .basic, owner := coreOwner, len := lenTimes 64 1024
    range := fun _ p => firstBad [coreTarget p, (decide (p.arg 0 ≤ 1), 8), (decide (p.arg 1 + p.length ≤ 65536), 9)]
    align := fun p => firstBad [(p.arg 1 % 64 == 0, 9)] }

/-- The fields LOAD_PROGRAM writes. -/
def wLoadProgram (e : Engine) (p : Packet) : List (Fld × Nat) :=
  let f : Nat → Fld := if p.arg 0 = 0 then imemFld p.target else dmemFld p.target
  (imageFld p.target, Nat.lor (e.stg (imageFld p.target)) (p.arg 0 + 1))
    :: (indexed (p.words 0 p.nwords)).map (fun iw => (f (p.arg 1 / 4 + iw.1), iw.2))

/-- SET_INTERLEAVE. -/
def fnSetInterleave : Fn :=
  { op := 0x0B11, kind := .basic, range := fun _ p => firstBad [(p.target == 0, 7), (decide (1 ≤ p.arg 0 ∧ p.arg 0 ≤ 32), 8)] }

/-- The field SET_INTERLEAVE writes. -/
def wSetInterleave (_ : Engine) (p : Packet) : List (Fld × Nat) := [(Reg.SPR_CTL_I, p.arg 0)]

/-- The cores a RUN names. -/
def runCores (p : Packet) : List Nat := (List.range 32).filter (tbit (p.arg 0))

/-- RUN. -/
def fnRun : Fn :=
  { op := 0x0B12, kind := .basic, owner := fun e p => ownersBad e p.ctx 3 (runCores p)
    range := fun _ p => firstBad [(p.target == 0, 7), (decide (p.arg 1 ≤ 1), 9)] }

/-- The requests RUN stages. -/
def wRun (e : Engine) (p : Packet) : List (Fld × Nat) :=
  (runCores p).map (fun k => (runFld k, Nat.lor (e.stg (runFld k)) (p.arg 1 + 1)))

/-- CORE_ENTRY. -/
def fnCoreEntry : Fn :=
  { op := 0x0B13, kind := .basic, owner := coreOwner, range := fun _ p => firstBad [coreTarget p, (decide (p.arg 0 < 65536), 8)]
    align := fun p => firstBad [(p.arg 0 % 4 == 0, 8)] }

/-- The field CORE_ENTRY writes. -/
def wCoreEntry (_ : Engine) (p : Packet) : List (Fld × Nat) := [(Reg.SPR_CENTRY_PC p.target, p.arg 0 / 4)]

/-- LOAD_TABLE. -/
def fnLoadTable : Fn :=
  { op := 0x0B14, kind := .basic, len := lenTimes 64 1024
    range := fun _ p => firstBad [(p.target == 0, 7), (decide (p.arg 0 + p.length ≤ 2 ^ 21), 8)]
    align := fun p => firstBad [(p.arg 0 % 64 == 0, 8)] }

/-- The words LOAD_TABLE writes. -/
def wLoadTable (_ : Engine) (p : Packet) : List (Fld × Nat) :=
  (indexed (p.words 0 p.nwords)).map (fun iw => (progFld (p.arg 0 / 4 + iw.1), iw.2))

/-- RAW_READMEM: its target instance is 0, as Table 14.7 has it for every function but LOAD_PROGRAM and CORE_ENTRY, which makes it core 0's
memory that it reads (assumption 25). -/
def fnRawReadmem : Fn :=
  { op := 0x0B80, kind := .read, owner := coreOwner
    range := fun _ p => firstBad [(p.target == 0, 7), (decide (p.arg 0 ≤ 1), 8), (decide (p.arg 1 + p.arg 2 ≤ 65536), 10)]
    align := fun p => firstBad [(p.arg 3 % 8 == 0, 11)] }

/-- The bytes of a core's memory. -/
def coreBytes (e : Engine) (k mem off n : Nat) : List Byte :=
  let f : Nat → Fld := if mem = 0 then imemFld k else dmemFld k
  (List.range n).map (fun i => BitVec.ofNat 8 (e.reg (f ((off + i) / 4)) / 2 ^ (8 * ((off + i) % 4))))

/-- RAW_READMEM copies a core's memory to the host buffer. -/
def actRawReadmem (e : Engine) (p : Packet) : Engine := e.post (p.arg64 3) (coreBytes e p.target (p.arg 0) (p.arg 1) (p.arg 2))

/-- A port's core: 0 to 31, or 63 for none. -/
def portOk (v : Nat) : Bool := decide (v ≤ 31) || v == 63

/-- SET_PORTMAP. -/
def fnSetPortmap : Fn :=
  { op := 0x0C11, kind := .basic
    range := fun _ p => firstBad ((p.target == 0, 7) :: (List.range 4).map (fun i => (portOk (p.arg i), 8 + i))) }

/-- The fields SET_PORTMAP writes. -/
def wSetPortmap (_ : Engine) (p : Packet) : List (Fld × Nat) :=
  [(Reg.ULA_PMAP_CP4, p.arg 0), (Reg.ULA_PMAP_CP5, p.arg 1), (Reg.ULA_PMAP_CP6, p.arg 2), (Reg.ULA_PMAP_CP7, p.arg 3)]

/-- LOAD_PROGRAM (R312). -/
def execLoadProgram (p : Packet) (s : State) : Host.Outcome State Fault Refusal :=
  .next { s with eng := runConfig fnLoadProgram noExtra wLoadProgram 0 p s.eng }

/-- SET_INTERLEAVE (R311). -/
def execSetInterleave (p : Packet) (s : State) : Host.Outcome State Fault Refusal :=
  .next { s with eng := runConfig fnSetInterleave noExtra wSetInterleave 0 p s.eng }

/-- RUN (R310). -/
def execRun (p : Packet) (s : State) : Host.Outcome State Fault Refusal :=
  .next { s with eng := runConfig fnRun noExtra wRun 0 p s.eng }

/-- CORE_ENTRY (R312). -/
def execCoreEntry (p : Packet) (s : State) : Host.Outcome State Fault Refusal :=
  .next { s with eng := runConfig fnCoreEntry noExtra wCoreEntry 0 p s.eng }

/-- LOAD_TABLE (R303). -/
def execLoadTable (p : Packet) (s : State) : Host.Outcome State Fault Refusal :=
  .next { s with eng := runConfig fnLoadTable noExtra wLoadTable 0 p s.eng }

/-- RAW_READMEM (R312). -/
def execRawReadmem (p : Packet) (s : State) : Host.Outcome State Fault Refusal :=
  .next { s with eng := runAction fnRawReadmem noExtra actRawReadmem p s.eng }

/-- SET_PORTMAP (R312). -/
def execSetPortmap (p : Packet) (s : State) : Host.Outcome State Fault Refusal :=
  .next { s with eng := runConfig fnSetPortmap noExtra wSetPortmap 0 p s.eng }

end Sys2Proof.Machine
end

