-- ==== Sys2Proof/Machine/Finial.lean ====
section
/-! DEFINITION. The Finial and the outputs (chapter 10): terms, conditions, lines, dead time, the decision word and log,
NIM inputs and outputs, decision lanes, the MNU and OUT checkers, and their functions. -/

namespace Sys2Proof.Machine

/-! ### NIM inputs (R224) -/

/-- Input `i`'s captured state from the eight samples of a crossing. -/
def captureInput (t : Tab) (samples : List Nat) (i : Nat) : Bool :=
  let s := fun sc => xor (tbit (samples.getD sc 0) i) (t.fld (Reg.MNU_ICFG_INV i) == 1)
  if t.fld (Reg.MNU_ICFG_MODE i) = 1 then s (t.fld (Reg.MNU_ICFG_PH i)) else (List.range 8).any s

/-- The captured states of a crossing from its samples, a bit for each input. -/
def captureWord (t : Tab) (samples : List Nat) : Nat :=
  ((indexed ((List.range 16).map (captureInput t samples))).map (fun ib => 2 ^ ib.1 * b2n ib.2)).foldl (· + ·) 0

/-- The captured states of the crossing of BC `b` are kept for the frames that read them. -/
def keepCapture (b : Nat) (samples : List Nat) (e : Engine) : Engine :=
  { e with fin := { e.fin with nim := ((b, captureWord e.active samples) :: e.fin.nim).take 128 } }

/-- NIM_INPUT_CAPTURE of the counted crossing of BC `b` (R224). -/
def nimCapture (b : Nat) (samples : List Nat) (e : Engine) : Engine :=
  let t := e.active
  let word := captureWord t samples
  let prev := match e.fin.nim with
    | (_, w) :: _ => w
    | [] => 0
  (List.range 16).foldl (fun a i =>
    if tbit word i then
      let a1 := a.bump (Reg.MNU_ICNT_COUNT i)
      if t.fld (Reg.MNU_ICFG_BUSY i) = 1 ∧ !tbit prev i then a1.raise Src.busy i else a1
    else a) (keepCapture b samples e)

/-- The captured state of input `i` that a frame which enters the Finial now, in crossing u, reads: of crossing u − DELAY (R224). -/
def inputFor (e : Engine) (f : Frame) (i : Nat) : Bool :=
  match e.fin.nim.find? (fun x => x.1 + f.cfg.fld (Reg.MNU_ICFG_DELAY i) == e.tim.bc) with
  | some x => tbit x.2 i
  | none => false

/-! ### What the Lantern sees (R306) -/

/-- BC from creation to the frame's entry into the Finial. -/
def menuAge (t : Tab) : Nat := toFinial t - lRx t - lPin t

/-- The Lantern's inputs of a BC with these NIM samples (Table 14.5). -/
def lanternIn (samples : List Nat) (e : Engine) : Engine :=
  let enters := e.frames.find? (fun f => !f.dead && e.tim.bc == f.born + menuAge f.cfg)
  let inv := ((List.range 16).map (fun i => 2 ^ i * e.act (Reg.MNU_ICFG_INV i))).foldl (· + ·) 0
  let lan : LanIn := { fslot := (enters.map (fun f => f.n % orbitLen f.cfg)).getD 0, fvalid := enters.isSome,
                       nimin := (List.range 8).map (fun sc => Nat.xor (samples.getD sc 0 % 65536) inv) }
  { e with spr := { e.spr with lan := lan } }

/-- MENU bit `i` at sweep cycle 0 of this BC: 0 while no bitstream is loaded, while one is being configured, and where the design does not
drive it (R306, R308, R309); else what the design gives (assumption 6). -/
def menuBit (e : Engine) (i : Nat) : Bool :=
  let l := e.spr.lan
  e.reg Reg.ULA_STAT_LOADED == 1 && e.reg Reg.ULA_STAT_CONFIG == 0 && tbit (e.reg (Reg.ULA_MUSED_MASK (i / 32))) (i % 32)
    && tbit (Config.lantern 0 [e.tim.bc, i, 0, l.fslot, b2n l.fvalid, l.nimin.getD 0 0]) 0

/-! ### Terms and conditions (R218 to R220) -/

/-- The value of term `j` of condition `i`, none where it is absent (R218). -/
def termValue (e : Engine) (f : Frame) (inputs i j : Nat) : Option Bool :=
  let t := f.cfg
  let w := t.fld (condFld i (2 * j))
  let thr := t.fld (condFld i (2 * j + 1))
  let idx := bits w 25 16
  let d := bit w 8
  let neg := tbit w 4
  let out := fun b => some (xor b neg)
  match w % 16 with
  | 1 => out (decide (thr ≤ classCount (f.pic.objs.getD d []) idx))
  | 2 => out (decide (thr ≤ f.pic.dsum.getD d 0))
  | 3 => out (decide (thr ≤ f.pic.rsum.getD (16 * d + idx) 0))
  | 4 => out (decide (sval 32 thr ≤ (if tbit w 5 then f.byp else f.flt).getD idx 0))
  | 5 => out (tbit inputs idx)
  | 6 => if f.dec.core ≠ idx / 32 ∨ f.dec.covr then some false else out (tbit f.dec.res (idx % 32))
  | 7 => out (menuBit e idx)
  | 8 => out (match idx with
    | 0 => f.pic.ovf.getD d false
    | 1 => f.pic.rtr.getD d false
    | 2 => f.stale
    | 3 => f.spr
    | 4 => f.req
    | 5 => f.fs
    | 6 => f.abort
    | _ => f.beam)
  | _ => none

/-- The combination of condition `i` (R220). -/
def combine (e : Engine) (f : Frame) (inputs i : Nat) : Bool :=
  let ts := (List.range 4).filterMap (termValue e f inputs i)
  if tbit (f.cfg.fld (condFld i 8)) 0 then ts.any (·) else !ts.isEmpty && ts.all (·)

/-- LINES of condition `i`. -/
def condLines (t : Tab) (i : Nat) : Nat := t.fld (condFld i 12) + 2 ^ 32 * t.fld (condFld i 13)

/-! ### Dead time (R223) -/

/-- space (R223). -/
def spaceHeld (t : Tab) (accs : List Nat) (n : Nat) : Bool :=
  accs.any (fun a => decide (a < n) && decide (n ≤ a + t.fld Reg.MNU_DEAD_SPACE))

/-- window (R223). -/
def windowHeld (t : Tab) (accs : List Nat) (n : Nat) : Bool :=
  let k := t.fld Reg.MNU_DEAD_WINK
  k != 0 && decide (k ≤ (accs.filter (fun a => decide (n + 1 ≤ a + t.fld Reg.MNU_DEAD_WINW) && decide (a < n))).length)

/-- The conditions whose PS or PSOFF differ between two sets. -/
def psChanged (u t : Tab) : List Nat :=
  ((condList u ++ condList t).dedup).filter (fun i => u.fld (condFld i 9) != t.fld (condFld i 9) || u.fld (condFld i 10) != t.fld (condFld i 10))

/-- A prescale counter is set to its PSOFF. -/
def psSet (e : Engine) (x : Nat × Nat × Nat) : Engine := e.setReg (Reg.MNU_CPSC_C x.2.1) x.2.2

/-- The prescale counters whose setting waits for the frames before a commit: set once none of them has still to be evaluated (R222). -/
def psFlush (e : Engine) : Engine :=
  if e.fin.psets.isEmpty || e.frames.any (fun f => !f.dead && !f.dec.decided && decide (e.tim.bc ≤ f.born + 128)) then e
  else e.fin.psets.foldl psSet { e with fin := { e.fin with psets := [] } }

/-- A changed active set has changed PS or PSOFF of some conditions: their counters take PSOFF for the frame of the commit crossing, which
is created in this BC or later (R222). -/
def psCommit (e : Engine) : Engine :=
  let now := (psChanged e.fin.prev e.active).map (fun i => (e.tim.bc, i, e.act (condFld i 10)))
  psFlush { e with fin := { e.fin with prev := Tab.ofBlocks [9] e.active, psets := e.fin.psets ++ now } }

/-- The prescaler of condition `i` on a raw condition (R222): pass_i and the new counter. -/
def prescale (ps c : Nat) : Bool × Nat := if ps = 0 then (false, c) else if c = ps - 1 then (true, 0) else (false, c + 1)

/-- FINIAL_EVALUATE (R221 to R224). -/
def finialEvaluate (e : Engine) (f : Frame) : Engine × Frame :=
  let t := f.cfg
  let bitsOf := fun (g : Nat → Bool) n => ((List.range n).map (fun i => 2 ^ i * b2n (g i))).foldl (· + ·) 0
  let inputs := bitsOf (inputFor e f) 16
  let due : Nat × Nat × Nat → Bool := fun x => decide (x.1 ≤ f.born)
  let e0 := (e.fin.psets.filter due).foldl psSet { e with fin := { e.fin with psets := e.fin.psets.filter (fun x => !due x) } }
  let busy := (List.range 16).any (fun i => t.fld (Reg.MNU_ICFG_BUSY i) == 1 && tbit inputs i)
  let space := spaceHeld t e.fin.accs f.n
  let window := windowHeld t e.fin.accs f.n
  let live := !f.invalid && !busy && !space && !window
  let advance := t.fld Reg.MNU_GCTL_PSMODE == 0 || live
  let (e1, pass) := (condList t).foldl (fun (a : Engine × List Nat) i =>
    if tbit (t.fld (condFld i 8)) 31 && combine e f inputs i then
      let a1 := a.1.bump (Reg.MNU_CRAW_COUNT i)
      if advance then
        let r := prescale (t.fld (condFld i 9)) (a1.reg (Reg.MNU_CPSC_C i))
        let a2 := a1.setReg (Reg.MNU_CPSC_C i) r.2
        if r.1 then (a2.bump (Reg.MNU_CPASS_COUNT i), a.2 ++ [i]) else (a2, a.2)
      else (a1, a.2)
    else a) (e0, [])
  let lraw := bitsOf (fun j => pass.any (fun i => tbit (condLines t i) j)) 64
  let on := fun j => tbit lraw j && t.fld (Reg.MNU_LCTL_EN j) == 1
  let veto := fun j => Nat.land (t.fld (Reg.MNU_LCTL_VETO j)) inputs != 0
  let cand := bitsOf (fun j => on j && !veto j) 64
  let vetoed := (List.range 64).any (fun j => on j && veto j)
  let acc := if live then cand else 0
  let e2 := (List.range 64).foldl (fun a j =>
    let a1 := if tbit lraw j then a.bump (Reg.MNU_LRAW_COUNT j) else a
    if tbit acc j then a1.bump (Reg.MNU_LACC_COUNT j) else a1) e1
  let e3 := if live then e2.bump Reg.MNU_LIVECNT_COUNT else e2
  let e4 := if acc ≠ 0 then
      let a := e3.bump Reg.MNU_ACCCNT_COUNT
      { a with fin := { a.fin with accs := (f.n :: a.fin.accs).take 4096 } }
    else if cand = 0 then e3
    else if f.invalid then (e3.bump Reg.MNU_INVSUP_COUNT).raise Src.invSup (f.n % orbitLen t)
    else if busy then e3.bump Reg.MNU_BUSYCNT_COUNT
    else if space then e3.bump Reg.MNU_SPACECNT_COUNT
    else e3.bump Reg.MNU_WINCNT_COUNT
  let supp := b2n busy + 2 * b2n space + 4 * b2n window + 8 * b2n (f.invalid && cand != 0) + 16 * b2n vetoed
  (e4, { f with dec := { f.dec with acc := acc, lraw := lraw, pass := pass, supp := supp, inputs := inputs
                                    deadT := busy || space || window, decided := true } })

/-- CAPTURE acceptance (R174): an accepted crossing whose lines and state select it waits for the copier. -/
def captureAccept (e : Engine) (f : Frame) : Engine :=
  let t := f.cfg
  let mask := t.fld Reg.OUT_DCAPMASK_LO_MASK + 2 ^ 32 * t.fld Reg.OUT_DCAPMASK_HI_MASK
  let st := f.st == stArmed || (f.st == stSafe && t.fld Reg.OUT_DCAP_SAFE == 1) || (f.st == stHold && t.fld Reg.OUT_DCAP_HOLD == 1)
  if Nat.land f.dec.acc mask ≠ 0 ∧ st then { e with out := { e.out with caps := e.out.caps ++ [⟨f.n, f.dec.acc, false⟩] } } else e

/-- A release point missed after the Finial has evaluated the frame: every accept of its crossing is suppressed (R23), in what is still to
come of it: its outputs, its log entry, its capture, and the dead time it would start (R223; assumption 126). -/
def suppressAccepts (f : Frame) (e : Engine) : Engine :=
  if f.dec.acc = 0 then e
  else
    let e1 := (e.bump Reg.MNU_INVSUP_COUNT).raise Src.invSup (f.n % orbitLen f.cfg)
    { e1 with
      frames := e1.frames.map (fun g => if g.n = f.n then { g with dec := { g.dec with acc := 0, supp := Nat.lor g.dec.supp 8 } } else g)
      fin := { e1.fin with accs := e1.fin.accs.filter (· != f.n) }
      out := { e1.out with caps := e1.out.caps.filter (fun c => c.n != f.n) } }

/-! ### The decision log (R227, R228, R365) -/

/-- The 64 bytes of a log entry (Table 10.3). -/
def logEntry (f : Frame) : List Byte :=
  let flags := b2n (f.dec.acc != 0) + 2 * b2n f.dec.driven + 4 * f.st + 32 * b2n f.stale + 64 * b2n f.invalid + 128 * b2n f.spr
    + 2 ^ 8 * b2n f.req + 2 ^ 9 * b2n f.fs + 2 ^ 10 * b2n f.abort + 2 ^ 11 * b2n (f.pic.ovf.getD 0 false) + 2 ^ 12 * b2n (f.pic.ovf.getD 1 false)
    + 2 ^ 13 * b2n (f.pic.rtr.getD 0 false) + 2 ^ 14 * b2n (f.pic.rtr.getD 1 false) + 2 ^ 15 * f.dec.supp + 2 ^ 20 * b2n f.dec.covr
  leBytes 8 (stampOf (orbitLen f.cfg) f.n) ++ leBytes 8 f.dec.acc ++ leBytes 8 f.dec.lraw ++ leBytes 4 flags
    ++ leBytes 2 (f.pic.objs.getD 0 []).length ++ leBytes 2 (f.pic.objs.getD 1 []).length
    ++ leBytes 4 (f.pic.dsum.getD 0 0) ++ leBytes 4 (f.pic.dsum.getD 1 0) ++ leBytes 4 f.keepsum
    ++ leBytes 2 (f.dec.pass.getD 0 0xFFFF) ++ leBytes 2 f.dec.pass.length ++ leBytes 2 f.dec.inputs ++ leBytes 6 0
    ++ leBytes 4 f.dec.accnum ++ leBytes 1 f.dec.core ++ leBytes 3 0

/-- E_L, the entries of the decision log (R365). -/
def logEntries (t : Tab) : Nat := t.fld Reg.MEM_CAPCFG_LOGSZ * 2 ^ 24

/-- LOG_STREAM_RECORD: a log entry for the rings that select it; a full batch becomes a record (R228). -/
def logStreams (e : Engine) (f : Frame) : Engine :=
  (setups f.cfg tLogs).foldl (fun a id =>
    let w := fun j => f.cfg.fld (setupFld tLogs id j)
    if onPhase f.n (w 2) (w 1) && (w 3 == 0 || f.dec.acc != 0) then
      let (st, old) := match a.fin.batches.find? (fun b => b.1 == id) with
        | some b => b.2
        | none => (stampOf (orbitLen f.cfg) f.n, [])
      let bs := old ++ logEntry f
      let rest := a.fin.batches.filter (fun b => b.1 != id)
      if 64 * w 4 ≤ bs.length then
        (Engine.strWrite { a with fin := { a.fin with batches := rest } } id 4 st 0 bs).1
      else { a with fin := { a.fin with batches := rest ++ [(id, st, bs)] } }
    else a) e

/-- LOG_ENTRY_WRITE: the entry is written where the log runs at this moment (R227, R365, Table 1.5). -/
def logWrite (e : Engine) (f : Frame) : Engine :=
  if e.running then
    let el := logEntries e.active
    let e1 := if el = 0 then e else e.storeBytes (2 ^ 37 + f.n % el * 64) (logEntry f)
    logStreams e1 f
  else e

/-! ### NIM outputs (R229, R231) -/

/-- The selected signal of output `n` for a frame (R229). -/
def nimSignal (f : Frame) (n : Nat) : Bool :=
  let idx := f.cfg.fld (Reg.OUT_NOCFG_IDX n)
  match f.cfg.fld (Reg.OUT_NOCFG_SRC n) with
  | 0 => f.cfg.fld (Reg.OUT_NOCFG_CV n) == 1
  | 1 => tbit f.dec.acc idx
  | 2 => f.dec.acc != 0
  | 3 => f.dec.pass.contains idx
  | 4 => f.n % orbitLen f.cfg == 0
  | 5 => f.dec.deadT
  | _ => false

/-- The eight sweep-cycle levels of output `n` (R229). -/
def nimLevels (f : Frame) (n : Nat) : Nat :=
  let w := f.cfg.fld (Reg.OUT_NOCFG_WIDTH n)
  let v := if nimSignal f n then (if w = 0 then 255 else 2 ^ w - 1) else 0
  if f.cfg.fld (Reg.OUT_NOCFG_INV n) = 1 then 255 - v else v

/-- The safe levels (R231). -/
def safeLevels (t : Tab) : List Nat := (List.range 16).map (fun n => 255 * t.fld (Reg.OUT_NOCFG_SAFE n))

/-- NIM_OUTPUT_DRIVE of the frame whose output crossing begins, and its log entry (R227, R231). `drives`: OUT drives the
frame (R29, R422). -/
def nimDrive (drives : Bool) (e : Engine) (f : Frame) : Engine × Frame :=
  let hit := drives && f.dec.acc != 0
  let e1 := if hit then e.bump Reg.MNU_ACCNUM_NUM else e
  let f' := { f with dec := { f.dec with driven := drives, accnum := e1.reg Reg.MNU_ACCNUM_NUM } }
  let lv := if drives then (List.range 16).map (nimLevels f) else safeLevels e.active
  let e2 := if drives then (List.range 16).foldl (fun a n => if nimSignal f n then a.bump (Reg.OUT_NOCNT_COUNT n) else a) e1 else e1
  (logWrite { e2 with out := { e2.out with nim := lv } } f', f')

/-! ### Decision lanes (R232, R233) -/

/-- Bits 0 to 129 of a decision-lane frame as a number, the first bit most significant; the pad to F follows them (Table 10.5). -/
def laneWord (tag orb flags acc accnum : Nat) : Nat :=
  let body := ((((0b0110 * 2 ^ 14 + tag % 2 ^ 14) * 2 ^ 8 + orb % 256) * 2 ^ 8 + flags) * 2 ^ 64 + acc) * 2 ^ 16 + accnum % 2 ^ 16
  body * 2 ^ 16 + crcBits 16 0x8BB7 0xFFFF (msbBits 114 body)

/-- F of the decision lanes: ⌊R / f⌋ with R = 25.000 Gb/s and f = TIM_FNOM.KHZ (R98, R232). -/
def laneLen (t : Tab) : Nat := 25000000 / t.fld Reg.TIM_FNOM_KHZ

/-- The N25 scrambler x^58 + x^39 + 1 on `n` data bits, at most 39, after the sent bits `hist`: the sent bits, and the history (R95). -/
def scramble (n hist d : Nat) : Nat × Nat :=
  let m := 2 ^ n
  let s := Nat.xor (d % m) (Nat.xor (hist / 2 ^ (39 - n) % m) (hist / 2 ^ (58 - n) % m))
  (s, (hist * m + s) % 2 ^ 58)

/-- One block of N25 coding: the sync header 0b01 and 64 scrambled bits, inverted as a whole where `inv` (R95, R232). -/
def codeBlock (inv : Bool) (hist d : Nat) : LineBlock × Nat :=
  let a := scramble 32 hist (d / 2 ^ 32)
  let b := scramble 32 a.2 (d % 2 ^ 32)
  let v := a.1 * 2 ^ 32 + b.1
  ({ header := if inv then 2 else 1, n := 64, bits := if inv then 2 ^ 64 - 1 - v else v, ends := true }, b.2)

/-- A lane sends a frame of `len` bits and its fill: the data bits that fill blocks are coded, the rest waits (R95, R98, R232). -/
def lineSend (inv : Bool) (len fill rem word : Nat) (x : DlTx) : DlTx :=
  let total := x.carryN + len + fill
  let v := (x.carry * 2 ^ len + word) * 2 ^ fill
  let r := (List.range (total / 64)).foldl (fun (a : List LineBlock × Nat) i =>
    let b := codeBlock inv a.2 (v / 2 ^ (total - 64 * (i + 1)) % 2 ^ 64)
    (a.1 ++ [b.1], b.2)) ([], x.scr)
  { word := word, len := len, fill := fill, rem := rem, scr := r.2, carry := v % 2 ^ (total % 64), carryN := total % 64, blocks := r.1,
    disable := false }

/-- Decision lane `k` sends a frame whose first 130 bits are `w`, padded with 0 to F. The fill after it keeps pace with the bunch clock: so
many bits as R / f has gained on F (assumption 127); none while the 100 MHz reference paces the lane (R98, R233). A lane that is not enabled
disables its module's transmitter. -/
def laneSend (t : Tab) (paced : Bool) (w : Nat) (k : Nat) (x : DlTx) : DlTx :=
  if t.fld (Reg.OUT_DLCFG_EN k) ≠ 1 then { x with word := 0, len := 0, fill := 0, blocks := [], disable := true }
  else
    let f := t.fld Reg.TIM_FNOM_KHZ
    let gain := x.rem + 25000000 % f
    let len := laneLen t
    lineSend (t.fld (Reg.OUT_DLCFG_INV k) == 1) len (if paced then gain / f else 0) (if paced then gain % f else x.rem) (w * 2 ^ (len - 130)) x

/-- Every enabled lane sends the frame that `w` gives for its mask (R232, R233). -/
def lanesSend (t : Tab) (paced : Bool) (w : Nat → Nat) (e : Engine) : Engine :=
  let fs := (List.range 8).map (fun k =>
    if t.fld (Reg.OUT_DLCFG_EN k) = 1 then w (t.fld (Reg.OUT_DLMASK_LO_MASK k) + 2 ^ 32 * t.fld (Reg.OUT_DLMASK_HI_MASK k)) else 0)
  let tx := (indexed e.out.dlTx).map (fun kx => laneSend t paced (fs.getD kx.1 0) kx.1 kx.2)
  let e1 : Engine := { e with out := { e.out with dl := fs, dlTx := tx } }
  (List.range 8).foldl (fun a k => if t.fld (Reg.OUT_DLCFG_EN k) = 1 then a.bump (Reg.OUT_DLFRM_COUNT k) else a) e1

/-- The lane frame of a frame (R232); not driven, VALID and ACCEPT are 0 (R233). -/
def laneFrame (drives : Bool) (e : Engine) (f : Frame) : Engine :=
  let s := orbitLen f.cfg
  let flags := 128 * b2n e.keep.laneFlag + 64 + 32 * b2n drives + 16 * b2n f.invalid + 8 * b2n f.stale + 4 * b2n f.spr
  lanesSend f.cfg true (fun m => laneWord (f.n % s) (f.n / s) flags (if drives then Nat.land f.dec.acc m else 0) f.dec.accnum) e

/-- The lane frame of counted crossing `c`, which no frame reaches (R233). -/
def laneEmpty (c : Nat) (e : Engine) : Engine :=
  let s := orbitLen e.active
  lanesSend e.active true (fun _ => laneWord (c % s) (c / s) (128 * b2n e.keep.laneFlag + 64) 0 (e.reg Reg.MNU_ACCNUM_NUM)) e

/-- The lane frame while TIM is unlocked (R233). -/
def laneUnlocked (e : Engine) : Engine := lanesSend e.active false (fun _ => laneWord 0 0 128 0 0) e

/-! ### The checkers (R226, R230) -/

/-- A term's word 0 and THR are in range for its type (Table 10.1, R218, R226). -/
def termOk (w thr : Nat) : Bool × Bool :=
  let idx := bits w 25 16
  let d := tbit w 8
  let alt := tbit w 5
  let word0 := match w % 16 with
    | 0 => idx == 0 && !d && !alt
    | 1 => decide (idx ≤ 15) && !alt
    | 2 => idx == 0 && !alt
    | 3 => decide (idx ≤ 15) && !alt
    | 4 => decide (idx ≤ 31) && !d
    | 5 => decide (idx ≤ 15) && !d && !alt
    | 6 => !d && !alt
    | 7 => decide (idx ≤ 127) && !d && !alt
    | 8 => decide (idx ≤ 7) && !alt && !(d && decide (2 ≤ idx))
    | _ => false
  let t := match w % 16 with
    | 1 => decide (thr ≤ 257)
    | 2 => true
    | 3 => true
    | 4 => true
    | _ => thr == 0
  (word0, t)

/-- The MNU consistency checker: true where it accepts (R226). -/
def mnuCheck (t : Tab) : Bool :=
  (condList t).all (fun i =>
    (List.range 4).all (fun j =>
      let w := t.fld (condFld i (2 * j))
      let r := termOk w (t.fld (condFld i (2 * j + 1)))
      r.1 && r.2 && !(condInUse t i && w % 16 == 6 && decide (interleave t ≤ bits w 25 16 / 32)))
    && (t.fld (condFld i 9) == 0 || decide (t.fld (condFld i 10) < t.fld (condFld i 9))))
  && !(t.fld Reg.MNU_DEAD_WINK != 0 && t.fld Reg.MNU_DEAD_WINW == 0)
  && (List.range 16).all (fun n => decide (t.fld (Reg.MNU_ICFG_PH n) ≤ 7) && decide (t.fld (Reg.MNU_ICFG_DELAY n) ≤ 63))

/-- The NIM-output part of the OUT checker (R230). -/
def nimoutCheck (t : Tab) : Bool :=
  (List.range 16).all (fun n =>
    let src := t.fld (Reg.OUT_NOCFG_SRC n)
    decide (src ≤ 5) && !(src == 1 && decide (63 < t.fld (Reg.OUT_NOCFG_IDX n))))

/-! ### Functions (Tables 10.6, 10.7) -/

/-- A word of a condition entry holds no reserved bit. -/
def condMask (w : Nat) : Nat :=
  [0x03FF013F, 0xFFFFFFFF, 0x03FF013F, 0xFFFFFFFF, 0x03FF013F, 0xFFFFFFFF, 0x03FF013F, 0xFFFFFFFF, 0x80000001, 0xFFFFFF, 0xFFFFFF, 0,
   0xFFFFFFFF, 0xFFFFFFFF, 0, 0].getD w 0

/-- SET_COND. -/
def fnSetCond : Fn :=
  { op := 0x0910, kind := .basic, len := lenIs 32
    range := fun _ p => match firstBad [(decide (p.target ≤ 511), 7), (decide (p.arg 0 ≤ 1), 8), (decide (p.arg 1 ≤ 1), 9),
        (decide (p.arg 2 < 2 ^ 24), 10), (decide (p.arg 3 < 2 ^ 24), 11)] with
      | some d => some d
      | none => wordsBad p (fun i v =>
        if i % 2 = 0 then within 0x03FF013F v && (termOk v (p.word (i + 1))).1 else (termOk (p.word (i - 1)) v).2) }

/-- The fields SET_COND writes. -/
def wSetCond (_ : Engine) (p : Packet) : List (Fld × Nat) :=
  let w := condFld p.target
  (List.range 8).map (fun j => (w j, p.word j)) ++
    [(w 8, p.arg 0 + 2 ^ 31 * p.arg 1), (w 9, p.arg 2), (w 10, p.arg 3), (w 12, p.arg 4), (w 13, p.arg 5)]

/-- SET_LINE. -/
def fnSetLine : Fn :=
  { op := 0x0911, kind := .basic
    range := fun _ p => firstBad [(decide (p.target ≤ 63), 7), (decide (p.arg 0 ≤ 1), 8), (decide (p.arg 1 ≤ 65535), 9)] }

/-- The fields SET_LINE writes. -/
def wSetLine (_ : Engine) (p : Packet) : List (Fld × Nat) := [(Reg.MNU_LCTL_EN p.target, p.arg 0), (Reg.MNU_LCTL_VETO p.target, p.arg 1)]

/-- SET_DEADTIME. -/
def fnSetDeadtime : Fn :=
  { op := 0x0912, kind := .basic
    range := fun _ p => firstBad [(p.target == 0, 7), (decide (p.arg 0 ≤ 255), 8), (decide (p.arg 1 ≤ 15), 9),
      (decide (1 ≤ p.arg 2) && decide (p.arg 2 ≤ 4095), 10)] }

/-- The fields SET_DEADTIME writes. -/
def wSetDeadtime (_ : Engine) (p : Packet) : List (Fld × Nat) :=
  [(Reg.MNU_DEAD_SPACE, p.arg 0), (Reg.MNU_DEAD_WINK, p.arg 1), (Reg.MNU_DEAD_WINW, p.arg 2)]

/-- SET_PSMODE. -/
def fnSetPsmode : Fn := { op := 0x0913, kind := .basic, range := fun _ p => firstBad [(p.target == 0, 7), (decide (p.arg 0 ≤ 1), 8)] }

/-- The field SET_PSMODE writes. -/
def wSetPsmode (_ : Engine) (p : Packet) : List (Fld × Nat) := [(Reg.MNU_GCTL_PSMODE, p.arg 0)]

/-- SET_INPUT of MNU. -/
def fnSetInput : Fn :=
  { op := 0x0914, kind := .basic
    range := fun _ p => firstBad [(decide (p.target ≤ 15), 7), (decide (p.arg 0 ≤ 1), 8), (decide (p.arg 1 ≤ 1), 9), (decide (p.arg 2 ≤ 1), 10),
      (decide (p.arg 3 ≤ 7), 11), (decide (p.arg 4 ≤ 63), 12)] }

/-- The fields SET_INPUT of MNU writes. -/
def wSetInput (_ : Engine) (p : Packet) : List (Fld × Nat) :=
  let n := p.target
  [(Reg.MNU_ICFG_BUSY n, p.arg 0), (Reg.MNU_ICFG_INV n, p.arg 1), (Reg.MNU_ICFG_MODE n, p.arg 2), (Reg.MNU_ICFG_PH n, p.arg 3),
   (Reg.MNU_ICFG_DELAY n, p.arg 4)]

/-- SET_LOGSTREAM. -/
def fnSetLogstream : Fn :=
  { op := 0x0915, kind := .basic, owner := ringOwner
    range := fun e p => firstBad [(ringKind e p 4 && !setupFull e p tLogs 4, 7), (decide (1 ≤ p.arg 0) && decide (p.arg 0 ≤ 16777216), 8),
      (decide (p.arg 2 ≤ 1), 10), (decide (1 ≤ p.arg 3) && decide (p.arg 3 ≤ 63), 11)] }

/-- The set-up SET_LOGSTREAM writes: 1, DEC, PHASE, ACCONLY, BATCH. -/
def wSetLogstream (_ : Engine) (p : Packet) : List (Fld × Nat) :=
  let w := setupFld tLogs p.target
  [(w 0, 1), (w 1, p.arg 0), (w 2, p.arg 1), (w 3, p.arg 2), (w 4, p.arg 3)]

/-- RAW_CONDS. -/
def fnRawConds : Fn :=
  { op := 0x0980, kind := .stage, len := lenTimes 64 512
    range := fun _ p => match firstBad [(decide (p.target + p.length / 64 ≤ 512), 7)] with
      | some d => some d
      | none => wordsBad p (fun i v => within (condMask (i % 16)) v) }

/-- The words RAW_CONDS writes. -/
def wRawConds (_ : Engine) (p : Packet) : List (Fld × Nat) :=
  (List.range p.nwords).map (fun k => (condFld (p.target + k / 16) (k % 16), p.word k))

/-- RAW_LINES. -/
def fnRawLines : Fn :=
  { op := 0x0981, kind := .stage, len := lenTimes 4 64
    range := fun _ p => match firstBad [(decide (p.target + p.length / 4 ≤ 64), 7)] with
      | some d => some d
      | none => wordsBad p (fun _ v => within 0xFFFF0001 v) }

/-- The fields RAW_LINES writes. -/
def wRawLines (_ : Engine) (p : Packet) : List (Fld × Nat) :=
  (List.range p.nwords).flatMap (fun k =>
    [(Reg.MNU_LCTL_EN (p.target + k), bit (p.word k) 0), (Reg.MNU_LCTL_VETO (p.target + k), bits (p.word k) 31 16)])

/-- SET_NIMOUT. -/
def fnSetNimout : Fn :=
  { op := 0x1610, kind := .basic
    range := fun _ p => firstBad [(decide (p.target ≤ 15), 7), (decide (p.arg 0 ≤ 5), 8),
      (decide (p.arg 1 ≤ 511) && !(p.arg 0 == 1 && decide (63 < p.arg 1)), 9), (decide (p.arg 2 ≤ 1), 10), (decide (p.arg 3 ≤ 1), 11),
      (decide (p.arg 4 ≤ 7), 12), (decide (p.arg 5 ≤ 1), 13)] }

/-- The fields SET_NIMOUT writes. -/
def wSetNimout (_ : Engine) (p : Packet) : List (Fld × Nat) :=
  let n := p.target
  [(Reg.OUT_NOCFG_SRC n, p.arg 0), (Reg.OUT_NOCFG_IDX n, p.arg 1), (Reg.OUT_NOCFG_INV n, p.arg 2), (Reg.OUT_NOCFG_SAFE n, p.arg 3),
   (Reg.OUT_NOCFG_WIDTH n, p.arg 4), (Reg.OUT_NOCFG_CV n, p.arg 5)]

/-- SET_DLANE. -/
def fnSetDlane : Fn :=
  { op := 0x1611, kind := .basic
    range := fun _ p => firstBad [(decide (p.target ≤ 7), 7), (decide (p.arg 0 ≤ 1), 8), (decide (p.arg 1 ≤ 1), 9)] }

/-- The fields SET_DLANE writes. -/
def wSetDlane (_ : Engine) (p : Packet) : List (Fld × Nat) :=
  let k := p.target
  [(Reg.OUT_DLCFG_EN k, p.arg 0), (Reg.OUT_DLCFG_INV k, p.arg 1), (Reg.OUT_DLMASK_LO_MASK k, p.arg 2), (Reg.OUT_DLMASK_HI_MASK k, p.arg 3)]

/-- SET_RLYWARN. -/
def fnSetRlywarn : Fn := { op := 0x1612, kind := .action, range := fun _ p => firstBad [(p.target == 0, 7)] }

/-- LIMIT is set at once and the wear bits are evaluated (R234). -/
def setLimit (e : Engine) (v : Nat) : Engine := evalWear (e.setReg Reg.OUT_RLYWARN_LIMIT v)

/-- RAW_OUTS. -/
def fnRawOuts : Fn :=
  { op := 0x1680, kind := .stage, len := lenTimes 4 16
    range := fun _ p => match firstBad [(decide (p.target + p.length / 4 ≤ 16), 7)] with
      | some d => some d
      | none => wordsBad p (fun _ v => within 0x01731FF7 v) }

/-- The fields RAW_OUTS writes. -/
def wRawOuts (_ : Engine) (p : Packet) : List (Fld × Nat) :=
  (List.range p.nwords).flatMap (fun k =>
    let n := p.target + k
    let v := p.word k
    [(Reg.OUT_NOCFG_SRC n, bits v 2 0), (Reg.OUT_NOCFG_IDX n, bits v 12 4), (Reg.OUT_NOCFG_INV n, bit v 16), (Reg.OUT_NOCFG_SAFE n, bit v 17),
     (Reg.OUT_NOCFG_WIDTH n, bits v 22 20), (Reg.OUT_NOCFG_CV n, bit v 24)])

/-! ### Meanings -/

/-- SET_COND (R219, R235). -/
def execSetCond (p : Packet) (s : State) : Host.Outcome State Fault Refusal :=
  .next { s with eng := runConfig fnSetCond noExtra wSetCond 0 p s.eng }

/-- SET_LINE (R221, R235). -/
def execSetLine (p : Packet) (s : State) : Host.Outcome State Fault Refusal :=
  .next { s with eng := runConfig fnSetLine noExtra wSetLine 0 p s.eng }

/-- SET_DEADTIME (R223, R235). -/
def execSetDeadtime (p : Packet) (s : State) : Host.Outcome State Fault Refusal :=
  .next { s with eng := runConfig fnSetDeadtime noExtra wSetDeadtime 0 p s.eng }

/-- SET_PSMODE (R222, R235). -/
def execSetPsmode (p : Packet) (s : State) : Host.Outcome State Fault Refusal :=
  .next { s with eng := runConfig fnSetPsmode noExtra wSetPsmode 0 p s.eng }

/-- SET_INPUT of MNU (R224, R235). -/
def execSetInput (p : Packet) (s : State) : Host.Outcome State Fault Refusal :=
  .next { s with eng := runConfig fnSetInput noExtra wSetInput 0 p s.eng }

/-- SET_LOGSTREAM (R228, R471). -/
def execSetLogstream (p : Packet) (s : State) : Host.Outcome State Fault Refusal :=
  .next { s with eng := runConfig fnSetLogstream noExtra wSetLogstream 0 p s.eng }

/-- RAW_CONDS (R235). -/
def execRawConds (p : Packet) (s : State) : Host.Outcome State Fault Refusal :=
  .next { s with eng := runConfig fnRawConds noExtra wRawConds 0 p s.eng }

/-- RAW_LINES (R235). -/
def execRawLines (p : Packet) (s : State) : Host.Outcome State Fault Refusal :=
  .next { s with eng := runConfig fnRawLines noExtra wRawLines 0 p s.eng }

/-- SET_NIMOUT (R229, R235). -/
def execSetNimout (p : Packet) (s : State) : Host.Outcome State Fault Refusal :=
  .next { s with eng := runConfig fnSetNimout noExtra wSetNimout 0 p s.eng }

/-- SET_DLANE (R232, R235). -/
def execSetDlane (p : Packet) (s : State) : Host.Outcome State Fault Refusal :=
  .next { s with eng := runConfig fnSetDlane noExtra wSetDlane 0 p s.eng }

/-- RAW_OUTS (R235). -/
def execRawOuts (p : Packet) (s : State) : Host.Outcome State Fault Refusal :=
  .next { s with eng := runConfig fnRawOuts noExtra wRawOuts 0 p s.eng }

/-- SET_RLYWARN: not staged, acts at once (R234, R235). -/
def execSetRlywarn (p : Packet) (s : State) : Host.Outcome State Fault Refusal :=
  .next { s with eng := runAction fnSetRlywarn noExtra (fun e p => setLimit e (p.arg 0)) p s.eng }

/-- RLYWARN_LIMIT_WRITE: a register write of LIMIT (R234). -/
def execRlywarnLimitWrite (val : Nat) (s : State) : Host.Outcome State Fault Refusal :=
  .next { s with eng := setLimit s.eng val }

/-- DL_TX_FAULT: a decision-lane module reports a transmit fault (R233). -/
def execDlTxFault (lane : Nat) (s : State) : Host.Outcome State Fault Refusal :=
  if lane ≤ 7 then .next { s with eng := (s.eng.raiseBit (Reg.OUT_DLSTAT_TXF lane)).raise Src.dlFault lane } else .next s

end Sys2Proof.Machine
end

