-- ==== Sys2Proof/Machine/Fabric.lean ====
section
/-! DEFINITION. The event fabric (R314 to R328): gates, activations, notifications, the loop guard, and the EVT functions.
EVT has no staged fields: routes are written under R9 and take effect at the next boundary (R325). -/

namespace Sys2Proof.Machine

/-! ### Gates (R319, Table 15.3) -/

/-- Gate level SEL. -/
def Engine.gateLevel (e : Engine) (sel : Nat) : Bool :=
  if sel = 0 then e.locked
  else if sel = 1 then e.reg Reg.TIM_STAT_BEAM == 1
  else if sel = 2 then e.st == stArmed
  else if sel = 3 then e.st == stSafe
  else if sel = 4 then e.st == stHold
  else if sel = 5 then e.keep.state
  else if sel = 6 then e.reg Reg.OUT_HSTAT_STATE == 1
  else if sel = 7 then true
  else tbit e.evt.nimNow (sel - 8)

/-- How many of `n` events pass a gate; `opened`: it is an ARM gate that a firing has opened (R319). -/
def Engine.passing (e : Engine) (g : Gate) (n : Nat) (opened : Bool) : Nat :=
  if g.kind = 1 then (if xor (e.gateLevel (g.sel % 16)) (g.inv == 1) then n else 0)
  else if g.kind = 2 then (if opened then min n 1 else 0)
  else n

/-- The events that wait for input `c` under gates that have been changed since pass those gates (R325). -/
def takeOld (e : Engine) (c : Nat) : Engine × Nat :=
  let mine := e.evt.oldbox.filter (fun x => x.c == c)
  if mine.isEmpty then (e, 0)
  else ({ e with evt := { e.evt with oldbox := e.evt.oldbox.filter (fun x => x.c != c) } },
    (mine.map (fun x => e.passing x.gate x.n x.armed)).foldl (· + ·) 0)

/-- The events that reached input `c` since its last edge pass its gate, as many as answered; the gate's own state is
renewed (R319). -/
def takeNow (e : Engine) (c : Nat) : Engine × Nat :=
  let n := e.evt.inbox.get c
  let fired := e.evt.armbox.get c != 0
  let e1 : Engine := { e with evt := { e.evt with inbox := e.evt.inbox.set c 0, armbox := e.evt.armbox.set c 0 } }
  let opened := fired || e.reg (Reg.EVT_CSTAT_OPEN c) == 1
  (if e.reg (Reg.EVT_CGATE_KIND c) = 2 then e1.setReg (Reg.EVT_CSTAT_OPEN c) (b2n (opened && n == 0)) else e1,
    e.passing (e.gateOf c) n opened)

/-- The events that reached input `c` and pass, each under the bank of its raising (R319, R325). -/
def takeInbox (e : Engine) (c : Nat) : Engine × Nat :=
  let (e1, n) := takeNow e c
  let (e2, m) := takeOld e1 c
  (e2, n + m)

/-! ### A change of bank (R325) -/

/-- Gates change: what waits for an input under its old gate stays under it. A gate that has changed has not been opened (DEDUCED from R319:
a firing of its channel opens it). -/
def keepGate (old e : Engine) (c : Nat) : Engine :=
  if old.gateOf c = e.gateOf c then e
  else
    let x : OldEvents := { c := c, n := e.evt.inbox.get c, gate := old.gateOf c
                           armed := e.evt.armbox.get c != 0 || e.reg (Reg.EVT_CSTAT_OPEN c) == 1 }
    let none := x.n == 0 && e.evt.armbox.get c == 0
    let e1 : Engine := { e with evt := { e.evt with
      inbox := e.evt.inbox.set c 0, armbox := e.evt.armbox.set c 0
      oldbox := if none then e.evt.oldbox else e.evt.oldbox ++ [x] } }
    e1.setReg (Reg.EVT_CSTAT_OPEN c) 0

/-- The routes of a channel change: the requests that it has absorbed stay under the old ones. -/
def keepRequests (old e : Engine) (k : Nat) : Engine :=
  let subs := (old.listeners k).map (fun c => (c, old.gateOf c))
  let arms := old.armedBy k
  if subs = (e.listeners k).map (fun c => (c, e.gateOf c)) ∧ arms = e.armedBy k then e
  else { e with evt := { e.evt with hold := e.evt.hold.set k 1
                                    oldHold := e.evt.oldHold ++ [{ ch := k, subs := subs, arms := arms }] } }

/-- The writes of a boundary have changed `old` into `e`: what is on its way keeps the bank in force when it was raised (R325). -/
def keepBanks (old e : Engine) : Engine :=
  ((e.evt.hold.filter (fun kv => kv.2 == 2)).map (·.1)).foldl (keepRequests old) (consumerInputs.foldl (keepGate old) e)

/-- A firing under old routes reaches input `c`, behind gate `g` as it was. -/
def arriveOld (e : Engine) (cg : Nat × Gate) : Engine :=
  let (c, g) := cg
  if e.gateOf c = g then e.arrive c
  else if e.evt.oldbox.any (fun x => x.c == c && x.gate == g) then
    { e with evt := { e.evt with oldbox := e.evt.oldbox.map (fun x => if x.c == c && x.gate == g then { x with n := x.n + 1 } else x) } }
  else { e with evt := { e.evt with oldbox := e.evt.oldbox ++ [{ c := c, n := 1, gate := g, armed := false }] } }

/-- A firing of channel `k` under old routes opens the ARM gate that input `c` had. -/
def armOld (k : Nat) (e : Engine) (c : Nat) : Engine :=
  let e1 := if e.reg (Reg.EVT_CGATE_KIND c) = 2 ∧ e.reg (Reg.EVT_CGATE_SEL c) = k then e.arm c else e
  { e1 with evt := { e1.evt with oldbox := e1.evt.oldbox.map (fun x =>
    if x.c == c && x.gate.kind == 2 && x.gate.sel == k then { x with armed := true } else x) } }

/-- The hold-off of channel `k` ends with requests absorbed, among them such as came under old routes: it fires once, and reaches whom the
routes of each request name, each of them once (R318, R325). -/
def fireOld (e : Engine) (k : Nat) : Engine :=
  let mine := e.evt.oldHold.filter (fun x => x.ch == k)
  let new := e.evt.hold.get k == 2
  let e0 : Engine := { e with evt := { e.evt with oldHold := e.evt.oldHold.filter (fun x => x.ch != k) } }
  let e1 : Engine := if new then e0.fire k
    else { e0.bump (Reg.EVT_KFIRE_COUNT k) with evt := { e0.evt with hold := e0.evt.hold.set k 1 } }
  let subs := ((mine.flatMap (·.subs)).filter (fun cg => !(new && (e.listeners k).contains cg.1))).dedup
  ((mine.flatMap (·.arms)).dedup).foldl (armOld k) (subs.foldl arriveOld e1)

/-- Events beyond the first between two edges merge into one activation (R323). -/
def mergeEvents (e : Engine) (c n : Nat) : Engine :=
  if n ≤ 1 then e else (e.bumpBy Reg.EVT_MERGE_COUNT (n - 1)).setReg Reg.EVT_LAST_MERGE c

/-- An activation of a busy input is ignored (R324). -/
def busyInput (e : Engine) (c : Nat) : Engine := (e.bump Reg.EVT_BUSY_COUNT).setReg Reg.EVT_LAST_BUSY c

/-! ### Time-driven rows -/

/-- EVENT_RAISE: a producer raises an event (R314, R317). A Lantern line rises only while the loaded bitstream drives it
(R308); a NIM input's event is its rising level. -/
def execEventRaise (src data : Nat) (s : State) : Host.Outcome State Fault Refusal :=
  let e := s.eng
  let line := src - Src.lantern
  if 384 ≤ src ∧ src ≤ 447 ∧ (e.reg Reg.ULA_STAT_LOADED = 0 ∨ e.reg Reg.ULA_STAT_CONFIG = 1
      ∨ tbit (e.reg (Reg.ULA_EUSED_MASK (line / 32))) (line % 32) = false) then .next s
  else
    let e1 : Engine := if sourceLevel src then
      { e with evt := { e.evt with nimNow := Nat.lor e.evt.nimNow (2 ^ (src - Src.nim)) } } else e
    let d := if sourceLevel src then src - Src.nim else if 384 ≤ src ∧ src ≤ 447 then line else data
    .next { s with eng := e1.raise src d }

/-- HOLDOFF_END: the channel fires once if requests were absorbed and the guard has not stopped it (R318, R325, R326). -/
def execHoldoffEnd (ch : Nat) (s : State) : Host.Outcome State Fault Refusal :=
  let e := s.eng
  let old := e.evt.oldHold.any (fun x => x.ch == ch)
  if e.reg (Reg.EVT_KSTAT_STOP ch) = 1 then
    .next { s with eng := { e with evt := { e.evt with hold := e.evt.hold.set ch 0, oldHold := e.evt.oldHold.filter (fun x => x.ch != ch) } } }
  else if old then .next { s with eng := fireOld e ch }
  else if e.evt.hold.get ch = 2 then .next { s with eng := e.fire ch }
  else .next { s with eng := { e with evt := { e.evt with hold := e.evt.hold.set ch 0 } } }

/-- GUARD_WINDOW_END: the request counts restart (R326). -/
def execGuardWindowEnd (s : State) : Host.Outcome State Fault Refusal :=
  .next { s with eng := { s.eng with evt := { s.eng.evt with window := [] } } }

/-- The bytes of a notification (Table 2.9). -/
def noteBytes (n : Note) (r : Ring) : List Byte :=
  leBytes 8 n.crossing ++ leBytes 2 n.src ++ leBytes 1 n.count ++ leBytes 1 (128 * r.phase r.prod + b2n r.lost) ++ leBytes 4 n.data

/-- Write a notification on its EVN ring, or drop it where the ring is full (R50, R51, R327). -/
def writeNote (e : Engine) (n : Note) : Engine :=
  let e1 : Engine := { e with evt := { e.evt with notes := e.evt.notes.filter (fun m => m.src != n.src) } }
  match e.ring? n.ring with
  | none => e1
  | some r =>
    if r.fault ∨ r.typ ≠ 3 then e1
    else if !e.serving then e
    else if r.space = 0 then e1.dropOn r
    else (e1.post (r.addr r.prod) (noteBytes n r)).ringIrq { r with prod := (r.prod + 1) % 2 ^ 32, lost := false }

/-- NOTIFICATION_WRITE (R327). -/
def execNotificationWrite (src : Nat) (s : State) : Host.Outcome State Fault Refusal :=
  match s.eng.evt.notes.find? (fun n => n.src == src) with
  | some n => .next { s with eng := writeNote s.eng n }
  | none => .next s

/-- EVT_SWPUB: software producer `sw` is raised with data 0 (R339). -/
def execEvtSwpubWrite (sw : Nat) (s : State) : Host.Outcome State Fault Refusal :=
  .next { s with eng := s.eng.raise (Src.sw + sw % 128) 0 }

/-- A write of 1 to EVT_KSTAT.STOP resumes the channel (R326). -/
def execEvtKstatStopWrite (ch : Nat) (s : State) : Host.Outcome State Fault Refusal :=
  if 1024 ≤ ch then .next s else .next { s with eng := s.eng.setReg (Reg.EVT_KSTAT_STOP ch) 0 }

/-! ### Routes, owners and secure channels (R320, R321) -/

/-- ST_OWNER detail where context `c` does not own a thing of context `o`. -/
def notOwn (c o : Nat) : Option Nat := if c = 0 ∨ o = c then none else some (o % 256)

/-- The engine as the next boundary leaves its routes: what R320 and R321 ask of a route is asked of the writes that wait too. -/
def pubRefused (e : Engine) (s k : Nat) : Bool := e.soon (Reg.EVT_KOWN_SEC k) == 1 && !sourceSecure s

/-- See `pubRefused`: input `c` may not listen to channel `k`. -/
def subRefused (e : Engine) (c k : Nat) : Bool := e.soon (Reg.EVT_KOWN_SEC k) == 1 && !e.hasRight (e.consumerOwner c) rightSecure

/-- Two owners that a route may not join: neither is context 0 (R320). -/
def foreign (a b : Nat) : Bool := a != b && a != 0 && b != 0

/-- The enables of the routes that join resources of two contexts, neither of them context 0, where fields read as `rd` says (R320). -/
def foreignRoutes (e : Engine) (rd : Fld → Nat) : List Fld :=
  ((List.range 896).filter sourceListed).flatMap (fun s =>
    (if foreign (e.sourceOwner s) (e.ownerOf 7 (rd (Reg.EVT_SPUB_CH s))) then [Reg.EVT_SPUB_EN s] else [])
      ++ (if foreign (e.sourceOwner s) (rd (Reg.EVT_SNOTE_RING s) / 256) then [Reg.EVT_SNOTE_EN s] else []))
  ++ consumerInputs.flatMap (fun c =>
    (if foreign (e.consumerOwner c) (e.ownerOf 7 (rd (Reg.EVT_CSUB_CH c))) then [Reg.EVT_CSUB_EN c] else [])
      ++ (if rd (Reg.EVT_CGATE_KIND c) = 2 ∧ foreign (e.consumerOwner c) (e.ownerOf 7 (rd (Reg.EVT_CGATE_SEL c))) then [Reg.EVT_CGATE_KIND c] else []))

/-- The key is that of a matrix bit which joins resources of two contexts, neither of them context 0 (R320). -/
def foreignBit (e : Engine) (k : Nat) : Bool :=
  let o := k - tabBase tMatrix
  let w := o / 16384
  decide (tabBase tMatrix ≤ k) && decide (k < tabBase (tMatrix + 1))
    && foreign (e.sourceOwner (128 * w + o % 128)) (e.consumerOwner (128 * w + o / 128 % 128))

/-- ASSIGN removes every route that would join resources of two contexts, neither of them context 0: those in force, and those whose writes
wait for the next boundary (R9, R320, R40). -/
def pruneRoutes (e : Engine) : Engine :=
  let e1 : Engine := { e with regs := (e.regs.puts ((foreignRoutes e e.reg).map (fun f => (f, 0)))).filter (fun kv => !foreignBit e kv.1)
                              r9 := e.r9.filter (fun w => !foreignBit e w.1.key) }
  e1.laterAll (((foreignRoutes e1 e1.soon).filter (fun f => e1.soon f != 0)).map (fun f => (f, 0)))

/-! ### EVT functions (R338, Table 15.6) -/

/-- The target is a listed source (R314). -/
def srcTarget (p : Packet) : Bool × Nat := (sourceListed p.target, 7)

/-- The target is a listed consumer input (R315). -/
def inTarget (p : Packet) : Bool × Nat := (consumerListed p.target, 7)

/-- The target is a channel. -/
def chTarget (p : Packet) : Bool × Nat := (decide (p.target < 1024), 7)

/-- Refuse with ST_PERM, detail 4. -/
def permIf (b : Bool) : Option Status := if b then some (.perm rightSecure) else none

/-- PUBLISH. -/
def fnPublish : Fn :=
  { op := 0x0D10, kind := .action, noApply := true
    owner := fun e p => orOwner (notOwn p.ctx (e.sourceOwner p.target)) (notOwn p.ctx (e.ownerOf 7 (p.arg 1)))
    range := fun _ p => firstBad [srcTarget p, (decide (p.arg 0 ≤ 1), 8), (decide (p.arg 1 < 1024), 9)] }

/-- SUBSCRIBE. -/
def fnSubscribe : Fn :=
  { op := 0x0D11, kind := .action, noApply := true
    owner := fun e p => orOwner (notOwn p.ctx (e.consumerOwner p.target)) (notOwn p.ctx (e.ownerOf 7 (p.arg 1)))
    range := fun _ p => firstBad [inTarget p, (decide (p.arg 0 ≤ 1), 8), (decide (p.arg 1 < 1024), 9)] }

/-- SET_GATE. -/
def fnSetGate : Fn :=
  { op := 0x0D12, kind := .action, noApply := true
    owner := fun e p => orOwner (notOwn p.ctx (e.consumerOwner p.target))
      (if p.arg 0 = 2 then notOwn p.ctx (e.ownerOf 7 (p.arg 1)) else none)
    range := fun _ p => firstBad [inTarget p, (decide (p.arg 0 ≤ 2), 8),
      (decide (p.arg 1 < (if p.arg 0 = 1 then 16 else 1024)), 9), (decide (p.arg 2 ≤ (if p.arg 0 = 2 then 0 else 1)), 10)] }

/-- The source that SET_MATRIX joins to its target. -/
def matrixSource (p : Packet) : Nat := p.target / 128 * 128 + p.arg 0

/-- SET_MATRIX. -/
def fnSetMatrix : Fn :=
  { op := 0x0D13, kind := .action, noApply := true
    owner := fun e p => orOwner (notOwn p.ctx (e.consumerOwner p.target)) (notOwn p.ctx (e.sourceOwner (matrixSource p)))
    range := fun _ p => firstBad [inTarget p, (decide (p.arg 0 < 128) && sourceListed (matrixSource p), 8), (decide (p.arg 1 ≤ 1), 9)] }

/-- The ring is an EVN ring. -/
def isEvn (e : Engine) (id : Nat) : Bool := match e.ring? id with
  | some r => r.typ == 3
  | none => false

/-- SET_NOTIFY. -/
def fnSetNotify : Fn :=
  { op := 0x0D14, kind := .action, noApply := true
    owner := fun e p => orOwner (notOwn p.ctx (e.sourceOwner p.target)) (if p.arg 0 = 1 then notOwn p.ctx (p.arg 1 / 256) else none)
    range := fun e p => firstBad [srcTarget p, (decide (p.arg 0 ≤ 1), 8), (decide (p.arg 1 < 2 ^ 18) && (p.arg 0 == 0 || isEvn e (p.arg 1)), 9)] }

/-- SET_CHANNEL. -/
def fnSetChannel : Fn :=
  { op := 0x0D15, kind := .action, noApply := true, right := fun _ => rightSecure
    owner := fun e p => notOwn p.ctx (e.ownerOf 7 p.target)
    range := fun _ p => firstBad [chTarget p, (decide (p.arg 0 ≤ 1), 8)] }

/-- A source that is not secure publishes on the channel, or will from the next boundary on. -/
def insecureOn (e : Engine) (k : Nat) : Bool :=
  (List.range 896).any (fun s => sourceListed s && !sourceSecure s
    && ((e.reg (Reg.EVT_SPUB_EN s) == 1 && e.reg (Reg.EVT_SPUB_CH s) == k)
      || (e.soon (Reg.EVT_SPUB_EN s) == 1 && e.soon (Reg.EVT_SPUB_CH s) == k)))

/-- RESUME_CHANNEL. -/
def fnResumeChannel : Fn :=
  { op := 0x0D16, kind := .action, noApply := true, owner := fun e p => notOwn p.ctx (e.ownerOf 7 p.target)
    range := fun _ p => firstBad [chTarget p] }

/-- SET_GUARD. -/
def fnSetGuard : Fn :=
  { op := 0x0D17, kind := .action, noApply := true
    range := fun _ p => firstBad [(p.target == 0, 7), (decide (p.arg 0 ≤ 65535), 8), (decide (100 ≤ p.arg 1) && decide (p.arg 1 ≤ 65535), 9)] }

/-- RAISE. -/
def fnRaise : Fn :=
  { op := 0x0D18, kind := .action, noApply := true, range := fun _ p => firstBad [(decide (p.target < 128), 7)] }

/-- The joined pairs of bits set in word `i` of a matrix image of ward `w`: (source, input). -/
def matrixPairs (w i v : Nat) : List (Nat × Nat) :=
  ((List.range 32).filter (tbit v)).map (fun b => (128 * w + 32 * (i % 4) + b, 128 * w + i / 4))

/-- The joined pairs of word `i` of ward `w`'s matrix, as it stands once the waiting writes have taken effect. -/
def joinedPairs (e : Engine) (w i : Nat) : List (Nat × Nat) :=
  ((List.range 32).filter (fun b => e.soon (matrixFld w (32 * (i % 4) + b) (i / 4)) == 1)).map (fun b => (128 * w + 32 * (i % 4) + b, 128 * w + i / 4))

/-- RAW_MATRIX: a pair that it joins or parts is one of the context's own (R320). -/
def fnEvtRawMatrix : Fn :=
  { op := 0x0D80, kind := .direct, len := lenIs 2048
    owner := fun e p => if p.ctx = 0 then none else
      ((List.range 512).flatMap (fun i => matrixPairs p.target i (p.word i) ++ joinedPairs e p.target i)).findSome? (fun sc =>
        orOwner (notOwn p.ctx (e.sourceOwner sc.1)) (notOwn p.ctx (e.consumerOwner sc.2)))
    range := fun _ p => match firstBad [(decide (p.target < 32), 7)] with
      | some d => some d
      | none => wordsBad p (fun i v => (matrixPairs p.target i v).all (fun sc => sourceListed sc.1 && consumerListed sc.2)) }

/-- The route images of RAW_ROUTES: source, EVT_SPUB word, EVT_SNOTE word. -/
def rawRoutes (p : Packet) : List (Nat × Nat × Nat) := (List.range (p.nwords / 2)).map (fun i => (p.target + i, p.word (2 * i), p.word (2 * i + 1)))

/-- RAW_ROUTES: it writes the routes of every listed source in its range, so that each must be the context's own (R320). -/
def fnRawRoutes : Fn :=
  { op := 0x0D81, kind := .direct, len := lenTimes 8 4096
    owner := fun e p => (rawRoutes p).findSome? (fun (s, w0, w1) =>
      orOwner (if sourceListed s then notOwn p.ctx (e.sourceOwner s) else none)
        (orOwner (if tbit w0 15 then notOwn p.ctx (e.ownerOf 7 (w0 % 1024)) else none)
          (if tbit w1 31 then notOwn p.ctx (w1 % 2 ^ 18 / 256) else none)))
    range := fun e p => match firstBad [(decide (p.target + p.nwords / 2 ≤ 4096), 7)] with
      | some d => some d
      | none => wordsBad p (fun i v =>
        let s := p.target + i / 2
        if i % 2 = 0 then within 0x83FF v && (sourceListed s || !tbit v 15)
        else within 0x8003FFFF v && (!tbit v 31 || (sourceListed s && isEvn e (v % 2 ^ 18)))) }

/-- The consumer images of RAW_CONSUMERS: input, EVT_CSUB word, EVT_CGATE word. -/
def rawConsumers (p : Packet) : List (Nat × Nat × Nat) := (List.range (p.nwords / 2)).map (fun i => (p.target + i, p.word (2 * i), p.word (2 * i + 1)))

/-- RAW_CONSUMERS: it writes every listed input in its range, so that each must be the context's own (R320). -/
def fnRawConsumers : Fn :=
  { op := 0x0D82, kind := .direct, len := lenTimes 8 4096
    owner := fun e p => (rawConsumers p).findSome? (fun (c, w0, w1) =>
      orOwner (if consumerListed c then notOwn p.ctx (e.consumerOwner c) else none)
        (orOwner (if tbit w0 15 then notOwn p.ctx (e.ownerOf 7 (w0 % 1024)) else none)
          (if w1 % 4 = 2 then notOwn p.ctx (e.ownerOf 7 (bits w1 13 4)) else none)))
    range := fun _ p => match firstBad [(decide (p.target + p.nwords / 2 ≤ 4096), 7)] with
      | some d => some d
      | none => wordsBad p (fun i v =>
        let listed := consumerListed (p.target + i / 2)
        if i % 2 = 0 then within 0x83FF v && (listed || !tbit v 15)
        else within 0xBFF3 v && v % 4 != 3 && (listed || v % 4 == 0) && (v % 4 != 1 || decide (bits v 13 4 ≤ 15))
          && (v % 4 != 2 || !tbit v 15)) }

/-- The writes of a subscription; that of input 258 is discarded (R315). -/
def subWrites (c en ch : Nat) : List (Fld × Nat) := if c = 258 then [] else [(Reg.EVT_CSUB_EN c, en), (Reg.EVT_CSUB_CH c, ch)]

/-- PUBLISH (R317, R320, R321). -/
def execPublish (p : Packet) (s : State) : Host.Outcome State Fault Refusal :=
  let e1 := runAction fnPublish (fun e p => permIf (p.arg 0 == 1 && pubRefused e p.target (p.arg 1)))
    (fun e p => e.laterAll [(Reg.EVT_SPUB_EN p.target, p.arg 0), (Reg.EVT_SPUB_CH p.target, p.arg 1)]) p s.eng
  .next { s with eng := e1 }

/-- SUBSCRIBE (R317, R320, R321). -/
def execSubscribe (p : Packet) (s : State) : Host.Outcome State Fault Refusal :=
  let e1 := runAction fnSubscribe (fun e p => permIf (p.arg 0 == 1 && subRefused e p.target (p.arg 1)))
    (fun e p => e.laterAll (subWrites p.target (p.arg 0) (p.arg 1))) p s.eng
  .next { s with eng := e1 }

/-- SET_GATE (R319 to R321). -/
def execSetGate (p : Packet) (s : State) : Host.Outcome State Fault Refusal :=
  let e1 := runAction fnSetGate (fun e p => permIf (p.arg 0 == 2 && subRefused e p.target (p.arg 1)))
    (fun e p => e.laterAll [(Reg.EVT_CGATE_KIND p.target, p.arg 0), (Reg.EVT_CGATE_SEL p.target, p.arg 1),
      (Reg.EVT_CGATE_INV p.target, p.arg 2)]) p s.eng
  .next { s with eng := e1 }

/-- SET_MATRIX (R316). -/
def execSetMatrix (p : Packet) (s : State) : Host.Outcome State Fault Refusal :=
  let e1 := runAction fnSetMatrix noExtra
    (fun e p => e.laterAll [(matrixFld (p.target / 128) (p.arg 0) (p.target % 128), p.arg 1)]) p s.eng
  .next { s with eng := e1 }

/-- SET_NOTIFY (R327). -/
def execSetNotify (p : Packet) (s : State) : Host.Outcome State Fault Refusal :=
  let e1 := runAction fnSetNotify noExtra
    (fun e p => e.laterAll [(Reg.EVT_SNOTE_EN p.target, p.arg 0), (Reg.EVT_SNOTE_RING p.target, p.arg 1)]) p s.eng
  .next { s with eng := e1 }

/-- SET_CHANNEL (R321). -/
def execSetChannel (p : Packet) (s : State) : Host.Outcome State Fault Refusal :=
  let e1 := runAction fnSetChannel
    (fun e p => if p.arg 0 = 1 ∧ insecureOn e p.target then some (.busy 13) else none)
    (fun e p => e.laterAll [(Reg.EVT_KOWN_SEC p.target, p.arg 0)]) p s.eng
  .next { s with eng := e1 }

/-- RESUME_CHANNEL (R326). -/
def execResumeChannel (p : Packet) (s : State) : Host.Outcome State Fault Refusal :=
  .next { s with eng := runAction fnResumeChannel noExtra (fun e p => e.setReg (Reg.EVT_KSTAT_STOP p.target) 0) p s.eng }

/-- SET_GUARD (R326). -/
def execSetGuard (p : Packet) (s : State) : Host.Outcome State Fault Refusal :=
  let e1 := runAction fnSetGuard noExtra
    (fun e p => e.laterAll [(Reg.EVT_GUARD_COUNT, p.arg 0), (Reg.EVT_GWIN_NS, p.arg 1)]) p s.eng
  .next { s with eng := e1 }

/-- RAISE (R338). -/
def execRaise (p : Packet) (s : State) : Host.Outcome State Fault Refusal :=
  .next { s with eng := runAction fnRaise noExtra (fun e p => e.raise (Src.sw + p.target) (p.arg 0)) p s.eng }

/-- RAW_MATRIX (R316, R338). -/
def execEvtRawMatrix (p : Packet) (s : State) : Host.Outcome State Fault Refusal :=
  let e1 := runAction fnEvtRawMatrix noExtra (fun e p =>
    e.laterAll ((List.range 512).flatMap (fun i =>
      (List.range 32).map (fun b => (matrixFld p.target (32 * (i % 4) + b) (i / 4), bit (p.word i) b))))) p s.eng
  .next { s with eng := e1 }

/-- RAW_ROUTES (R338). -/
def execRawRoutes (p : Packet) (s : State) : Host.Outcome State Fault Refusal :=
  let e1 := runAction fnRawRoutes
    (fun e p => permIf ((rawRoutes p).any (fun (s, w0, _) => tbit w0 15 && pubRefused e s (w0 % 1024))))
    (fun e p => e.laterAll ((rawRoutes p).flatMap (fun (s, w0, w1) =>
      [(Reg.EVT_SPUB_EN s, bit w0 15), (Reg.EVT_SPUB_CH s, w0 % 1024), (Reg.EVT_SNOTE_EN s, bit w1 31), (Reg.EVT_SNOTE_RING s, w1 % 2 ^ 18)]))) p s.eng
  .next { s with eng := e1 }

/-- RAW_CONSUMERS (R338). -/
def execRawConsumers (p : Packet) (s : State) : Host.Outcome State Fault Refusal :=
  let e1 := runAction fnRawConsumers
    (fun e p => permIf ((rawConsumers p).any (fun (c, w0, w1) =>
      (tbit w0 15 && subRefused e c (w0 % 1024)) || (w1 % 4 == 2 && subRefused e c (bits w1 13 4)))))
    (fun e p => e.laterAll ((rawConsumers p).flatMap (fun (c, w0, w1) =>
      subWrites c (bit w0 15) (w0 % 1024) ++ [(Reg.EVT_CGATE_KIND c, w1 % 4), (Reg.EVT_CGATE_SEL c, bits w1 13 4),
        (Reg.EVT_CGATE_INV c, bit w1 15)]))) p s.eng
  .next { s with eng := e1 }

end Sys2Proof.Machine
end

