-- ==== Sys2Proof/Machine/Irq.lean ====
section
/-! DEFINITION. The interrupt controller (R329 to R337), the cores' side of it (R286 to R290, R335), and the IRQ
functions. -/

namespace Sys2Proof.Machine

/-! ### Pending sources and presentation (R330, R331, R336) -/

/-- The sources with PEND = 1, rising. -/
def Engine.pendSources (e : Engine) : List Nat :=
  let base := (Reg.IRQ_SSTAT_PEND 0).key
  ((e.regs.range base (Reg.IRQ_SSTAT_PEND 4096).key).filter (fun kv => (kv.1 - base) % 512 == 0)).map (fun kv => (kv.1 - base) / 512)

/-- The core's island is powered down (R328, R336): in STANDBY only SC0 keeps its power. -/
def Engine.coreDown (e : Engine) (k : Nat) : Bool := e.st == stStandby && k != 32

/-- The core a source is presented to: its target, or SC0 for a core that is powered down or was when SC0 was shown the source: it then never
receives it (R336). -/
def Engine.coreFor (e : Engine) (s : Nat) : Nat :=
  let k := e.reg (Reg.IRQ_SCFG_TGT s)
  if e.coreDown k ∨ e.evt.redir.get s = 1 + k then 32 else k

/-- The class mask of a core: 0 normal, 1 fast. -/
def tmaskFld (k cls : Nat) : Fld := if cls = 1 then Reg.IRQ_TMASK_F k else Reg.IRQ_TMASK_N k

/-- Source `s` may be presented to core `k` in class `cls` (R330, R331, R336). -/
def Engine.candidate (e : Engine) (k cls s : Nat) : Bool :=
  let tgt := e.reg (Reg.IRQ_SCFG_TGT s)
  e.reg (Reg.IRQ_SCFG_EN s) == 1 && e.reg (Reg.IRQ_SCFG_HOST s) == 0 && e.reg (Reg.IRQ_SCFG_FAST s) == cls && e.coreFor s == k
    && e.reg (tmaskFld tgt cls) == 0 && e.reg (tmaskFld k cls) == 0 && (decide (32 ≤ k) || decide (e.evt.due.get s ≤ e.tim.bc))

/-- The best of some sources: the highest PRIO, then the lowest number. -/
def Engine.bestOf (e : Engine) (ss : List Nat) : Option Nat :=
  ss.foldl (fun a s => match a with
    | none => some s
    | some t => if e.reg (Reg.IRQ_SCFG_PRIO t) < e.reg (Reg.IRQ_SCFG_PRIO s) then some s else a) none

/-- The source field of a presentation. -/
def presSrc (k cls : Nat) : Fld := if cls = 1 then Reg.IRQ_TPRES_FSRC k else Reg.IRQ_TPRES_NSRC k
/-- The valid field of a presentation. -/
def presValid (k cls : Nat) : Fld := if cls = 1 then Reg.IRQ_TPRES_FVALID k else Reg.IRQ_TPRES_NVALID k

/-- The source presented to core `k` in class `cls`. -/
def Engine.presented (e : Engine) (k cls : Nat) : Option Nat :=
  if e.reg (presValid k cls) = 1 then some (e.reg (presSrc k cls)) else none

/-- A masked presentation: the source pends, but EN is 0 or its target's mask is set (R334). -/
def Engine.maskedAway (e : Engine) (k cls s : Nat) : Bool :=
  e.reg (Reg.IRQ_SSTAT_PEND s) == 1 && e.reg (Reg.IRQ_SCFG_HOST s) == 0 && e.reg (Reg.IRQ_SCFG_FAST s) == cls && e.coreFor s == k
    && !e.candidate k cls s

/-- IRQ_PRESENT for core `k` and class `cls` (R330, R333, R334), less IRQ_SSTAT.PRES. At a decision core a new presentation begins only at
sweep cycle 0 of a BC, that is at a `boundary` (R331). -/
def present (boundary : Bool) (pend : List Nat) (e : Engine) (kc : Nat × Nat) : Engine :=
  let (k, cls) := kc
  let old := e.presented k cls
  let new := e.bestOf (pend.filter (e.candidate k cls))
  let keep := old.filter (fun s => pend.contains s && e.candidate k cls s)
  let best := if boundary || decide (32 ≤ k) then new else keep
  if best = old then e
  else
    let e1 := match old with
      | some s => if e.maskedAway k cls s then e.bump Reg.IRQ_WITHDRAW_COUNT else e
      | none => e
    match best with
    | none => (e1.setReg (presValid k cls) 0).setReg (presSrc k cls) 0
    | some s =>
      let e2 := (e1.setReg (presValid k cls) 1).setReg (presSrc k cls) s
      let c := e2.core k
      let at_cyc := max e2.spr.base c.cyc
      e2.putCore k (if cls = 1 then { c with presF := at_cyc } else { c with presN := at_cyc })

/-- The cores, each with both classes. -/
def coreSlots : List (Nat × Nat) := (List.range 34).flatMap (fun k => [(k, 0), (k, 1)])

/-- The sources presented to cores. -/
def Engine.shownAtCores (e : Engine) : List Nat := coreSlots.filterMap (fun kc => e.presented kc.1 kc.2)

/-- The vector, or the function, is masked (R337). -/
def Engine.vecMasked (e : Engine) (v : Nat) : Bool := e.host.fnMask || tbit (e.host.msix.fld (msixFld v 3)) 0

/-- The held messages: one of a source that is routed elsewhere or cleared is withdrawn; EN = 0 withdraws too, and counts where masking has not
counted already; a message whose mask has been lifted is presented again (R333, R334, R337). -/
def keepMsgs (pend : List Nat) (e : Engine) : Engine :=
  let routed : HostIrq → Bool := fun m => pend.contains m.src && e.reg (Reg.IRQ_SCFG_HOST m.src) == 1 && e.reg (Reg.IRQ_SCFG_TGT m.src) == m.vec
  let on : HostIrq → Bool := fun m => e.reg (Reg.IRQ_SCFG_EN m.src) == 1
  let off := (e.evt.msgs.filter (fun m => routed m && !on m && !m.masked)).length
  let kept := (e.evt.msgs.filter (fun m => routed m && on m)).map (fun m => { m with masked := m.masked && e.vecMasked m.vec })
  let fresh := (pend.filter (fun s => e.reg (Reg.IRQ_SCFG_HOST s) == 1 && e.reg (Reg.IRQ_SCFG_EN s) == 1 && !kept.any (fun m => m.src == s))).map
    (fun s => ({ src := s, vec := e.reg (Reg.IRQ_SCFG_TGT s), masked := false } : HostIrq))
  let e1 : Engine := { e with evt := { e.evt with msgs := kept ++ fresh } }
  if off = 0 then e1 else e1.bumpBy Reg.IRQ_WITHDRAW_COUNT off

/-- The pending bits that held messages set: those of masked vectors (R337). Bit 1 of an entry of `HostSt.pba` is theirs. -/
def showPba (old : List HostIrq) (e : Engine) : Engine :=
  let vs := ((old ++ e.evt.msgs).map (·.vec)).dedup
  let t := vs.foldl (fun (t : Tab) v => t.set v (t.get v % 2 + 2 * b2n (e.evt.msgs.any (fun m => m.vec == v && m.masked)))) e.host.pba
  { e with host := { e.host with pba := t } }

/-- The sources that SC0 is shown in place of their cores, from then on (R336). -/
def keepRedirs (pend : List Nat) (e : Engine) : Engine :=
  let kept := e.evt.redir.filter (fun kv => pend.contains kv.1 && e.candidate 32 (e.reg (Reg.IRQ_SCFG_FAST kv.1)) kv.1 && e.reg (Reg.IRQ_SCFG_TGT kv.1) + 1 == kv.2)
  let t := ([e.presented 32 0, e.presented 32 1].filterMap id).foldl (fun (t : Tab) s =>
    if e.reg (Reg.IRQ_SCFG_TGT s) = 32 then t else t.set s (1 + e.reg (Reg.IRQ_SCFG_TGT s))) kept
  { e with evt := { e.evt with redir := t } }

/-- The presentations of every core and class, the messages held for the host, and what IRQ_SSTAT.PRES shows of them (R330 to R337). -/
def irqUpdate (boundary : Bool) (e : Engine) : Engine :=
  let pend := e.pendSources
  let before := e.shownAtCores
  if pend.isEmpty ∧ before.isEmpty ∧ e.evt.msgs.isEmpty then e
  else
    let e1 := keepRedirs pend (coreSlots.foldl (present boundary pend) e)
    let e2 := showPba e.evt.msgs (keepMsgs pend e1)
    let now := e2.shownAtCores ++ (e2.evt.msgs.filter (fun m => !m.masked)).map (·.src)
    let seen := (before ++ e.evt.msgs.map (·.src) ++ now ++ e2.evt.msgs.map (·.src)).dedup
    { e2 with regs := e2.regs.puts (seen.map (fun s => (Reg.IRQ_SSTAT_PRES s, b2n (now.contains s)))) }

/-- A rising edge of source `s` is taken, its line having been raised in BC `b` under the filter `n` (R325, R329, R331). -/
def takeEdge (s b n : Nat) (e : Engine) : Engine :=
  if e.reg (Reg.IRQ_SSTAT_PEND s) = 1 then e.bump Reg.IRQ_MERGE_COUNT
  else
    let due := b + 2 + ceilDiv (Config.raiseCycle s % 8 + n) 8
    let e1 := e.raiseBit (Reg.IRQ_SSTAT_PEND s)
    irqUpdate false { e1 with evt := { e1.evt with due := e1.evt.due.set s (if sourceFixed s then due else 0) } }

/-- IRQ_FILTER_PASS: the controller takes the new value of a line that has held it for IRQ_SFILT.N cycles: the high line of
a pulse source, or the level of a level source (R329). -/
def execIrqFilterPass (src : Nat) (level : Bool) (s : State) : Host.Outcome State Fault Refusal :=
  let e := s.eng
  if !sourceListed src then .next s
  else if sourceLevel src then
    let was := e.evt.taken.get src == 1
    let now := e.evt.nimNow - 2 ^ (src - Src.nim) * bit e.evt.nimNow (src - Src.nim) + 2 ^ (src - Src.nim) * b2n level
    let e1 : Engine := { e with evt := { e.evt with taken := e.evt.taken.set src (b2n level), nimNow := now } }
    .next { s with eng := if level && !was then takeEdge src e.tim.bc (e.reg (Reg.IRQ_SFILT_N src)) e1 else e1 }
  else
    let line := e.evt.lines.get src
    if line = 0 ∨ level = false then .next s
    else
      let e1 : Engine := { e with evt := { e.evt with lines := e.evt.lines.set src 0, lineN := e.evt.lineN.set src 0 } }
      .next { s with eng := takeEdge src (line - 1) (e.evt.lineN.get src) e1 }

/-! ### Acceptance (R332, R336) -/

/-- Core `k` accepts source `s`, presented to it in class `cls`. -/
def irqAccept (k cls s : Nat) (e : Engine) : Engine :=
  let tgt := e.reg (Reg.IRQ_SCFG_TGT s)
  let redirected := e.evt.redir.get s != 0
  let e1 := ((e.setReg (Reg.IRQ_SSTAT_PEND s) 0).setReg (Reg.IRQ_SSTAT_PRES s) 0).bump (Reg.IRQ_SCNT_COUNT s)
  let e2 := (e1.setReg (presValid k cls) 0).setReg (presSrc k cls) 0
  let e3 : Engine := { e2 with evt := { e2.evt with due := e2.evt.due.set s 0, redir := e2.evt.redir.set s 0 } }
  let e4 := if tgt = k ∨ !redirected then e3
    else (((e3.setReg Reg.IRQ_LASTREDIR_SRC s).setReg Reg.IRQ_LASTREDIR_CORE tgt).bump Reg.IRQ_REDIR_COUNT).raise Src.redir s
  irqUpdate false e4

/-- The cycle of the boundary at which core `k` can accept an interrupt, where it is clean (R286): a core that runs, or a
decision core that waits in WFF. -/
def cleanAt (e : Engine) (k : Nat) : Option Nat :=
  let c := e.core k
  let waits := c.st == 3 && !isService k
  if (c.st != 1 && !waits) || c.slot != 0 || c.inx then none
  else if waits then some (max c.cyc c.lastDue)
  else if c.lastDue ≤ c.cyc then some c.cyc else none

/-- The cycle at which core `k` accepts an interrupt presented in cycle `pres`: a clean boundary at or after it. A core that runs has one there
once it has come so far; one that waits in WFF has one at each cycle (R286, R290). -/
def acceptAt (e : Engine) (k pres : Nat) : Option Nat :=
  match cleanAt e k with
  | none => none
  | some b => if pres ≤ b then some b else if (e.core k).st = 3 then some pres else none

/-- Enter a handler at the boundary of cycle `b` (R286 to R288): `pcw`, `srcw`, `vecw` are the control words, `bitn` the
CW_STAT bit. -/
def enter (k b s pcw srcw vecw bitn pres : Nat) (e : Engine) : Engine :=
  let e1 := (e.putCore k { e.core k with cyc := b }).settle k
  let c := e1.core k
  let c1 := ((c.setCw pcw c.pc).setCw srcw s).setStat bitn true
  let c2 := c1.setCw 15 (max (c.cwv 15) (satU 16 (b - pres)))
  e1.putCore k { c2 with st := 1, pc := c.cwv vecw, cyc := b + 2 }

/-- NORMAL_INTERRUPT_ENTRY (R286, R287). A fast interrupt that the core would take goes first. -/
def execNormalInterruptEntry (k : Nat) (s : State) : Host.Outcome State Fault Refusal :=
  let e := s.eng
  let c := e.core k
  match decide (k < 34), acceptAt e k c.presN, e.presented k 0 with
  | true, some b, some src =>
    if c.ie && !c.inn && !c.inf && !(c.fie && (e.presented k 1).isSome) then
      .next { s with eng := irqAccept k 0 src (enter k b src 9 11 10 2 c.presN e) }
    else .next s
  | _, _, _ => .next s

/-- FAST_INTERRUPT_ENTRY (R286, R288). -/
def execFastInterruptEntry (k : Nat) (s : State) : Host.Outcome State Fault Refusal :=
  let e := s.eng
  let c := e.core k
  match decide (k < 34), acceptAt e k c.presF, e.presented k 1 with
  | true, some b, some src =>
    if c.fie && !c.inf then .next { s with eng := irqAccept k 1 src (enter k b src 12 14 13 3 c.presF e) } else .next s
  | _, _, _ => .next s

/-- A service core that waits in WFF completes at a presentation (R290, R335). -/
def wakeService (e : Engine) (k : Nat) : Engine :=
  let c := e.core k
  match (e.presented k 1).orElse (fun _ => e.presented k 0) with
  | none => e
  | some src =>
    let p := max (max c.cyc c.lastDue) (if (e.presented k 1).isSome then c.presF else c.presN)
    let e1 := (e.putCore k { c with cyc := p }).settle k
    let c1 := (e1.core k).result c.waitRd src 1
    (e1.putCore k { c1.advance with st := 1 }).bump (Reg.IRQ_TWAKE_COUNT k)

/-- WFF_COMPLETE: a decision core takes its frame, a service core the source that wakes it (R290, R295, R335). While TIM is
unlocked no frame exists. -/
def execWffComplete (k : Nat) (s : State) : Host.Outcome State Fault Refusal :=
  let e := s.eng
  if 34 ≤ k ∨ (e.core k).st ≠ 3 then .next s
  else if isService k then .next { s with eng := wakeService e k }
  else .next { s with eng := if e.locked then takeFrame e k else e }

/-- MSIX_SEND: the message of a host-targeted source enters the outbound queue, or counts as masked before acceptance and sets its vector's
pending bit where the vector or the function is masked (R334, R337). -/
def execMsixSend (src : Nat) (s : State) : Host.Outcome State Fault Refusal :=
  let e := s.eng
  let v := e.reg (Reg.IRQ_SCFG_TGT src)
  let pend := e.reg (Reg.IRQ_SSTAT_PEND src) == 1 && e.reg (Reg.IRQ_SCFG_EN src) == 1 && e.reg (Reg.IRQ_SCFG_HOST src) == 1
  if !pend || !e.serving || e.reg Reg.HST_STATUS_LINKUP == 0 then .next s
  else if e.vecMasked v then
    if e.evt.msgs.any (fun m => m.src == src && m.masked) then .next s
    else
      let m : HostIrq := { src := src, vec := v, masked := true }
      let e1 : Engine := { e with evt := { e.evt with msgs := e.evt.msgs.filter (fun x => x.src != src) ++ [m] } }
      .next { s with eng := (showPba [] (e1.bump Reg.IRQ_WITHDRAW_COUNT)).setReg (Reg.IRQ_SSTAT_PRES src) 0 }
  else
    let e1 := e.sendMsix v
    .next { s with eng := irqUpdate false (((e1.setReg (Reg.IRQ_SSTAT_PEND src) 0).setReg (Reg.IRQ_SSTAT_PRES src) 0).bump (Reg.IRQ_SCNT_COUNT src)) }

/-- Clear a source's PEND and withdraw its interrupt (R334). -/
def clearPend (src : Nat) (e : Engine) : Engine :=
  let e1 := (e.setReg (Reg.IRQ_SSTAT_PEND src) 0).setReg (Reg.IRQ_SSTAT_PRES src) 0
  irqUpdate false { e1 with evt := { e1.evt with due := e1.evt.due.set src 0 } }

/-- IRQ_PEND_WRITE: a 1 written to IRQ_SSTAT.PEND (R334). -/
def execIrqPendWrite (src : Nat) (s : State) : Host.Outcome State Fault Refusal :=
  if 4096 ≤ src then .next s else .next { s with eng := clearPend src s.eng }

/-! ### IRQ functions (R338, Table 15.7) -/

/-- The context check of the target source (R314, R320). -/
def srcOwner (e : Engine) (p : Packet) : Option Nat := notOwn p.ctx (e.sourceOwner p.target)

/-- A target that a source may be routed to (R330, R331). -/
def routeOk (src host tgt : Nat) : Bool :=
  if host = 1 then decide (tgt < 2048) else decide (tgt ≤ 33) && (decide (32 ≤ tgt) || sourceFixed src)

/-- ROUTE. -/
def fnRoute : Fn :=
  { op := 0x0E10, kind := .action, noApply := true, owner := srcOwner
    range := fun _ p => firstBad [srcTarget p, (decide (p.arg 0 ≤ 1), 8), (decide (p.arg 1 ≤ 1), 9), (decide (p.arg 2 ≤ 7), 10),
      (decide (p.arg 3 ≤ 1), 11), (routeOk p.target (p.arg 3) (p.arg 4), 12)] }

/-- The writes of a route. -/
def routeWrites (s en fast prio host tgt : Nat) : List (Fld × Nat) :=
  [(Reg.IRQ_SCFG_EN s, en), (Reg.IRQ_SCFG_FAST s, fast), (Reg.IRQ_SCFG_PRIO s, prio), (Reg.IRQ_SCFG_HOST s, host), (Reg.IRQ_SCFG_TGT s, tgt)]

/-- SET_FILTER. -/
def fnSetFilter : Fn :=
  { op := 0x0E11, kind := .action, noApply := true, owner := srcOwner
    range := fun _ p => firstBad [srcTarget p, (decide (p.arg 0 ≤ 255), 8)] }

/-- MASK_TARGET. -/
def fnMaskTarget : Fn :=
  { op := 0x0E12, kind := .action, noApply := true, owner := fun e p => e.ownerBad p.ctx 3 p.target
    range := fun _ p => firstBad [(decide (p.target ≤ 33), 7), (decide (p.arg 0 ≤ 1), 8), (decide (p.arg 1 ≤ 1), 9)] }

/-- CLEAR_PENDING. -/
def fnClearPending : Fn :=
  { op := 0x0E13, kind := .action, noApply := true, owner := srcOwner, range := fun _ p => firstBad [srcTarget p] }

/-- RAW_SOURCES. -/
def fnIrqRawSources : Fn :=
  { op := 0x0E80, kind := .direct, len := lenTimes 8 4096
    owner := fun e p => (((List.range (p.nwords / 2)).map (· + p.target)).filter sourceListed).findSome? (fun s => notOwn p.ctx (e.sourceOwner s))
    range := fun _ p => match firstBad [(decide (p.target + p.nwords / 2 ≤ 4096), 7)] with
      | some d => some d
      | none => wordsBad p (fun i v =>
        let s := p.target + i / 2
        if i % 2 = 0 then within 0x07FF0173 v && (!tbit v 0 || (sourceListed s && routeOk s (bit v 8) (bits v 26 16)))
        else within 0xFF v) }

/-- ROUTE (R330, R331). -/
def execRoute (p : Packet) (s : State) : Host.Outcome State Fault Refusal :=
  let e1 := runAction fnRoute noExtra
    (fun e p => e.laterAll (routeWrites p.target (p.arg 0) (p.arg 1) (p.arg 2) (p.arg 3) (p.arg 4))) p s.eng
  .next { s with eng := e1 }

/-- SET_FILTER (R329). -/
def execSetFilter (p : Packet) (s : State) : Host.Outcome State Fault Refusal :=
  .next { s with eng := runAction fnSetFilter noExtra (fun e p => e.later (Reg.IRQ_SFILT_N p.target) (p.arg 0)) p s.eng }

/-- MASK_TARGET (R334). -/
def execMaskTarget (p : Packet) (s : State) : Host.Outcome State Fault Refusal :=
  let e1 := runAction fnMaskTarget noExtra
    (fun e p => e.laterAll [(Reg.IRQ_TMASK_N p.target, p.arg 0), (Reg.IRQ_TMASK_F p.target, p.arg 1)]) p s.eng
  .next { s with eng := e1 }

/-- CLEAR_PENDING (R334). -/
def execClearPending (p : Packet) (s : State) : Host.Outcome State Fault Refusal :=
  .next { s with eng := runAction fnClearPending noExtra (fun e p => clearPend p.target e) p s.eng }

/-- RAW_SOURCES (R338). -/
def execIrqRawSources (p : Packet) (s : State) : Host.Outcome State Fault Refusal :=
  let e1 := runAction fnIrqRawSources noExtra (fun e p =>
    e.laterAll ((List.range (p.nwords / 2)).flatMap (fun i =>
      let w := p.word (2 * i)
      routeWrites (p.target + i) (bit w 0) (bit w 1) (bits w 6 4) (bit w 8) (bits w 26 16)
        ++ [(Reg.IRQ_SFILT_N (p.target + i), p.word (2 * i + 1) % 256)]))) p s.eng
  .next { s with eng := e1 }

end Sys2Proof.Machine
end

