-- ==== Sys2Proof/Machine/Counters.lean ====
section
/-! DEFINITION. The cascade counters (chapter 16). An increment comes by COUNTER_INCREMENT, one for each cycle of the
counter's source; COUNTER_MATCH and COUNTER_OVERFLOW are the increments that match or overflow (assumption 27). -/

namespace Sys2Proof.Machine

/-- CNT_CFG.SRC of CASCADE. -/
def srcCascade : Nat := 4

/-- Counter `n` continues the chain of counter `n − 1` (R341). -/
def Engine.cascades (e : Engine) (n : Nat) : Bool := decide (n < 64) && e.reg (Reg.CNT_CFG_SRC n) == srcCascade

/-- One increment of counter `n`, with the carries above it in the same cycle (R340, R341, R345, R347); the fuel bounds the
chain. -/
def Engine.incrFuel : Nat → Engine → Nat → Engine
  | 0, e, _ => e
  | fuel + 1, e, n =>
    let v := (e.reg (Reg.CNT_VAL_COUNT n) + 1) % 2 ^ 32
    let e1 := e.setReg (Reg.CNT_VAL_COUNT n) v
    let e2 := if v = e.reg (Reg.CNT_CMP_VAL n) then
        let a := e1.raiseBit (Reg.CNT_STAT_MATCH n)
        if a.reg (Reg.CNT_CFG_EVM n) = 1 then a.raise (Src.cnt + 2 * n) v else a
      else e1
    if v = 0 then
      let a := e2.raiseBit (Reg.CNT_STAT_OVF n)
      let b := if a.reg (Reg.CNT_CFG_EVO n) = 1 then a.raise (Src.cnt + 2 * n + 1) v else a
      if b.cascades (n + 1) then Engine.incrFuel fuel b (n + 1) else b
    else e2

/-- The counters of the chain whose head is counter `n`: `n`, and the CASCADE counters above it without a break (R341). -/
def Engine.chainOf (e : Engine) (n : Nat) : List Nat := n :: ((List.range (63 - n)).map (· + n + 1)).takeWhile e.cascades

/-- The chain of head `n` latches its counts into the image of the snapshot in progress (R349). -/
def latchChain (n : Nat) (e : Engine) : Engine :=
  let ns := (e.chainOf n).filter (fun m => !e.cnt.latched.contains m)
  { e with regs := e.regs.puts (ns.map (fun m => (Reg.CNT_SNAPV_COUNT m, e.reg (Reg.CNT_VAL_COUNT m))))
           cnt := { e.cnt with latched := e.cnt.latched ++ ns } }

/-- A chain counts, `count` being its increment. While a snapshot is in progress that has not latched it, a chain on REF or SWEEP, which count at
every edge of their clock, latches at the end of this cycle, its first since the request. BC and EVENT count at some edges only: whether the
first edge was one before this is not in the commands, and is free (R349; assumption 1). -/
def countLatched (n : Nat) (count : Engine → Engine) (e : Engine) : Engine :=
  if e.cnt.snapping = false ∨ e.cnt.latched.contains n then count e
  else if e.reg (Reg.CNT_CFG_SRC n) % 2 = 0 then latchChain n (count e)
  else
    let (v, e1) := e.freeVal
    if v % 2 = 0 then latchChain n (count e1) else count (latchChain n e1)

/-- One cycle of counter `n`'s source. A CASCADE counter takes only carries; an EVENT counter takes an activation of its
input. The unit in OFF has no clock (R342). -/
def increment (n : Nat) (e : Engine) : Engine :=
  let src := e.reg (Reg.CNT_CFG_SRC n)
  if 64 ≤ n ∨ srcCascade ≤ src ∨ e.st = stOff then e
  else if src = 3 then
    if e.cnt.acts.get n = 0 then e
    else countLatched n (fun a => Engine.incrFuel 64 { a with cnt := { a.cnt with acts := a.cnt.acts.set n (a.cnt.acts.get n - 1) } } n) e
  else countLatched n (fun a => Engine.incrFuel 64 a n) e

/-- COUNTER_INCREMENT (R340). -/
def execCounterIncrement (n : Nat) (s : State) : Host.Outcome State Fault Refusal :=
  .next { s with eng := increment n s.eng }

/-- COUNTER_MATCH: the increment that makes the count equal CMP (R345, R347). -/
def execCounterMatch (n : Nat) (s : State) : Host.Outcome State Fault Refusal :=
  if (s.eng.reg (Reg.CNT_VAL_COUNT n) + 1) % 2 ^ 32 = s.eng.reg (Reg.CNT_CMP_VAL n) then .next { s with eng := increment n s.eng }
  else .next s

/-- COUNTER_OVERFLOW: the increment from 0xFFFF_FFFF (R340, R347). -/
def execCounterOverflow (n : Nat) (s : State) : Host.Outcome State Fault Refusal :=
  if s.eng.reg (Reg.CNT_VAL_COUNT n) = 0xFFFFFFFF then .next { s with eng := increment n s.eng } else .next s

/-! ### Writes (R343, R344) -/

/-- Queue a write of counter `n`: kind 0 load, 1 compare, 2 CNT_CFG. -/
def cntWrite (n kind v : Nat) (e : Engine) : Engine :=
  if 64 ≤ n then e else { e with cnt := { e.cnt with writes := e.cnt.writes ++ [⟨n, kind, v, false⟩] } }

/-- A BC boundary passes: writes that wait take effect at the next edge of their chain's clock (R343). -/
def cntBoundary (e : Engine) : Engine :=
  if e.cnt.writes.isEmpty then e
  else { e with cnt := { e.cnt with writes := e.cnt.writes.map (fun w => { w with armed := true }) } }

/-- The heads of the chains (R341). -/
def chainHeads (e : Engine) : Engine :=
  ((List.range 64).foldl (fun (a : Engine × Nat) n =>
    let h := if a.1.cascades n then a.2 else n
    (a.1.setReg (Reg.CNT_CHAIN_HEAD n) h, h)) (e, 0)).1

/-- A reserved source, or CASCADE of CNT0 (R341). -/
def srcBad (n src : Nat) : Bool := decide (srcCascade < src) || (n == 0 && src == srcCascade)

/-- Step 1 of R344 for one write. -/
def applyCntWrite (e : Engine) (w : CntWrite) : Engine :=
  if w.kind = 0 then e.setReg (Reg.CNT_VAL_COUNT w.n) w.val
  else if w.kind = 1 then e.setReg (Reg.CNT_CMP_VAL w.n) w.val
  else
    let e1 := (e.setReg (Reg.CNT_CFG_EVM w.n) (bit w.val 8)).setReg (Reg.CNT_CFG_EVO w.n) (bit w.val 9)
    if srcBad w.n (w.val % 8) then e1 else chainHeads (e1.setReg (Reg.CNT_CFG_SRC w.n) (w.val % 8))

/-- COUNTER_WRITE_APPLY: the writes of counter `n` that have passed a BC boundary take effect (R343, R344). -/
def execCounterWriteApply (n : Nat) (s : State) : Host.Outcome State Fault Refusal :=
  let e := s.eng
  let due : CntWrite → Bool := fun w => w.n == n && w.armed
  let e1 : Engine := { e with cnt := { e.cnt with writes := e.cnt.writes.filter (fun w => !due w) } }
  .next { s with eng := (e.cnt.writes.filter due).foldl applyCntWrite e1 }

/-- A write to CNT_LOAD (R343, R344). -/
def execCntLoadWrite (n val : Nat) (s : State) : Host.Outcome State Fault Refusal :=
  .next { s with eng := cntWrite n 0 (val % 2 ^ 32) s.eng }

/-! ### Snapshots (R349) -/

/-- Request a snapshot, or join the one in progress. -/
def snapRequest (e : Engine) : Engine :=
  if e.cnt.snapping then e else { e with cnt := { e.cnt with snapping := true, latched := [] } }

/-- CNT_SNAP.REQ. -/
def execCntSnapReq (s : State) : Host.Outcome State Fault Refusal := .next { s with eng := snapRequest s.eng }

/-- The 272 bytes SNAP writes (Table 16.3). -/
def snapBytes (e : Engine) : List Byte :=
  leBytes 4 (e.reg Reg.CNT_SNAPST_LO_STAMP) ++ leBytes 4 (e.reg Reg.CNT_SNAPST_HI_STAMP) ++ leBytes 4 (e.reg Reg.CNT_SNAPSEQ_SEQ) ++ leBytes 4 0
    ++ (List.range 64).flatMap (fun n => leBytes 4 (e.reg (Reg.CNT_SNAPV_COUNT n)))

/-- SNAPSHOT_COMPLETE: every chain has latched, those last whose first edge counted nothing (R349); SNAP commands that wait write their
buffer and complete. -/
def execSnapshotComplete (s : State) : Host.Outcome State Fault Refusal :=
  let e := s.eng
  if !e.cnt.snapping then .next s
  else
    let st := e.stampNow
    let late := (List.range 64).filter (fun n => !e.cnt.latched.contains n)
    let e1 : Engine := { e with regs := e.regs.puts (late.map (fun n => (Reg.CNT_SNAPV_COUNT n, e.reg (Reg.CNT_VAL_COUNT n)))) }
    let e2 := e1.setReg Reg.CNT_SNAPSEQ_SEQ (e.reg Reg.CNT_SNAPSEQ_SEQ + 1)
    let e3 := (e2.setReg Reg.CNT_SNAPST_LO_STAMP st).setReg Reg.CNT_SNAPST_HI_STAMP (st / 2 ^ 32)
    let e4 : Engine := { e3 with cnt := { e3.cnt with snapping := false, latched := [], snaps := [] } }
    let e5 := e.cnt.snaps.foldl (fun (a : Engine) (r, t, nf, addr) => (a.post addr (snapBytes a)).completeAt r t nf .ok a.cxNow) e4
    .next { s with eng := e5 }

/-! ### Functions (R351, R352) -/

/-- The target is a counter. -/
def cntTarget (p : Packet) : Bool × Nat := (decide (p.target < 64), 7)

/-- The context check of counters `n` on. -/
def cntOwner (e : Engine) (p : Packet) : Option Nat := e.ownerBad p.ctx 6 p.target

/-- A CASCADE link from counter `n` down would join two contexts, neither of them context 0 (R351). -/
def cascadeForeign (e : Engine) (n : Nat) : Option Nat :=
  let below := e.ownerOf 6 (n - 1)
  if below = e.ownerOf 6 n ∨ below = 0 then none else some (below % 256)

/-- SET_COUNTER. -/
def fnSetCounter : Fn :=
  { op := 0x0F10, kind := .action, noApply := true
    owner := fun e p => orOwner (cntOwner e p) (if p.arg 0 = srcCascade ∧ p.target ≠ 0 then cascadeForeign e p.target else none)
    range := fun _ p => firstBad [cntTarget p, (!srcBad p.target (p.arg 0), 8), (decide (p.arg 1 ≤ 1), 9), (decide (p.arg 2 ≤ 1), 10)] }

/-- LOAD. -/
def fnLoad : Fn := { op := 0x0F11, kind := .action, noApply := true, owner := cntOwner, range := fun _ p => firstBad [cntTarget p] }

/-- SET_COMPARE. -/
def fnSetCompare : Fn := { op := 0x0F12, kind := .action, noApply := true, owner := cntOwner, range := fun _ p => firstBad [cntTarget p] }

/-- SNAP. -/
def fnSnap : Fn := { op := 0x0F13, kind := .action, noApply := true, range := fun _ p => firstBad [(p.target == 0, 7)], align := bufAlign }

/-- RAW_COUNTERS. -/
def fnRawCounters : Fn :=
  { op := 0x0F80, kind := .direct, len := lenTimes 8 64
    owner := fun e p => ((List.range (p.nwords / 2)).map (fun i => (p.target + i, p.word (2 * i) % 8))).findSome? (fun (n, src) =>
      orOwner (e.ownerBad p.ctx 6 n) (if src = srcCascade ∧ n ≠ 0 then cascadeForeign e n else none))
    range := fun _ p => match firstBad [(decide (p.target + p.nwords / 2 ≤ 64), 7)] with
      | some d => some d
      | none => wordsBad p (fun i v => i % 2 == 1 || (within 0x307 v && !srcBad (p.target + i / 2) (v % 8))) }

/-- SET_COUNTER (R340, R343, R351). -/
def execSetCounter (p : Packet) (s : State) : Host.Outcome State Fault Refusal :=
  let e1 := runAction fnSetCounter noExtra
    (fun e p => cntWrite p.target 2 (p.arg 0 + 256 * p.arg 1 + 512 * p.arg 2) e) p s.eng
  .next { s with eng := e1 }

/-- LOAD (R343, R344). -/
def execLoad (p : Packet) (s : State) : Host.Outcome State Fault Refusal :=
  .next { s with eng := runAction fnLoad noExtra (fun e p => cntWrite p.target 0 (p.arg 0) e) p s.eng }

/-- SET_COMPARE (R343, R345). -/
def execSetCompare (p : Packet) (s : State) : Host.Outcome State Fault Refusal :=
  .next { s with eng := runAction fnSetCompare noExtra (fun e p => cntWrite p.target 1 (p.arg 0) e) p s.eng }

/-- SNAP: request a snapshot; SNAPSHOT_COMPLETE completes the command (R349, R352). -/
def execSnap (p : Packet) (s : State) : Host.Outcome State Fault Refusal :=
  let e1 := runAsync fnSnap noExtra (fun e p =>
    let e1 := snapRequest e
    { e1 with cnt := { e1.cnt with snaps := e1.cnt.snaps ++ [(p.ring, p.tag, p.notify, p.arg64 0)] } }) p s.eng
  .next { s with eng := e1 }

/-- RAW_COUNTERS (R343, R352). -/
def execRawCounters (p : Packet) (s : State) : Host.Outcome State Fault Refusal :=
  let e1 := runAction fnRawCounters noExtra (fun e p =>
    (List.range (p.nwords / 2)).foldl (fun a i =>
      cntWrite (p.target + i) 1 (p.word (2 * i + 1)) (cntWrite (p.target + i) 2 (p.word (2 * i)) a)) e) p s.eng
  .next { s with eng := e1 }

end Sys2Proof.Machine
end

