-- ==== Sys2Proof/Machine/Mem.lean ====
section
/-! DEFINITION. The MEM commands and the bank cycle, scrubber, capture copier and post-mortem freeze (R358 to R371). -/

namespace Sys2Proof.Machine

/-! ### Bank cycles (R358 to R360) -/

/-- What a port reads: the word at its offset, and the error flag. -/
def portRead (e : Engine) (a : PortAccess) : Engine × Nat × Bool :=
  let (e1, bs, bad) := sramRead e (a.offset / 8 * 8) 8
  (e1, leVal bs, bad)

/-- What a port writes: at most the bytes of one word. -/
def portWrite (e : Engine) (a : PortAccess) : Engine :=
  let bs := a.bytes.take (8 - a.offset % 8)
  match a.op with
  | .read => e
  | .write => (sramWrite e a.offset bs).1
  | .bitSet => (aliasWrite true e a.offset bs).1
  | .bitClear => (aliasWrite false e a.offset bs).1

/-- The access writes. -/
def PortAccess.writes (a : PortAccess) : Bool := match a.op with
  | .read => false
  | _ => true

/-- One bank cycle: both ports read the words as they were before it; of two writes to one word port 0's is stored (R358,
Table 17.2). -/
def bankCycle (p0 p1 : Option PortAccess) (e : Engine) : Engine :=
  let one : Engine × List (Nat × Bool) → Option PortAccess → Engine × List (Nat × Bool) := fun r p => match p with
    | some a => if a.writes then (r.1, r.2 ++ [(0, false)]) else
        let (e1, v, bad) := portRead r.1 a
        (e1, r.2 ++ [(v, bad)])
    | none => (r.1, r.2 ++ [(0, false)])
  let (e1, rs) := one (one (e, []) p0) p1
  let e2 : Engine := { e1 with mem := { e1.mem with portRead := rs } }
  let e3 := match p0 with
    | some a => portWrite e2 a
    | none => e2
  match p0, p1 with
  | some a, some b =>
    if a.writes && b.writes && a.offset / 8 == b.offset / 8 then
      ((e3.bump Reg.MEM_WWCOL_COUNT).setReg Reg.MEM_WWADDR_ADDR b.offset).raise Src.wwcol b.offset
    else portWrite e3 b
  | _, some b => portWrite e3 b
  | _, _ => e3

/-- The order in which the priority of port 1 rotates (R357). -/
def requesters : List Requester := [.hst, .dma, .blt0, .blt1, .sc0, .sc1, .copier]

/-- The access lies in a bank of shared SRAM. -/
def inBank (bank : Nat) (a : PortAccess) : Bool := decide (a.offset < sramSize) && a.offset / 262144 == bank

/-- The access that port 1 of a bank serves: the oldest one of the first requester, in the fixed order that follows the requester served
last, that has one pending (R357). -/
def portPick (e : Engine) (bank : Nat) : Option (Requester × PortAccess) :=
  let n := e.mem.served.get bank
  ((requesters.drop n ++ requesters.take n).findSome? (fun q => e.mem.waiting.find? (fun w => w.1 == q && inBank bank w.2)))

/-- A bank cycle: port 0 serves what it has, and port 1 the access that its priority picks; where nothing is pending there, a corrected
word of the bank is written back, unless port 0 writes it first (R357, R360). -/
def serveBank (bank : Nat) (port0 : Option PortAccess) (e : Engine) : Engine :=
  match portPick e bank with
  | some w =>
    bankCycle port0 (some w.2) { e with mem := { e.mem with
      waiting := e.mem.waiting.erase w, served := e.mem.served.set bank (1 + requesters.idxOf w.1) } }
  | none =>
    let e1 := bankCycle port0 none e
    match e1.mem.wback.find? (fun k => 8 * k / 262144 == bank) with
    | some k => wordBack e1 k
    | none => e1

/-- What the memories do in a BC beside their accesses: each bank has cycles enough for the accesses that wait at its port 1 and for the
words to write back (assumption 7), and the copier's staging buffer drains at 273.0 GB/s (R366; assumption 61). -/
def memRest (e : Engine) : Engine :=
  let e1 := (List.range e.mem.waiting.length).foldl (fun a _ => match a.mem.waiting with
    | w :: _ => serveBank (w.2.offset / 262144) none a
    | [] => a) e
  let e2 := e1.mem.wback.foldl wordBack e1
  if e2.mem.stageUsed = 0 then e2
  else { e2 with mem := { e2.mem with stageUsed := e2.mem.stageUsed - 273000000 / e2.act Reg.TIM_FNOM_KHZ } }

/-- SRAM_ACCESS (R354, R357, R358, R360): the accesses that reach port 1 of the bank wait with those that wait already, and the bank
serves one of them beside port 0's. Accesses that lie elsewhere are none of this bank's. -/
def execSramAccess (cycle : BankCycle) (port1 : List (Requester × PortAccess)) (s : State) : Host.Outcome State Fault Refusal :=
  let e := s.eng
  let e1 : Engine := { e with mem := { e.mem with waiting := e.mem.waiting ++ port1.filter (fun w => inBank cycle.bank w.2) } }
  .next { s with eng := serveBank cycle.bank (cycle.port0.filter (inBank cycle.bank)) e1 }

/-- SCRUB_PASS: the scrubber reads every word, in bank cycles that port 1 leaves free (R357, R362); a word that holds no error reads as it
is. -/
def execScrubPass (s : State) : Host.Outcome State Fault Refusal :=
  let e := s.eng
  if e.reg Reg.MEM_SCRUB_EN = 0 then .next s
  else .next { s with eng := (e.mem.ecc.map (·.1)).foldl (fun a k => (eccRead a k).1) e }

/-- JOURNAL_COMPACTION: SC1 starts or ends rewriting live records (R370). -/
def execJournalCompaction (running : Bool) (s : State) : Host.Outcome State Fault Refusal :=
  let e := s.eng
  let e1 := if !running && e.reg Reg.MEM_JSTAT_COMPACT == 1 then journalCompact e else e
  .next { s with eng := e1.setReg Reg.MEM_JSTAT_COMPACT (b2n running) }

/-! ### Captures (R174, R366 to R368) -/

/-- Bytes filled up to a multiple of 64. -/
def pad64 (bs : List Byte) : List Byte := bs ++ leBytes ((64 - bs.length % 64) % 64) 0

/-- A capture record of a frame (R367, Table 17.4). -/
def captureRecord (f : Frame) (accept : Nat) : List Byte :=
  let t := f.cfg
  let doms := (if t.fld Reg.OUT_DCAP_DOMEA = 1 then [0] else []) ++ (if t.fld Reg.OUT_DCAP_DOMEB = 1 then [1] else [])
  let count : Nat → Nat := fun d => if doms.contains d then (f.objsOf d).length else 0
  let body := doms.flatMap (fun d => pad64 ((f.pic.outs.getD d []).flatMap (leBytes 2)) ++ pad64 ((f.objsOf d).flatMap (objBytes f d)))
  leBytes 8 (stampOf (orbitLen t) f.n) ++ leBytes 8 accept ++ leBytes 2 (mapCols t) ++ leBytes 2 (mapRows t)
    ++ leBytes 1 (t.fld Reg.OUT_DCAP_DOMEA + 2 * t.fld Reg.OUT_DCAP_DOMEB)
    ++ leBytes 1 (b2n f.stale + 2 * b2n f.invalid + 4 * b2n f.spr + 8 * b2n f.req + 16 * b2n f.fs)
    ++ leBytes 2 (count 0) ++ leBytes 2 (count 1) ++ leBytes 2 0 ++ leBytes 4 (64 + body.length) ++ leBytes 32 0 ++ body

/-- First address of the freeze slots, and of the capture region (Table 17.3). -/
def freezeBase (e : Engine) : Nat := 2 ^ 37 + e.act Reg.MEM_CAPCFG_LOGSZ * 2 ^ 30
/-- See `freezeBase`. -/
def captureBase (e : Engine) : Nat := freezeBase e + 2 ^ 30

/-- Append a record to the capture region and move MEM_CAPHEAD (R366). -/
def appendCapture (e : Engine) (bs : List Byte) : Engine :=
  let head := e.reg Reg.MEM_CAPHEAD_LO_ADDR + 2 ^ 32 * e.reg Reg.MEM_CAPHEAD_HI_ADDR
  let start := if captureBase e ≤ head ∧ head + bs.length ≤ 2 ^ 38 then head else captureBase e
  let e1 := e.storeBytes start bs
  let next := start + bs.length
  (e1.setReg Reg.MEM_CAPHEAD_LO_ADDR next).setReg Reg.MEM_CAPHEAD_HI_ADDR (next / 2 ^ 32)

/-- The frames the stage buffers hold: the 64 composed last, latest first (R25). -/
def stageFrames (e : Engine) : List Frame := (e.frames.filter (fun f => !f.pic.outs.isEmpty)).take 64

/-- Bytes of the copier's staging buffer (R366). -/
def stagingSize : Nat := 2 ^ 22

/-- The capture `c` waits for the staging buffer, which counts once (R366). -/
def stallCapture (e : Engine) (c : Cap) : Engine :=
  let e1 := if c.stalled then e else e.bump Reg.MEM_CSTALL_COUNT
  { e1 with out := { e1.out with caps := { c with stalled := true } :: e1.out.caps } }

/-- Copy the capture `c`; drop it where its frame has been overwritten (R174); let it wait where the staging buffer has no room for its
record (R366). Its record is read in capture memory from now on, though the buffer may not have drained (assumption 61). -/
def copyCapture (e : Engine) (c : Cap) : Engine :=
  match (stageFrames e).find? (fun f => f.n == c.n) with
  | none => (e.bump Reg.OUT_DCAPDROP_COUNT).raise Src.capDrop 0
  | some f =>
    let bs := captureRecord f c.accept
    if stagingSize < e.mem.stageUsed + bs.length then stallCapture e c
    else
      let e0 : Engine := { e with mem := { e.mem with stageUsed := e.mem.stageUsed + bs.length } }
      let e1 := appendCapture (e0.bump Reg.OUT_DCAPCNT_COUNT) bs
      (setups f.cfg tCaps).foldl (fun a id =>
        (a.strWrite id 2 (stampOf (orbitLen f.cfg) f.n) (strFlags f.stale f.invalid) bs).1) e1

/-- CAPTURE_COPY: the capture accepted first (R174, R366). The display path runs in SAFE, ARMED and HOLD only (R173, Table 1.5). -/
def execCaptureCopy (s : State) : Host.Outcome State Fault Refusal :=
  match s.eng.out.caps with
  | [] => .next s
  | c :: cs => if !s.eng.running then .next s else .next { s with eng := copyCapture { s.eng with out := { s.eng.out with caps := cs } } c }

/-! ### Post-mortem freezes (R34, R179, R180, R369) -/

/-- One stage-buffer entry: header, 32,768 cells, 256 object records. The header is that of a history entry; the source
gives it no layout (assumption 29). -/
def stageBytes (f : Frame) (d : Nat) : List Byte :=
  let cells := (f.pic.outs.getD d []).flatMap (leBytes 2)
  let objs := (f.objsOf d).flatMap (objBytes f d)
  (historyBytes f d).take 64 ++ cells ++ leBytes (65536 - cells.length) 0 ++ objs ++ leBytes (4096 - objs.length) 0

/-- The bytes of the history ring are read for a freeze: the engine, and the words whose bytes were returned with inverted bits, with those
bits (R360). -/
def readRing (e : Engine) (n : Nat) : Engine × List (Nat × Nat) :=
  (errWords e 0x400000 n).foldl (fun r k =>
    let (e1, m, _) := eccRead r.1 k
    (e1, if m = 0 then r.2 else r.2 ++ [(k, m)])) (e, [])

/-- Copy the history ring and the stage buffers into freeze slot `k`, Dome A first (R369). -/
def fillFreeze (e : Engine) (k : Nat) : Engine :=
  let base := freezeBase e + k * 2 ^ 27
  let ring := (histDepth e.active 0 + histDepth e.active 1) * histEntry e.active
  let (e0, wrong) := readRing e ring
  let e1 := e0.zeroBytes base (2 ^ 27)
  let e2 := (e.mem.cells.filter (fun c => decide (0x400000 ≤ c.1) && decide (c.1 < 0x400000 + ring))).foldl (fun a c =>
    { a with mem := { a.mem with cells := memSet a.mem.cells (base + (c.1 - 0x400000)) c.2 } }) e1
  let e3 := wrong.foldl (fun a km => let at8 := base + (8 * km.1 - 0x400000)
    a.storeBytes at8 (xorBytes (a.bytes at8 8) km.2)) e2
  let fs := (stageFrames e).reverse
  [0, 1].foldl (fun a d => (indexed fs).foldl (fun b xf => b.storeBytes (base + ring + (64 * d + xf.1) * 69696) (stageBytes xf.2 d)) a) e3

/-- The slot a freeze with the given cause takes: the lowest free one; for a FAULT also the oldest that is not a FAULT's. -/
def freezeSlot (e : Engine) (cause : Nat) : Option Nat :=
  match (List.range 8).find? (fun k => !tbit (e.reg Reg.MEM_FZSTAT_HELD) k) with
  | some k => some k
  | none => if cause = 1 then e.mem.held.find? (fun k => !tbit (e.reg Reg.MEM_FZSTAT_FAULT) k) else none

/-- The ring after its freeze: RUN where AUTO is set and no FAULT has caused it or come since, else FROZEN (R179, R180). -/
def afterFreeze (cause : Nat) (e : Engine) : Engine :=
  if cause ≠ 1 ∧ e.reg Reg.OUT_HSTAT_CAUSE ≠ 1 ∧ e.act Reg.OUT_HFRZ_AUTO = 1 ∧ e.reg Reg.OUT_HSTAT_STATE = 3 then e.setReg Reg.OUT_HSTAT_STATE 1 else e

/-- POST_MORTEM_FREEZE: the freeze that is due first (R369). -/
def execPostMortemFreeze (s : State) : Host.Outcome State Fault Refusal :=
  match s.eng.out.freezes with
  | [] => .next s
  | cause :: rest =>
    let e : Engine := { s.eng with out := { s.eng.out with freezes := rest } }
    match freezeSlot e cause with
    | none => .next { s with eng := afterFreeze cause ((e.bump Reg.MEM_FZDROP_COUNT).raise Src.fzDrop 0) }
    | some k =>
      let e1 := fillFreeze e k
      let e2 := maskBit (maskBit e1 Reg.MEM_FZSTAT_HELD k true) Reg.MEM_FZSTAT_FAULT k (cause == 1)
      let e3 : Engine := { e2 with mem := { e2.mem with held := e2.mem.held.filter (· != k) ++ [k] } }
      .next { s with eng := afterFreeze cause (e3.raise Src.freeze k) }

/-- A commit that changes LOGSZ empties the log, the freeze slots and the capture region (R364); the next record goes to the region's
start (R366). -/
def captureEmpty (e : Engine) : Engine :=
  let e1 := e.zeroBytes (2 ^ 37) (2 ^ 37)
  let e2 : Engine := { e1 with mem := { e1.mem with held := [] } }
  let ws : List (Fld × Nat) := [(Reg.MEM_FZSTAT_HELD, 0), (Reg.MEM_FZSTAT_FAULT, 0),
    (Reg.MEM_CAPHEAD_LO_ADDR, captureBase e2 % 2 ^ 32), (Reg.MEM_CAPHEAD_HI_ADDR, captureBase e2 / 2 ^ 32)]
  { e2 with regs := e2.regs.puts ws }

/-! ### Functions (R371, Table 17.5) -/

/-- Some other window will hold a bank of `[b, b + n)` once the writes that wait have taken effect (R9, R356). A window of no banks
holds none. -/
def windowClash (e : Engine) (w b n : Nat) : Bool :=
  n != 0 && (List.range 16).any (fun v => v != w && e.soon (winFld v 1) != 0 && decide (e.soon (winFld v 0) < b + n)
    && decide (b < e.soon (winFld v 0) + e.soon (winFld v 1)))

/-- SET_WINDOW. A window may not overlap another (R356). -/
def fnSetWindow : Fn :=
  { op := 0x1010, kind := .action
    range := fun e p => firstBad [(decide (p.target < 16), 7), (decide (273 ≤ p.arg 0) && decide (p.arg 0 ≤ 351), 8),
      (decide (p.arg 0 + p.arg 1 ≤ 352) && !windowClash e p.target (p.arg 0) (p.arg 1), 9), (decide (p.arg 2 < 1024), 10)] }

/-- SAFE only. -/
def safeOnly (e : Engine) (_ : Packet) : Option Status := if e.st = stSafe then none else some (.state e.st)

/-- RUN_BIST. -/
def fnRunBist : Fn :=
  { op := 0x1011, kind := .action
    range := fun _ p => firstBad [(p.target == 0, 7), (decide (p.arg 0 ≤ 383), 8), (p.arg 1 != 0 && decide (p.arg 0 + p.arg 1 ≤ 384), 9)] }

/-- Test bank `b`: it holds 0 afterwards (R363). Whether it fails, and in which column, is free (assumption 30). -/
def bistBank (r : Engine × Nat) (b : Nat) : Engine × Nat :=
  let (e, n) := r
  let (v, e1) := e.freeVal
  let e3 := ((clearBank e1 b).setReg (Reg.MEM_BANK_BISTV b) 1).setReg (Reg.MEM_BANK_BISTF b) (v % 2)
  (if v % 2 = 1 then e3.setReg (Reg.MEM_BANK_FCOL b) (v / 2 % 288) else e3, n + v % 2)

/-- RUN_BIST tests the banks it names; program tables are restored, and the history ring is emptied. -/
def actRunBist (e : Engine) (p : Packet) : Engine :=
  let banks := (List.range (p.arg 1)).map (· + p.arg 0)
  let (e1, bad) := banks.foldl bistBank (e, 0)
  let e2 := if banks.any (fun b => decide (b < 16)) then restoreTables e e1 else e1
  (if banks.any (fun b => decide (16 ≤ b ∧ b ≤ 272)) then histReset e2 else e2).raise Src.bistDone bad

/-- SET_CAPSTREAM. -/
def fnSetCapstream : Fn :=
  { op := 0x1013, kind := .basic, owner := fun e p => orOwner (ringOwner e p) (domesOwner e p.ctx 3)
    range := fun e p => firstBad [(ringKind e p 2 && (p.arg 0 == 0 || !setupFull e p tCaps 4), 7), (decide (p.arg 0 ≤ 1), 8)] }

/-- The set-up SET_CAPSTREAM writes or removes. -/
def wSetCapstream (_ : Engine) (p : Packet) : List (Fld × Nat) := [(setupFld tCaps p.target 0, p.arg 0)]

/-- RELEASE_FREEZE. -/
def fnReleaseFreeze : Fn := { op := 0x1014, kind := .action, inFault := true, range := fun _ p => firstBad [(decide (p.target < 8), 7)] }

/-- RELEASE_FREEZE frees a slot. -/
def actReleaseFreeze (e : Engine) (p : Packet) : Engine :=
  let e1 := maskBit (maskBit e Reg.MEM_FZSTAT_HELD p.target false) Reg.MEM_FZSTAT_FAULT p.target false
  { e1 with mem := { e1.mem with held := e1.mem.held.filter (· != p.target) } }

/-- SET_LOGSIZE. -/
def fnSetLogsize : Fn :=
  { op := 0x1015, kind := .basic, range := fun _ p => firstBad [(p.target == 0, 7), (decide (8 ≤ p.arg 0) && decide (p.arg 0 ≤ 120), 8)] }

/-- The owner check of an access to engine memory, which R53 puts before the check of its range. -/
def memOwner (e : Engine) (ctx a n : Nat) (wr : Bool) : Option Nat := ((accessFails e ctx a n wr).find? (· != 0)).map (fun c => (c - 1) % 256)

/-- READ_MEM. -/
def fnReadMem : Fn :=
  { op := 0x1016, kind := .action, inFault := true, owner := fun e p => memOwner e p.ctx (p.arg64 0) (p.arg 2) false
    range := fun e p => firstBad [(p.target == 0, 7), (accessBad e p.ctx (p.arg64 0) (p.arg 2) false != some 0, 8),
      (decide (8 ≤ p.arg 2) && decide (p.arg 2 ≤ 65536), 10)]
    align := fun p => firstBad [(p.arg 0 % 8 == 0, 8), (p.arg 2 % 8 == 0, 10), (p.arg 3 % 8 == 0, 11)] }

/-- WRITE_MEM. -/
def fnWriteMem : Fn :=
  { op := 0x1017, kind := .action, len := lenTimes 8 8192, owner := fun e p => memOwner e p.ctx (p.arg64 0) p.length true
    range := fun e p => firstBad [(p.target == 0, 7), (accessBad e p.ctx (p.arg64 0) p.length true != some 0, 8)]
    align := fun p => firstBad [(p.arg 0 % 8 == 0, 8)] }

/-- WRITE_MEM writes its payload; a word flagged under R360 as it is read to be written in part makes it ST_HWERR, with a free island
number (assumption 31). -/
def actWriteMem (e : Engine) (p : Packet) : Engine :=
  let (e1, bad) := engWrite e (p.arg64 0) p.payload
  if bad then
    let (v, e2) := e1.freeVal
    e2.complete p (.hwerr v)
  else endAction fnWriteMem e1 p

/-- READ_MEM copies to the host buffer; a word flagged under R360 makes it ST_HWERR, with a free island number
(assumption 31). -/
def actReadMem (e : Engine) (p : Packet) : Engine :=
  let (e1, bs, bad) := engRead e (p.arg64 0) (p.arg 2)
  if bad then
    let (v, e2) := e1.freeVal
    e2.complete p (.hwerr v)
  else (e1.post (p.arg64 3) bs).complete p .ok

/-- INJECT_ERROR. -/
def fnInjectError : Fn :=
  { op := 0x1080, kind := .direct
    range := fun _ p => firstBad [(p.target == 0, 7), (decide (p.arg 0 < sramSize), 8), (decide (p.arg 3 < 256), 11)]
    align := fun p => firstBad [(p.arg 0 % 8 == 0, 8)] }

/-- INJECT_ERROR inverts data and check bits of a word. -/
def actInjectError (e : Engine) (p : Packet) : Engine :=
  let k := p.arg 0 / 8
  { e with mem := { e.mem with ecc := e.mem.ecc.set k (Nat.xor (e.mem.ecc.get k) (p.arg64 1 + 2 ^ 64 * p.arg 3)) } }

/-- SET_WINDOW (R356). -/
def execSetWindow (p : Packet) (s : State) : Host.Outcome State Fault Refusal :=
  let e1 := runAction fnSetWindow noExtra
    (fun e p => e.laterAll [(winFld p.target 0, p.arg 0), (winFld p.target 1, p.arg 1), (winFld p.target 2, p.arg 2)]) p s.eng
  .next { s with eng := e1 }

/-- RUN_BIST (R363). -/
def execRunBist (p : Packet) (s : State) : Host.Outcome State Fault Refusal :=
  .next { s with eng := runAction fnRunBist safeOnly actRunBist p s.eng }

/-- SET_CAPSTREAM (R368). -/
def execSetCapstream (p : Packet) (s : State) : Host.Outcome State Fault Refusal :=
  .next { s with eng := runConfig fnSetCapstream noExtra wSetCapstream 0 p s.eng }

/-- RELEASE_FREEZE (R369). -/
def execReleaseFreeze (p : Packet) (s : State) : Host.Outcome State Fault Refusal :=
  .next { s with eng := runAction fnReleaseFreeze noExtra actReleaseFreeze p s.eng }

/-- SET_LOGSIZE (R364). -/
def execSetLogsize (p : Packet) (s : State) : Host.Outcome State Fault Refusal :=
  .next { s with eng := runConfig fnSetLogsize noExtra (fun _ p => [(Reg.MEM_CAPCFG_LOGSZ, p.arg 0)]) 0 p s.eng }

/-- READ_MEM (R355, R356, R371). -/
def execReadMem (p : Packet) (s : State) : Host.Outcome State Fault Refusal :=
  .next { s with eng := runAsync fnReadMem noExtra actReadMem p s.eng }

/-- WRITE_MEM (R355, R356, R359, R371). -/
def execWriteMem (p : Packet) (s : State) : Host.Outcome State Fault Refusal :=
  .next { s with eng := runAsync fnWriteMem noExtra actWriteMem p s.eng }

/-- INJECT_ERROR (R371). -/
def execInjectError (p : Packet) (s : State) : Host.Outcome State Fault Refusal :=
  .next { s with eng := runAction fnInjectError safeOnly actInjectError p s.eng }

end Sys2Proof.Machine
end

