-- ==== Sys2Proof/Machine/Movers.lean ====
section
/-! DEFINITION. The DMA movers (R373 to R382, R390, R391): chains of descriptors, arbitration of the one data path, status
write-back, hand-over and abort. A DMA_BURST serves one beat, or reads a descriptor (assumption 32). -/

namespace Sys2Proof.Machine

/-- Channel `n`. -/
def Engine.chan (e : Engine) (n : Nat) : Chan := e.mov.chans.getD n Chan.reset

/-- Give channel `n` its contents. -/
def Engine.putChan (e : Engine) (n : Nat) (c : Chan) : Engine := { e with mov := { e.mov with chans := e.mov.chans.set n c } }

/-- Channel `n` is in RUN. -/
def Engine.chanRun (e : Engine) (n : Nat) : Bool := e.reg (Reg.DMA_STAT_STATE n) == 1

/-! ### Descriptors (Table 18.1) -/

/-- SRC. -/
def dSrc (d : List Byte) : Nat := leAt d 0 8
/-- DST. -/
def dDst (d : List Byte) : Nat := leAt d 8 8
/-- LEN. -/
def dLen (d : List Byte) : Nat := leAt d 16 4
/-- CTL. -/
def dCtl (d : List Byte) : Nat := leAt d 20 4
/-- NEXT. -/
def dNext (d : List Byte) : Nat := leAt d 24 8
/-- CTL.OP: 0 COPY, 1 FILL, 2 COMPARE. -/
def dOp (d : List Byte) : Nat := dCtl d % 4
/-- The source is read: every operation but FILL. -/
def dReads (d : List Byte) : Bool := dOp d != 1
/-- The space of a side: 0 source, 1 destination. -/
def dSpace (d : List Byte) (side : Nat) : Nat := bit (dCtl d) (2 + side)
/-- The address of a side is fixed; SFIX is ignored by FILL. -/
def dFix (d : List Byte) (side : Nat) : Bool := tbit (dCtl d) (4 + side) && (side == 1 || dReads d)
/-- The address of a side at position `pos` (R376). -/
def dAddr (d : List Byte) (side pos : Nat) : Nat :=
  ((if side = 0 then dSrc d else dDst d) + (if dFix d side then 0 else pos)) % 2 ^ 64

/-- An address of engine space with bits above 39 set. -/
def past40 (space a : Nat) : Bool := space == 0 && decide (2 ^ 40 ≤ a)

/-- The first check of Table 18.2 that a descriptor fails, and the side that failed (R377). -/
def descBad (d : List Byte) : Option (Status × Nat) :=
  if dReads d ∧ dSrc d % 8 ≠ 0 then some (.align 0, 1)
  else if dDst d % 8 ≠ 0 then some (.align 0, 2)
  else if dLen d % 8 ≠ 0 then some (.align 0, 0)
  else if dOp d = 3 ∨ dCtl d / 256 ≠ 0 then some (.range 0, 0)
  else if dReads d ∧ past40 (dSpace d 0) (dSrc d) then some (.range 0, 1)
  else if past40 (dSpace d 1) (dDst d) then some (.range 0, 2)
  else if bits (dNext d) 4 2 ≠ 0 ∨ (!tbit (dNext d) 1 ∧ past40 (dNext d % 2) (dNext d)) then some (.range 0, 3)
  else none

/-! ### Accesses on behalf of the owner (R356, R374, R377) -/

/-- Channel `n` may reach host memory: the link is up, the function is served, and no reset has come since the chain started (R377). -/
def Engine.hostOpen (e : Engine) (n : Nat) : Bool := e.serving && e.reg Reg.HST_STATUS_LINKUP == 1 && !(e.chan n).cut

/-- Why channel `n` may not access `len` bytes at `a` of a space: none where it may. -/
def dmaBad (e : Engine) (n space a len : Nat) (wr : Bool) : Option Status :=
  if space = 1 then (if e.hostOpen n then none else some .aborted)
  else match accessBad e (e.ownerOf 4 n) a len wr with
  | none => none
  | some 0 => some (.range 0)
  | some (c + 1) => some (.owner c)

/-- Bytes of a channel's buffer (R380). -/
def bufSize : Nat := 2048

/-- Channel `n` reads `len` bytes: from its buffer where they lie in host memory, none where a read of them has failed (R377, R380). -/
def dmaRead (e : Engine) (n space a len : Nat) : Engine × Option (List Byte) :=
  if space = 1 then
    let c := e.chan n
    if c.buf.length < len then (e, none) else (e.putChan n { c with buf := c.buf.drop len }, some (c.buf.take len))
  else
    let (e1, bs, bad) := engRead e a len
    (e1, if bad then none else some bs)

/-- Write bytes; the flag answers for a word read to be written in part (R359, R360). -/
def dmaWrite (e : Engine) (space a : Nat) (bs : List Byte) : Engine × Bool := if space = 1 then (e.post a bs, false) else engWrite e a bs

/-! ### Ends of descriptors and chains (R374, R377, R378) -/

/-- DMA_CUR of channel `n`: its address and space. -/
def Engine.curAddr (e : Engine) (n : Nat) : Nat := 32 * e.reg (Reg.DMA_CUR_LO_ADDR n) + 2 ^ 32 * e.reg (Reg.DMA_CUR_HI_ADDR n)
/-- See `Engine.curAddr`. -/
def Engine.curSpace (e : Engine) (n : Nat) : Nat := e.reg (Reg.DMA_CUR_LO_SP n)

/-- Point DMA_CUR at the descriptor at `a` of a space. -/
def setCur (e : Engine) (n space a : Nat) : Engine :=
  let ws : List (Fld × Nat) := [(Reg.DMA_CUR_LO_SP n, space), (Reg.DMA_CUR_LO_ADDR n, a / 32), (Reg.DMA_CUR_HI_ADDR n, a / 2 ^ 32)]
  { e with regs := e.regs.puts ws }

/-- Write the status of the present descriptor back (R378, Table 18.3); answers why that failed, where it did. -/
def writeBack (e : Engine) (n : Nat) (code resid : Nat) : Engine × Option Status :=
  let c := e.chan n
  let a := e.curAddr n + 16
  match dmaBad e n (e.curSpace n) a 8 true with
  | some st => (e, some st)
  | none =>
    let bs := leBytes 4 resid ++ leBytes 2 code ++ leBytes 1 (b2n c.mism + 2 * b2n c.late) ++ leBytes 1 128
    let (e1, bad) := dmaWrite e (e.curSpace n) a bs
    (e1.putChan n { c with late := false }, if bad then some (.hwerr 0) else none)

/-- The mover is free of channel `n`. -/
def freeMover (e : Engine) (n : Nat) : Engine :=
  { e with mov := { e.mov with holder := if e.mov.holder = some n then none else e.mov.holder } }

/-- The chain ends: status, residue, IDLE; the ABORT commands that wait for it complete (R382). -/
def chainEnd (e : Engine) (n code resid : Nat) : Engine :=
  let c := e.chan n
  let e1 := (freeMover e n).putChan n { Chan.reset with late := c.late, headHi := c.headHi, nextHi := c.nextHi }
  let ws : List (Fld × Nat) := [(Reg.DMA_STAT_STATE n, 0), (Reg.DMA_STAT_CODE n, code), (Reg.DMA_RESID_BYTES n, resid)]
  c.waiters.foldl (fun a w => a.completeAt w.1 w.2.1 w.2.2 .ok a.cxNow) { e1 with regs := e1.regs.puts ws }

/-- The done event: bits [31:0] of the descriptor's address with its space. -/
def dmaDone (e : Engine) (n : Nat) : Engine := e.raise (Src.dma + 2 * n) (e.curAddr n % 2 ^ 32 + e.curSpace n)

/-- The chain ends by a fault or an abort; a descriptor that has been read is written back (R377, R382). -/
def chainFault (e : Engine) (n : Nat) (st : Status) (side : Nat) : Engine :=
  let c := e.chan n
  let resid := if c.desc.isEmpty then 0 else dLen c.desc - c.pos
  let e1 := if c.desc.isEmpty then e else (writeBack e n st.code resid).1
  ((chainEnd e1 n st.code resid).setReg (Reg.DMA_STAT_DETAIL n) side).raise (Src.dma + 2 * n + 1) (st.code + 2 ^ 16 * side)

/-! ### Starting a chain (R374) -/

/-- An IDLE channel starts at DMA_HEAD. -/
def chainStart (e : Engine) (n : Nat) : Engine :=
  let a := 32 * e.reg (Reg.DMA_HEAD_LO_ADDR n) + 2 ^ 32 * e.reg (Reg.DMA_HEAD_HI_ADDR n)
  let c := e.chan n
  let e1 := (setCur e n (e.reg (Reg.DMA_HEAD_LO_SP n)) a).putChan n
    { Chan.reset with late := c.late, headHi := c.headHi, nextHi := c.nextHi }
  e1.setReg (Reg.DMA_STAT_STATE n) 1

/-- A write to DMA_HEAD_LO, with the held _HI word. -/
def dmaHeadWrite (e : Engine) (n v : Nat) : Engine :=
  let c := e.chan n
  let e1 := e.putChan n { c with headHi := none }
  let hi : List (Fld × Nat) := match c.headHi with
    | some h => [(Reg.DMA_HEAD_HI_ADDR n, h)]
    | none => []
  let ws : List (Fld × Nat) := [(Reg.DMA_HEAD_LO_SP n, v), (Reg.DMA_HEAD_LO_ADDR n, v / 32)] ++ hi
  { e1 with regs := e1.regs.puts ws }

/-- A write to DMA_NEXT_LO, with the held _HI word (R379). -/
def dmaNextWrite (e : Engine) (n v : Nat) : Engine :=
  let c := e.chan n
  let e1 := e.putChan n { c with nextHi := none }
  let hi : List (Fld × Nat) := match c.nextHi with
    | some h => [(Reg.DMA_NEXT_HI_ADDR n, h)]
    | none => []
  let ws : List (Fld × Nat) := [(Reg.DMA_NEXT_LO_SP n, v), (Reg.DMA_NEXT_LO_V n, v / 4), (Reg.DMA_NEXT_LO_ADDR n, v / 32)] ++ hi
  { e1 with regs := e1.regs.puts ws }

/-- Writes to the _HI words are held. -/
def dmaHoldHead (e : Engine) (n v : Nat) : Engine := e.putChan n { e.chan n with headHi := some v }
/-- See `dmaHoldHead`. -/
def dmaHoldNext (e : Engine) (n v : Nat) : Engine := e.putChan n { e.chan n with nextHi := some v }

/-- A GO write: a start while the channel runs is counted. -/
def dmaGo (e : Engine) (n : Nat) : Engine := if e.chanRun n then e.bump (Reg.DMA_IGN_COUNT n) else chainStart e n

/-! ### Beats (R376, R380, R381) -/

/-- The descriptor of channel `n` has been read and is not finished. -/
def Engine.moving (e : Engine) (n : Nat) : Bool :=
  let c := e.chan n
  e.chanRun n && !c.desc.isEmpty && !c.mism && decide (c.pos < dLen c.desc)

/-- A side of the descriptor is fixed. -/
def anyFix (d : List Byte) : Bool := dFix d 0 || dFix d 1

/-- Where the burst that starts at `pos` ends. -/
def burstEnd (d : List Byte) (pos : Nat) : Nat :=
  let side := if dOp d = 2 then 0 else 1
  let most := if anyFix d then 128 else 1024
  let room := if dFix d side then most else 1024 - dAddr d side pos % 1024
  min (dLen d) (pos + min most room)

/-- Bytes of the next beat of a channel whose burst ends at `last`. -/
def beatLen (d : List Byte) (pos last : Nat) : Nat := if anyFix d then 8 else min 64 (last - pos)

/-- The end of the burst that the next beat belongs to. -/
def burstOf (c : Chan) : Nat := if c.pos < c.burst then c.burst else burstEnd c.desc c.pos

/-- Bytes that the next beat needs from host memory. -/
def hostNeed (c : Chan) : Nat :=
  let n := beatLen c.desc c.pos (burstOf c)
  (if dReads c.desc && dSpace c.desc 0 == 1 then n else 0) + (if dOp c.desc == 2 && dSpace c.desc 1 == 1 then n else 0)

/-- Sides of the operation that lie in host memory and are read. -/
def hostSides (d : List Byte) : Nat := b2n (dReads d && dSpace d 0 == 1) + b2n (dOp d == 2 && dSpace d 1 == 1)

/-- Bytes of host memory that the channel has asked for or may ask for, and has not got: its descriptor, or what is left of its data (R375,
R380). -/
def Engine.hostLeft (e : Engine) (n : Nat) : Nat :=
  let c := e.chan n
  if !e.chanRun n then 0
  else if c.desc.isEmpty then 32 * e.curSpace n - c.buf.length
  else min bufSize (hostSides c.desc * (dLen c.desc - c.pos)) - c.buf.length

/-- Host memory answers channel `n`: its data land in the channel's buffer, none says that a read has failed (R377, R380). Data that the
channel has not asked for are discarded. -/
def hostData (e : Engine) (n : Nat) (host : Option (List Byte)) : Engine :=
  let c := e.chan n
  let left := e.hostLeft n
  if left = 0 ∨ !e.hostOpen n ∨ c.failed then e
  else match host with
  | some bs => e.putChan n { c with buf := c.buf ++ bs.take left }
  | none => e.putChan n { c with failed := true }

/-- Channel `n` can issue its next beat: it waits for no host data (R380), or a read of them has failed or may not be made. -/
def Engine.ready (e : Engine) (n : Nat) : Bool :=
  let c := e.chan n
  e.moving n && (hostNeed c == 0 || c.failed || decide (hostNeed c ≤ c.buf.length) || !e.hostOpen n)

/-- The channels that are ready. -/
def readyChans (e : Engine) : List Nat := (List.range 64).filter e.ready

/-- The first of a list from channel `last + 1` on, round the channels. -/
def nextRound (last : Nat) (l : List Nat) : Option Nat := match l.find? (fun n => decide (last < n)) with
  | some n => some n
  | none => l.head?

/-- The channel that the mover serves (R380, R381). -/
def moverPick (e : Engine) (rdy : List Nat) : Option Nat :=
  let top := rdy.foldl (fun m n => max m (e.reg (Reg.DMA_CFG_PRIO n))) 0
  let best := rdy.filter (fun n => e.reg (Reg.DMA_CFG_PRIO n) == top)
  match e.mov.holder with
  | some h =>
    if e.reg Reg.DMA_ARB_MODE = 1 then (if rdy.contains h then some h else none)
    else if best.contains h then some h else nextRound e.mov.last best
  | none => nextRound e.mov.last best

/-- The check before a burst: the sides in order (R377). -/
def burstBad (e : Engine) (n : Nat) (c : Chan) (len : Nat) : Option (Status × Nat) :=
  let size : Nat → Nat := fun side => if dFix c.desc side then 8 else len
  let src := if dReads c.desc then dmaBad e n (dSpace c.desc 0) (dAddr c.desc 0 c.pos) (size 0) false else none
  match src with
  | some st => some (st, 1)
  | none => (dmaBad e n (dSpace c.desc 1) (dAddr c.desc 1 c.pos) (size 1) (dOp c.desc != 2)).map (fun st => (st, 2))

/-- The first position at which two byte lists differ. -/
def firstDiff : List Byte → List Byte → Option Nat
  | a :: as, b :: bs => if a = b then (firstDiff as bs).map (· + 1) else some 0
  | _, _ => none

/-- Host memory is closed to the channel: the side that the burst under way would reach there (R377). -/
def hostShut (e : Engine) (n : Nat) (d : List Byte) : Option (Status × Nat) :=
  if e.hostOpen n then none
  else if dReads d && dSpace d 0 == 1 then some (.aborted, 1)
  else if dSpace d 1 == 1 then some (.aborted, 2) else none

/-- Bytes `k` of the beat have been moved or compared. -/
def beatDone (e : Engine) (n k : Nat) : Engine :=
  let c := e.chan n
  (e.bumpBy (Reg.DMA_BYTES_COUNT n) k).putChan n { c with pos := c.pos + k }

/-- COMPARE of one beat (R376). -/
def beatCompare (e : Engine) (n pos : Nat) (src dst : List Byte) : Engine := match firstDiff src dst with
  | none => beatDone e n src.length
  | some k =>
    let e1 := beatDone e n k
    let e2 := e1.putChan n { e1.chan n with burst := 0, mism := true }
    (e2.setReg (Reg.DMA_CMOFF_OFF n) (pos + k)).raiseBit (Reg.DMA_STAT_MISM n)

/-- Move or compare one beat of `len` bytes (R376); a failed read, or an error in a word that is written in part, ends the chain. -/
def beatMove (e : Engine) (n len : Nat) : Engine :=
  let c := e.chan n
  let d := c.desc
  let (e1, src) := if dReads d then dmaRead e n (dSpace d 0) (dAddr d 0 c.pos) len
    else (e, some ((List.range len).map (fun i => d.getD (i % 8) 0)))
  match src with
  | none => chainFault e1 n (.hwerr 0) 1
  | some bs =>
    if dOp d = 2 then
      let (e2, dst) := dmaRead e1 n (dSpace d 1) (dAddr d 1 c.pos) len
      match dst with
      | none => chainFault e2 n (.hwerr 0) 2
      | some ds => beatCompare e2 n c.pos bs ds
    else
      let (e2, bad) := dmaWrite e1 (dSpace d 1) (dAddr d 1 c.pos) bs
      let e3 := beatDone e2 n len
      if bad then chainFault e3 n (.hwerr 0) 2 else e3

/-- A burst has ended: the mover is free, and an abort that waited for it takes effect (R380, R382). -/
def burstEnded (e : Engine) (n : Nat) : Engine :=
  let e1 := freeMover e n
  if (e1.chan n).aborting then chainFault e1 n .aborted 0 else e1

/-- One beat of channel `n`: the check where it starts a burst, and of host memory at every beat; then the move; the mover is held to the end
of the burst. -/
def beat (e : Engine) (n : Nat) : Engine :=
  let c := e.chan n
  let last := burstOf c
  let bad := if c.pos < c.burst then hostShut e n c.desc else burstBad e n c (last - c.pos)
  match bad with
  | some (st, side) => chainFault { e with mov := { e.mov with last := n } } n st side
  | none =>
    let e1 : Engine := Engine.putChan { e with mov := { e.mov with last := n, holder := some n } } n { c with burst := last }
    let e2 := beatMove e1 n (beatLen c.desc c.pos last)
    let c2 := e2.chan n
    if e2.chanRun n && decide (c2.pos < c2.burst) then e2 else burstEnded e2 n

/-- The channel reads its descriptor (R375, R377). -/
def fetchDesc (e : Engine) (n : Nat) : Engine :=
  let a := e.curAddr n
  let sp := e.curSpace n
  if past40 sp a then chainFault e n (.range 0) (if (e.chan n).linked then 3 else 0)
  else match dmaBad e n sp a 32 false with
  | some st => chainFault e n st 0
  | none =>
    if sp = 1 ∧ (e.chan n).buf.length < 32 ∧ !(e.chan n).failed then e
    else
      let (e1, r) := dmaRead e n sp a 32
      match r with
      | none => chainFault e1 n (.hwerr 0) 0
      | some d =>
        let e2 := e1.putChan n { e1.chan n with desc := d, pos := 0, burst := 0, mism := false, buf := [] }
        match descBad d with
        | some (st, side) => chainFault e2 n st side
        | none => e2

/-- DMA_BURST: host memory answers channel `ch` with `host`, none for a completion error; then that channel reads its descriptor where it has
still to, or else the mover serves one beat of the channel that wins it (R375 to R377, R380, R381). -/
def execDmaBurst (ch : Nat) (host : Option (List Byte)) (s : State) : Host.Outcome State Fault Refusal :=
  if 64 ≤ ch then .next s
  else
    let e := hostData s.eng ch host
    if e.chanRun ch && (e.chan ch).desc.isEmpty then .next { s with eng := fetchDesc e ch }
    else match moverPick e (readyChans e) with
    | none => .next { s with eng := e }
    | some n => .next { s with eng := beat e n }

/-! ### Hand-over (R379) -/

/-- The next address after a descriptor that ended normally. -/
def handOver (e : Engine) (n : Nat) (d : List Byte) : Engine × Option (Nat × Nat) :=
  if e.reg (Reg.DMA_NEXT_LO_V n) = 1 then
    (e.setReg (Reg.DMA_NEXT_LO_V n) 0, some (e.reg (Reg.DMA_NEXT_LO_SP n), 32 * e.reg (Reg.DMA_NEXT_LO_ADDR n) + 2 ^ 32 * e.reg (Reg.DMA_NEXT_HI_ADDR n)))
  else if tbit (dNext d) 1 then (e, none)
  else (e, some (dNext d % 2, dNext d / 32 * 32))

/-- A write to DMA_NEXT_LO that reaches the block in the hand-over cycle loses (R379): the write itself is the next
DMA_NEXT_LO_WRITE. -/
def markLate (e : Engine) (n : Nat) : Engine := (e.putChan n { e.chan n with late := true }).raiseBit (Reg.DMA_STAT_LATE n)

/-- The present descriptor is written back where WB asks for it, or a difference was found (R378). -/
def endWrite (e : Engine) (n : Nat) : Engine × Option Status :=
  let c := e.chan n
  if tbit (dCtl c.desc) 6 || c.mism then writeBack e n 0 (dLen c.desc - c.pos) else (e, none)

/-- The descriptor ends and the channel hands over (R376, R378, R379). -/
def descEnd (e : Engine) (n : Nat) (contend : Bool) : Engine :=
  let c := e.chan n
  match endWrite e n with
  | (e1, some st) => chainFault e1 n st 0
  | (e1, none) =>
    if c.mism then dmaDone (chainEnd e1 n 0 (dLen c.desc - c.pos)) n
    else
      let e2 := e1.bump (Reg.DMA_DESC_COUNT n)
      let (e3, next) := handOver e2 n c.desc
      let e4 := if contend then markLate e3 n else e3
      match next with
      | none => dmaDone (chainEnd e4 n 0 0) n
      | some (sp, a) =>
        let e5 := if tbit (dCtl c.desc) 7 then dmaDone e4 n else e4
        (setCur e5 n sp a).putChan n { e5.chan n with desc := [], linked := true, pos := 0, burst := 0, buf := [], failed := false }

/-- DESCRIPTOR_END: a descriptor whose bytes have all been moved, or that met a difference, ends; `contend` says that a
write to DMA_NEXT_LO reaches the block in the hand-over cycle (R378, R379). -/
def execDescriptorEnd (ch : Nat) (contend : Bool) (s : State) : Host.Outcome State Fault Refusal :=
  let e := s.eng
  if e.chanRun ch && !(e.chan ch).desc.isEmpty && !e.moving ch then .next { s with eng := descEnd e ch contend }
  else .next s

/-! ### Abort (R382) -/

/-- The burst under way of channel `n`, which holds the mover. -/
def Engine.inBurst (e : Engine) (n : Nat) : Bool :=
  e.chanRun n && e.mov.holder == some n && decide ((e.chan n).pos < (e.chan n).burst)

/-- Serve beats of the burst under way while the channel is ready; a burst has at most 16 beats. -/
def finishBurst : Nat → Engine → Nat → Engine
  | 0, e, _ => e
  | k + 1, e, n => if e.inBurst n && e.ready n then finishBurst k (beat e n) n else e

/-- Abort a channel (R382): the burst under way of a channel that holds the mover is finished first, and where it still waits for host data the
abort waits with it. A channel that is IDLE is left as it is. -/
def chainAbort (e : Engine) (n : Nat) : Engine :=
  let e1 := finishBurst 16 e n
  if !e1.chanRun n then e1
  else if e1.inBurst n then e1.putChan n { e1.chan n with aborting := true }
  else chainFault e1 n .aborted 0

/-- End a chain whose host data will not come any more: at an entry into STANDBY, and where its owner context is closed (R373, R41; assumption
102). -/
def chainStop (e : Engine) (n : Nat) : Engine :=
  let e1 := finishBurst 16 e n
  if e1.chanRun n then chainFault e1 n .aborted 0 else e1

/-- Abort every running channel at an entry into STANDBY (R373). -/
def abortChains (e : Engine) : Engine := (List.range 64).foldl chainStop e

/-- A write to DMA_CTL: a start and an abort in one cycle (R374). -/
def dmaCtl (e : Engine) (n : Nat) (go abort : Bool) : Engine :=
  if go && abort && !e.chanRun n then e.bump (Reg.DMA_IGN_COUNT n)
  else
    let e1 := if go then dmaGo e n else e
    if abort then chainAbort e1 n else e1

/-- A write of 1 to DMA_CTL.GO (R374). -/
def execDmaCtlGo (ch : Nat) (s : State) : Host.Outcome State Fault Refusal :=
  if 64 ≤ ch then .next s else .next { s with eng := dmaGo s.eng ch }

/-- A write of 1 to DMA_CTL.ABORT (R382). -/
def execDmaCtlAbort (ch : Nat) (s : State) : Host.Outcome State Fault Refusal :=
  if 64 ≤ ch then .next s else .next { s with eng := chainAbort s.eng ch }

/-- A write to DMA_NEXT_LO (R379). -/
def execDmaNextLoWrite (ch val : Nat) (s : State) : Host.Outcome State Fault Refusal :=
  if 64 ≤ ch then .next s else .next { s with eng := dmaNextWrite s.eng ch val }

/-! ### DMA functions (R390, Table 18.6) -/

/-- The owner of the channel that is the target. -/
def chanOwner (e : Engine) (p : Packet) : Option Nat := if p.target < 64 then e.ownerBad p.ctx 4 p.target else none

/-- The target is a channel. -/
def chanTarget (p : Packet) : Bool × Nat := (decide (p.target < 64), 7)

/-- SET_CHANNEL. -/
def fnDmaSetChannel : Fn :=
  { op := 0x1110, kind := .action, noApply := true, owner := chanOwner
    range := fun _ p => firstBad [chanTarget p, (decide (p.arg 0 ≤ 7), 8)] }

/-- START. -/
def fnStart : Fn :=
  { op := 0x1111, kind := .action, noApply := true, owner := chanOwner, range := fun _ p => firstBad [chanTarget p]
    align := fun p => firstBad [(bits (p.arg 0) 4 1 == 0, 8)] }

/-- SET_NEXT. -/
def fnSetNext : Fn :=
  { op := 0x1112, kind := .action, noApply := true, owner := chanOwner, range := fun _ p => firstBad [chanTarget p]
    align := fun p => firstBad [(within 0xFFFFFFE5 (p.arg 0), 8)] }

/-- ABORT. -/
def fnDmaAbort : Fn :=
  { op := 0x1113, kind := .action, noApply := true, owner := chanOwner, range := fun _ p => firstBad [chanTarget p] }

/-- SET_ARB. -/
def fnSetArb : Fn :=
  { op := 0x1114, kind := .action, noApply := true, owner := fun _ p => notOwn p.ctx 0
    range := fun _ p => firstBad [(p.target == 0, 7), (decide (p.arg 0 ≤ 1), 8)] }

/-- RAW_CHANNELS. -/
def fnRawChannels : Fn :=
  { op := 0x1180, kind := .direct, len := lenTimes 16 64
    owner := fun e p => if p.target + p.nwords / 4 ≤ 64 then
      ((List.range (p.nwords / 4)).map (· + p.target)).findSome? (e.ownerBad p.ctx 4) else none
    range := fun _ p => match firstBad [(decide (p.target + p.nwords / 4 ≤ 64), 7)] with
      | some d => some d
      | none => wordsBad p (fun i v => within ([7, 0xFFFFFFE1, 0xFFFFFFFF, 0].getD (i % 4) 0) v) }

/-- START of a running channel (R374). -/
def startBusy (e : Engine) (p : Packet) : Option Status := if e.chanRun p.target then some (.busy 0x11) else none

/-- DMA_HEAD or DMA_NEXT from a command: both words in one cycle. -/
def actStart (e : Engine) (p : Packet) : Engine :=
  chainStart (dmaHeadWrite (dmaHoldHead e p.target (p.arg 1)) p.target (p.arg 0)) p.target

/-- The writes of RAW_CHANNELS for channel image `i`. -/
def rawChannel (p : Packet) (e : Engine) (i : Nat) : Engine :=
  let n := p.target + i
  dmaHeadWrite (dmaHoldHead (e.setReg (Reg.DMA_CFG_PRIO n) (p.word (4 * i))) n (p.word (4 * i + 2))) n (p.word (4 * i + 1))

/-- SET_CHANNEL of DMA (R390). -/
def execDmaSetChannel (p : Packet) (s : State) : Host.Outcome State Fault Refusal :=
  .next { s with eng := runAction fnDmaSetChannel noExtra (fun e p => e.setReg (Reg.DMA_CFG_PRIO p.target) (p.arg 0)) p s.eng }

/-- START (R374). -/
def execStart (p : Packet) (s : State) : Host.Outcome State Fault Refusal :=
  .next { s with eng := runAction fnStart startBusy actStart p s.eng }

/-- SET_NEXT (R379). -/
def execSetNext (p : Packet) (s : State) : Host.Outcome State Fault Refusal :=
  let e1 := runAction fnSetNext noExtra (fun e p => dmaNextWrite (dmaHoldNext e p.target (p.arg 1)) p.target (p.arg 0)) p s.eng
  .next { s with eng := e1 }

/-- ABORT completes once the channel is IDLE (R382). -/
def actDmaAbort (e : Engine) (p : Packet) : Engine :=
  let n := p.target
  let e1 := chainAbort e n
  let c := e1.chan n
  if e1.chanRun n then e1.putChan n { c with waiters := c.waiters ++ [(p.ring, p.tag, p.notify)] } else e1.complete p .ok

/-- ABORT of DMA (R382). -/
def execDmaAbort (p : Packet) (s : State) : Host.Outcome State Fault Refusal :=
  .next { s with eng := runAsync fnDmaAbort noExtra actDmaAbort p s.eng }

/-- SET_ARB (R381, R390). -/
def execSetArb (p : Packet) (s : State) : Host.Outcome State Fault Refusal :=
  .next { s with eng := runAction fnSetArb noExtra (fun e p => e.setReg Reg.DMA_ARB_MODE (p.arg 0)) p s.eng }

/-- RAW_CHANNELS (R390). -/
def execRawChannels (p : Packet) (s : State) : Host.Outcome State Fault Refusal :=
  .next { s with eng := runAction fnRawChannels noExtra (fun e p => (List.range (p.nwords / 4)).foldl (rawChannel p) e) p s.eng }

end Sys2Proof.Machine
end

