-- ==== Sys2Proof/Machine/Blitters.lean ====
section
/-! DEFINITION. The raster blitters (R383 to R391): regions, logic functions, the checks of a start, bursts, ends and
aborts. -/

namespace Sys2Proof.Machine

/-- Blitter `b`. -/
def Engine.blt (e : Engine) (b : Nat) : Blt := e.mov.blts.getD b ⟨[], [], 0, 0, none⟩

/-- Give blitter `b` its contents. -/
def Engine.putBlt (e : Engine) (b : Nat) (x : Blt) : Engine := { e with mov := { e.mov with blts := e.mov.blts.set b x } }

/-- Blitter `b` runs. -/
def Engine.bltRun (e : Engine) (b : Nat) : Bool := e.reg (Reg.BLT_STAT_STATE b) == 1

/-! ### The operation: images of words +0x000 to +0x03C (Table 18.9) -/

/-- The fields of word `i` of a blitter's operation, each with its lowest bit. -/
def bltWord (b i : Nat) : List (Fld × Nat) :=
  ([[], [(Reg.BLT_GAP_GAP b, 0)],
    [(Reg.BLT_OP_OP b, 0), (Reg.BLT_OP_ESZ b, 2), (Reg.BLT_OP_SWRAP b, 4), (Reg.BLT_OP_DWRAP b, 5), (Reg.BLT_OP_FN b, 8),
     (Reg.BLT_OP_PX b, 16), (Reg.BLT_OP_PY b, 20)],
    [(Reg.BLT_FILL_VAL b, 0)], [(Reg.BLT_SBASE_LO_ADDR b, 3)], [(Reg.BLT_SBASE_HI_ADDR b, 0)], [(Reg.BLT_SPITCH_PITCH b, 0)],
    [(Reg.BLT_SSIZE_MW b, 0), (Reg.BLT_SSIZE_MH b, 16)], [(Reg.BLT_SORG_X b, 0), (Reg.BLT_SORG_Y b, 16)],
    [(Reg.BLT_DBASE_LO_ADDR b, 3)], [(Reg.BLT_DBASE_HI_ADDR b, 0)], [(Reg.BLT_DPITCH_PITCH b, 0)],
    [(Reg.BLT_DSIZE_MW b, 0), (Reg.BLT_DSIZE_MH b, 16)], [(Reg.BLT_DORG_X b, 0), (Reg.BLT_DORG_Y b, 16)],
    [(Reg.BLT_EXT_W b, 0), (Reg.BLT_EXT_H b, 16)], []] : List (List (Fld × Nat))).getD i []

/-- The image of the operation in the registers. -/
def bltImage (e : Engine) (b : Nat) : List Nat :=
  (List.range 16).map (fun i => (bltWord b i).foldl (fun a fl => a + e.reg fl.1 * 2 ^ fl.2) 0)

/-- The pattern in the registers. -/
def bltPat (e : Engine) (b : Nat) : List Nat := (List.range 64).map (fun k => e.reg (Reg.BLT_PAT_VAL b k))

/-- The registers that an image writes. -/
def bltWrites (b : Nat) (img : List Nat) : List (Fld × Nat) :=
  (indexed img).flatMap (fun iw => (bltWord b iw.1).map (fun fl => (fl.1, iw.2 / 2 ^ fl.2)))

/-- OP. -/
def opOf (g : List Nat) : Nat := g.getD 2 0 % 4
/-- Bytes of an element. -/
def esz (g : List Nat) : Nat := [1, 2, 4].getD (bits (g.getD 2 0) 3 2) 4
/-- FN. -/
def fnCode (g : List Nat) : Nat := bits (g.getD 2 0) 15 8
/-- The operation reads S (R384). -/
def usesS (g : List Nat) : Bool := opOf g == 2 || (opOf g == 0 && Nat.land (fnCode g) 0xF0 / 16 != Nat.land (fnCode g) 0x0F)
/-- The operation reads D. -/
def readsD (g : List Nat) : Bool := opOf g == 0 && Nat.land (fnCode g) 0xCC / 4 != Nat.land (fnCode g) 0x33
/-- W and H. -/
def bltW (g : List Nat) : Nat := g.getD 14 0 % 65536 + 1
/-- See `bltW`. -/
def bltH (g : List Nat) : Nat := bits (g.getD 14 0) 31 16 + 1

/-- A region (R383). -/
structure Region where
  base : Nat
  pitch : Nat
  mw : Nat
  mh : Nat
  wrap : Bool
  x : Nat
  y : Nat
deriving DecidableEq, Repr

/-- Region S (`side` 0) or D (1) of an operation. -/
def regionOf (g : List Nat) (side : Nat) : Region :=
  let k := 4 + 5 * side
  { base := g.getD k 0 + 2 ^ 32 * (g.getD (k + 1) 0 % 256), pitch := g.getD (k + 2) 0 % 2 ^ 19
    mw := g.getD (k + 3) 0 % 65536 + 1, mh := bits (g.getD (k + 3) 0) 31 16 + 1, wrap := tbit (g.getD 2 0) (4 + side)
    x := g.getD (k + 4) 0 % 65536, y := bits (g.getD (k + 4) 0) 31 16 }

/-- The address of operation element (x, y) in a region. -/
def Region.addr (r : Region) (es x y : Nat) : Nat :=
  r.base + (r.y + y) * r.pitch + (if r.wrap then (r.x + x) % r.mw else r.x + x) * es

/-- The runs of bytes that row `y` of an operation touches in a region: one, or two where its columns wrap. -/
def Region.runs (r : Region) (es w y : Nat) : List (Nat × Nat) :=
  let c := if r.wrap then r.x % r.mw else r.x
  if r.wrap ∧ r.mw < c + w then
    [(r.addr es 0 y, (r.mw - c) * es), (r.base + (r.y + y) * r.pitch, (c + w - r.mw) * es)]
  else [(r.addr es 0 y, w * es)]

/-- The regions the operation reads or writes, with the header-and-payload offset of their BASE image: D always. -/
def usedRegions (g : List Nat) : List (Nat × Region) := (if usesS g then [(20, regionOf g 0)] else []) ++ [(25, regionOf g 1)]

/-! ### The checks of a start (R386) -/

/-- R383 fails for a region: the offset of the image at fault. -/
def regionBad (g : List Nat) (or : Nat × Region) : Option Nat :=
  let r := or.2
  firstBad [(decide (r.mw * esz g ≤ r.pitch), or.1 + 2), (decide ((if r.wrap then 0 else r.x) + bltW g ≤ r.mw), or.1 + 4),
    (decide (r.y + bltH g ≤ r.mh), or.1 + 4)]

/-- What keeps context `ctx` from the bytes of a region, as in `accessFails`. -/
def regionFails (e : Engine) (ctx : Nat) (g : List Nat) (r : Region) (wr : Bool) : List Nat :=
  (List.range (bltH g)).flatMap (fun y => (r.runs (esz g) (bltW g) y).flatMap (fun al => accessFails e ctx al.1 al.2 wr))

/-- Checks 3 and 4 of R386 over the failures of the regions, each with the offset of its BASE image: what a requester may not reach comes
before another context's window. -/
def failStatus (fails : List (Nat × Nat)) : Option Status := match fails.find? (fun of => of.2 == 0) with
  | some of => some (.range of.1)
  | none => fails.head?.map (fun of => .owner (of.2 - 1))

/-- The byte span from the lowest to the highest byte a region's rectangle touches. -/
def spanOf (g : List Nat) (r : Region) : Nat × Nat :=
  let first := ((r.runs (esz g) (bltW g) 0).map (·.1)).foldl min (r.addr (esz g) 0 0)
  let last := (r.runs (esz g) (bltW g) (bltH g - 1)).foldl (fun m al => max m (al.1 + al.2)) 0
  (first, last)

/-- S and D overlap in a way the blitter does not order (R386, check 5). -/
def overlapBad (g : List Nat) : Bool :=
  let s := regionOf g 0
  let d := regionOf g 1
  let (s0, s1) := spanOf g s
  let (d0, d1) := spanOf g d
  usesS g && decide (s0 < d1) && decide (d0 < s1) && (s.base != d.base || s.pitch != d.pitch || s.wrap || d.wrap)

/-- The first check of R386 that an operation fails. -/
def bltBad (e : Engine) (b : Nat) (g : List Nat) : Option Status :=
  let ctx := e.ownerOf 5 b
  let used := usedRegions g
  match used.findSome? (fun or => firstBad [(or.2.base % 8 == 0, or.1), (or.2.pitch % 8 == 0, or.1 + 2)]) with
  | some o => some (.align o)
  | none =>
    if opOf g = 3 ∨ bits (g.getD 2 0) 3 2 = 3 then some (.range 18)
    else match used.findSome? (regionBad g) with
    | some o => some (.range o)
    | none =>
      match failStatus (used.flatMap (fun or => (regionFails e ctx g or.2 (or.1 == 25)).map (fun k => (or.1, k)))) with
      | some st => some st
      | none => if overlapBad g then some (.range 25) else none

/-! ### Ends (R389) -/

/-- The BLIT command that waits for the operation completes. -/
def bltComplete (e : Engine) (b : Nat) (st : Status) : Engine := match (e.blt b).cmd with
  | some (r, t, n) => e.completeAt r t n st e.cxNow
  | none => e

/-- The blitter returns to IDLE with a status. -/
def bltEnd (e : Engine) (b : Nat) (st : Status) : Engine :=
  let e1 := (bltComplete e b st).putBlt b ⟨[], [], 0, 0, none⟩
  let ws : List (Fld × Nat) := [(Reg.BLT_STAT_STATE b, 0), (Reg.BLT_STAT_CODE b, st.code)]
  { e1 with regs := e1.regs.puts ws }

/-- A failure: status and detail, and the fault event. -/
def bltFault (e : Engine) (b : Nat) (st : Status) : Engine :=
  let ws : List (Fld × Nat) := [(Reg.BLT_STAT_CODE b, st.code), (Reg.BLT_STAT_DETAIL b, st.detail)]
  Engine.raise { e with regs := e.regs.puts ws } (Src.blt + 2 * b + 1) (st.code + 2 ^ 16 * st.detail)

/-- The last row has been written. -/
def bltDone (e : Engine) (b : Nat) : Engine :=
  ((bltEnd e b .ok).bump (Reg.BLT_OPS_COUNT b)).raise (Src.blt + 2 * b) (e.reg (Reg.BLT_ROWS_COUNT b))

/-- The operation stops. -/
def bltStop (e : Engine) (b : Nat) (st : Status) : Engine := bltFault (bltEnd e b st) b st

/-- Abort: the burst under way is whole in the model (R389); an IDLE blitter is left as it is. -/
def bltAbort (e : Engine) (b : Nat) : Engine := if e.bltRun b then bltStop e b .aborted else e

/-- Abort both blitters (R373). -/
def abortBlits (e : Engine) : Engine := bltAbort (bltAbort e 0) 1

/-! ### Start (R385 to R387) -/

/-- Start the operation `g`, for a BLIT command where one is given. -/
def bltStart (e : Engine) (b : Nat) (g : List Nat) (cmd : Option (Nat × Nat × Bool)) : Engine :=
  let s := regionOf g 0
  let d := regionOf g 1
  let ws : List (Fld × Nat) := [(Reg.BLT_STAT_STATE b, 1), (Reg.BLT_STAT_XDIR b, b2n (usesS g && decide (s.x < d.x))),
    (Reg.BLT_STAT_YDIR b, b2n (usesS g && decide (s.y < d.y))), (Reg.BLT_ROWS_COUNT b, 0)]
  Engine.putBlt { e with regs := e.regs.puts ws } b ⟨g, bltPat e b, 0, 0, cmd⟩

/-- Start the operation in the registers, or fail (R386). -/
def bltTry (e : Engine) (b : Nat) : Engine := match bltBad e b (bltImage e b) with
  | some st => bltFault e b st
  | none => bltStart e b (bltImage e b) none

/-- A GO write (R389). -/
def bltGo (e : Engine) (b : Nat) : Engine := if e.bltRun b then e.bump (Reg.BLT_IGN_COUNT b) else bltTry e b

/-- A write to BLT_CTL. -/
def bltCtl (e : Engine) (b : Nat) (go abort : Bool) : Engine :=
  let e1 := if go then bltGo e b else e
  if abort then bltAbort e1 b else e1

/-! ### Bursts (R384, R387, R388) -/

/-- LOGIC on numbers of `n` bits: bit i = 4 s + 2 d + p of the code. -/
def logicFn (code n s d p : Nat) : Nat :=
  (List.range n).foldl (fun a i => a + 2 ^ i * bit code (4 * bit s i + 2 * bit d i + bit p i)) 0

/-- The new value of destination element (x, y). -/
def newElem (x : Blt) (es sv dv cx cy : Nat) : Nat :=
  let g := x.img
  let op := g.getD 2 0
  if opOf g = 1 then g.getD 3 0 % 2 ^ (8 * es)
  else if opOf g = 2 then sv
  else logicFn (fnCode g) (8 * es) sv dv (x.pat.getD (8 * ((cy + bits op 22 20) % 8) + (cx + bits op 18 16) % 8) 0)

/-- The columns of the next burst of row `y`, in the order of writing. -/
def burstCols (g : List Nat) (xdir : Bool) (done y : Nat) : List Nat :=
  let d := regionOf g 1
  let w := bltW g
  let col : Nat → Nat := fun i => if xdir then w - 1 - (done + i) else done + i
  let kib : Nat → Nat := fun i => d.addr (esz g) (col i) y / 1024
  ((List.range (min (w - done) (1024 / esz g))).takeWhile (fun i => kib i == kib 0)).map col

/-- Why the burst may not be made: a window has changed (R389). -/
def burstStop (e : Engine) (b : Nat) (g : List Nat) (cols : List Nat) (y : Nat) : Option Status :=
  let ctx := e.ownerOf 5 b
  failStatus ((usedRegions g).flatMap (fun or => cols.flatMap (fun c =>
    (accessFails e ctx (or.2.addr (esz g) c y) (esz g) (or.1 == 25)).map (fun k => (or.1, k)))))

/-- Read one element of a region where the operation depends on it: the engine, the value, the error flag. -/
def readElem (e : Engine) (used : Bool) (a es : Nat) : Engine × Nat × Bool :=
  if used then
    let (e1, bs, bad) := engRead e a es
    (e1, leVal bs, bad)
  else (e, 0, false)

/-- Read the operands of a burst and form its new elements, with their addresses, and whether a read was flagged. -/
def burstData (e : Engine) (x : Blt) (cols : List Nat) (y : Nat) : Engine × List (Nat × Nat) × Bool :=
  let g := x.img
  let es := esz g
  let s := regionOf g 0
  let d := regionOf g 1
  cols.foldl (fun (r : Engine × List (Nat × Nat) × Bool) c =>
    let (e1, sv, b1) := readElem r.1 (usesS g) (s.addr es c y) es
    let (e2, dv, b2) := readElem e1 (readsD g) (d.addr es c y) es
    (e2, r.2.1 ++ [(d.addr es c y, newElem x es sv dv c y)], r.2.2 || b1 || b2)) (e, [], false)

/-- Write the elements of a burst, up to one whose word, read to be written in part, is flagged. -/
def burstWrite (e : Engine) (es : Nat) (out : List (Nat × Nat)) : Engine × Bool :=
  out.foldl (fun r av => if r.2 then r else engWrite r.1 av.1 (leBytes es av.2)) (e, false)

/-- A burst that is permitted; an uncorrectable error in a read, or in the read half of a write, stops the operation (R389). -/
def burstRun (e : Engine) (b : Nat) (x : Blt) (cols : List Nat) (y : Nat) : Engine :=
  let (e1, out, bad) := burstData e x cols y
  let (e2, bad2) := if bad then (e1, true) else burstWrite e1 (esz x.img) out
  if bad2 then
    let (v, e3) := e2.freeVal
    bltStop e3 b (.hwerr v)
  else
    if x.col + cols.length < bltW x.img then e2.putBlt b { x with col := x.col + cols.length }
    else
      let e3 := (e2.putBlt b { x with row := x.row + 1, col := 0 }).setReg (Reg.BLT_ROWS_COUNT b) (x.row + 1)
      if x.row + 1 < bltH x.img then e3 else bltDone e3 b

/-- BLT_BURST: after its gap the blitter issues its next burst (R387 to R389); nothing where it is IDLE. -/
def execBltBurst (b : Nat) (s : State) : Host.Outcome State Fault Refusal :=
  let e := s.eng
  if b < 2 ∧ e.bltRun b then
    let x := e.blt b
    let y := if e.reg (Reg.BLT_STAT_YDIR b) = 1 then bltH x.img - 1 - x.row else x.row
    let cols := burstCols x.img (e.reg (Reg.BLT_STAT_XDIR b) == 1) x.col y
    match burstStop e b x.img cols y with
    | some st => .next { s with eng := bltStop e b st }
    | none => .next { s with eng := burstRun e b x cols y }
  else .next s

/-- A write of 1 to BLT_CTL.GO (R386, R389). -/
def execBltCtlGo (b : Nat) (s : State) : Host.Outcome State Fault Refusal :=
  if b < 2 then .next { s with eng := bltGo s.eng b } else .next s

/-- A write of 1 to BLT_CTL.ABORT (R389). -/
def execBltCtlAbort (b : Nat) (s : State) : Host.Outcome State Fault Refusal :=
  if b < 2 then .next { s with eng := bltAbort s.eng b } else .next s

/-! ### BLT functions (R390, Table 18.7) -/

/-- The owner of the blitter that is the target. -/
def bltOwner (e : Engine) (p : Packet) : Option Nat := if p.target < 2 then e.ownerBad p.ctx 5 p.target else none

/-- The images of a BLIT: word +0x000 is ignored. -/
def blitImage (p : Packet) : List Nat := (indexed (p.words 0 16)).map (fun iw => if iw.1 = 0 then 0 else iw.2)

/-- An image word sets no reserved bit and no reserved value (Table 18.9). Where the operation starts, the low bits of a BASE, OP and ESZ are
left to R386, which puts them in its own order. -/
def bltWordOk (start : Bool) (i v : Nat) : Bool :=
  within ([0xFFFFFFFF, 0x3FF, 0x77FF3F, 0xFFFFFFFF, 0xFFFFFFFF, 0xFF, 0x7FFFF, 0xFFFFFFFF, 0xFFFFFFFF, 0xFFFFFFFF, 0xFF, 0x7FFFF,
    0xFFFFFFFF, 0xFFFFFFFF, 0xFFFFFFFF, 0].getD i 0xFFFFFFFF) v
  && (start || if i = 2 then v % 4 != 3 && bits v 3 2 != 3 else if i = 4 ∨ i = 9 then v % 8 == 0 else true)

/-- BLIT. -/
def fnBlit : Fn :=
  { op := 0x1210, kind := .action, noApply := true, owner := bltOwner
    len := fun p => p.length == (if tbit (p.arg 0) 1 then 320 else 64)
    range := fun _ p => match firstBad [(decide (p.target < 2), 7), (decide (p.arg 0 ≤ 3), 8)] with
      | some d => some d
      | none => wordsBad p (bltWordOk (tbit (p.arg 0) 0)) }

/-- SET_GAP. -/
def fnSetGap : Fn :=
  { op := 0x1211, kind := .action, noApply := true, owner := bltOwner
    range := fun _ p => firstBad [(decide (p.target < 2), 7), (decide (p.arg 0 ≤ 1023), 8)] }

/-- ABORT. -/
def fnBltAbort : Fn :=
  { op := 0x1212, kind := .action, noApply := true, owner := bltOwner, range := fun _ p => firstBad [(decide (p.target < 2), 7)] }

/-- BLIT with START of a blitter that runs, or of an operation that fails R386. -/
def blitBad (e : Engine) (p : Packet) : Option Status :=
  if tbit (p.arg 0) 0 then (if e.bltRun p.target then some (.busy 0x12) else bltBad e p.target (blitImage p)) else none

/-- BLIT writes the operation and the pattern, and starts it. -/
def actBlit (e : Engine) (p : Packet) : Engine :=
  let b := p.target
  let pat : List (Fld × Nat) := if tbit (p.arg 0) 1 then (List.range 64).map (fun k => (Reg.BLT_PAT_VAL b k, p.word (16 + k))) else []
  let e1 : Engine := { e with regs := (e.regs.puts (bltWrites b (blitImage p))).puts pat }
  if tbit (p.arg 0) 0 then bltStart e1 b (blitImage p) (some (p.ring, p.tag, p.notify)) else e1.complete p .ok

/-- BLIT (R386, R389). -/
def execBlit (p : Packet) (s : State) : Host.Outcome State Fault Refusal :=
  .next { s with eng := runAsync fnBlit blitBad actBlit p s.eng }

/-- SET_GAP (R388). -/
def execSetGap (p : Packet) (s : State) : Host.Outcome State Fault Refusal :=
  .next { s with eng := runAction fnSetGap noExtra (fun e p => e.setReg (Reg.BLT_GAP_GAP p.target) (p.arg 0)) p s.eng }

/-- ABORT of BLT (R389). -/
def execBltAbort (p : Packet) (s : State) : Host.Outcome State Fault Refusal :=
  .next { s with eng := runAction fnBltAbort noExtra (fun e p => bltAbort e p.target) p s.eng }

/-! ### Busy inputs (R315, R324) -/

/-- The input's island is powered down: in STANDBY all but PWR, the counters and what keeps its power (R324, R443). -/
def inputDown (e : Engine) (c : Nat) : Bool := e.st == stOff || (e.st == stStandby && !(c == 256 || c == 257 || (decide (512 ≤ c) && decide (c ≤ 575))))

/-- The task of an input runs already (Table 15.2). -/
def inputBusy (e : Engine) (c : Nat) : Bool :=
  if c = 256 then e.reg Reg.PWR_STAT_WAKING == 1
  else if c = 264 ∨ c = 265 then e.bltRun (c - 264)
  else if 640 ≤ c ∧ c ≤ 703 then e.chanRun (c - 640)
  else false

/-- What EVT_CSTAT.BUSY shows of an input: its task runs, its island is powered down, or, for input 258, the history ring takes no trigger
(R180, R324, Table 15.2). -/
def busyShown (e : Engine) (c : Nat) : Bool :=
  consumerListed c && (inputDown e c || inputBusy e c || (c == 258 && e.reg Reg.OUT_HSTAT_STATE != 1))

end Sys2Proof.Machine
end

