-- ==== Sys2Proof/Machine/Rings.lean ====
section
/-! DEFINITION. Rings: the Control rings and HST_CTL.EN, doorbells, ring FAULT, removal, and stopping and resuming STR rings (R42 to
R51, R67, R70). -/

namespace Sys2Proof.Machine

/-! ### The Control rings (R43, R70) -/

/-- Control ring (0) or Control completion ring (1) as the HST registers describe it; none where K is outside 4 to 16. -/
def ctrlRing (e : Engine) (typ : Nat) : Option Ring :=
  let k := e.reg (if typ = 0 then Reg.HST_CRING_SIZE_K else Reg.HST_CCPL_SIZE_K)
  let lo := e.reg (if typ = 0 then Reg.HST_CRING_LO_ADDR else Reg.HST_CCPL_LO_ADDR)
  let hi := e.reg (if typ = 0 then Reg.HST_CRING_HI_ADDR else Reg.HST_CCPL_HI_ADDR)
  let head := if typ = 0 then 8 * e.reg Reg.HST_CHEAD_LO_ADDR + 2 ^ 32 * e.reg Reg.HST_CHEAD_HI_ADDR else 0
  if k < 4 ∨ 16 < k then none
  else some { id := typ, typ := typ, k := k, base := 4096 * lo + 2 ^ 32 * hi, vec := if typ = 1 then e.reg Reg.HST_CVEC_VEC else 0,
              cpl := 1, head := head, kind := 0, intr := false, prod := 0, cons := 0, fault := false, drops := 0, stopped := false,
              lost := false, armed := true, fence := false, need := 0 }

/-- Set a Control ring up from its registers, with counts of 0; one that is there with the same place and size keeps its counts
(assumption 42). -/
def setCtrl (e : Engine) (typ : Nat) : Engine :=
  let others := e.host.rings.filter (fun r => r.id != typ)
  match ctrlRing e typ, e.ring? typ with
  | none, _ => { e with host := { e.host with rings := others } }
  | some r, none => { e with host := { e.host with rings := insertRing r others } }
  | some r, some q =>
    if q.base = r.base ∧ q.k = r.k ∧ q.head = r.head then e.putRing { q with vec := r.vec }
    else { e with host := { e.host with rings := insertRing r others } }

/-- HST_CTL.EN rises: the Control rings are set up, and completions that were held back are written (R43, R50, R70). -/
def hostEnabled (e : Engine) : Engine := (setCtrl (setCtrl e 0) 1).flushHeld

/-- HST_PTM_CTL.VALID (R68): an exchange has succeeded within the last three periods, and TIM is locked. -/
def ptmShow (e : Engine) : Engine :=
  e.setReg Reg.HST_PTM_CTL_VALID (b2n (e.reg Reg.HST_PTM_CTL_EN == 1 && e.host.ptmSeen && decide (e.host.ptmFails < 3) && e.locked))

/-- What writes to HST registers bring with them; `old` is the engine before them. -/
def hostWritten (old e : Engine) : Engine :=
  let e1 := if old.reg Reg.HST_CTL_EN = 0 ∧ e.reg Reg.HST_CTL_EN = 1 then hostEnabled e else e
  if old.reg Reg.HST_PTM_CTL_EN = e.reg Reg.HST_PTM_CTL_EN then e1 else ptmShow e1

/-! ### Doorbells (R45, R47, R51) -/

/-- RING_FAULT (R47). -/
def ringFault (e : Engine) (r : Ring) : Engine :=
  let e1 := e.putRing { r with fault := true }
  let e2 := if e1.reg Reg.HST_ERRSTAT_RINGFAULT = 0 then e1.setReg Reg.HST_FAULTRING_ID r.id else e1
  (e2.raiseBit Reg.HST_ERRSTAT_RINGFAULT).raise Src.ringFault r.id

/-- The new producer count of a CMD ring, or consumer count of another. A consumer count that moves backwards is, modulo 2^32, past the
producer count (assumption 43). -/
def ringBell (e : Engine) (r : Ring) (v : Nat) : Engine :=
  if r.fault then e
  else if r.typ = 0 then
    if 2 ^ 31 ≤ (v + 2 ^ 32 - r.prod) % 2 ^ 32 ∨ 2 ^ r.k < (v + 2 ^ 32 - r.cons) % 2 ^ 32 then ringFault e r
    else e.putRing { r with prod := v }
  else if r.used < (v + 2 ^ 32 - r.cons) % 2 ^ 32 then ringFault e r
  else (e.putRing { r with cons := v, armed := true }).flushHeld

/-- A write to BAR2: the word of ring `off / 8`, alone or with the reserved word above it at 0; anything else is discarded (R45). -/
def doorbell (off size val : Nat) (e : Engine) : Engine :=
  if off % 8 ≠ 0 ∨ 2 ^ 21 ≤ off ∨ !(size == 4 || (size == 8 && decide (val < 2 ^ 32))) then e
  else match e.ring? (off / 8) with
  | none => e.bump Reg.HST_DBLOST_COUNT
  | some r => ringBell e r (val % 2 ^ 32)

/-- DOORBELL_WRITE (R45, R47). -/
def execDoorbellWrite (off size val : Nat) (s : State) : Host.Outcome State Fault Refusal :=
  if s.eng.st = stOff then .next s else .next { s with eng := doorbell off size val s.eng }

/-! ### Removal -/

/-- No ring: where the completion of a command whose ring is gone would go (R41, R50). -/
def noRing : Nat := 2 ^ 18

/-- Commands that `p` picks by ring and tag keep running, and their completions are discarded (R41, R43). A transfer has no tag of its
own: `noTag` stands for it. -/
def noTag : Nat := 2 ^ 64

/-- See `noTag`. -/
def orphan (p : Nat → Nat → Bool) (e : Engine) : Engine :=
  let g : Nat → Nat → Nat := fun r t => if p r t then noRing else r
  let bl : Option (Nat × Nat × Bool) → Option (Nat × Nat × Bool) := Option.map (fun c => (g c.1 c.2.1, c.2))
  let req : StReq → StReq := fun q => { q with ring := g q.ring q.tag }
  let host : HostSt := { e.host with pends := e.host.pends.map (fun q => { q with ring := g q.ring q.tag })
                                     started := e.host.started.filter (fun q => !p q.ring q.tag) }
  let sec : SecSt := { e.sec with xfers := e.sec.xfers.map (fun x => { x with ring := g x.ring noTag })
                                  verifs := e.sec.verifs.map (fun v => { v with p := { v.p with ring := g v.p.ring v.p.tag } })
                                  claim := e.sec.claim.map (fun c => { c with ring := g c.ring c.tag })
                                  reports := e.sec.reports.map (fun c => { c with ring := g c.ring c.tag }) }
  { e with host := host, sec := sec
           mov := { e.mov with blts := e.mov.blts.map (fun b => { b with cmd := bl b.cmd })
                               chans := e.mov.chans.map (fun c => { c with waiters := c.waiters.map (fun w => (g w.1 w.2.1, w.2)) }) }
           pwr := { e.pwr with reqs := e.pwr.reqs.map req, wakers := e.pwr.wakers.map req
                               unrecorded := e.pwr.unrecorded.map (fun u => { u with p := { u.p with ring := g u.p.ring u.p.tag } }) }
           cnt := { e.cnt with snaps := e.cnt.snaps.map (fun c => (g c.1 c.2.1, c.2)) }
           tdm := { e.tdm with sw := e.tdm.sw.map (fun w => { w with ring := g w.ring w.tag }) } }

/-- The routes and queued notifications to an EVN ring go (R327). -/
def dropNotes (id : Nat) (e : Engine) : Engine :=
  let routed := (List.range 4096).filter (fun s => e.reg (Reg.EVT_SNOTE_EN s) == 1 && e.reg (Reg.EVT_SNOTE_RING s) == id)
  let waits : Fld × Nat → Bool := fun w => decide (0xE10000 ≤ w.1.key / 32) && decide (w.1.key / 32 < 0xE20000) && w.1.key / 32 % 16 == 4
  { e with regs := e.regs.puts (routed.map (fun s => (Reg.EVT_SNOTE_EN s, 0)))
           r9 := e.r9.filter (fun w => !(waits w && (if w.1.width = 33 then w.2 % 2 ^ 18 == id
             else e.r9.any (fun x => x.1.key == w.1.key - w.1.key % 32 && x.2 == id))))
           evt := { e.evt with notes := e.evt.notes.filter (fun n => n.ring != id) } }

/-- The set-ups of an STR ring go, from every set (R175, R195, R228, R368), and the log batch it was filling. -/
def dropStream (id : Nat) (e : Engine) : Engine :=
  { e with active := dropSetups id e.active, staged := dropSetups id e.staged
           host := { e.host with pends := e.host.pends.map (fun p => { p with set := dropSetups id p.set }) }
           fin := { e.fin with batches := e.fin.batches.filter (fun b => b.1 != id) } }

/-- Remove a ring with what is bound to it. -/
def removeRing (e : Engine) (r : Ring) : Engine :=
  let e1 := orphan (fun q _ => q == r.id) e
  let e2 := if r.typ = 2 then setupCounts (dropStream r.id e1) else if r.typ = 3 then dropNotes r.id e1 else e1
  { e2 with host := { e2.host with rings := e2.host.rings.filter (fun q => q.id != r.id)
                                   held := e2.host.held.filter (fun c => c.cplRing != r.id) } }

/-! ### Stopping and resuming STR rings (R67) -/

/-- The STR rings of the contexts that `p` picks stop at their next record boundary; a record already queued is whole in the model. -/
def stopRings (p : Nat → Bool) (c : Nat) (e : Engine) : Engine :=
  let f : Ring → Ring := fun r => if r.typ = 2 ∧ p (r.id / 256) then { r with stopped := true, lost := true } else r
  let e1 : Engine := { e with host := { e.host with rings := e.host.rings.map f, draining := true } }
  (e1.setReg Reg.HST_STOPSTAT_CTX c).setReg Reg.HST_STOPSTAT_DONE 0

/-- They run again; their next record carries LOST (R67). -/
def resumeRings (p : Nat → Bool) (e : Engine) : Engine :=
  let f : Ring → Ring := fun r => if r.typ = 2 ∧ p (r.id / 256) then { r with stopped := false } else r
  { e with host := { e.host with rings := e.host.rings.map f } }

/-- HST_STOP.CTX (R67). -/
def execHstStopCtx (ctx : Nat) (s : State) : Host.Outcome State Fault Refusal :=
  .next { s with eng := stopRings (fun c => c == ctx % 1024) (ctx % 1024) s.eng }

/-- HST_STOP.ALL (R67). HST_STOPSTAT.CTX keeps its value: no context is named (assumption 44). -/
def execHstStopAll (s : State) : Host.Outcome State Fault Refusal :=
  .next { s with eng := stopRings (fun _ => true) (s.eng.reg Reg.HST_STOPSTAT_CTX) s.eng }

/-- HST_RESUME.CTX (R67). -/
def execHstResumeCtx (ctx : Nat) (s : State) : Host.Outcome State Fault Refusal :=
  .next { s with eng := resumeRings (fun c => c == ctx % 1024) s.eng }

/-- HST_RESUME.ALL (R67). -/
def execHstResumeAll (s : State) : Host.Outcome State Fault Refusal :=
  .next { s with eng := resumeRings (fun _ => true) s.eng }

/-- STOP_DRAIN_DONE: the last queued record of the stopped rings has left the engine (R67): DONE is set and its event raised. -/
def execStopDrainDone (s : State) : Host.Outcome State Fault Refusal :=
  let e := s.eng
  if !e.host.draining then .next s
  else
    let e0 := e.linkDrain
    let e1 : Engine := { e0 with host := { e0.host with draining := false } }
    .next { s with eng := (e1.raiseBit Reg.HST_STOPSTAT_DONE).raise Src.stopDone (e.reg Reg.HST_STOPSTAT_CTX) }

end Sys2Proof.Machine
end

