-- ==== Sys2Proof/Machine/Bundle.lean ====
section
/-! DEFINITION. Signed objects (R393, Table 19.2) and the body of a Keep bundle (R406, Table 19.3): its sections, the items
they set, and the installation of a bundle (R171, R405). -/

namespace Sys2Proof.Machine

/-! ### Objects -/

/-- TYPE. -/
def objType (o : List Byte) : Nat := leAt o 4 2
/-- BODYLEN. -/
def objBodyLen (o : List Byte) : Nat := leAt o 8 4
/-- SVN. -/
def objSvn (o : List Byte) : Nat := leAt o 16 4
/-- SIGNER. -/
def objSigner (o : List Byte) : Nat := leAt o 20 4
/-- SERIAL. -/
def objSerial (o : List Byte) : Nat := leAt o 24 8
/-- KEYID. -/
def objKeyid (o : List Byte) : List Byte := (o.drop 32).take 64
/-- The signature. -/
def objSig (o : List Byte) : List Byte := (o.drop 256).take 29792
/-- The body. -/
def objBody (o : List Byte) : List Byte := o.drop 30048
/-- The message a signature is over: header, then body. -/
def objMsg (o : List Byte) : List Byte := o.take 256 ++ objBody o

/-- The unit's serial number (R13). -/
def serialNo : Nat := Config.idWord 1 % 2 ^ 32 + 2 ^ 32 * (Config.idWord 2 % 2 ^ 32)

/-- `n` bytes: those of a list, filled up with 0, or cut off. -/
def fixLen (n : Nat) (bs : List Byte) : List Byte := (List.range n).map (fun i => bs.getD i 0)

/-- The digest of a key or of a measured item: 64 bytes of SHAKE256 (R392, R408). -/
def digest64 (bs : List Byte) : List Byte := fixLen 64 (Config.shake256 64 bs)

/-! ### Sections of a bundle body -/

/-- The sections of a body, in order: tag and payload; none where the body is not a run of whole sections. The fuel is the
number of sections a bundle has, and one more. -/
def sectionsOf : Nat → List Byte → Option (List (Nat × List Byte))
  | _, [] => some []
  | 0, _ => none
  | k + 1, bs =>
    let len := leAt bs 4 4
    let pad := ceilDiv len 8 * 8
    if bs.length < 8 + pad ∨ leAt bs 2 2 ≠ 0 then none
    else (sectionsOf k (bs.drop (8 + pad))).map (fun r => (leAt bs 0 2, (bs.drop 8).take len) :: r)

/-- The payload of section `tag`. -/
def sect (ss : List (Nat × List Byte)) (tag : Nat) : List Byte := ((ss.find? (fun s => s.1 == tag)).map (·.2)).getD []

/-- The entries of section 1: source index, MAP_TBASE, and the LNK_SCFG, MAP_CONV and MAP_CGAIN images. -/
def bundleSources (ss : List (Nat × List Byte)) : List (Nat × Nat × Nat × Nat × Nat) :=
  let s := sect ss 1
  (List.range (leAt s 0 4)).map (fun i =>
    let o := 4 + 16 * i
    (leAt s o 2, leAt s (o + 2) 2, leAt s (o + 4) 4, leAt s (o + 8) 4, leAt s (o + 12) 4))

/-- The words of MS31's masks, for each mask. -/
def maskWords (w h : Nat) : Nat := ceilDiv (w * h) 32

/-- The tile map entries of section 3, source by source. -/
def tileWords : List (Nat × Nat × Nat × Nat × Nat) → List Byte → List (List Nat)
  | [], _ => []
  | x :: xs, bs =>
    let n := bits x.2.2.1 14 4
    (List.range n).map (fun i => leAt bs (4 * i) 4) :: tileWords xs (bs.drop (4 * n))

/-- Each tag appears once, in ascending order, with the length Table 19.3 gives; and the values lie in the ranges of
Table 7.1 and R123; no source has entries into MS31 and into another map source (R122). -/
def sectionsOk (ss : List (Nat × List Byte)) : Bool :=
  let len : Nat → Nat := fun tag => (sect ss tag).length
  let n := leAt (sect ss 1) 0 4
  let m := leAt (sect ss 2) 0 4
  let w := leAt (sect ss 4) 0 2
  let h := leAt (sect ss 4) 2 2
  let words := (bundleSources ss).foldl (fun a x => a + bits x.2.2.1 14 4) 0
  ss.map (·.1) == [1, 2, 3, 4, 5, 6, 7] && len 1 == 4 + 16 * n && len 2 == 4 + 4 * m && len 3 == 4 * words
    && decide (16 ≤ len 4) && len 4 == 16 + 8 * maskWords w h && len 5 == 24 && len 6 == 4 * w * h && len 7 == 16
    && (bundleSources ss).all (fun x => decide (x.1 < 1152) && within scfgMask x.2.2.1 && within 0xF3F7 x.2.2.2.1)
    && (List.range m).all (fun i => decide (leAt (sect ss 2) (4 + 4 * i) 1 < 144))
    && decide (1 ≤ w ∧ w ≤ 256) && decide (1 ≤ h ∧ h ≤ 128)
    && (tileWords (bundleSources ss) (sect ss 3)).all (fun es => es.all (fun v => !tileKeep v) || es.all (fun v => !tileEn v || tileMs v == 31))
    && decide (leAt (sect ss 4) 4 1 ≤ 1) && decide (leAt (sect ss 4) 8 4 ≤ full18) && decide (leAt (sect ss 4) 12 4 ≤ full18)
    && decide (leAt (sect ss 5) 0 4 ≤ 1) && decide (leAt (sect ss 5) 12 4 ≤ 1)
    && (List.range (w * h)).all (fun i => decide (leAt (sect ss 6) (4 * i) 4 ≤ full18))
    && decide (leAt (sect ss 7) 4 4 ≤ full18) && decide (leAt (sect ss 7) 8 4 ≤ 1) && decide (leAt (sect ss 7) 12 4 ≤ 65535)

/-- The sections of an object's body, where they are a bundle's. -/
def bundleOf (o : List Byte) : Option (List (Nat × List Byte)) := (sectionsOf 8 (objBody o)).filter sectionsOk

/-- The tile map entries of section 3, in source order. -/
def bundleTiles : List (Nat × Nat × Nat × Nat × Nat) → List Byte → List (Fld × Nat)
  | [], _ => []
  | x :: xs, bs =>
    let n := bits x.2.2.1 14 4
    (List.range n).map (fun i => (tileFld (x.2.1 + i), leAt bs (4 * i) 4)) ++ bundleTiles xs (bs.drop (4 * n))

/-- The staged fields a bundle sets (Table 7.1). -/
def bundleWrites (ss : List (Nat × List Byte)) : List (Fld × Nat) :=
  let srcs := bundleSources ss
  let s4 := sect ss 4
  let w := leAt s4 0 2
  let h := leAt s4 2 2
  let perSource : Nat × Nat × Nat × Nat × Nat → List (Fld × Nat) := fun x =>
    let q := x.1
    let c := x.2.2.2.1
    let g := x.2.2.2.2
    scfgImage q x.2.2.1 ++
      [(Reg.MAP_CONV_MODE q, bits c 1 0), (Reg.MAP_CONV_SATCODE q, bit c 2), (Reg.MAP_CONV_LUT q, bits c 9 4),
       (Reg.MAP_CONV_SH q, bits c 15 12), (Reg.MAP_CGAIN_GAIN q, bits g 15 0), (Reg.MAP_CGAIN_PED q, bits g 31 16),
       (Reg.MAP_TBASE_BASE q, x.2.1)]
  let lanes := (List.range (leAt (sect ss 2) 0 4)).flatMap (fun i =>
    let o := 4 + 4 * i
    let l := leAt (sect ss 2) o 1
    [(Reg.LNK_LCFG_MODE l, leAt (sect ss 2) (o + 1) 1), (Reg.LNK_LCFG_EQ l, leAt (sect ss 2) (o + 2) 1)])
  let ms31 : List (Fld × Nat) := [(Reg.MAP_SDEF_W 31, w), (Reg.MAP_SDEF_H 31, h), (Reg.MAP_SDEF_MERGE 31, leAt s4 4 1),
    (Reg.MAP_SDEAD_VAL 31, leAt s4 8 4), (Reg.MAP_SHOT_CAP 31, leAt s4 12 4)]
  (indexed srcs).map (fun ix => (ksrcFld ix.1, 1 + ix.2.1)) ++ srcs.flatMap perSource ++ lanes ++ bundleTiles srcs (sect ss 3) ++ ms31
    ++ (List.range 6).map (fun i => (keepFld i, leAt (sect ss 5) (4 * i) 4))
    ++ (List.range (w * h)).map (fun i => (cthrFld i, leAt (sect ss 6) (4 * i) 4))
    ++ (List.range 4).map (fun i => (keepFld (6 + i), leAt (sect ss 7) (4 * i) 4))

/-- The mask bits of MS31 that a bundle sets. -/
def bundleMasks (ss : List (Nat × List Byte)) : List (Fld × Nat) :=
  let s4 := sect ss 4
  let w := leAt s4 0 2
  let h := leAt s4 2 2
  [false, true].flatMap (fun hot => (List.range (w * h)).map (fun b =>
    (maskFld hot 31 b, bit (leAt s4 (16 + 4 * (b / 32) + (if hot then 4 * maskWords w h else 0)) 4) (b % 32))))

/-! ### Installation -/

/-- A key that belongs to the bundle's own tables. -/
def keepKey (k : Nat) : Bool := decide (tabBase tKthr ≤ k) && decide (k < tabBase (tKlane + 1))

/-- A set without the items of the bundle installed before: its tables, and the tile map entries that place words into
MS31. -/
def dropBundle (t : Tab) : Tab :=
  t.filter (fun kv => !(keepKey kv.1 || (decide (tabBase tTile ≤ kv.1) && decide (kv.1 < tabBase (tTile + 1)) && tileKeep kv.2)))

/-- A set with a bundle's items. -/
def putBundle (t : Tab) (ss : List (Nat × List Byte)) : Tab := (dropBundle t).puts (bundleWrites ss)

/-- The bundle of object `o` becomes active: its items in both copies, its masks and its version (R171, R405); another size of MS31 clears its masks as any resize does, and says so (R133). -/
def installBundle (e : Engine) (o : List Byte) : Engine :=
  match bundleOf o with
  | none => e
  | some ss =>
    let act := (clearMasks (putBundle e.active ss) 31).puts (bundleMasks ss)
    let e1 : Engine := { e with active := act, staged := putBundle e.staged ss, keep := { e.keep with object := o } }
    let resized := srcW e.active 31 != srcW act 31 || srcH e.active 31 != srcH act 31
    let e1 := if resized then (e1.raiseBit Reg.MAP_STAT_MCLR).raise (Src.map + 1) 31 else e1
    keepCauses ((mapStatus ((e1.setReg Reg.OUT_KSTAT_BUNDLE 1).setReg Reg.SEC_KEEPVER_VER (objVer o))).raise Src.keepAct (objVer o))

/-- The bundle is removed (R404). -/
def removeBundle (e : Engine) : Engine :=
  let act := clearMasks (dropBundle e.active) 31
  let e1 : Engine := { e with active := act, staged := dropBundle e.staged, keep := { e.keep with object := [] } }
  keepCauses (mapStatus (e1.setReg Reg.OUT_KSTAT_BUNDLE 0))

/-! ### Bitstreams (R309, Table 14.6) -/

/-- The header fields of a bitstream lie in their ranges, and every assigned port is declared. -/
def bitsOk (t : Tab) (o : List Byte) : Bool :=
  let f : Nat → Nat := fun i => Config.bitField i (objBody o)
  let ports := [Reg.ULA_PMAP_CP4, Reg.ULA_PMAP_CP5, Reg.ULA_PMAP_CP6, Reg.ULA_PMAP_CP7]
  (List.range 4).all (fun i => f i == 0 || (decide (2 ≤ f i) && decide (f i ≤ 16))) && decide (f 6 ≤ 32768) && decide (f 7 ≤ 16384)
    && decide (f 8 ≤ 8388608) && (indexed ports).all (fun ip => t.fld ip.2 == 63 || f ip.1 != 0)

/-- The bitstream of object `o` becomes active. -/
def installBits (e : Engine) (o : List Byte) : Engine :=
  let f : Nat → Nat := fun i => Config.bitField i (objBody o)
  let ws : List (Fld × Nat) := [(Reg.ULA_STAT_LOADED, 1), (Reg.ULA_STAT_CONFIG, 0),
    (Reg.ULA_PDIST_DIST, f 0 % 256 + 256 * (f 1 % 256) + 65536 * (f 2 % 256) + 16777216 * (f 3 % 256))]
    ++ (List.range 4).map (fun i => (Reg.ULA_MUSED_MASK i, f 4 / 2 ^ (32 * i)))
    ++ (List.range 2).map (fun i => (Reg.ULA_EUSED_MASK i, f 5 / 2 ^ (32 * i)))
  let e1 : Engine := { e with regs := e.regs.puts ws, sec := { e.sec with bits := o } }
  (e1.raise Src.loaded 0).raise Src.ulaAct 0

/-- The bitstream is unloaded (R404). -/
def removeBits (e : Engine) : Engine :=
  let ws : List (Fld × Nat) := [(Reg.ULA_STAT_LOADED, 0), (Reg.ULA_STAT_CONFIG, 0), (Reg.ULA_PDIST_DIST, 0)]
    ++ (List.range 4).map (fun i => (Reg.ULA_MUSED_MASK i, 0)) ++ (List.range 2).map (fun i => (Reg.ULA_EUSED_MASK i, 0))
  { e with regs := e.regs.puts ws, sec := { e.sec with bits := [] } }

end Sys2Proof.Machine
end

