-- ==== Sys2Proof/Machine/Security.lean ====
section
/-! DEFINITION. Security (chapter 19): verification of signed objects, transfers, firmware slots, the owner key,
measurements and attestation, and the functions that carry objects: INSTALL_BUNDLE, LOAD_BITSTREAM and REPAIR too. -/

namespace Sys2Proof.Machine

/-! ### Verification (R392 to R395) -/

/-- SIGNER that Table 19.1 gives for a TYPE: 1 Noerdal, 2 owner. -/
def signerOf (typ : Nat) : Nat := if typ = 1 ∨ typ = 4 ∨ typ = 7 ∨ typ = 8 then 1 else 2

/-- The body length of the types whose body has one length. -/
def bodyLenOk (typ n : Nat) : Bool := match typ with
  | 4 => n == 8
  | 5 => n == 64
  | 6 => n == 29856
  | 7 => n == 0
  | 8 => n == 80
  | _ => true

/-- The context strings of Table 19.1: "AQ4608" for objects, "AQ-ATT" for reports. -/
def ctxObject : List Byte := [0x41, 0x51, 0x34, 0x36, 0x30, 0x38]
/-- See `ctxObject`. -/
def ctxReport : List Byte := [0x41, 0x51, 0x2D, 0x41, 0x54, 0x54]

/-- Noerdal's public key: 64 bytes in OTP (Table 19.1). -/
def noerdalPub : List Byte := fixLen 64 Config.noerdalKey

/-- The device seed: SK.seed, SK.prf and PK.seed, 32 bytes each (R392). -/
def deviceSeed : List Byte := fixLen 96 Config.deviceSeed

/-- The device identity public key that a start-up derives: PK.seed and PK.root (R392). -/
def deriveKey : List Byte := deviceSeed.drop 64 ++ fixLen 32 (Config.slhRoot .shake256f deviceSeed)

/-- The SLH-DSA-SHAKE-256f signature of the device identity key over a report: 49,856 bytes (Table 19.1). -/
def reportSig (e : Engine) (m : List Byte) : List Byte :=
  fixLen 49856 (Config.slhSign .shake256f ctxReport deviceSeed (e.sec.deviceKey.drop 32) m)

/-- The device certificate, a TYPE 8 object of 30,128 bytes (R407). -/
def certObj : List Byte := fixLen 30128 Config.deviceCert

/-- The certificate holds the device's key (R407). -/
def certOk (e : Engine) : Bool := decide ((objBody certObj).take 64 = e.sec.deviceKey)

/-- A signature over an object under a key (R392, R393). -/
def objVerify (key msg sig : List Byte) : Bool := Config.slhVerify .shake256s ctxObject key msg sig

/-- The failing step of R394 for an object of the given TYPE; 0 where it verifies. At start-up a bundle's version must be
the one held (R405). -/
def objFail (e : Engine) (typ : Nat) (startup : Bool) (o : List Byte) : Nat :=
  let own := e.sec.ownerKey
  let body := objBody o
  let key := if typ = 5 then body.take 64 else if signerOf typ = 1 then noerdalPub else own
  let second := objVerify (body.take 64) (leBytes 8 serialNo ++ digest64 own) (body.drop 64)
  if o.take 4 ≠ [0x41, 0x51, 0x53, 0x4F] ∨ objType o ≠ typ ∨ leAt o 6 2 ≠ 1 ∨ !((o.drop 96).take 160).all (· == 0)
      ∨ o.length ≠ 30048 + objBodyLen o ∨ !bodyLenOk typ (objBodyLen o) then 1
  else if objSigner o ≠ signerOf typ then 2
  else if (signerOf typ = 2 ∧ typ ≠ 5 ∧ e.reg Reg.SEC_STAT_OWNER ≠ 1) ∨ objKeyid o ≠ digest64 key then 3
  else if objSerial o ≠ serialNo ∧ (objSerial o ≠ 0 ∨ typ = 4 ∨ typ = 7 ∨ typ = 8) then 4
  else if !objVerify key (objMsg o) (objSig o) ∨ (typ = 6 ∧ !second) then 5
  else if typ = 1 ∧ objSvn o < e.reg Reg.SEC_FLOOR_FLOOR then 6
  else if typ = 2 ∧ (if startup then objVer o ≠ e.reg Reg.SEC_KEEPVER_VER else objVer o ≤ e.reg Reg.SEC_KEEPVER_VER) then 6
  else 0

/-- Record a verification: SEC_VLAST, and a refusal in SEC_VFAIL with VFAIL (R394, R410). -/
def recordVerify (e : Engine) (o : List Byte) (cause : Nat) : Engine :=
  let ws : List (Fld × Nat) := [(Reg.SEC_VLAST_TYPE, objType o), (Reg.SEC_VLAST_CAUSE, cause)]
  let e1 : Engine := { e with regs := e.regs.puts ws }
  if cause = 0 then e1 else (e1.bump Reg.SEC_VFAIL_COUNT).raise Src.vfail (objType o)

/-! ### Firmware slots (R397 to R400) -/

/-- The object in slot `x`. -/
def slotObj (e : Engine) (x : Nat) : List Byte := e.sec.slots.getD x []

/-- Store an object in slot `x`, valid or not. -/
def putSlot (e : Engine) (x : Nat) (o : List Byte) (valid : Bool) : Engine :=
  maskBit { e with sec := { e.sec with slots := e.sec.slots.set x o } } Reg.SEC_FW_VALID x valid

/-- A valid slot's version and security version show in its registers. -/
def showSlot (e : Engine) (x : Nat) : Engine :=
  let o := slotObj e x
  if x = 0 then (e.setReg Reg.SEC_FWVERA_VER (objVer o)).setReg Reg.SEC_SVN_A (objSvn o)
  else (e.setReg Reg.SEC_FWVERB_VER (objVer o)).setReg Reg.SEC_SVN_B (objSvn o)

/-- cand(x) of R398. -/
def cand (e : Engine) (x : Nat) : Bool := objFail e 1 false (slotObj e x) == 0 && !tbit (e.reg Reg.SEC_FW_FAIL) x

/-- End the trial. -/
def endTrial (e : Engine) : Engine := (e.setReg Reg.SEC_FW_TRIAL 0).setReg Reg.SEC_FW_TRIED 0

/-- The firmware of slot `sel` runs: SEC_FW.SLOT and ID_FWVER (R13, R393). -/
def runSlot (e : Engine) (sel : Nat) : Engine :=
  let v := objVer (slotObj e sel)
  let ws : List (Fld × Nat) := [(Reg.SEC_FW_SLOT, sel), (Reg.ID_FWVER_MAJOR, v / 2 ^ 24), (Reg.ID_FWVER_MINOR, v / 2 ^ 16), (Reg.ID_FWVER_BUILD, v)]
  { e with regs := e.regs.puts ws }

/-- The boot ROM shows which slots verify. -/
def showSlots (e : Engine) : Engine := [0, 1].foldl (fun a x =>
  let ok := objFail a 1 false (slotObj a x) == 0
  let a1 := maskBit a Reg.SEC_FW_VALID x ok
  if ok then showSlot a1 x else a1) e

/-- The boot ROM selects a slot at a reset (R398); false where it stays in BOOT. -/
def bootRom (e : Engine) : Engine × Bool :=
  let e0 := showSlots e
  let next := e0.reg Reg.SEC_FW_NEXT
  let spent := e0.reg Reg.SEC_FW_TRIAL == 1 && e0.reg Reg.SEC_FW_TRIED == 1
  let e1 := if spent then endTrial ((maskBit e0 Reg.SEC_FW_FAIL next true).setReg Reg.SEC_FW_NEXT (1 - next))
    else if e0.reg Reg.SEC_FW_TRIAL = 1 then e0.setReg Reg.SEC_FW_TRIED 1 else e0
  let n := e1.reg Reg.SEC_FW_NEXT
  if cand e1 n then
    let e2 := runSlot e1 n
    (if spent then e2.raise Src.fwFall n else e2, true)
  else if cand e1 (1 - n) then
    let e2 := if e1.reg Reg.SEC_FW_TRIAL = 1 then endTrial ((maskBit e1 Reg.SEC_FW_FAIL n true).setReg Reg.SEC_FW_NEXT (1 - n)) else e1
    ((runSlot e2 (1 - n)).raise Src.fwFall (1 - n), true)
  else (e1, false)

/-! ### Transfers (R396) -/

/-- Keep SEC_STAT.XFER in step with the open transfers. -/
def putXfers (e : Engine) (xs : List Xfer) : Engine :=
  Engine.setReg { e with sec := { e.sec with xfers := xs } } Reg.SEC_STAT_XFER (b2n (!xs.isEmpty))

/-- The open transfer of a function. -/
def xferOf (e : Engine) (op : Nat) : Option Xfer := e.sec.xfers.find? (fun x => x.op == op)

/-- Close the transfer of a function. -/
def closeXfer (e : Engine) (op : Nat) : Engine := putXfers e (e.sec.xfers.filter (fun x => x.op != op))

/-- FIRST and LAST. -/
def Packet.first (p : Packet) : Bool := tbit (p.arg 1) 0
/-- See `Packet.first`. -/
def Packet.last (p : Packet) : Bool := tbit (p.arg 1) 1

/-- ST_BUSY, detail 0x13: another context's packet, or one of another ring that is not FIRST. -/
def xferBusy (op : Nat) (e : Engine) (p : Packet) : Option Status := match xferOf e op with
  | some x => if x.ctx ≠ p.ctx ∨ (!p.first ∧ x.ring ≠ p.ring) then some (.busy 0x13) else none
  | none => none

/-- The packet fits the transfer `x` (none for a FIRST packet): sequence, total and lengths. -/
def xferFits (p : Packet) (x : Option Xfer) : Bool :=
  let seq := (x.map (·.seq)).getD 0
  let got := (x.map (fun y => y.data.length)).getD 0
  p.arg 0 == seq && (x.map (·.total)).getD (p.arg 2) == p.arg 2 && decide (got + p.length ≤ p.arg 2)
    && (if p.last then got + p.length == p.arg 2 else p.length == 65536)

/-- Take a packet in: the last one queues its object for SC0 (R395, R396). -/
def takePacket (op : Nat) (e : Engine) (p : Packet) : Engine :=
  let cur := if p.first then none else xferOf e op
  let e0 := if p.first then closeXfer e op else e
  if (!p.first && cur.isNone) || !xferFits p cur then (closeXfer e0 op).complete p (.range 8)
  else
    let x : Xfer := cur.getD ⟨op, p.ring, p.ctx, p.target, p.arg 2, 0, []⟩
    let data := x.data ++ p.payload
    let e1 := if op = 0x1312 then putSlot e0 p.target data false else e0
    let rest := e1.sec.xfers.filter (fun y => y.op != op)
    if p.last then
      let e2 := putXfers e1 rest
      { e2 with sec := { e2.sec with verifs := e2.sec.verifs ++ [⟨op, { p with payload := [] }, data⟩] } }
    else (putXfers e1 (rest ++ [{ x with seq := x.seq + 1, data := data }])).complete p .ok

/-- A function that delivers an object. -/
def fnXfer (op targets : Nat) : Fn :=
  { op := op, kind := .action, right := fun _ => rightSecure, len := fun p => decide (1 ≤ p.length)
    range := fun _ p => firstBad [(p.last || p.applyAt == 0, 5), (decide (p.target < targets), 7), (decide (p.arg 1 ≤ 3), 9)] }

/-- The checks of such a function: `extra`, then the open transfer. -/
def xferExtra (op : Nat) (extra : Engine → Packet → Option Status) (e : Engine) (p : Packet) : Option Status :=
  match extra e p with
  | some st => some st
  | none => xferBusy op e p

/-- Deliver a packet of a transfer. -/
def runXfer (f : Fn) (extra : Engine → Packet → Option Status) (p : Packet) (e : Engine) : Engine :=
  runAsync f (xferExtra f.op extra) (takePacket f.op) p e

/-! ### What a verified object does -/

/-- Put a commit that installs an object in the queue, or complete the command. -/
def pendObject (e : Engine) (p : Packet) (blocks : List Nat) (object : Nat) : Status ⊕ Engine :=
  match blocks.find? (fun b => b != 6 && (e.lockedOut b p.ctx || e.pendingOn b)) with
  | some b => .inl (.busy b)
  | none => match nameCrossing e p.applyAt (object == 1) with
    | .inl st => .inl st
    | .inr named =>
      let pend : Pend := { uid := e.host.nextUid, ring := p.ring, tag := p.tag, ctx := p.ctx, notify := p.notify, blocks := blocks, set := [], named := named
                           relock := false, clock := false, masks := [], object := object, waiting := false, follow := [] }
      .inr { e with host := { e.host with pends := e.host.pends ++ [pend], nextUid := e.host.nextUid + 1 } }

/-- A verified bundle (R172). It is accepted with its journal record, as a commit is (R370, R431). -/
def acceptBundle (e : Engine) (p : Packet) (o : List Byte) : Engine := match pendObject e p [3, 4, 6] 1 with
  | .inl st => e.complete p st
  | .inr e1 =>
    if (bundleOf o).isNone then e.complete p (.incons 6)
    else if e.pwr.acOut then holdCommit e { p := p, blocks := [3, 4, 6], object := 1, obj := o }
    else journalSync { e1 with sec := { e1.sec with bundleDue := o } }

/-- A verified bitstream (R309): accepted as `acceptBundle` says; the array is configured from now on (R308). -/
def acceptBits (e : Engine) (p : Packet) (o : List Byte) : Engine :=
  if !bitsOk e.active o then e.complete p (.incons 12)
  else match pendObject e p [12] 2 with
  | .inl st => e.complete p st
  | .inr e1 =>
    if e.pwr.acOut then holdCommit e { p := p, blocks := [12], object := 2, obj := o }
    else journalSync (Engine.setReg { e1 with sec := { e1.sec with bitsDue := o } } Reg.ULA_STAT_CONFIG 1)

/-- A verified repair object: bank and column (R363, R407). The bank holds 0 afterwards. -/
def acceptRepair (e : Engine) (p : Packet) (o : List Byte) : Engine :=
  let b := leAt (objBody o) 0 4
  let col := leAt (objBody o) 4 4
  if 384 ≤ b ∨ e.reg (Reg.MEM_BANK_BISTV b) = 0 ∨ e.reg (Reg.MEM_BANK_FCOL b) ≠ col then e.complete p (.incons 0x10)
  else if e.reg (Reg.MEM_BANK_SPARE b) = 0 then e.complete p (.range 8)
  else
    let ws : List (Fld × Nat) := [(Reg.MEM_BANK_SPARE b, e.reg (Reg.MEM_BANK_SPARE b) - 1), (Reg.MEM_BANK_REP b, e.reg (Reg.MEM_BANK_REP b) + 1)]
    (clearBank { e with regs := e.regs.puts ws } b).complete p .ok

/-- A verified firmware image (R399). -/
def acceptFirmware (e : Engine) (p : Packet) (o : List Byte) : Engine :=
  let x := p.target
  let e1 := showSlot (maskBit (putSlot e x o true) Reg.SEC_FW_FAIL x false) x
  let e2 := if e1.reg Reg.SEC_FW_TRIAL = 1 ∧ e1.reg Reg.SEC_FW_NEXT = x then endTrial e1 else e1
  (e2.raise Src.fwDone x).complete p .ok

/-- The owner key held, its state and its digest as SEC_STAT and SEC_OWNKEY show them (R401). -/
def showOwner (state : Nat) (key : List Byte) (e : Engine) : Engine :=
  let d := if key.isEmpty then [] else digest64 key
  let ws : List (Fld × Nat) := (Reg.SEC_STAT_OWNER, state) :: (List.range 16).map (fun i => (Reg.SEC_OWNKEY_DIG i, leAt d (4 * i) 4))
  { e with regs := e.regs.puts ws, sec := { e.sec with ownerKey := key } }

/-- An owner key comes into force; none clears it (R401 to R404). -/
def setOwner (e : Engine) (key : List Byte) : Engine :=
  let e1 := showOwner (b2n (!key.isEmpty)) key e
  if key.isEmpty then e1 else e1.raise Src.owner (leAt (digest64 key) 0 4)

/-- The owner key that the journal holds comes into force at a start-up. LOST, where `lost` says that its record failed, stays until an owner
reset (R401; assumption 130). -/
def restoreOwner (lost : Bool) (e : Engine) : Engine :=
  if lost ∨ e.reg Reg.SEC_STAT_OWNER = 2 then showOwner 2 [] e
  else showOwner (b2n (!e.mem.journal.owner.isEmpty)) e.mem.journal.owner e

/-- A verified claim waits for CONFIRM (R402). -/
def acceptClaim (e : Engine) (p : Packet) (o : List Byte) : Engine :=
  if e.st ≠ stSafe ∨ e.reg Reg.SEC_STAT_OWNER ≠ 0 then e.complete p (.state e.st)
  else { e with sec := { e.sec with claim := some ⟨p.ring, p.tag, p.notify, (objBody o).take 64⟩ } }

/-- An owner reset (R404). -/
def acceptReset (e : Engine) (p : Packet) : Engine :=
  if e.st ≠ stSafe then e.complete p (.state e.st)
  else (journalSync (removeBits ((removeBundle (setOwner e [])).setReg Reg.SEC_KEEPVER_VER 0))).complete p .ok

/-- The TYPE a function carries. -/
def typeOf (op : Nat) : Nat :=
  if op = 0x1312 then 1 else if op = 0x0610 then 2 else if op = 0x0C10 then 3 else if op = 0x1012 then 4 else if op = 0x1316 then 5
  else if op = 0x1317 then 6 else 7

/-- SC0 ends a verification (R394, R395). -/
def endVerify (e : Engine) (v : Verif) : Engine :=
  let cause := objFail e (typeOf v.op) false v.obj
  let e1 := recordVerify e v.obj cause
  if cause ≠ 0 then e1.complete v.p .sig
  else match typeOf v.op with
  | 1 => acceptFirmware e1 v.p v.obj
  | 2 => acceptBundle e1 v.p v.obj
  | 3 => acceptBits e1 v.p v.obj
  | 4 => acceptRepair e1 v.p v.obj
  | 5 => acceptClaim e1 v.p v.obj
  | 6 => (journalSync (setOwner e1 ((objBody v.obj).take 64))).complete v.p .ok
  | _ => acceptReset e1 v.p

/-- VERIFICATION_END: the verification under way ends (R395). -/
def execVerificationEnd (s : State) : Host.Outcome State Fault Refusal :=
  match s.eng.sec.verifs with
  | [] => .next s
  | v :: vs => .next { s with eng := endVerify { s.eng with sec := { s.eng.sec with verifs := vs } } v }

/-- TRANSFER_TIMEOUT: a transfer without a packet for 10 s is abandoned (R396). -/
def execTransferTimeout (op : Nat) (s : State) : Host.Outcome State Fault Refusal :=
  if (xferOf s.eng op).isSome then .next { s with eng := (closeXfer s.eng op).raise Src.xferLost op } else .next s

/-! ### Measurements and reports (R408, R409) -/

/-- A measurement: 64 zero bytes where the item is absent. -/
def measure (bs : List Byte) : List Byte := if bs.isEmpty then leBytes 64 0 else digest64 bs

/-- The input of M_MENU. -/
def menuInput (e : Engine) : List Byte :=
  (List.range 512).flatMap (fun i => (List.range 16).flatMap (fun w => leBytes 4 (e.act (condFld i w))))
    ++ (List.range 64).flatMap (fun j => leBytes 4 (imageWord e.active (0x0A01000 + 0x10 * j)))
    ++ leBytes 4 (imageWord e.active 0x0A00000) ++ leBytes 4 (imageWord e.active 0x0A00004)
    ++ (List.range 16).flatMap (fun n => leBytes 4 (imageWord e.active ((Reg.MNU_ICFG_BUSY n).key / 32)))

/-- The input of M_SPIRE. -/
def spireInput (e : Engine) : List Byte :=
  let words : Nat → Nat → Nat → List Byte := fun tab lo n => (List.range n).flatMap (fun i => leBytes 4 (e.act (tabFld tab (lo + i) 32 0)))
  leBytes 4 (e.act Reg.SPR_CTL_I)
    ++ (List.range 32).flatMap (fun k => leBytes 4 (4 * e.act (Reg.SPR_CENTRY_PC k)) ++ leBytes 4 (bit (e.reg Reg.SPR_RUN_MASK) k)
        ++ words tImem (16384 * k) 16384 ++ words tDmem (16384 * k) 16384)
    ++ words tProg 0 524288

/-- The body of a report (Table 19.6), which is also its start: the measurement set of the crossing being created. -/
def reportBody (e : Engine) (nonce : List Byte) : List Byte :=
  [0x41, 0x51, 0x41, 0x54] ++ leBytes 2 1 ++ leBytes 1 e.st ++ leBytes 1 (e.reg Reg.SEC_FW_SLOT + 2 * e.reg Reg.SEC_FW_TRIAL)
    ++ leBytes 8 serialNo ++ leBytes 8 e.stampNow ++ nonce ++ leBytes 4 (objVer (slotObj e (e.reg Reg.SEC_FW_SLOT)))
    ++ leBytes 1 (e.reg Reg.SEC_FLOOR_FLOOR) ++ leBytes 1 (e.reg Reg.SEC_STAT_OWNER) ++ leBytes 2 0
    ++ measure (slotObj e (e.reg Reg.SEC_FW_SLOT)) ++ measure e.keep.object ++ measure (menuInput e) ++ measure (spireInput e)
    ++ measure e.sec.bits ++ (if e.sec.ownerKey.isEmpty then leBytes 64 0 else digest64 e.sec.ownerKey)
    ++ leBytes 4 (e.reg Reg.SEC_KEEPVER_VER) ++ leBytes 60 0

/-- SC0 starts the report that is due first, if it has not. -/
def startReport (e : Engine) : Engine := match e.sec.reports with
  | [] => e
  | r :: rs => if r.body.isEmpty then { e with sec := { e.sec with reports := { r with body := reportBody e r.nonce } :: rs } } else e

/-- ATTEST. -/
def fnAttest : Fn :=
  { op := 0x1310, kind := .action, noApply := true, inFault := true, right := fun _ => rightSecure, len := lenIs 32
    range := fun _ p => firstBad [(p.target == 0, 7)], align := fun p => firstBad [(p.arg 0 % 8 == 0, 8)] }

/-- GET_CERT. -/
def fnGetCert : Fn :=
  { op := 0x1311, kind := .action, noApply := true, inFault := true, right := fun _ => rightSecure
    range := fun _ p => firstBad [(p.target == 0, 7)], align := fun p => firstBad [(p.arg 0 % 8 == 0, 8)] }

/-- ATTEST (R409): reports are made one at a time. -/
def execAttest (p : Packet) (s : State) : Host.Outcome State Fault Refusal :=
  let e1 := runAsync fnAttest noExtra (fun e p =>
    startReport { e with sec := { e.sec with reports := e.sec.reports ++ [⟨p.ring, p.tag, p.notify, p.arg64 0, p.payload, []⟩] } }) p s.eng
  .next { s with eng := e1 }

/-- ATTEST_REPORT_DONE: the report and its signature are written after `ms` milliseconds; the next report starts (R409). -/
def execAttestReportDone (ms : Nat) (s : State) : Host.Outcome State Fault Refusal :=
  match s.eng.sec.reports with
  | [] => .next s
  | r :: rs =>
    let e := s.eng
    let e1 := Engine.post { e with sec := { e.sec with reports := rs } } r.addr (r.body ++ reportSig e r.body)
    let e2 := (e1.bump Reg.SEC_ATTCNT_COUNT).setReg Reg.SEC_ATTMAX_MS (max (e.reg Reg.SEC_ATTMAX_MS) (min ms 65535))
    .next { s with eng := startReport ((e2.completeAt r.ring r.tag r.notify .ok e2.cxNow).raise Src.attDone 0) }

/-- GET_CERT (R407). -/
def execGetCert (p : Packet) (s : State) : Host.Outcome State Fault Refusal :=
  .next { s with eng := runAction fnGetCert noExtra (fun e p => e.post (p.arg64 0) certObj) p s.eng }

/-! ### Objects delivered (R171, R309, R363, R399, R402 to R404) -/

/-- INSTALL_BUNDLE: SAFE, ARMED or HOLD, and SAFE only while TIM is unlocked (R171). -/
def bundleState (e : Engine) (_ : Packet) : Option Status :=
  if e.st = stSafe ∨ (e.locked ∧ (e.st = stArmed ∨ e.st = stHold)) then none else some (.state e.st)

/-- LOAD_BITSTREAM: SAFE, or while TIM is unlocked (R309). -/
def bitsState (e : Engine) (_ : Packet) : Option Status := if e.st = stSafe ∨ !e.locked then none else some (.state e.st)

/-- FW_UPDATE to the running slot (R399). -/
def fwState (e : Engine) (p : Packet) : Option Status :=
  if e.st = stBoot then some (.state e.st) else if p.target = e.reg Reg.SEC_FW_SLOT then some (.range 7) else none

/-- OWNER_CLAIM: SAFE, and UNOWNED (R402). -/
def claimState (e : Engine) (_ : Packet) : Option Status :=
  if e.st = stSafe ∧ e.reg Reg.SEC_STAT_OWNER = 0 then none else some (.state e.st)

/-- Every state but BOOT and FAULT. -/
def upState (e : Engine) (_ : Packet) : Option Status := if e.st = stBoot ∨ e.st = stFault then some (.state e.st) else none

/-- INSTALL_BUNDLE (R171, R172, R396). -/
def execInstallBundle (p : Packet) (s : State) : Host.Outcome State Fault Refusal :=
  .next { s with eng := runXfer (fnXfer 0x0610 1) bundleState p s.eng }

/-- LOAD_BITSTREAM (R309, R396). -/
def execLoadBitstream (p : Packet) (s : State) : Host.Outcome State Fault Refusal :=
  .next { s with eng := runXfer (fnXfer 0x0C10 1) bitsState p s.eng }

/-- REPAIR (R363, R396). -/
def execRepair (p : Packet) (s : State) : Host.Outcome State Fault Refusal :=
  .next { s with eng := runXfer (fnXfer 0x1012 1) safeOnly p s.eng }

/-- FW_UPDATE (R396, R399). -/
def execFwUpdate (p : Packet) (s : State) : Host.Outcome State Fault Refusal :=
  .next { s with eng := runXfer (fnXfer 0x1312 2) fwState p s.eng }

/-- Context 0 only. -/
def zeroOnly (_ : Engine) (p : Packet) : Option Nat := notOwn p.ctx 0

/-- OWNER_CLAIM (R396, R402, R410). -/
def execOwnerClaim (p : Packet) (s : State) : Host.Outcome State Fault Refusal :=
  .next { s with eng := runXfer { fnXfer 0x1316 1 with owner := zeroOnly } claimState p s.eng }

/-- OWNER_HANDOVER (R396, R403). -/
def execOwnerHandover (p : Packet) (s : State) : Host.Outcome State Fault Refusal :=
  .next { s with eng := runXfer (fnXfer 0x1317 1) upState p s.eng }

/-- OWNER_RESET (R396, R404, R410). -/
def execOwnerReset (p : Packet) (s : State) : Host.Outcome State Fault Refusal :=
  .next { s with eng := runXfer { fnXfer 0x1318 1 with owner := zeroOnly } safeOnly p s.eng }

/-- OWNER_CLAIM_CONFIRM: the operator types CONFIRM (R402). -/
def execOwnerClaimConfirm (s : State) : Host.Outcome State Fault Refusal :=
  match s.eng.sec.claim with
  | none => .next s
  | some c =>
    let e1 := journalSync (setOwner { s.eng with sec := { s.eng.sec with claim := none } } c.key)
    .next { s with eng := e1.completeAt c.ring c.tag c.notify .ok e1.cxNow }

/-- OWNER_CLAIM_TIMEOUT: no CONFIRM within 60 s (R402). -/
def execOwnerClaimTimeout (s : State) : Host.Outcome State Fault Refusal :=
  match s.eng.sec.claim with
  | none => .next s
  | some c =>
    let e1 : Engine := { s.eng with sec := { s.eng.sec with claim := none } }
    .next { s with eng := e1.completeAt c.ring c.tag c.notify .timeout e1.cxNow }

/-! ### Firmware commands (R399, R400) -/

/-- FW_ACTIVATE: the slot is valid and not marked failed. -/
def fnFwActivate : Fn :=
  { op := 0x1313, kind := .action, noApply := true, right := fun _ => rightSecure
    range := fun e p => firstBad [(decide (p.target < 2) && tbit (e.reg Reg.SEC_FW_VALID) p.target && !tbit (e.reg Reg.SEC_FW_FAIL) p.target, 7)] }

/-- FW_CONFIRM. -/
def fnFwConfirm : Fn :=
  { op := 0x1314, kind := .action, noApply := true, right := fun _ => rightSecure, range := fun _ p => firstBad [(p.target == 0, 7)] }

/-- The running slot is NEXT. -/
def confirmState (e : Engine) (_ : Packet) : Option Status :=
  if e.reg Reg.SEC_FW_SLOT = e.reg Reg.SEC_FW_NEXT then none else some (.state e.st)

/-- RAISE_FLOOR. -/
def fnRaiseFloor : Fn :=
  { op := 0x1315, kind := .action, noApply := true, right := fun _ => rightSecure, range := fun _ p => firstBad [(p.target == 0, 7)] }

/-- The SVN of the running image. -/
def runningSvn (e : Engine) : Nat := e.reg (if e.reg Reg.SEC_FW_SLOT = 0 then Reg.SEC_SVN_A else Reg.SEC_SVN_B)

/-- SAFE, no trial, and the running SVN above FLOOR (R400). -/
def floorState (e : Engine) (_ : Packet) : Option Status :=
  if e.st = stSafe ∧ e.reg Reg.SEC_FW_TRIAL = 0 ∧ e.reg Reg.SEC_FLOOR_FLOOR < runningSvn e then none else some (.state e.st)

/-- FLOOR takes the running SVN; the other slot is not valid where it lies below (R400). -/
def actRaiseFloor (e : Engine) (_ : Packet) : Engine :=
  let v := runningSvn e
  let o := 1 - e.reg Reg.SEC_FW_SLOT
  let svn := e.reg (if o = 0 then Reg.SEC_SVN_A else Reg.SEC_SVN_B)
  let e1 := e.setReg Reg.SEC_FLOOR_FLOOR v
  (if svn < v then maskBit e1 Reg.SEC_FW_VALID o false else e1).raise Src.floor v

/-- FW_ACTIVATE (R399). -/
def execFwActivate (p : Packet) (s : State) : Host.Outcome State Fault Refusal :=
  let e1 := runAction fnFwActivate noExtra (fun e p =>
    ((e.setReg Reg.SEC_FW_NEXT p.target).setReg Reg.SEC_FW_TRIAL 1).setReg Reg.SEC_FW_TRIED 0) p s.eng
  .next { s with eng := e1 }

/-- FW_CONFIRM (R399). -/
def execFwConfirm (p : Packet) (s : State) : Host.Outcome State Fault Refusal :=
  .next { s with eng := runAction fnFwConfirm confirmState (fun e _ => endTrial e) p s.eng }

/-- RAISE_FLOOR (R400). -/
def execRaiseFloor (p : Packet) (s : State) : Host.Outcome State Fault Refusal :=
  .next { s with eng := runAction fnRaiseFloor floorState actRaiseFloor p s.eng }

end Sys2Proof.Machine
end

