-- ==== Sys2Proof/Machine/Tandem.lean ====
section
/-! DEFINITION. The Tandem pair (chapter 20): the frame, the link, comparison, the output permit, takeover and the planned
switch, and the TDM functions. -/

namespace Sys2Proof.Machine

/-! ### Digest and frame (R414, R416, R417) -/

/-- BC from a crossing to the one in which its frame leaves the Finial, D_t − t (R416). -/
def digestTime (t : Tab) : Nat := t.fld Reg.TIM_ORIGIN_O + toFinial t + 2

/-- BC from a crossing to its NIM output crossing. -/
def nimTime (t : Tab) : Nat := t.fld Reg.TIM_ORIGIN_O + lNim t

/-- ESUM of a Turret (Table 8.4). -/
def esumOf (f : Frame) (d : Nat) : Nat := (f.pic.objs.getD d []).foldl (fun a o => a + o.e) 0

/-- The digest of a frame (R417). -/
def digestOf (f : Frame) : Nat :=
  let g : Frame := { f with st := 0, dec := { f.dec with driven := false } }
  crcBits 64 0x42F0E1EBA9EA3693 0xFFFFFFFFFFFFFFFF
    (byteBits ((logEntry g).take 48 ++ leBytes 4 (esumOf f 0) ++ leBytes 4 (esumOf f 1)))

/-- The role this unit has. -/
def Engine.role (e : Engine) : Nat := e.act Reg.TDM_CFG_ROLE

/-- The CFG word of this unit (Table 20.1). -/
def cfgWord (t : Tab) : Nat := t.fld Reg.TIM_ORIGIN_O % 4096 + 4096 * (lNim t % 256) + 2 ^ 20 * (lLane t % 256)

/-- The SWK field of a switch frame. -/
def swkOf (s k : Nat) : Nat := k / s % 256 * 2 ^ 14 + k % s

/-- A Tandem frame as a number of 168 bits, its first bit the most significant (Table 20.1). -/
def tandemWord (tag orb flags digest cfg swk : Nat) : Nat :=
  let b1 := ((0b1001 * 2 ^ 14 + tag % 2 ^ 14) * 2 ^ 8 + orb % 256) * 2 ^ 8 + flags % 256
  let body := ((b1 * 2 ^ 64 + digest % 2 ^ 64) * 2 ^ 32 + cfg % 2 ^ 32) * 2 ^ 22 + swk % 2 ^ 22
  body * 2 ^ 16 + crcBits 16 0x8BB7 0xFFFF (msbBits 152 body)

/-- Field of `n` bits from frame bit `pos` on. -/
def tandemField (w pos n : Nat) : Nat := w / 2 ^ (168 - pos - n) % 2 ^ n

/-- SYNC is that of a Tandem frame: the lane is in frame lock. -/
def tandemSync (w : Nat) : Bool := tandemField w 0 4 == 0b1001

/-- The CRC of a frame is valid. -/
def tandemOk (w : Nat) : Bool := crcBits 16 0x8BB7 0xFFFF (msbBits 152 (w / 2 ^ 16)) == w % 2 ^ 16

/-! ### The output permit (R421, R422) -/

/-- The unit holds the permit for frame `n`: a unit that is not in a pair needs none (R420). -/
def Engine.permitAt (e : Engine) (n : Nat) : Bool :=
  e.role == 0 || ((e.tdm.permits.find? (fun x => decide (x.1 ≤ n))).map (·.2)).getD false

/-- OUT drives frame `n` (R29, R421). -/
def Engine.drives (e : Engine) (n : Nat) : Bool := e.st == stArmed && e.pwr.armed.any (fun k => decide (k ≤ n)) && e.permitAt n

/-- A take or release comes about: the status bit, the event with the slot of `k`, the count of takes. -/
def permitNow (e : Engine) (k : Nat) (take : Bool) : Engine :=
  let e1 := e.setReg Reg.TDM_STAT_PERMIT (b2n take)
  let e2 := if take then e1.bump Reg.TDM_TAKECNT_COUNT else e1
  let e3 := e2.setReg Reg.TDM_STAT_DUAL (b2n (take && e2.reg Reg.TDM_STAT_PPERMIT == 1))
  e3.raise (if take then Src.take else Src.release) (k % orbitLen e.active)

/-- Take or release the permit at frame `k`, which may have been created already. -/
def permitStep (e : Engine) (k : Nat) (take : Bool) : Engine :=
  let e1 : Engine := { e with tdm := { e.tdm with permits := ((k, take) :: e.tdm.permits).take 8 } }
  if k ≤ e.creating then permitNow e1 k take else e1

/-- A take or release at the frame being created comes about. -/
def permitTick (e : Engine) : Engine :=
  match e.tdm.permits.find? (fun x => x.1 == e.creating) with
  | some x => if e.reg Reg.TDM_STAT_PERMIT = b2n x.2 then e else permitNow e x.1 x.2
  | none => e

/-- The first frame whose NIM output crossing is `c` or later. -/
def frameFor (e : Engine) (c : Nat) : Nat := c - nimTime e.active

/-- The permit is held, or its taking is due. -/
def holding (e : Engine) : Bool := ((e.tdm.permits.head?).map (·.2)).getD false

/-- ARMED is entered at crossing `k`: a PRIMARY takes the permit with the change (R423). -/
def tdmArm (e : Engine) (k : Nat) : Engine :=
  let e1 : Engine := { e with tdm := { e.tdm with seen := false, failing := 0, permits := [] } }
  if e1.role = 1 then permitStep e1 k true else e1

/-- The planned switch ends without its effect (R427). -/
def switchAbort (e : Engine) : Engine := match e.tdm.sw with
  | some w => Engine.completeAt { e with tdm := { e.tdm with sw := none } } w.ring w.tag w.notify .aborted e.cxNow
  | none => e

/-- ARMED is left at crossing `k`: the permit is released (R421). -/
def tdmDisarm (e : Engine) (k : Nat) : Engine :=
  let e1 := switchAbort { e with tdm := { e.tdm with permits := [], seen := false, failing := 0, echo := none } }
  if e1.reg Reg.TDM_STAT_PERMIT = 1 then permitNow e1 k false else e1

/-- The Tandem conditions of a request for ARMED (R30, R423, R426). -/
def tdmArmOk (e : Engine) : Bool :=
  let up := e.reg Reg.TDM_STAT_LINK == 2
  e.role == 0 || (e.reg Reg.TDM_STAT_ROLEMIS == 0 &&
    (e.role == 2 || !up || (e.reg Reg.TDM_STAT_CFGMIS == 0 && e.reg Reg.TDM_STAT_PPERMIT == 0)))

/-! ### The link (R415, R426) -/

/-- The link takes a state: LINKUP and LINKDOWN; ROLEMIS ends with UP. -/
def setLink (e : Engine) (l : Nat) : Engine :=
  let old := e.reg Reg.TDM_STAT_LINK
  let e1 := e.setReg Reg.TDM_STAT_LINK l
  let e2 := if l = 2 then e1 else e1.setReg Reg.TDM_STAT_ROLEMIS 0
  if old ≠ 2 ∧ l = 2 then e2.raise Src.linkUp 0 else if old = 2 ∧ l ≠ 2 then e2.raise Src.linkDown 0 else e2

/-- The link is down: the module is gone, the role is SOLO or the engine state has no link (R415, R420, Table 1.5). -/
def tdmDown (e : Engine) : Engine :=
  let e1 := setLink (e.setReg Reg.TDM_LANES_UP 0) 0
  { e1 with tdm := { e1.tdm with agree := 0, got := false, rxOk := false, partners := [] } }

/-- TIM has lost lock: UP needs both units locked. -/
def tdmUnlock (e : Engine) : Engine :=
  let e1 := if e.reg Reg.TDM_STAT_LINK = 2 then setLink e 1 else e
  { e1 with tdm := { e1.tdm with agree := 0, partners := [] } }

/-- The link's lanes are served: a pair, and a state with a link. -/
def Engine.linked (e : Engine) : Bool := e.role != 0 && e.running

/-- EN and INV of Tandem lane `i` (R428; EN at reset: assumption 36). -/
def tdmLaneFld (i j : Nat) : Fld := tabFld 29 (2 * i + j) 1 (1 - j)

/-- The frame a lane delivers, with its polarity: none where the lane is disabled or not in frame lock. -/
def laneRx (e : Engine) (lanes : List (Option Nat)) (i : Nat) : Option Nat :=
  if e.reg (tdmLaneFld i 0) = 0 then none
  else ((lanes.getD i none).map (fun w =>
    if e.reg (tdmLaneFld i 1) = 1 then 2 ^ 168 - 1 - w % 2 ^ 168 else w % 2 ^ 168)).filter tandemSync

/-- The crossing number of the frame that a received TAG and ORB name, among those whose digests this unit has sent in the
last six crossings; none where they disagree with its own (R415, R416). -/
def partnerFrame (e : Engine) (tag orb : Nat) : Option Nat :=
  let s := orbitLen e.active
  ((List.range 7).map (fun j => crossAdd s e.counted (-(digestTime e.active + j : Nat)))).find?
    (fun n => n % s == tag && n / s % 256 == orb)

/-- The measured delay meets R416: 6 BC less 30 ns. -/
def owdOk (e : Engine) (owd : Nat) : Bool := decide (owd * 125000 + 30 * e.act Reg.TIM_FNOM_KHZ ≤ 6000000)

/-- The crossing number that a SWK field names, the nearest to the present crossing. -/
def swkFrame (e : Engine) (swk : Nat) : Nat :=
  let d : Int := sval 8 (swk / 2 ^ 14 + 256 - e.tim.orbit % 256)
  ((((e.tim.orbit : Int) + d) * (orbitLen e.active : Nat)) + (swk % 2 ^ 14 : Nat)).toNat

/-- SWITCH in a received frame (R427): the holder notes the echo; the partner echoes and takes the permit at k. -/
def switchRx (e : Engine) (flags swk : Nat) : Engine :=
  if !tbit flags 0 then { e with tdm := { e.tdm with echo := none } }
  else match e.tdm.sw with
  | some w =>
    if swk = swkOf (orbitLen e.active) w.k then { e with tdm := { e.tdm with sw := some { w with echoed := true } } } else e
  | none =>
    let k := swkFrame e swk
    if e.tdm.echo = some k ∨ e.st ≠ stArmed ∨ e.reg Reg.TDM_STAT_DEMOTED = 1 ∨ holding e then e
    else permitStep { e with tdm := { e.tdm with echo := some k } } k true

/-- Role mismatch, raised once on each entry into it (R426). -/
def roleRx (e : Engine) (flags : Nat) : Engine :=
  let same := e.reg Reg.TDM_STAT_LINK == 2 && bit flags 2 == e.role - 1
  let old := e.reg Reg.TDM_STAT_ROLEMIS
  let e1 := e.setReg Reg.TDM_STAT_ROLEMIS (b2n same)
  if same && old == 0 then e1.raise Src.roleMis e.role else e1

/-- The link enters UP; of two units that both hold the permit the STANDBY releases it (R415, R425). -/
def linkEnter (e : Engine) (flags : Nat) : Engine :=
  let e1 := setLink e 2
  if holding e1 && tbit flags 7 then
    let e2 := e1.raise Src.dual 0
    if e2.role = 2 then permitStep e2 (frameFor e2 (e2.counted + 1)) false else e2
  else e1

/-- A valid partner frame. -/
def partnerRx (e : Engine) (w owd : Nat) : Engine :=
  let tag := tandemField w 4 14
  let orb := tandemField w 18 8
  let flags := tandemField w 26 8
  let cfg := tandemField w 98 32
  let own := partnerFrame e tag orb
  let mis := cfg != cfgWord e.active
  let old := e.reg Reg.TDM_STAT_CFGMIS
  let ws : List (Fld × Nat) := [(Reg.TDM_PCFG_CFG, cfg), (Reg.TDM_STAT_CFGMIS, b2n mis), (Reg.TDM_STAT_PPERMIT, bit flags 7),
    (Reg.TDM_STAT_DUAL, b2n (tbit flags 7 && e.reg Reg.TDM_STAT_PERMIT == 1))]
  let ps : List Partner := match own with
    | some n => (⟨n, tbit flags 1, tandemField w 34 64, flags⟩ :: e.tdm.partners).take 64
    | none => e.tdm.partners
  let agree := if own.isSome && e.locked then e.tdm.agree + 1 else 0
  let tdm : TdmSt := { e.tdm with partners := ps, agree := agree, got := true, seen := e.tdm.seen || (e.st == stArmed && tbit flags 7) }
  let e1 : Engine := { e with regs := e.regs.puts ws, tdm := tdm }
  let e2 := if mis && old == 0 then e1.raise Src.cfgMis 0 else e1
  let link := e2.reg Reg.TDM_STAT_LINK
  let e3 := if link = 2 ∧ (agree = 0 ∨ !owdOk e2 owd) then setLink e2 1
    else if link ≠ 2 ∧ 64 ≤ agree ∧ e2.locked ∧ tbit flags 4 ∧ owdOk e2 owd then linkEnter e2 flags
    else e2
  roleRx (switchRx e3 flags (tandemField w 130 22)) flags

/-- TANDEM_FRAME_RECEIVE: what the four lanes deliver in a crossing, each a frame of 168 bits or nothing, and the measured
one-way delay in sweep cycles (R414 to R416). -/
def execTandemFrameReceive (lanes : List (Option Nat)) (owd : Nat) (s : State) : Host.Outcome State Fault Refusal :=
  let e := s.eng
  if !e.linked then .next s
  else
    let rx := (List.range 4).map (laneRx e lanes)
    let up := ((indexed rx).map (fun ix => 2 ^ ix.1 * b2n ix.2.isSome)).foldl (· + ·) 0
    let ws : List (Fld × Nat) := [(Reg.TDM_LANES_UP, up), (Reg.TDM_OWD_SC, owd)]
    let fs := rx.filterMap id
    let e1 := Engine.bumpBy { e with regs := e.regs.puts ws } Reg.TDM_RXERR_COUNT (fs.filter (fun w => !tandemOk w)).length
    if up = 0 then .next { s with eng := tdmDown e1 }
    else
      let e2 := if e1.reg Reg.TDM_STAT_LINK = 0 then setLink e1 1 else e1
      match fs.find? tandemOk with
      | some w => .next { s with eng := partnerRx e2 w owd }
      | none => .next { s with eng := e2 }

/-! ### The crossing (R414 to R419, R424, R427) -/

/-- The Tandem frame that starts in the crossing being counted. -/
def tdmSend (e : Engine) : Engine :=
  let s := orbitLen e.active
  let w := if !e.locked then tandemWord 0 0 (8 * e.reg Reg.TDM_STAT_DEMOTED + 4 * (e.role - 1)) 0 (cfgWord e.active) 0
    else
      let n := crossAdd s e.counted (-(digestTime e.active : Nat))
      let f := e.frames.find? (fun f => f.n == n && f.dec.decided)
      let k := match e.tdm.sw with
        | some w => some w.k
        | none => e.tdm.echo
      let flags := 128 * b2n (f.isSome && e.drives n) + 64 * b2n (f.any (fun g => g.st == stArmed)) + 32 * b2n e.tdm.rxOk + 16
        + 8 * e.reg Reg.TDM_STAT_DEMOTED + 4 * (e.role - 1) + 2 * b2n f.isSome + b2n k.isSome
      tandemWord (n % s) (n / s) flags ((f.map digestOf).getD 0) (cfgWord e.active) ((k.map (swkOf s)).getD 0)
  { e with tdm := { e.tdm with tx := w } }

/-- A mismatch at the compare point of a frame (R418, R419). -/
def mismatch (e : Engine) (f : Frame) : Engine :=
  let st := stampOf (orbitLen f.cfg) f.n
  let ws : List (Fld × Nat) := [(Reg.TDM_MISLAST_LO_STAMP, st % 2 ^ 32), (Reg.TDM_MISLAST_HI_STAMP, st / 2 ^ 32)]
  let e1 := (Engine.bump { e with regs := e.regs.puts ws } Reg.TDM_MISCNT_COUNT).raise Src.mismatch (f.n % orbitLen f.cfg)
  if e1.act Reg.TDM_CFG_POLICY = 0 then e1
  else
    let e2 := e1.raiseBit Reg.TDM_FLAG_ALARM
    if e2.act Reg.TDM_CFG_POLICY = 2 ∧ e2.role = 2 then
      let ms := f.n :: e2.tdm.mism.filter (fun m => decide (f.n < m + 65536))
      let e3 : Engine := { e2 with tdm := { e2.tdm with mism := ms } }
      if e3.act Reg.TDM_MISPOL_N ≤ ms.length ∧ e3.reg Reg.TDM_STAT_DEMOTED = 0 then
        let e4 := (e3.raiseBit Reg.TDM_STAT_DEMOTED).raise Src.demote 0
        if holding e4 then permitStep e4 (frameFor e4 (e4.counted + 1)) false else e4
      else e3
    else e2

/-- Takeover by a STANDBY (R424). -/
def takeover (e : Engine) (failed : Bool) : Engine :=
  if e.role = 2 ∧ e.st = stArmed then
    let n := if failed then e.tdm.failing + 1 else 0
    let e1 : Engine := { e with tdm := { e.tdm with failing := n } }
    if e1.tdm.seen ∧ e1.act Reg.TDM_DET_MISS ≤ n ∧ e1.reg Reg.TDM_STAT_DEMOTED = 0 ∧ e1.reg Reg.TDM_STAT_CFGMIS = 0 ∧ !holding e1 then
      permitStep e1 (frameFor e1 (e1.counted + e1.act Reg.TDM_DET_WAIT)) true
    else e1
  else e

/-- The compare point of the crossing being counted: of the frame whose digest this unit sent six crossings ago. -/
def tdmCompare (e : Engine) : Engine :=
  let n := crossAdd (orbitLen e.active) e.counted (-(digestTime e.active + 6 : Nat))
  match e.frames.find? (fun f => f.n == n && f.dec.decided) with
  | none => e
  | some f =>
    match e.tdm.partners.find? (fun p => p.n == n && p.valid) with
    | some p =>
      let e1 := if p.digest = digestOf f then e else mismatch e f
      takeover e1 (!tbit p.flags 7 || !tbit p.flags 5)
    | none => takeover ((e.bump Reg.TDM_MISSCNT_COUNT).raise Src.missing (n % orbitLen f.cfg)) true

/-- A planned switch at the creation of its frame (R427). -/
def switchTick (e : Engine) : Engine := match e.tdm.sw with
  | some w =>
    if w.k ≠ e.creating then e
    else if w.echoed then
      let s := orbitLen e.active
      let e1 := (permitStep { e with tdm := { e.tdm with sw := none } } w.k false).raise Src.switch (w.k % s)
      e1.completeAt w.ring w.tag w.notify .ok (cxField s w.k)
    else switchAbort e
  | none => e

/-- A crossing without a valid frame, MISS of them in a row (R415). -/
def tdmSilence (e : Engine) : Engine :=
  let n := if e.tdm.got then 0 else e.tdm.silent + 1
  let e1 : Engine := { e with tdm := { e.tdm with silent := n, rxOk := e.tdm.got, got := false, agree := if e.tdm.got then e.tdm.agree else 0 } }
  if e1.act Reg.TDM_DET_MISS ≤ n ∧ e1.reg Reg.TDM_STAT_LINK = 2 then setLink e1 1 else e1

/-- What the Tandem block does at the start of a counted crossing. -/
def tdmTick (e : Engine) : Engine :=
  if e.linked then tdmSend (tdmCompare (permitTick (switchTick (tdmSilence e)))) else e

/-- The Tandem commit: a role of SOLO powers the port down (R420). -/
def tdmCommitted (e : Engine) : Engine := if e.role = 0 then tdmDown e else e

/-- The values of a set lie in their ranges (Table 20.4). -/
def tdmCheck (t : Tab) : Bool :=
  t.fld Reg.TDM_CFG_ROLE != 3 && t.fld Reg.TDM_CFG_POLICY != 3 && decide (1 ≤ t.fld Reg.TDM_DET_MISS) && decide (t.fld Reg.TDM_DET_MISS ≤ 32)
    && decide (1 ≤ t.fld Reg.TDM_DET_WAIT) && decide (t.fld Reg.TDM_DET_WAIT ≤ 64) && t.fld Reg.TDM_MISPOL_N != 0

/-! ### Functions (R428, Table 20.3) -/

/-- SET_ROLE. -/
def fnSetRole : Fn :=
  { op := 0x1410, kind := .basic
    range := fun _ p => firstBad [(p.target == 0, 7), (decide (p.arg 0 ≤ 2), 8), (decide (p.arg 1 ≤ 2), 9),
      (decide (1 ≤ p.arg 2) && decide (p.arg 2 ≤ 32), 10), (decide (1 ≤ p.arg 3) && decide (p.arg 3 ≤ 64), 11),
      (decide (1 ≤ p.arg 4) && decide (p.arg 4 ≤ 65535), 12)] }

/-- The fields SET_ROLE writes. -/
def wSetRole (_ : Engine) (p : Packet) : List (Fld × Nat) :=
  [(Reg.TDM_CFG_ROLE, p.arg 0), (Reg.TDM_CFG_POLICY, p.arg 1), (Reg.TDM_DET_MISS, p.arg 2), (Reg.TDM_DET_WAIT, p.arg 3), (Reg.TDM_MISPOL_N, p.arg 4)]

/-- SWITCH_PERMIT. -/
def fnSwitchPermit : Fn := { op := 0x1411, kind := .action, range := fun _ p => firstBad [(p.target == 0, 7)] }

/-- The holder only, towards a partner that is ARMED, not demoted and on an UP link (R427). -/
def switchState (e : Engine) (_ : Packet) : Option Status :=
  let flags := ((e.tdm.partners.head?).map (·.flags)).getD 0
  if e.tdm.sw.isSome then some (.busy 0x14)
  else if e.st = stArmed ∧ e.role ≠ 0 ∧ holding e ∧ e.reg Reg.TDM_STAT_LINK = 2 ∧ tbit flags 6 ∧ !tbit flags 3 then none
  else some (.state e.st)

/-- SWITCH_PERMIT names frame k (R58, R427). -/
def actSwitch (e : Engine) (p : Packet) : Engine := match nameCrossing e p.applyAt false with
  | .inl st => e.complete p st
  | .inr none => e.complete p (.state e.st)
  | .inr (some k) => { e with tdm := { e.tdm with sw := some ⟨k, p.ring, p.tag, p.notify, false⟩ } }

/-- CLEAR_DEMOTE. -/
def fnClearDemote : Fn := { op := 0x1412, kind := .action, range := fun _ p => firstBad [(p.target == 0, 7)] }

/-- RAW_LINK. -/
def fnRawLink : Fn :=
  { op := 0x1480, kind := .direct, len := lenIs 16
    range := fun _ p => match firstBad [(p.target == 0, 7)] with
      | some d => some d
      | none => wordsBad p (fun _ v => within 3 v) }

/-- The lane words of RAW_LINK. -/
def wRawLink (p : Packet) : List (Fld × Nat) :=
  (List.range 4).flatMap (fun i => [(tdmLaneFld i 0, bit (p.word i) 0), (tdmLaneFld i 1, bit (p.word i) 1)])

/-- SET_ROLE (R420, R428). -/
def execSetRole (p : Packet) (s : State) : Host.Outcome State Fault Refusal :=
  .next { s with eng := runConfig fnSetRole noExtra wSetRole 0 p s.eng }

/-- SWITCH_PERMIT (R427). -/
def execSwitchPermit (p : Packet) (s : State) : Host.Outcome State Fault Refusal :=
  .next { s with eng := runAsync fnSwitchPermit switchState actSwitch p s.eng }

/-- CLEAR_DEMOTE (R419, R428). -/
def execClearDemote (p : Packet) (s : State) : Host.Outcome State Fault Refusal :=
  let e1 := runAction fnClearDemote noExtra
    (fun e _ => Engine.setReg { e with tdm := { e.tdm with mism := [] } } Reg.TDM_STAT_DEMOTED 0) p s.eng
  .next { s with eng := e1 }

/-- RAW_LINK (R428): the lane words are not staged; they act under R9. -/
def execRawLink (p : Packet) (s : State) : Host.Outcome State Fault Refusal :=
  .next { s with eng := runAction fnRawLink noExtra (fun e p => e.laterAll (wRawLink p)) p s.eng }

end Sys2Proof.Machine
end

