-- ==== Sys2Proof/Machine/Power.lean ====
section
/-! DEFINITION. The engine's states and their changes, start-up, the resets, supplies, adaptive voltage, thermal
supervision and the PWR functions (chapter 21, R27 to R34). -/

namespace Sys2Proof.Machine

/-! ### State changes (R29, R432, R443, R447) -/

/-- The Keep relay coils and contacts, ABORT and KREQ follow a change of state (R168), and the monitor outputs go to 0 V
where no frame drives them (Table 1.5). -/
def outputsFollow (e : Engine) : Engine :=
  let e1 := keepCauses e
  if e1.running then e1 else { e1 with out := { e1.out with mon := List.replicate 8 0 } }

/-- The frames in the pipeline are cut off: no state that completes them follows. -/
def dropFrames (e : Engine) : Engine := { e with frames := e.frames.map (fun f => { f with dead := true }) }

/-- A picture not yet composed. -/
def Pic.empty : Pic := { outs := [], dsum := [], rsum := [], objs := [], nseed := [], ovf := [], rtr := [] }

/-- The stage buffers lose what they hold (Table 1.6): the captures that wait for it are dropped as overwritten ones are (R174). -/
def loseStage (e : Engine) : Engine :=
  let e1 : Engine := { e with frames := e.frames.map (fun f => { f with pic := Pic.empty }), out := { e.out with caps := [] } }
  e.out.caps.foldl (fun a _ => (a.bump Reg.OUT_DCAPDROP_COUNT).raise Src.capDrop 0) e1

/-- The BEL commits that wait for their crosspoints complete: all of them have switched (R246). -/
def finishWaiting (e : Engine) : Engine :=
  let done := e.host.pends.filter (·.waiting)
  let e1 : Engine := { e with host := { e.host with pends := e.host.pends.filter (fun p => !p.waiting) } }
  let e2 := if done.isEmpty then e1 else e1.setReg Reg.BEL_STAT_PEND 0
  done.foldl (fun a p => a.completeAt p.ring p.tag p.notify .ok (((p.named).map (cxField (orbitLen e.active))).getD 0)) e2

/-- STANDBY_ENTRY, steps 1, 2 and 4 of R443, and the end of what Table 1.6 does not let survive it. Self-refresh and stopped clocks change nothing that the state holds. -/
def standbyEntry (e : Engine) : Engine :=
  let e1 := lanesOff (abortBlits (abortChains e))
  finishWaiting (switchAll (tdmDown (loseStage (dropFrames e1))))

/-- FAULT_ENTRY: the log stops and a post-mortem freeze is due (R34, R180); FAULT is raised (R447). -/
def faultEntry (e : Engine) : Engine :=
  let e1 : Engine := { e with pwr := { e.pwr with faultDue := 0, fillDue := 0 } }
  let e2 := histTrigger e1 1 e1.stampNow e1.tim.bc
  tdmDown (dropFrames (e2.raise Src.fault (e2.reg Reg.PWR_FCAUSE_CAUSE)))

/-- SAFE is entered from STANDBY: lanes return, the Belfry starts anew, and the crossing before which no frame is created is
noted (R92, R116, R254, R444). -/
def wakeEntry (e : Engine) : Engine :=
  let e1 := belRestart (lanesOn (e.setReg Reg.PWR_STAT_WAKING 0))
  let first := max (e1.counted + 1 - createDelay e1.active) (e1.tim.resume.getD 0)
  { e1 with tim := { e1.tim with resume := if e1.locked then some first else none } }

/-- The engine enters state `new` at the boundary that starts crossing `k` (R29, R432): PWR_STAT, STATE, and what
entering and leaving a state does; every way out of STANDBY returns the lanes to their modes (R116). -/
def enterState (e : Engine) (new k : Nat) : Engine :=
  let old := e.st
  let ws : List (Fld × Nat) := [(Reg.PWR_STAT_STATE, new), (Reg.PWR_STAT_PREV, old)]
  let e0 : Engine := { e with regs := e.regs.puts ws }
  let e1 := e0.raise Src.state new
  let e2 := if old = stArmed then tdmDisarm { e1 with pwr := { e1.pwr with armed := none } } k else e1
  let e3 := if new = stArmed then
      tdmArm (Engine.setReg { e2 with pwr := { e2.pwr with armed := some k } } Reg.MNU_ACCNUM_NUM 0) k
    else e2
  let e4 := if new = stStandby then standbyEntry e3
    else if new = stFault then faultEntry e3
    else if new = stSafe then (let a : Engine := { e3 with pwr := { e3.pwr with reached := true } }
      if old = stStandby then wakeEntry a else a)
    else e3
  let e5 := if old = stStandby ∧ new = stFault then lanesOn e4 else e4
  outputsFollow e5

/-- A request completes with the crossing at which the state changed. -/
def finishReq (e : Engine) (r : StReq) (st : Status) (k : Nat) : Engine :=
  e.completeAt r.ring r.tag r.notify st (if e.locked then cxField (orbitLen e.active) k else 0)

/-- Those who asked for the wake complete: with ST_OK in SAFE, with ST_STATE where another state has been entered. -/
def finishWakers (e : Engine) (k : Nat) : Engine :=
  let st : Status := if e.st = stSafe then .ok else .state e.st
  let e1 : Engine := { e with pwr := { e.pwr with wakers := [] } }
  e.pwr.wakers.foldl (fun a r => finishReq a r st k) e1

/-- FAULT is entered now: while TIM is unlocked within 1 µs of detection (R447). A wake under way ends. -/
def faultNow (e : Engine) (k : Nat) : Engine :=
  if e.pwr.faultDue = 0 then e
  else finishWakers (enterState (e.setReg Reg.PWR_STAT_WAKING 0) stFault k) k

/-- A FAULT cause that one of the commands of this chapter reports: entry waits for the next crossing boundary while TIM is
locked, and comes at once while it is not (R447). -/
def faultReport (b : Nat) (e : Engine) : Engine :=
  let e1 := faultDetect b e
  if e1.locked then e1 else faultNow e1 0

/-- R30 holds. The active configuration always is one that passed its check (R8). -/
def armOk (e : Engine) : Bool := e.locked && e.reg Reg.OUT_KSTAT_BUNDLE == 1 && tdmArmOk e

/-- The transition is one that a host request makes (Table 21.1), and its conditions hold. -/
def requestOk (e : Engine) (target : Nat) : Bool :=
  if target = stArmed then (e.st == stSafe || e.st == stHold) && armOk e
  else if target = stHold then e.st == stArmed
  else if target = stSafe then e.st == stArmed || e.st == stHold || e.st == stStandby
  else e.st == stSafe || e.st == stHold

/-- A wake source starts the return to SAFE: cause 1 host, 2 timing command, 3 event (R444). -/
def startWake (e : Engine) (cause : Nat) : Engine :=
  if e.st ≠ stStandby ∨ e.reg Reg.PWR_STAT_WAKING = 1 then e
  else (e.setReg Reg.PWR_STAT_WAKING 1).raise Src.wake cause

/-- A host request acts at the boundary of crossing `k`; `won` is the state that an earlier cause of the same boundary has
entered (R432 to R434). Answers the state entered. -/
def requestAt (k : Nat) (a : Engine × Option Nat) (r : StReq) : Engine × Option Nat :=
  let e := a.1
  match a.2 with
  | some st => (finishReq e r (.state st) k, a.2)
  | none =>
    if e.st = r.target then (finishReq e r .ok k, none)
    else if !requestOk e r.target then (finishReq e r (.state e.st) k, none)
    else if e.st = stStandby then
      (startWake { e with pwr := { e.pwr with wakers := e.pwr.wakers ++ [r] } } 1, none)
    else (finishReq (enterState e r.target k) r .ok k, some r.target)

/-- A timing command acts at the boundary of crossing `k` (R435, R433). -/
def fillAt (k : Nat) (a : Engine × Option Nat) : Engine :=
  let e : Engine := { a.1 with pwr := { a.1.pwr with fillDue := 0 } }
  if a.1.pwr.fillDue = 0 then a.1
  else if a.2.isSome then e.bump Reg.PWR_CMDIGN_COUNT
  else if a.1.pwr.fillDue = 2 then (if e.st = stArmed then enterState e stHold k else e)
  else if e.st ≠ stHold then e
  else if armOk e then enterState e stArmed k
  else (e.raiseBit Reg.PWR_STAT_FSREF).raise Src.state 4

/-- The state changes of the boundary that starts crossing `k`, in the order of R433; loss of lock is the caller's, and
`lost` says that it has come. -/
def stateBoundary (k : Nat) (lost : Bool) (e : Engine) : Engine :=
  let due := e.pwr.reqs.filter (fun r => r.named.all (fun n => decide (n ≤ k)))
  let e1 : Engine := { e with pwr := { e.pwr with reqs := e.pwr.reqs.filter (fun r => !r.named.all (fun n => decide (n ≤ k))) } }
  let e2 := faultNow e1 k
  let e3 := if lost ∧ (e2.st = stArmed ∨ e2.st = stHold) then enterState e2 stSafe k else e2
  let won := if e1.pwr.faultDue ≠ 0 then some stFault else if lost ∧ e1.st ≠ e3.st then some stSafe else none
  fillAt k (due.foldl (requestAt k) (e3, won))

/-! ### Start-up and resets (R436 to R440, Tables 21.3 and 21.4) -/

/-- What every reset keeps: what firmware, OTP and journal hold of the registers, the relay counts, the supplies and the
modules that are in their cages. -/
def keptFields : List Fld :=
  [Reg.SEC_STAT_OWNER, Reg.SEC_FW_SLOT, Reg.SEC_FW_NEXT, Reg.SEC_FW_TRIAL, Reg.SEC_FW_FAIL, Reg.SEC_FW_VALID, Reg.SEC_FW_TRIED,
   Reg.SEC_FLOOR_FLOOR, Reg.SEC_FWVERA_VER, Reg.SEC_FWVERB_VER, Reg.SEC_SVN_A, Reg.SEC_SVN_B, Reg.SEC_KEEPVER_VER,
   Reg.OUT_RLYCNT_A_COUNT, Reg.OUT_RLYCNT_B_COUNT, Reg.MEM_JUSED_BYTES, Reg.MEM_JWEAR_MAX]
  ++ (List.range 16).map Reg.SEC_OWNKEY_DIG
  ++ (List.range 384).flatMap (fun b => [Reg.MEM_BANK_SPARE b, Reg.MEM_BANK_REP b])
  ++ (List.range 2).flatMap (fun m => [Reg.PWR_SUP_PRES m, Reg.PWR_SUP_ACOK m, Reg.PWR_SUP_DCOK m, Reg.PWR_SUP_FAULT m])
  ++ (List.range 8).map Reg.OUT_DLSTAT_MOD

/-- What a warm reset keeps beside it (Table 21.4). -/
def warmFields : List Fld :=
  [Reg.PWR_FCAUSE_CAUSE, Reg.MEM_FZSTAT_HELD, Reg.MEM_FZSTAT_FAULT, Reg.MEM_CAPHEAD_LO_ADDR, Reg.MEM_CAPHEAD_HI_ADDR]

/-- The engine in BOOT, cleared as Table 21.4 says. Posted writes have left the engine; the free values go on. -/
def clearedBy (warm : Bool) (e : Engine) : Engine :=
  let z := Engine.reset
  let keep := if warm then keptFields ++ warmFields else keptFields
  { z with
    regs := (z.regs.puts (keep.map (fun f => (f, e.regs.fld f)))).puts [(Reg.PWR_STAT_PREV, e.st)]
    free := e.free
    host := { z.host with out := e.host.out }
    tim := { z.tim with nextOrbit := if warm then (if e.locked then (e.tim.orbit + 1) % 2 ^ 50 else e.tim.nextOrbit) else 0 }
    out := { z.out with relayJournal := e.out.relayJournal }
    mem := { z.mem with journal := e.mem.journal
                        held := if warm then e.mem.held else []
                        cells := if warm then e.mem.cells.filter (fun c => decide (2 ^ 37 ≤ c.1)) else [] }
    pwr := { z.pwr with acOut := e.pwr.acOut }
    sec := { z.sec with ownerKey := e.sec.ownerKey, slots := e.sec.slots } }

/-- The journal's configuration becomes active (R33); core memories and status registers follow it. -/
def restoreConfig (e : Engine) : Engine :=
  let t := e.mem.journal.cfg
  let images := fun (k : Nat) => t.range (tabBase k) (tabBase (k + 1))
  let staged := t.filter (fun kv => !(kv.1 / 2 ^ 32 == tDead || kv.1 / 2 ^ 32 == tHot))
  let e1 : Engine := { e with active := t, staged := staged, regs := Tab.setAll e.regs (images tImem ++ images tDmem) }
  psCommit (setupCounts (seqStatus (mapStatus (histStart e1))))

/-- The journaled bundle is verified again, under the start-up form of R405. -/
def restoreBundle (e : Engine) : Engine :=
  let o := e.mem.journal.bundle
  if o.isEmpty then e
  else
    let c := objFail e 2 true o
    let e1 := recordVerify e o c
    if c = 0 then installBundle e1 o
    else mapStatus { e1 with active := clearMasks (dropBundle e1.active) 31, staged := dropBundle e1.staged }

/-- Step 7 of Table 21.3 but for the relay check: the journal's intact records (R370), the owner key, configuration, bundle and bitstream, and
what they show. -/
def restore (e : Engine) : Engine :=
  let (e0, lost) := journalStart e
  let e1 := restoreBundle (restoreConfig (restoreOwner lost (e0.setReg Reg.SEC_KEEPVER_VER e0.mem.journal.keepVer)))
  let e2 := if e1.mem.journal.bits.isEmpty then e1 else installBits e1 e1.mem.journal.bits
  evalWear (showRelease e2.latencyRegs)

/-- RELAY_CHECK with the sense contacts as found, the coils being de-energised (R438). -/
def relayCheck (senseA senseB : Bool) (e : Engine) : Engine :=
  let e1 := e.setReg Reg.OUT_KSTAT_SENSE (b2n senseA + 2 * b2n senseB)
  if senseA || senseB then faultReport 0 (e1.addCause 6) else e1

/-- Steps 2 to 8 of Table 21.3 on a cleared engine: the boot ROM's choice, the restored journal, the relay check, and SAFE. An
engine for which no firmware slot boots stays in BOOT (R398). -/
def startUp (senseA senseB : Bool) (e : Engine) : Engine :=
  let (e1, ok) := bootRom e
  if !ok then keepCauses e1
  else
    let e2 := (e1.putCore 32 { e1.core 32 with st := 1 }).putCore 33 { e1.core 33 with st := 1 }
    let e3 : Engine := { e2 with host := { e2.host with crs := false }, sec := { e2.sec with deviceKey := deriveKey } }
    let e4 := relayCheck senseA senseB (keepCauses (restore (e3.setReg Reg.SEC_STAT_CERTOK (b2n (certOk e3)))))
    if e4.st = stFault then lanesOn e4 else belRestart (lanesOn (enterState e4 stSafe 0))

/-- A warm reset with its cause (R439, R440): both relays open, each opening being an operation (R234); then steps 2 to 8. -/
def warmReset (cause : Nat) (senseA senseB : Bool) (e : Engine) : Engine :=
  let e1 := coilsOff e
  startUp senseA senseB ((clearedBy true e1).setReg Reg.PWR_RSTCAUSE_CAUSE cause)

/-- A sense contact that reads closed although its coil is de-energised: what a reset finds where its command does not say
(assumption 22). -/
def welded (e : Engine) (relay : Nat) : Bool :=
  tbit (e.reg Reg.OUT_KSTAT_SENSE) relay && !tbit (e.reg Reg.OUT_KSTAT_COIL) relay

/-- A warm reset that a command starts. -/
def selfReset (cause : Nat) (e : Engine) : Engine := warmReset cause (welded e 0) (welded e 1) e

/-- The unit passes to OFF (R28, R431): the relays open, the outputs are undriven, what Table 1.6 keeps is kept. -/
def powerOff (e : Engine) : Engine :=
  let z := clearedBy false (coilsOff e)
  let e1 := z.setReg Reg.PWR_STAT_STATE stOff
  { e1 with host := { e1.host with crs := false }
            out := { e1.out with undriven := true, abortPin := false } }

/-- The relay counts come from the journal (R234). -/
def relayCounts (e : Engine) : Engine :=
  (e.setReg Reg.OUT_RLYCNT_A_COUNT (e.out.relayJournal.getD 0 0)).setReg Reg.OUT_RLYCNT_B_COUNT (e.out.relayJournal.getD 1 0)

/-- POWER_ON: the 12 V bus comes into regulation (R436 to R438). It is an event of OFF, and of the engine in BOOT after
power-on reset whose start-up has not run. -/
def execPowerOn (senseA senseB : Bool) (s : State) : Host.Outcome State Fault Refusal :=
  let e := s.eng
  if e.st = stOff ∨ e.st = stBoot then
    let e1 := clearedBy false e
    .next { s with eng := startUp senseA senseB (relayCounts (e1.setReg Reg.PWR_STAT_PREV 0)) }
  else .next s

/-- WARM_RESET (R439). The command does not say what started it; R440 names three causes, and which of them shows is free
(assumption 39). -/
def execWarmReset (senseA senseB : Bool) (s : State) : Host.Outcome State Fault Refusal :=
  let e := s.eng
  if e.st = stOff then .next s
  else
    let (v, e1) := e.freeVal
    .next { s with eng := warmReset (1 + v % 3) senseA senseB e1 }

/-- POWER_LOSS: the 12 V bus falls out of regulation (R431). -/
def execPowerLoss (s : State) : Host.Outcome State Fault Refusal :=
  if s.eng.st = stOff then .next s else .next { s with eng := powerOff s.eng }

/-- TRIAL_BOOT_TIMEOUT: a trial boot that has not reached SAFE within 120 s, whatever state it is in, is ended by a warm reset (R398, R440). -/
def execTrialBootTimeout (s : State) : Host.Outcome State Fault Refusal :=
  let e := s.eng
  if e.st ≠ stOff ∧ !e.pwr.reached ∧ e.reg Reg.SEC_FW_TRIAL = 1 ∧ e.reg Reg.SEC_FW_TRIED = 1 then
    .next { s with eng := (selfReset 3 e).raise Src.fwFailBoot 0 }
  else .next s

/-- RELAY_SENSE_TIMEOUT: the sense contact of a relay disagrees with its coil for 10 ms (R170). A report that agrees with the
coil is no failure. -/
def execRelaySenseTimeout (relay : Nat) (closed : Bool) (s : State) : Host.Outcome State Fault Refusal :=
  let e := s.eng
  if 1 < relay ∨ tbit (e.reg Reg.OUT_KSTAT_COIL) relay = closed then .next s
  else
    let v := e.reg Reg.OUT_KSTAT_SENSE
    let e1 := e.setReg Reg.OUT_KSTAT_SENSE (v - 2 ^ relay * bit v relay + 2 ^ relay * b2n closed)
    let e2 := (e1.addCause 6).raise Src.krelay relay
    .next { s with eng := faultReport 0 e2 }

/-! ### Supplies (R430, R431) -/

/-- What PWR_SUP, PWR_SUPW and PWR_SUPT show of module `m` (R430). -/
def supplyShow (m : Nat) (r : SupplyReport) (dc : Bool) (e : Engine) : Engine :=
  let ws : List (Fld × Nat) := [(Reg.PWR_SUP_PRES m, b2n r.present), (Reg.PWR_SUP_ACOK m, b2n r.acGood), (Reg.PWR_SUP_DCOK m, b2n dc),
    (Reg.PWR_SUP_FAULT m, b2n r.fault), (Reg.PWR_SUPW_WATTS m, r.watts), (Reg.PWR_SUPT_TEMP m, r.temp)]
  { e with regs := e.regs.puts ws }

/-- SUPPLY_DC_LOSS: supply module `m` stops reporting DC good, with report `r`. -/
def execSupplyDcLoss (m : Nat) (r : SupplyReport) (s : State) : Host.Outcome State Fault Refusal :=
  let e := s.eng
  if 1 < m then .next s
  else
    let e1 := supplyShow m r false e
    .next { s with eng := if e.st = stOff ∨ e.reg (Reg.PWR_SUP_DCOK m) = 0 then e1 else e1.raise Src.supLoss m }

/-- SUPPLY_DC_GOOD: supply module `m` reports DC good again, with report `r`. -/
def execSupplyDcGood (m : Nat) (r : SupplyReport) (s : State) : Host.Outcome State Fault Refusal :=
  let e := s.eng
  if 1 < m then .next s
  else
    let e1 := supplyShow m r true e
    .next { s with eng := if e.st = stOff ∨ e.reg (Reg.PWR_SUP_DCOK m) = 1 then e1 else e1.raise Src.supOk m }

/-- AC_FAIL: no module reports AC good. Journal writes under way are completed, the relay counts among them. -/
def execAcFail (s : State) : Host.Outcome State Fault Refusal :=
  let e := s.eng
  if e.pwr.acOut ∨ e.st = stOff then .next s
  else
    let e1 := ((e.setReg (Reg.PWR_SUP_ACOK 0) 0).setReg (Reg.PWR_SUP_ACOK 1) 0).bump Reg.PWR_ACFAILCNT_COUNT
    let e2 : Engine := { e1 with pwr := { e1.pwr with acOut := true }
                                 out := { e1.out with relayJournal := [e1.reg Reg.OUT_RLYCNT_A_COUNT, e1.reg Reg.OUT_RLYCNT_B_COUNT] } }
    .next { s with eng := e2.raise Src.acFail 0 }

/-- A commit that waited until its record could be started is tested anew and accepted (R370, R431; assumption 130). -/
def acceptLate (e : Engine) (u : Unrecorded) : Engine :=
  if u.object = 1 then acceptBundle e u.p u.obj
  else if u.object = 2 then acceptBits e u.p u.obj
  else commitOr e u.p u.blocks u.object

/-- AC_RETURN: AC returns to module `m`; what could not be recorded is recorded now, and the commits that waited for it are accepted. -/
def execAcReturn (m : Nat) (s : State) : Host.Outcome State Fault Refusal :=
  let e := s.eng
  if 1 < m then .next s
  else
    let e1 := e.setReg (Reg.PWR_SUP_ACOK m) 1
    let e2 : Engine := { e1 with pwr := { e1.pwr with acOut := false, unrecorded := [] } }
    .next { s with eng := if e.pwr.acOut && e.st != stOff then e.pwr.unrecorded.foldl acceptLate (journalSync e2) else e2 }

/-! ### Adaptive voltage (R441, R442) -/

/-- One AVS update of domain `d` whose lowest margin is `m`: the target, which the regulator reaches before the next update. -/
def avsDomain (e : Engine) (dm : Nat × Nat) : Engine :=
  let d := dm.1
  let m := dm.2
  let v := e.reg (Reg.PWR_DSTAT_MV d)
  let want := e.reg (Reg.PWR_DMARGIN_PCT d)
  let top := e.reg (Reg.PWR_DCFG_VMAX d)
  let v' := if m < want then min top (v + 5 * (want - m)) else if want + 2 < m then max (e.reg (Reg.PWR_DCFG_VMIN d)) (v - 5) else v
  let lim := decide (v = top ∧ m < want)
  let ws : List (Fld × Nat) := [(Reg.PWR_DSTAT_MV d, v'), (Reg.PWR_DSTAT_MARGIN d, satU 5 m), (Reg.PWR_DSTAT_LIM d, b2n lim)]
  let e1 : Engine := { e with regs := e.regs.puts ws }
  let e2 := if lim then (e1.bump (Reg.PWR_DLIMCNT_COUNT d)).raise Src.avsLim d else e1
  let low := if m < 2 then e2.pwr.lowRuns.get d + 1 else 0
  let e3 : Engine := { e2 with pwr := { e2.pwr with lowRuns := e2.pwr.lowRuns.set d low } }
  if low = 10 then faultReport 3 e3 else e3

/-- AVS_UPDATE: the lowest margins, in per cent, that the powered islands of the domains report, from domain 0 on; none for a
domain beyond the list. AVS runs from step 8 of start-up on. -/
def execAvsUpdate (margins : List Nat) (s : State) : Host.Outcome State Fault Refusal :=
  if s.eng.st = stOff ∨ s.eng.st = stBoot then .next s
  else .next { s with eng := (indexed (margins.take 24)).foldl avsDomain s.eng }

/-- RAIL_FAULT: a core rail has been outside its target by more than 30 mV for 1 ms (Table 21.7). -/
def execRailFault (domain : Nat) (s : State) : Host.Outcome State Fault Refusal :=
  if 24 ≤ domain then .next s else .next { s with eng := faultReport 4 s.eng }

/-! ### Thermal supervision (R446) -/

/-- FAN_FAIL: fan `fan` has stopped or runs below 40 % of its commanded speed, at `rpm`. -/
def execFanFail (fan rpm : Nat) (s : State) : Host.Outcome State Fault Refusal :=
  let e := s.eng
  if 6 ≤ fan ∨ e.st = stOff then .next s
  else .next { s with eng := ((e.setReg (Reg.PWR_FAN_RPM fan) rpm).raiseBit (Reg.PWR_FAN_FAIL fan)).raise Src.fanFail fan }

/-- The fans that have not failed run at full speed. -/
def fansFull (e : Engine) : Bool := (List.range 6).any (fun i => e.reg (Reg.PWR_FAN_FAIL i) == 1)

/-- The temperatures are `x` now: PWR_TEMP shows them; THERMWARN and THERMOK follow the die. -/
def dieTemp (x : Temperatures) (e : Engine) : Engine :=
  let ws : List (Fld × Nat) := [(Reg.PWR_TEMP_DIE, x.die), (Reg.PWR_TEMP_INLET, x.inlet), (Reg.PWR_TEMP_OUTLET, x.outlet)]
  let e1 : Engine := { e with regs := e.regs.puts ws }
  let t := sval 8 x.die
  let warn : Int := e.reg Reg.PWR_TLIM_WARN
  if !e.pwr.hot && decide (warn ≤ t) then
    Engine.raise { e1 with pwr := { e1.pwr with hot := true } } Src.thermWarn 0
  else if e.pwr.hot && decide (t ≤ warn - 5) then
    Engine.raise { e1 with pwr := { e1.pwr with hot := false } } Src.thermOk 0
  else e1

/-- THERMAL_WARN: a die temperature at or across the warning limits. -/
def execThermalWarn (x : Temperatures) (s : State) : Host.Outcome State Fault Refusal :=
  if s.eng.st = stOff then .next s else .next { s with eng := dieTemp x s.eng }

/-- THERMAL_FAULT: the die reaches 105 °C. -/
def execThermalFault (x : Temperatures) (s : State) : Host.Outcome State Fault Refusal :=
  let e := s.eng
  if e.st = stOff then .next s
  else
    let e1 := dieTemp x e
    .next { s with eng := if (e.reg Reg.PWR_TLIM_CRIT : Int) ≤ sval 8 x.die then faultReport 2 e1 else e1 }

/-- THERMAL_CUTOFF: at 115 °C the hardware removes power from the die. -/
def execThermalCutoff (s : State) : Host.Outcome State Fault Refusal :=
  if s.eng.st = stOff then .next s else .next { s with eng := powerOff s.eng }

/-! ### The mains draw (R445) -/

/-- DC power, in mW, of the parts of Table 21.6 that are powered: receiver engines with a lane that is not OFF, the decoders of those lanes,
Belfry rows and FIR sections, decision cores that are not stopped, and capture memory, which STANDBY holds in self-refresh (R445; assumption
131). -/
def partsPower (e : Engine) : Nat :=
  let count : Nat → (Nat → Bool) → Nat := fun n p => ((List.range n).filter p).length
  let on : Nat → Bool := fun l => e.laneState l != 0
  let engines := count 12 (fun r => (List.range 12).any (fun j => on (12 * r + j)))
  let p50 := count 144 (fun l => on l && laneMode e.active l == 2)
  let rows := count 64 (fun i => !rowDown e i)
  let sections := count 32 (fun n => e.reg (Reg.BEL_BSTAT_PDN n) == 0)
  let cores := count 32 (fun k => (e.core k).st != 0)
  2400 * engines + 150 * (count 144 on - p50) + 350 * p50 + 50 * rows + 120 * sections + 400 * cores
    + (if e.st = stStandby then 900 else 18000)

/-- PWR_POWER.WATTS: the mains draw, in which the switchable parts count with a supply efficiency of 0.92 (R445; assumption 131). -/
def mainsWatts (e : Engine) : Nat := Config.mainsDraw e.tim.bc + partsPower e / 920

/-! ### Modules and the console (R454, R455, R461) -/

/-- MODULE_INSERT: a module is read and put into use (R455). A TIMING module shows by its signal. -/
def execModuleInsert (cage : Cage) (s : State) : Host.Outcome State Fault Refusal :=
  match cage with
  | .dl lane => if 8 ≤ lane then .next s else .next { s with eng := s.eng.raiseBit (Reg.OUT_DLSTAT_MOD lane) }
  | .timing | .tandem => .next s

/-- MODULE_REMOVE (R455): an absent input under R78, a lane without module, a Tandem link that is DOWN. -/
def execModuleRemove (cage : Cage) (s : State) : Host.Outcome State Fault Refusal :=
  let e := s.eng
  match cage with
  | .dl lane => if 8 ≤ lane then .next s else .next { s with eng := e.setReg (Reg.OUT_DLSTAT_MOD lane) 0 }
  | .timing => if e.act Reg.TIM_CTL_SRC = 0 then .next { s with eng := e.setReg Reg.TIM_STAT_SIGNAL 0 } else .next s
  | .tandem => if e.role = 0 then .next s else .next { s with eng := tdmDown e }

/-! ### Functions (R434, R435, R440, R442, R449) -/

/-- REQ_STATE. -/
def fnReqState : Fn :=
  { op := 0x1510, kind := .action, right := fun _ => rightState
    range := fun _ p => firstBad [(p.target == 0, 7), (decide (2 ≤ p.arg 0) && decide (p.arg 0 ≤ 5), 8)] }

/-- A state request for crossing `named`, none for apply-at 0. -/
def requestOf (ring tag : Nat) (notify : Bool) (target : Nat) (named : Option Nat) : StReq :=
  { ring := ring, tag := tag, notify := notify, target := target, named := named }

/-- The boundary a non-zero apply-at names, with the lead and the limits of R58 counted from the crossing being counted. -/
def reqCrossing (e : Engine) (applyAt : Nat) : Status ⊕ Nat :=
  let s := orbitLen e.active
  let n := e.crossingNamed applyAt
  if !e.locked then .inl (.state e.st)
  else if s ≤ applyAt % 2 ^ 14 then .inl (.range 5)
  else if n < e.counted + e.lead then .inl .late
  else if e.counted + 2 ^ 40 < n then .inl (.range 5)
  else .inr n

/-- A request for a state, from a ring or the console: `first` puts it before those that wait. -/
def request (r : StReq) (applyAt : Nat) (first : Bool) (e : Engine) : Engine :=
  let fail := fun (st : Status) => e.completeAt r.ring r.tag r.notify st e.cxNow
  let queue := fun (q : StReq) =>
    { e with pwr := { e.pwr with reqs := if first then q :: e.pwr.reqs else e.pwr.reqs ++ [q] } }
  if e.st = r.target then fail .ok
  else if r.target = stStandby then
    (if requestOk e stStandby then finishReq (enterState e stStandby e.counted) r .ok e.counted else fail (.state e.st))
  else if applyAt ≠ 0 then
    (match reqCrossing e applyAt with
     | .inl st => fail st
     | .inr n => queue { r with named := some n })
  else if !requestOk e r.target then fail (.state e.st)
  else if e.st = stStandby then startWake { e with pwr := { e.pwr with wakers := e.pwr.wakers ++ [r] } } 1
  else queue r

/-- REQ_STATE (R434). -/
def execReqState (p : Packet) (s : State) : Host.Outcome State Fault Refusal :=
  let e1 := runAsync fnReqState noExtra
    (fun e p => request (requestOf p.ring p.tag p.notify (p.arg 0) none) p.applyAt false e) p s.eng
  .next { s with eng := e1 }

/-- STANDBY_WAKE: a wake source starts the return to SAFE: 1 host, 2 timing command, 3 event, the last two as PWR_WAKE
enables them (R444). -/
def execStandbyWake (cause : Nat) (s : State) : Host.Outcome State Fault Refusal :=
  let e := s.eng
  let on := cause == 1 || (cause == 2 && e.reg Reg.PWR_WAKE_TIMCMD == 1 && e.locked) || (cause == 3 && e.reg Reg.PWR_WAKE_EVENT == 1)
  .next { s with eng := if on then startWake e cause else e }

/-- WAKE_COMPLETE: SAFE is entered (R444). -/
def execWakeComplete (s : State) : Host.Outcome State Fault Refusal :=
  let e := s.eng
  if e.st = stStandby ∧ e.reg Reg.PWR_STAT_WAKING = 1 then
    .next { s with eng := finishWakers (enterState e stSafe e.counted) e.counted }
  else .next s

/-- The domains a target names. -/
def domainsOf (target : Nat) : List Nat := if target = allInstances then List.range 24 else [target]

/-- SET_AVS. -/
def fnSetAvs : Fn :=
  { op := 0x1511, kind := .action, noApply := true
    range := fun _ p => firstBad [(p.target == allInstances || decide (p.target < 24), 7),
      (decide (650 ≤ p.arg 0 ∧ p.arg 0 ≤ p.arg 1 ∧ p.arg 1 ≤ 850 ∧ 4 ≤ p.arg 2 ∧ p.arg 2 ≤ 20), 8)] }

/-- SET_AVS (R442). -/
def execSetAvs (p : Packet) (s : State) : Host.Outcome State Fault Refusal :=
  let e1 := runAction fnSetAvs noExtra (fun e p => e.laterAll ((domainsOf p.target).flatMap (fun d =>
    [(Reg.PWR_DCFG_VMIN d, p.arg 0), (Reg.PWR_DCFG_VMAX d, p.arg 1), (Reg.PWR_DMARGIN_PCT d, p.arg 2)]))) p s.eng
  .next { s with eng := e1 }

/-- RESET: context 0 only. -/
def fnReset : Fn :=
  { op := 0x1512, kind := .action, right := fun _ => rightState, noApply := true
    owner := fun _ p => if p.ctx = 0 then none else some 0
    range := fun _ p => firstBad [(p.target == 0, 7), (p.arg 0 == 1 && p.arg 1 == 0x5AFE, 8)] }

/-- RESET completes with ST_OK before the warm reset begins (R440). -/
def execReset (p : Packet) (s : State) : Host.Outcome State Fault Refusal :=
  .next { s with eng := runAsync fnReset noExtra (fun e p => selfReset 1 (e.complete p .ok)) p s.eng }

/-- SET_WAKE. -/
def fnSetWake : Fn :=
  { op := 0x1513, kind := .action, noApply := true
    range := fun _ p => firstBad [(p.target == 0, 7), (decide (p.arg 0 ≤ 3), 8)] }

/-- SET_WAKE (R444, R449). -/
def execSetWake (p : Packet) (s : State) : Host.Outcome State Fault Refusal :=
  let e1 := runAction fnSetWake noExtra
    (fun e p => e.laterAll [(Reg.PWR_WAKE_TIMCMD, bit (p.arg 0) 0), (Reg.PWR_WAKE_EVENT, bit (p.arg 0) 1)]) p s.eng
  .next { s with eng := e1 }

/-- SET_FILLCMD. -/
def fnSetFillcmd : Fn :=
  { op := 0x1514, kind := .action, noApply := true
    range := fun _ p => firstBad [(p.target == 0, 7), (decide (p.arg 0 ≤ 1), 8)] }

/-- SET_FILLCMD (R435, R449). -/
def execSetFillcmd (p : Packet) (s : State) : Host.Outcome State Fault Refusal :=
  .next { s with eng := runAction fnSetFillcmd noExtra (fun e p => e.later Reg.PWR_CTL_FILLCMD (p.arg 0)) p s.eng }

/-- SET_TLIM. -/
def fnSetTlim : Fn :=
  { op := 0x1515, kind := .action, noApply := true
    range := fun _ p => firstBad [(p.target == 0, 7), (decide (60 ≤ p.arg 0) && decide (p.arg 0 ≤ 100), 8)] }

/-- SET_TLIM (R446, R449). -/
def execSetTlim (p : Packet) (s : State) : Host.Outcome State Fault Refusal :=
  .next { s with eng := runAction fnSetTlim noExtra (fun e p => e.later Reg.PWR_TLIM_WARN (p.arg 0)) p s.eng }

/-- RAW_DOMAINS: the images obey the ranges of Table 21.9. -/
def fnRawDomains : Fn :=
  { op := 0x1580, kind := .direct, noApply := true, len := lenTimes 8 24
    range := fun _ p => match firstBad [(decide (p.target + p.length / 8 ≤ 24), 7)] with
      | some o => some o
      | none => wordsBad p (fun i v => if i % 2 = 0 then within 0x03FF03FF v else within 0x1F v) }

/-- RAW_DOMAINS (R449). -/
def execRawDomains (p : Packet) (s : State) : Host.Outcome State Fault Refusal :=
  let e1 := runAction fnRawDomains noExtra (fun e p => e.laterAll ((List.range (p.length / 8)).flatMap (fun i =>
    [(Reg.PWR_DCFG_VMIN (p.target + i), bits (p.word (2 * i)) 9 0), (Reg.PWR_DCFG_VMAX (p.target + i), bits (p.word (2 * i)) 25 16),
     (Reg.PWR_DMARGIN_PCT (p.target + i), bits (p.word (2 * i + 1)) 4 0)]))) p s.eng
  .next { s with eng := e1 }

/-- CONSOLE_COMMAND (R398, R440, R461). Every state but OFF serves the console. A state request comes first among those of its
crossing; a firmware image is accepted while the engine stays in BOOT. No completion is written: ring 2^18 is no ring. -/
def execConsoleCommand (c : ConsoleCmd) (s : State) : Host.Outcome State Fault Refusal :=
  let e := s.eng
  if e.st = stOff then .next s
  else match c with
    | .reset => .next { s with eng := selfReset 2 e }
    | .reqState code =>
      if code < 2 ∨ 5 < code then .next s else .next { s with eng := request (requestOf (2 ^ 18) 0 false code none) 0 true e }
    | .firmware slot p =>
      if e.st ≠ stBoot ∨ 1 < slot then .next s
      else
        let q : Packet := { p with ring := 2 ^ 18, ctx := 0, target := slot }
        if (xferBusy 0x1312 e q).isSome then .next s else .next { s with eng := takePacket 0x1312 e q }

/-! ### The status LEDs (R462) -/

/-- Colour of an LED. -/
inductive Led where
  /-- Dark. -/
  | off
  /-- Green. -/
  | green
  /-- Green, blinking. -/
  | greenBlink
  /-- Amber. -/
  | amber
  /-- Amber, blinking. -/
  | amberBlink
  /-- Red. -/
  | red
deriving DecidableEq, Repr

/-- The LEDs of Table 22.6: PWR, STATE, LOCK, KEEP, HOST, TANDEM, FAULT. -/
def statusLeds (e : Engine) : List Led :=
  let dc := e.reg (Reg.PWR_SUP_DCOK 0) + e.reg (Reg.PWR_SUP_DCOK 1)
  let st := e.st
  [ if dc = 0 then .off else if dc = 2 then .green else .amber,
    if st = stOff then .off else if st = stArmed then .green else if st = stHold then .greenBlink else if st = stSafe then .amber
      else if st = stFault then .red else .amberBlink,
    if e.reg Reg.TIM_STAT_SIGNAL = 0 then .off else if e.locked then .green else .amber,
    if st = stOff then .off else if e.reg Reg.OUT_KSTAT_SENSE = 3 then .green else .red,
    if e.host.rings.any (·.fault) then .red else if e.reg Reg.HST_STATUS_LINKUP = 0 then .off
      else if e.reg Reg.HST_STATUS_WIDTH = 16 ∧ e.reg Reg.HST_STATUS_GEN = 4 then .green else .amber,
    if e.role = 0 then .off else if e.reg Reg.TDM_STAT_LINK ≠ 2 ∨ e.reg Reg.TDM_STAT_DUAL = 1 then .red
      else if e.reg Reg.TDM_STAT_PERMIT = 1 then .green else .amber,
    if st = stFault then .red else if fansFull e || e.pwr.hot then .amber else .off ]

end Sys2Proof.Machine
end

