-- ==== Sys2Proof/Machine/Timing.lean ====
section
/-! DEFINITION. Beam timing (chapter 3): acquisition and loss of lock, orbit records, timing commands, release points, and
the TIM functions. -/

namespace Sys2Proof.Machine

/-- TIM runs: it acquires and counts outside OFF and BOOT (R76). -/
def Engine.timing (e : Engine) : Bool := e.st != stOff && e.st != stBoot

/-- The timing source is the SMA inputs (R71). -/
def Engine.sma (e : Engine) : Bool := e.act Reg.TIM_CTL_SRC == 1

/-! ### Acquisition (R76, Table 3.4) -/

/-- Acquisition returns to step 1. -/
def restartAcq (e : Engine) : Engine :=
  let e1 := e.setReg Reg.TIM_STAT_PHASE 1
  { e1 with tim := { e1.tim with freqOk := false, goodChars := 0, sinceMark := 0, marks := 0, acqWords := [], acqOrbit := 0
                                 acqReady := false } }

/-- Steps 1 and 2 pass where signal, frequency and PLL allow it; step 3 is skipped with SMA. -/
def acqAdvance (e : Engine) : Engine :=
  if e.locked ∨ !e.timing then e
  else
    let e1 := if e.reg Reg.TIM_STAT_PHASE = 1 ∧ e.reg Reg.TIM_STAT_SIGNAL = 1 ∧ e.tim.freqOk then e.setReg Reg.TIM_STAT_PHASE 2 else e
    if e1.reg Reg.TIM_STAT_PHASE = 2 ∧ e1.tim.pll then e1.setReg Reg.TIM_STAT_PHASE (if e1.sma then 4 else 3) else e1

/-- The words of an orbit record: orbit number and S − 1; none where its CRC fails (R73, Table 3.2). -/
def recordOf (ws : List Nat) : Option (Nat × Nat) :=
  let w := fun i => ws.getD i 0 % 2 ^ 16
  if crcOrbit ((List.range 7).map w) = w 7 then some (w 0 + 2 ^ 16 * w 1 + 2 ^ 32 * w 2 + 2 ^ 48 * (w 3 % 4), w 4 % 2 ^ 14) else none

/-- A record fails its CRC (R73). -/
def recordFailed (e : Engine) : Engine := (e.bump Reg.TIM_RECERR_COUNT).raise Src.recerr 0

/-- The crossing carries the orbit marker (R72, R75). -/
def markerIn (e : Engine) (t : Timing) : Bool :=
  if e.sma then t.bcEdge && t.orbitIn && !e.tim.orbitIn else decide (t.char0 = .k281)

/-- The input signal is present in the crossing. A character 0 with a code error is signal: R78 calls the crossings without any absent, and counts
code errors by themselves (DESIGN CHOICE; assumption 122). -/
def signalIn (e : Engine) (t : Timing) : Bool := if e.sma then t.bcEdge else decide (t.char0 ≠ .absent)

/-- ORBIT_IN is sampled at the edges of BC_IN (R75). -/
def sampleOrbit (e : Engine) (t : Timing) : Engine :=
  if t.bcEdge then { e with tim := { e.tim with orbitIn := t.orbitIn } } else e

/-- LENERR, and back to step 1. -/
def lengthError (e : Engine) : Engine := restartAcq (e.raiseBit Reg.TIM_STAT_LENERR)

/-- Step 4: two markers S crossings apart. With SMA it is the last step. -/
def acqMarkers (mark : Bool) (word : Nat) (e : Engine) : Engine :=
  let n := e.tim.sinceMark + 1
  if !mark then { e with tim := { e.tim with sinceMark := if e.tim.marks = 0 then 0 else n } }
  else if e.tim.marks = 0 then { e with tim := { e.tim with marks := 1, sinceMark := 0 } }
  else if n ≠ orbitLen e.active then lengthError e
  else
    let e1 : Engine := { e with tim := { e.tim with marks := 2, sinceMark := 0, acqWords := [word] } }
    e1.setReg Reg.TIM_STAT_PHASE (if e.sma then 0 else 5)

/-- Step 5: one orbit record with valid CRC and the orbit length of TIM_ORBIT. A record that fails its CRC is ignored (R73), and the step waits
for the next one (DESIGN CHOICE: R76 lets a failed step return to step 1, and asks the step for one valid record; assumption 65). -/
def acqRecord (mark : Bool) (word : Nat) (e : Engine) : Engine :=
  let ws := if mark then [word] else if e.tim.acqWords.length < 8 then e.tim.acqWords ++ [word] else e.tim.acqWords
  let since := if mark then 0 else e.tim.sinceMark + 1
  let e1 : Engine := { e with tim := { e.tim with acqWords := ws, sinceMark := since } }
  if since = 7 ∧ ws.length = 8 then
    match recordOf ws with
    | none => recordFailed e1
    | some (orb, s1) =>
      if s1 ≠ orbitLen e.active - 1 then lengthError e1
      else Engine.setReg { e1 with tim := { e1.tim with acqOrbit := orb + 1 } } Reg.TIM_STAT_PHASE 0
  else e1

/-- Every step has passed: the next slot 0 is that of lock. With SMA its marker must come one orbit after the second one. On the Timing port
the slot 0 is the next crossing with K28.1, wherever it comes (DESIGN CHOICE: no step is under way that could fail; assumption 65). -/
def acqSlot0 (mark : Bool) (t : Timing) (e : Engine) : Engine :=
  let n := e.tim.sinceMark + 1
  if e.sma ∧ ((mark ∧ n ≠ orbitLen e.active) ∨ (!mark ∧ orbitLen e.active ≤ n)) then restartAcq e
  else if mark then
    { e with tim := { e.tim with acqReady := true, acqWords := [t.word], sinceMark := 0, prevCmd := 1 + t.cmd % 256 } }
  else { e with tim := { e.tim with sinceMark := n } }

/-- A crossing received while TIM is unlocked. Its code errors are not counted in TIM_CODEERR (DESIGN CHOICE: R78 counts those of counted
crossings, and before step 3 no character is framed; assumption 122). -/
def acqCrossing (t : Timing) (e : Engine) : Engine :=
  let mark := markerIn e t
  let sig := signalIn e t
  let e1 := sampleOrbit (e.setReg Reg.TIM_STAT_SIGNAL (b2n sig)) t
  let valid := t.char0 = .k281 ∨ t.char0 = .k285 ∨ t.char0 = .k286
  let ph := e1.reg Reg.TIM_STAT_PHASE
  if !sig then restartAcq e1
  else if ph = 1 ∨ ph = 2 then acqAdvance e1
  else if ph = 3 then
    let g := if valid ∧ t.codeErrs = 0 then e1.tim.goodChars + 1 else 0
    let e2 : Engine := { e1 with tim := { e1.tim with goodChars := g } }
    if g < 16 then e2 else e2.setReg Reg.TIM_STAT_PHASE 4
  else if ph = 4 then acqMarkers mark t.word e1
  else if ph = 5 then acqRecord mark t.word e1
  else acqSlot0 mark t e1

/-- ACQUISITION_CROSSING: one crossing on the timing input while TIM is unlocked (R76). Once the slot 0 of lock has come,
LOCK_ACQUIRE follows. -/
def execAcquisitionCrossing (t : Timing) (s : State) : Host.Outcome State Fault Refusal :=
  let e := s.eng
  if e.locked ∨ !e.timing ∨ e.tim.acqReady then .next s else .next { s with eng := acqCrossing t e }

/-! ### Pending commits that end without effect (R59, R81, R8) -/

/-- A pending commit leaves the queue with a status: its staged copies keep their values and its context, if it is open still, takes the
stage locks again where no other context has taken them. The journal returns to what holds without it (R370). -/
def dropPend (e : Engine) (p : Pend) (st : Status) (cx : Nat) : Engine :=
  let e1 : Engine := { e with host := { e.host with pends := e.host.pends.filter (fun q => q.uid != p.uid) } }
  let e2 := if p.object = 1 then { e1 with sec := { e1.sec with bundleDue := [] } }
    else if p.object = 2 then Engine.setReg { e1 with sec := { e1.sec with bitsDue := [] } } Reg.ULA_STAT_CONFIG 0
    else
      let a := if p.ctx = closedCtx then e1 else p.blocks.foldl (fun a b => a.takeLock b p.ctx) e1
      let once := p.set.filter (fun kv => onceKey kv.1 && a.staged.get kv.1 == 0)
      { a with staged := Tab.setAll a.staged once, map := if p.blocks.contains 4 then { a.map with staged := p.masks ++ a.map.staged } else a.map }
  let e3 := if p.blocks.contains 10 then e2.setReg Reg.BEL_STAT_PEND 0 else e2
  (journalSync e3).completeAt p.ring p.tag p.notify st cx

/-- HST_CMTLEAD.LEAD shows the lead (R58). -/
def leadReg (e : Engine) : Engine := e.setReg Reg.HST_CMTLEAD_LEAD e.lead

/-! ### Timing commands (R74, R435, R444) -/

/-- The code has a meaning in Table 3.3. -/
def cmdDefined (c : Nat) : Bool := decide (1 ≤ c ∧ c ≤ 4) || decide (0x40 ≤ c ∧ c ≤ 0x7F)

/-- A timing command acts: CMD and TIM_CMD.LAST, then WAKE, FILL_END or FILL_START; an undefined code is counted. -/
def timingCommand (c : Nat) (e : Engine) : Engine :=
  let e0 : Engine := { e with tim := { e.tim with cmdDue := none } }
  if !cmdDefined c then e0.bump Reg.TIM_CMDBAD_COUNT
  else
    let e1 := (e0.setReg Reg.TIM_CMD_LAST c).raise Src.cmd c
    if c = 1 then (if e1.reg Reg.PWR_WAKE_TIMCMD = 1 then startWake e1 2 else e1)
    else if (c = 2 ∨ c = 3) ∧ e1.reg Reg.PWR_CTL_FILLCMD = 1 then { e1 with pwr := { e1.pwr with fillDue := c } }
    else e1

/-- A command that has not been taken since its crossing acts before the next one is counted. -/
def commandLeft (e : Engine) : Engine := match e.tim.cmdDue with
  | some c => timingCommand c e
  | none => e

/-! ### Loss of lock (R78, R79) -/

/-- LOSS_OF_LOCK with its cause bits: counting stops, frames in flight are invalid, pending commits are refused, waiting
crosspoints switch, acquisition restarts. The engine state is the caller's (R31). -/
def loseLock (causes : Nat) (planned : Bool) (e : Engine) : Engine :=
  let ws : List (Fld × Nat) := [(Reg.TIM_STAT_LOCK, 0), (Reg.TIM_STAT_BEAM, 0), (Reg.TIM_LOSS_CAUSE, causes),
    (Reg.TIM_STAT_PLANNED, b2n planned), (Reg.HST_PTM_CTL_VALID, 0)]
  let e0 : Engine := { e with regs := e.regs.puts ws, frames := e.frames.map (fun f => { f with invalid := true }),
                              fin := { e.fin with accs := [] }, lnk := { e.lnk with rx := [], buf := [], banks := [] } }
  let e1 := e0.eqAll
  let tim : TimSt := { e1.tim with nextOrbit := (e1.tim.orbit + 1) % 2 ^ 50, resume := none, recWords := [], recFails := 0, absent := 0,
                                   errs := [], prevCmd := 0, acted := 0, cmdDue := none, beams := [] }
  let e2 := restartAcq { e1 with tim := tim, dom := { e1.dom with images := [] }, out := { e1.out with mon := List.replicate 8 0 } }
  let e3 := (e2.bump (if planned then Reg.TIM_RELOCK_COUNT else Reg.TIM_LOSSCNT_COUNT)).raise Src.unlock causes
  let e4 := finishWaiting (switchAll e3)
  let e5 := e4.host.pends.foldl (fun a p => dropPend a p .aborted 0) e4
  leadReg (tdmUnlock (keepCauses e5))

/-- State requests that wait for a crossing end with the lock: none is counted any more (R434). -/
def dropRequests (e : Engine) : Engine :=
  let e1 : Engine := { e with pwr := { e.pwr with reqs := [] } }
  e.pwr.reqs.foldl (fun a r => finishReq a r (.state a.st) 0) e1

/-- Lock is lost at the boundary that starts crossing `k`: a timing command that acts in the crossing before is taken (R74), and R31 moves
ARMED and HOLD to SAFE, in the order of R433. -/
def lockLost (causes k : Nat) (planned : Bool) (e : Engine) : Engine :=
  dropRequests (stateBoundary k true (loseLock causes planned (commandLeft e)))

/-- PLL_LOCK_CHANGE: the jitter-cleaning PLL locks or unlocks (R76, R78). -/
def execPllLockChange (locked : Bool) (s : State) : Host.Outcome State Fault Refusal :=
  let e := s.eng
  let e1 : Engine := { e with tim := { e.tim with pll := locked } }
  if !e.timing then .next { s with eng := e1 }
  else if e.locked then .next { s with eng := if locked then e1 else lockLost 2 e.counted false e1 }
  else .next { s with eng := if locked then acqAdvance e1 else if e.reg Reg.TIM_STAT_PHASE = 1 then e1 else restartAcq e1 }

/-- The measured frequency lies within ±200 ppm of TIM_FNOM.KHZ. -/
def freqNear (nom khz : Nat) : Bool := decide ((khz - nom + (nom - khz)) * 5000 ≤ nom)

/-- FREQ_WINDOW_END: a measuring window of 1 ms ends with `khz` (R76, R78). -/
def execFreqWindowEnd (khz : Nat) (s : State) : Host.Outcome State Fault Refusal :=
  let e := s.eng
  if !e.timing then .next s
  else
    let ok := freqNear (e.act Reg.TIM_FNOM_KHZ) khz
    let e1 := e.setReg Reg.TIM_MEAS_KHZ (satU 17 khz)
    if e.locked then .next { s with eng := if ok then e1 else lockLost 4 e.counted false e1 }
    else if ok then .next { s with eng := acqAdvance { e1 with tim := { e1.tim with freqOk := true } } }
    else .next { s with eng := restartAcq e1 }

/-- SIGNAL_ABSENT_TIMEOUT: the boundary of the fourth crossing after the last one with a valid edge or character (R78). Crossings
c + 1 to c + 3 have been counted. -/
def execSignalAbsentTimeout (s : State) : Host.Outcome State Fault Refusal :=
  let e := s.eng
  if e.locked ∧ 3 ≤ e.tim.absent then
    .next { s with eng := lockLost 1 e.counted false (e.setReg Reg.TIM_STAT_SIGNAL 0) }
  else .next s

/-! ### Counting (R72 to R75, R78, R83) -/

/-- The code errors of a crossing on the Timing port. -/
def errorsIn (e : Engine) (t : Timing) : Nat :=
  if e.sma ∨ t.char0 = .absent then 0 else if t.char0 = .err then max 1 t.codeErrs else t.codeErrs

/-- Code errors of the last 256 crossings, the present one among them. -/
def errsAfter (old : List (Nat × Nat)) (n : Nat) : List (Nat × Nat) :=
  let aged := (old.map (fun a => (a.1 + 1, a.2))).filter (fun a => decide (a.1 < 256))
  if n = 0 then aged else (0, n) :: aged

/-- ORBIT_RECORD_RECEIVE in slot `slot` of orbit `orb` (R73): the engine, and cause bits 5 and 6. A record that lacks the word of a crossing
without signal is no record: it neither passes nor fails, and the run of failures stays (DESIGN CHOICE; assumption 122). -/
def recordWord (t : Timing) (slot orb : Nat) (e : Engine) : Engine × Nat :=
  if e.sma ∨ 7 < slot then (e, 0)
  else
    let ws := if slot = 0 then [t.word] else e.tim.recWords ++ [t.word]
    let e1 : Engine := { e with tim := { e.tim with recWords := ws } }
    if slot < 7 ∨ ws.length ≠ 8 then (e1, 0)
    else match recordOf ws with
      | none =>
        let n := e1.tim.recFails + 1
        (recordFailed { e1 with tim := { e1.tim with recFails := n } }, if 3 ≤ n then 64 else 0)
      | some (o, s1) =>
        ({ e1 with tim := { e1.tim with recFails := 0 } }, if o ≠ orb % 2 ^ 50 ∨ s1 ≠ orbitLen e.active - 1 then 32 else 0)

/-- What the timing input of the crossing of slot `slot` in orbit `orb` does, and the causes of loss that it shows (Table 3.5). -/
def timingInput (t : Timing) (slot orb : Nat) (e : Engine) : Engine × Nat :=
  let mark := markerIn e t
  let sig := signalIn e t
  let n := errorsIn e t
  let errs := errsAfter e.tim.errs n
  let absent := if sig then 0 else e.tim.absent + 1
  let e1 := sampleOrbit ((e.setReg Reg.TIM_STAT_SIGNAL (b2n sig)).bumpBy Reg.TIM_CODEERR_COUNT n) t
  let e2 : Engine := { e1 with tim := { e1.tim with errs := errs, absent := absent } }
  let (e3, rec) := if sig then recordWord t slot orb e2 else (e2, 0)
  let c0 := !sig && (decide (4 ≤ absent) || slot == 0)
  let c3 := (slot == 0) != mark
  let c4 := decide (e.reg Reg.TIM_ERRWIN_MAX < (errs.map (·.2)).foldl (· + ·) 0)
  (e3, b2n c0 + 8 * b2n c3 + 16 * b2n c4 + rec)

/-- TIM_STAT.BEAM of a counted crossing (R72, R75). -/
def beamOf (t : Timing) (e : Engine) : Engine :=
  if e.sma then e.setReg Reg.TIM_STAT_BEAM 1
  else match t.char0 with
    | .k285 => e.setReg Reg.TIM_STAT_BEAM 1
    | .k286 => e.setReg Reg.TIM_STAT_BEAM 0
    | .k281 | .err | .absent => e

/-- The command byte of a counted crossing: a code that comes in two consecutive crossings acts once, and again only after a crossing with
another code (R74). A crossing whose signal is absent carries none; the pair and the code that acted start afresh at lock (assumption
121). -/
def commandByte (t : Timing) (e : Engine) : Engine :=
  if e.sma then e
  else if t.char0 = .absent then { e with tim := { e.tim with prevCmd := 0 } }
  else
    let c := t.cmd % 256
    let before := if e.tim.acted = c + 1 then c + 1 else 0
    let acts := e.tim.prevCmd == c + 1 && before == 0 && c != 0
    { e with tim := { e.tim with prevCmd := c + 1, acted := if acts then c + 1 else before
                                 cmdDue := if acts then some c else e.tim.cmdDue } }

/-! ### The rows of timing commands (R74) -/

/-- The timing command that is due acts, where its code is one of those a row stands for. -/
def commandRow (p : Nat → Bool) (e : Engine) : Engine := match e.tim.cmdDue with
  | some c => if p c && e.locked then timingCommand c e else e
  | none => e

/-- TC_WAKE (R444). -/
def execTcWake (s : State) : Host.Outcome State Fault Refusal := .next { s with eng := commandRow (· == 1) s.eng }

/-- TC_FILL_END (R435). -/
def execTcFillEnd (s : State) : Host.Outcome State Fault Refusal := .next { s with eng := commandRow (· == 2) s.eng }

/-- TC_FILL_START (R435). -/
def execTcFillStart (s : State) : Host.Outcome State Fault Refusal := .next { s with eng := commandRow (· == 3) s.eng }

/-- TC_MARK (R74). -/
def execTcMark (s : State) : Host.Outcome State Fault Refusal := .next { s with eng := commandRow (· == 4) s.eng }

/-- TC_USER (R74). -/
def execTcUser (s : State) : Host.Outcome State Fault Refusal :=
  .next { s with eng := commandRow (fun c => decide (0x40 ≤ c ∧ c ≤ 0x7F)) s.eng }

/-- TC_UNDEFINED (R74). -/
def execTcUndefined (s : State) : Host.Outcome State Fault Refusal := .next { s with eng := commandRow (fun c => !cmdDefined c) s.eng }

/-! ### Release points (R87 to R89) -/

/-- Every entry lies between the firmware's offset and the limit of its stage (R89). -/
def releaseCheck (t : Tab) : Bool :=
  (List.range 512).all (fun b =>
    let v := t.fld (relFld b)
    v == 0 || (decide (Config.releaseOffset b (terms t) % 4096 ≤ v - 1) && decide (v - 1 ≤ Config.releaseLimit b (terms t))))

/-- RELEASE_MISS: data reaching internal boundaries (R87, R88): the latest arrival, and what comes too late makes its frame
invalid (R23); on the abort path the frame is fail-safe (R165). -/
def arrival (e : Engine) (a : Arrival) : Engine :=
  if 512 ≤ a.boundary then e
  else
    let e1 : Engine := { e with tim := { e.tim with rpWorst := e.tim.rpWorst.set a.boundary (max a.sc (e.tim.rpWorst.get a.boundary)) } }
    match e.frames.find? (fun f => f.n == a.n && !f.dead) with
    | none => showRelease e1
    | some f =>
      if a.sc ≤ releaseOf f.cfg a.boundary then showRelease e1
      else
        let e2 := if e1.tim.rmissFresh then e1.setReg Reg.TIM_RMISS_BND_ID a.boundary else e1
        let e3 := (e2.bump Reg.TIM_RMISS_COUNT).raise Src.rmiss a.boundary
        let e4 : Engine := { e3 with
          tim := { e3.tim with rmissFresh := false }
          frames := e3.frames.map (fun g => if g.n = a.n then { g with invalid := true, pathMiss := g.pathMiss || a.abortPath } else g) }
        let e5 := suppressAccepts f e4
        showRelease (if a.abortPath && !f.fs && decide (2 ≤ e.age f) then keepLateMiss f e5 else e5)

/-- TIM_RPWORST_CLR: the tracking of the selected boundary restarts (R88). -/
def execTimRpworstClr (s : State) : Host.Outcome State Fault Refusal :=
  let e := s.eng
  .next { s with eng := showRelease { e with tim := { e.tim with rpWorst := e.tim.rpWorst.set (e.reg Reg.TIM_RPIDX_ID) 0 } } }

/-! ### The clock set (R71, R82, R91) -/

/-- The greatest and least skews that the enabled sources of set `t` have reported, as R91 judges a change of O. -/
def skewsOk (e : Engine) (t : Tab) : Bool :=
  let shift : Int := (e.act Reg.TIM_ORIGIN_O : Int) - t.fld Reg.TIM_ORIGIN_O
  let a : Int := t.fld Reg.TIM_ALIGN_A
  let early : Int := earlyLimit t
  (enabledSources t).all (fun q =>
    let r := skewReport e.lnk.skew q
    !r.1 || (decide ((r.2.2 : Int) - 128 + shift + 1 ≤ a) && decide (-early ≤ (r.2.1 : Int) - 128 + shift)))

/-- The checker of block 2: the clock set and the release-point table. -/
def timCheck (e : Engine) (t : Tab) : Bool :=
  let s := orbitLen t
  let a := t.fld Reg.TIM_ALIGN_A
  let f := t.fld Reg.TIM_FNOM_KHZ
  decide (t.fld Reg.TIM_CTL_SRC ≤ 1) && decide (mulOf (t.fld Reg.TIM_CLK_M) * f ≤ 1600000) && decide (1 ≤ a ∧ a ≤ 64) && decide (a ≤ s / 2)
    && decide (16 ≤ s ∧ s ≤ 16384) && decide (5000 ≤ f ∧ f ≤ 80000) && skewsOk e t && releaseCheck t

/-! ### Functions (R472, Table 3.9) -/

/-- SET_SOURCE. -/
def fnSetSource : Fn :=
  { op := 0x0210, kind := .basic
    range := fun _ p => firstBad [(p.target == 0, 7), (decide (p.arg 0 ≤ 1), 8), (decide (5000 ≤ p.arg 1 ∧ p.arg 1 ≤ 80000), 9)] }

/-- SET_SOURCE (R71, R472). -/
def execSetSource (p : Packet) (s : State) : Host.Outcome State Fault Refusal :=
  let w := fun (_ : Engine) (p : Packet) => [(Reg.TIM_CTL_SRC, p.arg 0), (Reg.TIM_FNOM_KHZ, p.arg 1)]
  .next { s with eng := runConfig fnSetSource noExtra w 0 p s.eng }

/-- SET_ORBIT. -/
def fnSetOrbit : Fn :=
  { op := 0x0211, kind := .basic
    range := fun _ p => firstBad [(p.target == 0, 7), (decide (16 ≤ p.arg 0 ∧ p.arg 0 ≤ 16384), 8)] }

/-- SET_ORBIT (R472). -/
def execSetOrbit (p : Packet) (s : State) : Host.Outcome State Fault Refusal :=
  let w := fun (_ : Engine) (p : Packet) => [(Reg.TIM_ORBIT_LEN, p.arg 0)]
  .next { s with eng := runConfig fnSetOrbit noExtra w 0 p s.eng }

/-- SET_MULT. -/
def fnSetMult : Fn :=
  { op := 0x0212, kind := .basic, range := fun _ p => firstBad [(p.target == 0, 7), (decide (p.arg 0 ≤ 3), 8)] }

/-- SET_MULT (R82, R472). -/
def execSetMult (p : Packet) (s : State) : Host.Outcome State Fault Refusal :=
  let w := fun (_ : Engine) (p : Packet) => [(Reg.TIM_CLK_M, p.arg 0)]
  .next { s with eng := runConfig fnSetMult noExtra w 0 p s.eng }

/-- SET_ALIGN. -/
def fnSetAlign : Fn :=
  { op := 0x0213, kind := .basic
    range := fun _ p => firstBad [(p.target == 0, 7), (decide (1 ≤ p.arg 0 ∧ p.arg 0 ≤ 64), 8), (decide (p.arg 1 ≤ 4095), 9)] }

/-- SET_ALIGN (R85, R472). -/
def execSetAlign (p : Packet) (s : State) : Host.Outcome State Fault Refusal :=
  let w := fun (_ : Engine) (p : Packet) => [(Reg.TIM_ALIGN_A, p.arg 0), (Reg.TIM_ORIGIN_O, p.arg 1)]
  .next { s with eng := runConfig fnSetAlign noExtra w 0 p s.eng }

/-- PREVIEW_LATENCY. -/
def fnPreviewLatency : Fn :=
  { op := 0x0230, kind := .query, range := fun _ p => firstBad [(p.target == 0, 7)], align := bufAlign }

/-- PREVIEW_LATENCY (R265): the terms of the set that a commit of the issuing context would give. -/
def execPreviewLatency (p : Packet) (s : State) : Host.Outcome State Fault Refusal :=
  let act := fun (e : Engine) (p : Packet) => e.post (p.arg64 0) (previewBytes (e.viewOf stagedBlocks p.ctx) e.active)
  .next { s with eng := runAction fnPreviewLatency noExtra act p s.eng }

/-- RAW_RELEASE. -/
def fnRawRelease : Fn :=
  { op := 0x0280, kind := .stage, len := lenTimes 4 512
    range := fun _ p => match firstBad [(p.target == 0, 7), (decide (p.arg 0 + p.nwords ≤ 512), 8)] with
      | some o => some o
      | none => wordsBad p (fun _ v => within 0xFFF v) }

/-- RAW_RELEASE (R89, R472). -/
def execRawRelease (p : Packet) (s : State) : Host.Outcome State Fault Refusal :=
  let w := fun (_ : Engine) (p : Packet) => (List.range p.nwords).map (fun i => (relFld (p.arg 0 + i), 1 + p.word i))
  .next { s with eng := runConfig fnRawRelease noExtra w 0 p s.eng }

/-- READ_RELEASE. -/
def fnReadRelease : Fn :=
  { op := 0x0281, kind := .read, range := fun _ p => firstBad [(p.target == 0, 7)], align := bufAlign }

/-- The 4,096 bytes of READ_RELEASE (Table 3.9). -/
def releaseBytes (e : Engine) : List Byte :=
  (List.range 512).flatMap (fun b => leBytes 2 (releaseOf e.active b) ++ leBytes 2 (Config.releaseOffset b (terms e.active) % 4096)
    ++ leBytes 2 (e.tim.rpWorst.get b) ++ leBytes 2 0)

/-- READ_RELEASE (R472). -/
def execReadRelease (p : Packet) (s : State) : Host.Outcome State Fault Refusal :=
  .next { s with eng := runAction fnReadRelease noExtra (fun e p => e.post (p.arg64 0) (releaseBytes e)) p s.eng }

end Sys2Proof.Machine
end

