-- ==== Sys2Proof/Machine/Access.lean ====
section
/-! DEFINITION. Reads and writes of BAR0 and BAR4 (R3 to R10, R12, R13, R36, R37, R69, R70, R84, R93 and the register tables). -/

namespace Sys2Proof.Machine

/-! ### Reads -/

/-- Words that freeze others when they are read: the word, what it freezes, and the word whose read ends that (R69, R84, R182, R217,
R349, R372, R429). -/
def freezers : List (Nat × List Nat × Nat) :=
  [(0x64, [0x68, 0x6C, 0x70], 0x70), (0x10002C, [0x100030], 0x100030), (0x900108, [0x90010C], 0x90010C),
   (0x900148, [0x90014C], 0x90014C), (0xF00008, [0xF0000C], 0xF0000C), (0x100002C, [0x1000030], 0x1000030),
   (0x1300024, [0x1300028], 0x1300028), (0x1508010, [0x1508014], 0x1508014), (0x1508054, [0x1508058], 0x1508058)]

/-- The value of word `a` at the moment of a read. TIM_STAMP shows the crossing being created (R84), the ID words what manufacture gave
(R13; assumption 2; ID_FWVER is the running firmware's), LNK_LSTAT.FOM what the receiver measures,
the subscription of input 258 the fields of OUT_HFRZ (Table 15.2), EVT_CSTAT.BUSY whether the input is busy now (R324), PWR_POWER the mains
draw (R445). -/
def wordValue (e : Engine) (a : Nat) : Nat :=
  if a = 0x10002C then e.stampNow % 2 ^ 32
  else if a = 0x100030 then e.stampNow / 2 ^ 32
  else if a = 0x1F00000 then 0x46080000 + Config.idWord 0 % 65536
  else if a = 0x1F00004 ∨ a = 0x1F00008 then Config.idWord ((a - 0x1F00000) / 4) % 2 ^ 32
  else if 0xE20000 ≤ a ∧ a < 0xE30000 ∧ a % 16 = 12 then
    barWord e a - barWord e a % 2 + b2n (busyShown e ((a - 0xE20000) / 16))
  else if a = 0x140001C then mainsWatts e % 65536
  else if a = 0xE20000 + 16 * 258 then e.stg Reg.OUT_HFRZ_CH + 2 ^ 15 * e.stg Reg.OUT_HFRZ_EVEN
  else if 0x201000 ≤ a ∧ a < 0x201000 + 64 * 144 ∧ a % 64 = 4 then barWord e a + 2 ^ 8 * e.fom ((a - 0x201000) / 64)
  else barWord e a

/-- The fields of word `a` that a read clears become 0 (R5, R7); a read of TIM_RMISS makes the next miss the first one (R87). -/
def clearOnRead (e : Engine) (a : Nat) : Engine :=
  let rc := (fieldsAt a).filter (fun fa => fa.2 == .rc)
  let e1 : Engine := if rc.isEmpty then e else { e with regs := e.regs.puts (rc.map (fun fa => (fa.1, 0))) }
  if a = 0x100050 then { e1 with tim := { e1.tim with rmissFresh := true } } else e1

/-- Give words their frozen values. -/
def freezeWords (e : Engine) (hs : List Nat) : Engine :=
  let t := hs.foldl (fun (t : Tab) h => if t.get h = 0 then t.set h (1 + wordValue e h) else t) e.host.frozen
  { e with host := { e.host with frozen := t } }

/-- Release frozen words. -/
def thaw (e : Engine) (hs : List Nat) : Engine :=
  { e with host := { e.host with frozen := hs.foldl (fun (t : Tab) h => t.set h 0) e.host.frozen } }

/-- Read the aligned word `a` of BAR0. A frozen word keeps its value until the read that releases it, even where the first word is read
again before (assumption 45): TIM_STAMP_HI frozen while TIM was locked reads so after loss of lock too (DESIGN CHOICE; assumption 45). -/
def readWord (e : Engine) (a : Nat) : Nat × Engine :=
  let z := e.host.frozen.get a
  let v := if z = 0 then wordValue e a else z - 1
  let e1 := match freezers.find? (fun g => g.2.2 == a) with
    | some g => thaw e g.2.1
    | none => e
  let e2 := match freezers.find? (fun g => g.1 == a) with
    | some g => freezeWords e1 g.2.1
    | none => e1
  (v, clearOnRead e2 a)

/-- BAD_ACCESS (R3): the access is recorded. -/
def badAccess (e : Engine) (off : Nat) : Engine :=
  let e1 := if e.reg Reg.HST_ERRSTAT_BADACC = 0 then e.setReg Reg.HST_ERRADDR_ADDR off else e
  e1.raiseBit Reg.HST_ERRSTAT_BADACC

/-- The access is a naturally aligned one of 4 or 8 bytes. -/
def accessOk (off size : Nat) : Bool := (size == 4 || size == 8) && off % size == 0

/-- A word of BAR4: the MSI-X table, the pending-bit array, or 0 (R37). -/
def msixWord (e : Engine) (a : Nat) : Nat :=
  if a < 0x8000 then e.host.msix.fld (msixFld (a / 16) (a % 16 / 4))
  else if a < 0x8100 then
    ((List.range 32).map (fun i => 2 ^ i * b2n (e.host.pba.get (8 * (a - 0x8000) + i) != 0))).foldl (· + ·) 0
  else 0

/-- A read of `size` bytes at `off` of a BAR: the data are held in `lastRead`. BAR2, and other sizes in BAR4, answer with a free value: the
source does not give it (assumption 1). An address outside the BAR reaches nothing. -/
def barRead (bar off size : Nat) (e : Engine) : Engine :=
  let answer : Nat × Engine → Engine := fun ve => { ve.2 with host := { ve.2.host with lastRead := ve.1 } }
  if bar = 0 ∧ off < 2 ^ 25 then
    if !accessOk off size then answer (2 ^ 32 - 1, badAccess e off)
    else if size = 4 then answer (readWord e off)
    else
      let (lo, e1) := readWord e off
      let (hi, e2) := readWord e1 (off + 4)
      answer (lo + 2 ^ 32 * hi, e2)
  else if bar = 4 ∧ off < 2 ^ 16 ∧ accessOk off size then
    answer (msixWord e off + (if size = 8 then 2 ^ 32 * msixWord e (off + 4) else 0), e)
  else if (bar = 2 ∧ off < 2 ^ 21) ∨ (bar = 4 ∧ off < 2 ^ 16) then answer e.freeVal
  else e

/-- A BAR read as a command; the unit in OFF answers nothing. -/
def readStep (bar off size : Nat) (e : Engine) : Engine := if e.st = stOff then e else barRead bar off size e

/-- READ_CLEAR: a BAR read, with the fields that it clears (R5, R7). -/
def execReadClear (bar off size : Nat) (s : State) : Host.Outcome State Fault Refusal := .next { s with eng := readStep bar off size s.eng }

/-- TIM_STAMP_READ: a read of TIM_STAMP_LO (R84). -/
def execTimStampRead (s : State) : Host.Outcome State Fault Refusal := .next { s with eng := readStep 0 0x10002C 4 s.eng }

/-- PTM_ORB_READ: a read of HST_PTM_ORB_LO (R69). -/
def execPtmOrbRead (s : State) : Host.Outcome State Fault Refusal := .next { s with eng := readStep 0 0x64 4 s.eng }

/-- LO_WORD_FREEZE_READ: a read of the _LO word at `off` (R182, R217, R349, R372, R429). -/
def execLoWordFreezeRead (off : Nat) (s : State) : Host.Outcome State Fault Refusal := .next { s with eng := readStep 0 off 4 s.eng }

/-! ### Writes -/

/-- A Control ring register (R70). -/
def ctrlWord (a : Nat) : Bool := decide (0x14 ≤ a) && decide (a ≤ 0x34)

/-- Index of an indexed register group of BAR0, where `a` lies in it: the base, the stride and the count. -/
def inGroup (a base stride count : Nat) : Option Nat :=
  if base ≤ a ∧ a < base + stride * count then some ((a - base) / stride) else none

/-- Word writes that act by themselves when they reach their block, not at the boundary of R9: the run-time controls of HST, TIM, SEQ,
OUT, EVT, IRQ and CNT, and every DMA and BLT word (R67, R88, R215, R234, R326, R334, R339, R343, R349, R373). None where the word is
not one of them. -/
def actsAtOnce (a : Nat) : Option (Nat → Engine → Engine) :=
  if a = 0x40 then some (fun v e =>
    if tbit v 31 then stopRings (fun _ => true) (e.reg Reg.HST_STOPSTAT_CTX) e else stopRings (fun c => c == v % 1024) (v % 1024) e)
  else if a = 0x44 then some (fun v e => resumeRings (fun c => tbit v 31 || c == v % 1024) e)
  else if a = 0x100060 then some (fun v e =>
    if tbit v 31 then showRelease { e with tim := { e.tim with rpWorst := e.tim.rpWorst.set (e.reg Reg.TIM_RPIDX_ID) 0 } } else e)
  else if a = 0x900000 then some (fun v e =>
    ([0, 1] : List Nat).foldl (fun a l => if tbit v l then a.later (Reg.SEQ_LSTAT_STOPPED l) 1 else a) e)
  else if a = 0x1508088 then some (fun v e => setLimit e v)
  else if a = 0xE0001C then some (fun v e => e.raise (Src.sw + v % 128) 0)
  else if a = 0xF00000 then some (fun v e => if tbit v 0 then snapRequest e else e)
  else match inGroup a 0xE30000 16 1024, inGroup a 0xE90000 16 4096, inGroup a 0xF01000 32 64, inGroup a 0x1101000 64 64,
      inGroup a 0x1181000 0x1000 2 with
  | some k, _, _, _, _ => if a % 16 = 12 then some (fun v e => if tbit v 0 then e.setReg (Reg.EVT_KSTAT_STOP k) 0 else e) else none
  | _, some s, _, _, _ => if a % 16 = 8 then some (fun v e => if tbit v 0 then clearPend s e else e) else none
  | _, _, some n, _, _ =>
    if a % 32 = 0 then some (fun v e => cntWrite n 2 v e) else if a % 32 = 8 then some (fun v e => cntWrite n 0 v e)
    else if a % 32 = 12 then some (fun v e => cntWrite n 1 v e) else none
  | _, _, _, some n, _ =>
    if a % 64 = 4 then some (fun v e => dmaCtl e n (tbit v 0) (tbit v 1))
    else if a % 64 = 8 then some (fun v e => dmaHeadWrite e n v) else if a % 64 = 12 then some (fun v e => dmaHoldHead e n v)
    else if a % 64 = 16 then some (fun v e => dmaNextWrite e n v) else if a % 64 = 20 then some (fun v e => dmaHoldNext e n v)
    else none
  | _, _, _, _, some b => if a % 0x1000 = 0 then some (fun v e => bltCtl e b (tbit v 0) (tbit v 1)) else none
  | _, _, _, _, _ => none

/-- A register write of a word that waits for its boundary, as an entry of `Engine.r9`: no field is 33 bits wide. -/
def wordFld (a : Nat) : Fld := ⟨32 * a, 33, 0⟩

/-- The bits of a W1C write that waits for its boundary, as an entry of `Engine.r9` of its own: the boundary clears them before its events
set any, so that a set wins (R6, R9). -/
def clearFld (a : Nat) : Fld := ⟨32 * a, 34, 0⟩

/-- What a write of `v` to the word of a field that is not staged gives it: RW takes its bits, a W1C field loses those written as 1 (R5,
R6). -/
def fieldWrite (e : Engine) (v : Nat) (fa : Fld × Access) : List (Fld × Nat) :=
  let b := v / 2 ^ fa.1.lo % 2 ^ fa.1.width
  match fa.2 with
  | .rw => [(fa.1, b)]
  | .w1c => if b = 0 then [] else [(fa.1, e.reg fa.1 - Nat.land (e.reg fa.1) b)]
  | .w1s => if b = 0 then [] else [(fa.1, Nat.lor (e.reg fa.1) b)]
  | .st | .ro | .wo | .rc => []

/-- A write of word `a` takes effect on its fields that are not staged. -/
def writeWord (e : Engine) (a v : Nat) : Engine :=
  match actsAtOnce a with
  | some f => f v e
  | none =>
    let e1 : Engine := { e with regs := e.regs.puts ((fieldsAt a).flatMap (fieldWrite e v)) }
    hostWritten e e1

/-- The W1C bits of a waiting write clear. -/
def clearWord (e : Engine) (a v : Nat) : Engine :=
  { e with regs := e.regs.puts (((fieldsAt a).filter (fun fa => fa.2 == .w1c)).flatMap (fieldWrite e v)) }

/-- A waiting write of word `a` takes effect, but for its W1C bits. -/
def writeWaiting (e : Engine) (a v : Nat) : Engine :=
  match actsAtOnce a with
  | some f => f v e
  | none =>
    let e1 : Engine := { e with regs := e.regs.puts (((fieldsAt a).filter (fun fa => fa.2 != .w1c)).flatMap (fieldWrite e v)) }
    hostWritten e e1

/-- An entry of `Engine.r9` takes effect. -/
def applyLater (e : Engine) (w : Fld × Nat) : Engine :=
  if w.1.width = 34 then clearWord e (w.1.key / 32) w.2
  else if w.1.width = 33 then writeWaiting e (w.1.key / 32) w.2 else e.setReg w.1 w.2

/-- A write of word `a` waits for the boundary of R9. -/
def Engine.laterWord (e : Engine) (a v : Nat) : Engine :=
  let cl := (fieldsAt a).any (fun fa => fa.2 == .w1c && v / 2 ^ fa.1.lo % 2 ^ fa.1.width != 0)
  e.laterAll ((if cl then [(clearFld a, v)] else []) ++ [(wordFld a, v)])

/-- The block lies in an island that is in retention in STANDBY (R443): all but HST, TIM, EVT, IRQ, CNT, SEC and PWR. -/
def retained (b : Nat) : Bool := !(([1, 2, 13, 14, 15, 19, 21] : List Nat).contains b)

/-- A write of `v` to the aligned word `a` of BAR0. Staged fields take their staged values at once, for context 0 where no context holds
the stage lock (R5, R57; assumption 46), less what belongs to the Keep layer (R12, R122); a change of a SEQ enable asks for the swap of
its list (R210). The other fields wait for the boundary of R9, or act as their chapter says (R373); in STANDBY a block in retention
waits (R9). A value outside the range that a register's table gives is stored as it is: HST_CMDTMO.MS 0, HST_PTM_CTL.PERIOD_MS 0 and the like,
for which no rule gives an effect of the write (DESIGN CHOICE; assumption 120). -/
def writeReg (e : Engine) (a v : Nat) : Engine :=
  if a = 0xE20000 + 16 * 258 then e
  else if ctrlWord a ∧ e.reg Reg.HST_CTL_EN = 1 then
    (if (fieldsAt a).isEmpty then e else e.raiseBit Reg.HST_ERRSTAT_CFGLOCK)
  else
    let blk := blockOfAddr a
    let ws := (((fieldsAt a).filter (fun fa => fa.2 == .st)).map (fun fa => (fa.1, v / 2 ^ fa.1.lo % 2 ^ fa.1.width))).filter
      (fun w => !keepChange e w.1 w.2)
    let marks := ([0, 1] : List Nat).flatMap (fun l => if ws.any (fun w => w.1 == Reg.SEQ_LCTL_EN l) then [(seqMark l, 1)] else [])
    let e1 : Engine := if ws.isEmpty then e else Engine.takeLock { e with staged := e.staged.puts (ws ++ marks) } blk 0
    let open9 := (fieldsAt a).any (fun fa => fa.2 == .rw || fa.2 == .w1c || fa.2 == .w1s)
    if e.st = stStandby ∧ retained blk then (if open9 || (actsAtOnce a).isSome then e1.laterWord a v else e1)
    else if (actsAtOnce a).isSome ∨ blk = 17 ∨ blk = 18 then writeWord e1 a v
    else if open9 then e1.laterWord a v
    else e1

/-- A write to a word of BAR4: the MSI-X table. Unmasking a vector sends what waits for it (R36, R337). -/
def writeMsix (e : Engine) (a v : Nat) : Engine :=
  if 0x8000 ≤ a then e
  else
    let f := msixFld (a / 16) (a % 16 / 4)
    irqUpdate false (Engine.flushPba { e with host := { e.host with msix := e.host.msix.put f (if a % 16 = 12 then v % 2 else v) } })

/-- A write of `size` bytes to a BAR (R3, R4, R37). -/
def barWrite (bar off size val : Nat) (e : Engine) : Engine :=
  if bar = 0 ∧ off < 2 ^ 25 then
    if !accessOk off size then badAccess e off
    else if size = 4 then writeReg e off (val % 2 ^ 32)
    else writeReg (writeReg e off (val % 2 ^ 32)) (off + 4) (val / 2 ^ 32 % 2 ^ 32)
  else if bar = 2 then doorbell off size val e
  else if bar = 4 ∧ off < 2 ^ 16 ∧ accessOk off size then
    if size = 4 then writeMsix e off (val % 2 ^ 32)
    else writeMsix (writeMsix e off (val % 2 ^ 32)) (off + 4) (val / 2 ^ 32 % 2 ^ 32)
  else e

/-- REGISTER_WRITE: a write of a BAR (R3 to R9, R70). The unit in OFF takes none. -/
def execRegisterWrite (bar off size val : Nat) (s : State) : Host.Outcome State Fault Refusal :=
  if s.eng.st = stOff then .next s else .next { s with eng := barWrite bar off size val s.eng }

end Sys2Proof.Machine
end

