-- ==== Sys2Proof/Machine/Check.lean ====
section
/-! DEFINITION. The consistency checker: which block refuses a captured set, by its detail in ST_INCONS (R8, R56, R81, R91, R97,
R106, R107, R120, R158, R163, R194, R209, R226, R230, R255, R309 to R311). -/

namespace Sys2Proof.Machine

/-- The test of block `b`'s checker on set `t` (R56): true where it accepts, and where the block has none. -/
def blockOk (e : Engine) (t : Tab) (b : Nat) : Bool :=
  if b = 2 then timCheck e t
  else if b = 3 then lnkCheck t
  else if b = 4 then mapCheck t
  else if b = 5 then domCheck t
  else if b = 6 then e.reg Reg.OUT_KSTAT_BUNDLE == 0 || keepCheck t
  else if b = 7 then objCheck t
  else if b = 8 then seqCheck t
  else if b = 9 then mnuCheck t
  else if b = 10 then belCheck t
  else if b = 11 then sprCheck e t
  else if b = 16 then decide (8 ≤ t.fld Reg.MEM_CAPCFG_LOGSZ) && decide (t.fld Reg.MEM_CAPCFG_LOGSZ ≤ 120)
  else if b = 20 then tdmCheck t
  else if b = 22 then nimoutCheck t && historyCheck t
  else true

/-- The map geometry differs between two sets. -/
def geomDiffers (t u : Tab) : Bool := mapCols t != mapCols u || mapRows t != mapRows u

/-- The definitions of the map sources differ between two sets. -/
def sourcesDiffer (t u : Tab) : Bool := (List.range 32).any (fun m => srcKind t m != srcKind u m || srcW t m != srcW u m || srcH t m != srcH u m)

/-- The blocks whose checkers rule on a commit of blocks `bs` that makes set `t` active: those it captures; and those it does not capture
whose test it makes fail: DOM, OBJ and KEEP where the geometry changes (R120, R163), DOM where the map sources do (R158); LNK where the
bunch frequency changes (R107); MAP where the slot tables change (R128); MNU where the interleave or the conditions in use change
(R226, R311); the release-point table where a term changes (R89). -/
def checkedBlocks (e : Engine) (bs : List Nat) (t : Tab) : List Nat :=
  let geom := geomDiffers e.active t
  (List.range 23).filter (fun b => bs.contains b
    || (geom && (b == 5 || b == 6 || b == 7))
    || (b == 5 && bs.contains 4 && sourcesDiffer e.active t && !domCheck t)
    || (b == 3 && e.active.fld Reg.TIM_FNOM_KHZ != t.fld Reg.TIM_FNOM_KHZ && !lanesFit t)
    || (b == 4 && bs.contains 3 && slotsDiffer e.active t && !mapRuns t)
    || (b == 9 && (interleave e.active != interleave t || bs.contains 22) && !mnuCheck t)
    || (b == 2 && terms e.active != terms t && !releaseCheck t))

/-- The commit of blocks `bs` changes the clock set, or TRX, together with other blocks (R81, R97). -/
def clockMixed (e : Engine) (bs : List Nat) (t : Tab) : Bool :=
  (clockDiffers e.active t && bs.any (· != 2))
    || (e.active.fld Reg.LNK_CTL_TRX != t.fld Reg.LNK_CTL_TRX && bs.any (· != 3))

/-- Set `t` with what a pending commit makes active: the captured values of its blocks in place of theirs, or a bundle's items (R8,
R171). -/
def withPend (e : Engine) (t : Tab) (p : Pend) : Tab :=
  if p.object = 1 then ((bundleOf e.sec.bundleDue).map (putBundle t)).getD t
  else if p.object = 2 then t
  else Tab.swapBlocks p.blocks t p.set

/-- The set that a pending commit makes active by itself. -/
def mergedSet (e : Engine) (p : Pend) : Tab := withPend e e.active p

/-- What the checker says of a pending commit where set `t` becomes active: the detail of ST_INCONS, the first block, by code, that refuses, or none. A
bundle is tested with the host's LNK and MAP sets (R163); a bitstream's header was tested when it was verified, and again against the
ports assigned now (R309). -/
def checkIn (e : Engine) (t : Tab) (p : Pend) : Option Nat :=
  if p.object = 1 then
    (([6, 3, 4] : List Nat).find? (fun b => !(if b = 6 then keepCheck t else blockOk e t b)))
  else if p.object = 2 then (if bitsOk t e.sec.bitsDue then none else some 12)
  else if clockMixed e p.blocks (mergedSet e p) then some 2
  else (checkedBlocks e p.blocks t).find? (fun b => !blockOk e t b)

/-- What the checker says of a pending commit that becomes active by itself. -/
def checkPend (e : Engine) (p : Pend) : Option Nat := checkIn e (mergedSet e p) p

/-- The ruling on commits that become active at one crossing: each is tested in the set that they make active together; one that is refused
leaves it, and the others are tested again (R56, R128, R135, R158; assumption 69). The fuel is the number of commits. -/
def refusals (e : Engine) : Nat → List Pend → List (Nat × Nat)
  | 0, _ => []
  | k + 1, ps =>
    let t := ps.foldl (withPend e) e.active
    match ps.find? (fun p => (checkIn e t p).isSome) with
    | none => []
    | some p => (p.uid, (checkIn e t p).getD 0) :: refusals e k (ps.filter (fun q => q.uid != p.uid))

end Sys2Proof.Machine
end

