-- ==== Sys2Proof/Machine/Commit.lean ====
section
/-! DEFINITION. A pending commit becomes active, or is refused (R8, R56, R59, R80, R81, R135, R171, R177 to R181, R199, R210, R245,
R246, R262, R264, R309, R310, R364, R370). -/

namespace Sys2Proof.Machine

/-- The commit leaves the queue. -/
def removePend (e : Engine) (p : Pend) : Engine :=
  { e with host := { e.host with pends := e.host.pends.filter (fun q => q.uid != p.uid) } }

/-- Input 258 listens as OUT_HFRZ says, and shows it (R315). -/
def showFreezeInput (e : Engine) : Engine :=
  let ws : List (Fld × Nat) := [(Reg.EVT_CSUB_EN 258, e.act Reg.OUT_HFRZ_EVEN), (Reg.EVT_CSUB_CH 258, e.act Reg.OUT_HFRZ_CH)]
  { e with regs := e.regs.puts ws }

/-- The anchors of the sprites that a commit moves (R199): at its crossing number; at a free value while TIM is unlocked, where the
commit has no crossing (R80; assumption 40), as SEQ_LSWAP does; at the next lock where the orbit length changes. -/
def anchorCommit (old : Tab) (c : Option Nat) (e : Engine) : Engine :=
  let e1 := match c with
    | some n => reanchor old n e
    | none => let (v, a) := e.freeVal; reanchor old v a
  if orbitLen old = orbitLen e.active then e1 else { e1 with regs := e1.regs.put (tabFld tAnchor 64 1 0) 1 }

/-- What the history ring does at a commit: emptied where its entries change (R178); a trigger of FREEZE_HISTORY at the commit's
crossing; RUN again after RELEASE_HISTORY (R179). -/
def historyCommit (old : Tab) (object : Nat) (c : Option Nat) (e : Engine) : Engine :=
  let moved := geomDiffers old e.active || histDepth old 0 != histDepth e.active 0 || histDepth old 1 != histDepth e.active 1
    || old.fld Reg.OUT_HDEC_DEC != e.active.fld Reg.OUT_HDEC_DEC
  let e1 := if moved then histReset e else e
  if object = 4 then histTrigger e1 4 ((c.map (stampOf (orbitLen e1.active))).getD 0) e1.tim.bc
  else if object = 5 ∧ e1.reg Reg.OUT_HSTAT_STATE = 3 then e1.setReg Reg.OUT_HSTAT_STATE 1
  else e1

/-- What follows at once from a changed active set, block by block. `c`: the crossing number from which it governs, none while TIM
is unlocked. -/
def followCommit (old : Tab) (p : Pend) (c : Option Nat) (e : Engine) : Engine :=
  let bs := p.blocks
  let geom := geomDiffers old e.active
  let e1 := if bs.contains 4 then commitMasks old p.masks e else e
  let e2 := if bs.contains 3 then mapStatus (lanesCommitted old e1) else e1
  let e3 := if bs.contains 7 || geom || orbitLen old != orbitLen e.active then anchorCommit old c e2 else e2
  let e4 := if !bs.contains 8 then e3
    else match c with
      | some n => seqSwap (n / orbitLen old % 2 ^ 50) e3
      | none => let (v, a) := e3.freeVal; seqSwap (v % 2 ^ 50) a
  let e5 := if old.range (tabBase tProg) (tabBase (tProg + 1)) != e4.active.range (tabBase tProg) (tabBase (tProg + 1)) then
      { e4 with mem := { e4.mem with bank := 1 - e4.mem.bank } }
    else e4
  let e6 := if bs.contains 11 then sprCommitted (c.getD 0) e5 else e5
  let e7 := if old.fld Reg.MEM_CAPCFG_LOGSZ != e6.active.fld Reg.MEM_CAPCFG_LOGSZ then captureEmpty e6 else e6
  let e8 := historyCommit old p.object c e7
  let e9 := if bs.contains 20 then tdmCommitted e8 else e8
  let e10 : Engine := if orbitLen old = orbitLen e9.active then e9 else { e9 with fin := { e9.fin with accs := [] } }
  showRelease (showFreezeInput (setupCounts (psCommit e10).latencyRegs))

/-- The captured set becomes active, and staged copies returned to the active values since then follow (R211); every Oculus window becomes the full map where the geometry changes (R177), and the
blocks follow. -/
def applySet (p : Pend) (c : Option Nat) (e : Engine) : Engine :=
  let old := e.active
  let new := mergedSet e p
  let geom := geomDiffers old new
  let stg := Tab.follow p.follow old new e.staged
  let e1 : Engine := { e with active := if geom then fullWindows new else new, staged := if geom then fullWindows stg else stg }
  followCommit old p c e1

/-- The object of a commit becomes active: a bundle, whose lanes and masks follow (R171), or a bitstream (R309). -/
def applyObject (p : Pend) (e : Engine) : Engine :=
  if p.object = 1 then
    let e1 := installBundle e e.sec.bundleDue
    lanesCommitted e.active { e1 with sec := { e1.sec with bundleDue := [] } }
  else
    let e1 := installBits e e.sec.bitsDue
    { e1 with sec := { e1.sec with bitsDue := [] } }

/-- The commit `p` becomes active, for crossing number `c` and later, or at once where there is none; `cx` is the crossing its
completion carries. Where frames go on (`live`) a BEL commit with changed crosspoints of fed inputs stays pending until they have switched (R245, R246). -/
def commitTo (p : Pend) (c : Option Nat) (live : Bool) (cx : Nat) (e : Engine) : Engine :=
  let old := e.active
  let e0 := removePend e p
  let e1 := if p.object = 1 ∨ p.object = 2 then applyObject p e0 else applySet p c e0
  let e2 := journalSync (match c with
    | some n => keepBank old n e1
    | none => e1)
  let e3 := if !p.blocks.contains 10 then e2 else belPower (if live then deferGains old (c.getD 0) e2 else e2)
  if p.blocks.contains 10 ∧ !e3.bel.waits.isEmpty then
    { e3 with host := { e3.host with pends := e3.host.pends ++ [{ p with blocks := [10], waiting := true, named := c }] } }
  else
    let e4 := if p.blocks.contains 10 then e3.setReg Reg.BEL_STAT_PEND 0 else e3
    e4.completeAt p.ring p.tag p.notify .ok cx

/-- COMMIT_ACTIVATE of one pending commit on which the checker has ruled: `bad` is the detail with which it refuses (R8, R59). -/
def activate (p : Pend) (bad : Option Nat) (c : Option Nat) (e : Engine) : Engine :=
  let cx := (c.map (cxField (orbitLen e.active))).getD 0
  match bad with
  | some d => dropPend e p (.incons d) cx
  | none => commitTo p c (c.isSome && e.running) cx e

/-- A change of the clock set made while TIM is unlocked: acquisition starts again under it (R76, R80; assumption 41). -/
def clockChanged (p : Pend) (old : Tab) (e : Engine) : Engine :=
  if p.clock && clockDiffers old e.active then restartAcq e else e

/-- The pending commits that are due: all of them while TIM is unlocked (R80); while it is locked, those whose named crossing is created now
or has been, but for those that wait for a relock (R59). -/
def duePends (e : Engine) : List Pend :=
  let d := createDelay e.active
  e.host.pends.filter (fun p => !p.waiting && (!e.locked || (!p.relock && p.named.all (fun n => decide (n + d ≤ e.counted)))))

/-- The pending commits that are due become active or are refused, in the order of their acceptance (R59, R80). -/
def commitDue (e : Engine) : Engine :=
  let ps := duePends e
  let bad := refusals e ps.length ps
  ps.foldl (fun a p =>
    let r := (bad.find? (fun x => x.1 == p.uid)).map (·.2)
    if a.locked then activate p r (some (a.counted - createDelay a.active)) a
    else clockChanged p a.active (activate p r none a)) e

/-- COMMIT_ACTIVATE (R59, R80). A tick activates the commits of its own crossing itself. -/
def execCommitActivate (s : State) : Host.Outcome State Fault Refusal := .next { s with eng := commitDue s.eng }

/-- The commit that takes effect by a planned relock at the orbit boundary which starts counted crossing `k`: the first whose
named crossing is `k` or earlier (R81, R262). -/
def relockDue (k : Nat) (e : Engine) : Option Pend :=
  e.host.pends.find? (fun p => p.relock && !p.waiting && p.named.all (fun n => decide (n ≤ k)))

/-- PLANNED_RELOCK (R81, R262): at the boundary that starts crossing `k` the checker rules; where it accepts, lock is lost with
cause bit 7, and the commit becomes active with that crossing in its completion. -/
def plannedRelock (k : Nat) (p : Pend) (e : Engine) : Engine :=
  let cx := cxField (orbitLen e.active) k
  match checkPend e p with
  | some d => dropPend e p (.incons d) cx
  | none => commitTo p (some k) false cx (lockLost 128 k true (removePend e p))

end Sys2Proof.Machine
end

