-- ==== Sys2Proof/Machine/Common.lean ====
section
/-! DEFINITION. The common functions of Table 2.10: QUERY, COMMIT, DISCARD and READ_ACTIVE of every block except KEEP (R16, R56, R57,
R65). -/

namespace Sys2Proof.Machine

/-- A common function of block `blk`. -/
def fnCommon (blk fn : Nat) (align : Packet → Option Nat) : Fn := { op := 256 * blk + fn, kind := .common, align := align, inFault := fn == 0 }

/-- The status of a command that addresses KEEP and is no bundle: R53 tests the header's bits and its context before the right, and nothing
of the function counts (R16, R53). -/
def keepRefusal (p : Packet) : Status :=
  if 32 ≤ p.flags ∨ p.reserved ≠ 0 then .badop else if p.ctx ≠ p.ring / 256 then .owner (p.ring / 256) else .perm 5

/-- Run a common function: an undefined block code is refused (R11), KEEP has none of them (R16, R65). -/
def runCommon (blk : Nat) (f : Fn) (act : Engine → Packet → Engine) (p : Packet) (e : Engine) : Engine :=
  if blk = 0 ∨ 22 < blk then e.complete p .badop
  else if blk = 6 then e.complete p (keepRefusal p)
  else runAction f (fun _ _ => none) act p e

/-- Arguments 0 and 1 of QUERY and READ_ACTIVE are the host buffer's address, 8-byte aligned, and argument 2 is its length (DESIGN CHOICE:
R65 names 'a host buffer named in the arguments' and gives neither the words nor an alignment; they are those of QUERY of LNK and of
the functions that write buffers; assumption 35). -/
def hostBuf (p : Packet) : Option Nat := if p.arg 0 % 8 = 0 then none else some 8

/-- The buffer that QUERY of LNK writes (Table 4.8, chapter 4): 4,864 bytes. -/
def lnkQuery (e : Engine) : List Byte :=
  (List.range 144).flatMap (fun l => leBytes 1 (e.laneState l)) ++ List.replicate 112 0
    ++ (List.range 1152).flatMap (fun q =>
      leBytes 4 (e.reg (Reg.LNK_SSKEW_MIN q) + 256 * e.reg (Reg.LNK_SSKEW_MAX q) + 2 ^ 31 * e.reg (Reg.LNK_SSKEW_VALID q)))

/-- The crossing that the pending commit of block `blk` names, plus 1; 0 where none is pending. -/
def pendingCrossing (e : Engine) (blk : Nat) : Nat :=
  match e.host.pends.find? (fun p => p.blocks.contains blk) with
  | some p => (p.named.map (fun n => n + 1)).getD 0
  | none => 0

/-- What QUERY of another block reports: its fields that are not staged, the drop counts of the rings, and the pending-commit crossing. The
source gives it no layout (assumption 35). -/
def queryBytes (e : Engine) (blk : Nat) (p : Packet) : List Byte :=
  if blk = 3 then lnkQuery e
  else Config.serialize blk p.target (p.arg 2)
    (Tab.ofBlocks [blk] e.regs ++ e.host.rings.map (fun r => (r.id, r.drops)) ++ [(blk, pendingCrossing e blk)])

/-- QUERY (R65). -/
def execQuery (blk : Nat) (p : Packet) (s : State) : Host.Outcome State Fault Refusal :=
  .next { s with eng := runCommon blk (fnCommon blk 0 hostBuf) (fun e p => e.post (p.arg64 0) (queryBytes e blk p)) p s.eng }

/-- COMMIT: no writes of its own; it commits every block in which the context holds staged changes (R56). -/
def execCommit (blk : Nat) (p : Packet) (s : State) : Host.Outcome State Fault Refusal :=
  .next { s with eng := runCommon blk (fnCommon blk 1 (fun _ => none)) (fun e _ => e) p s.eng }

/-- DISCARD: where the context holds the block's stage lock, its staged copies return to the active values and the lock ends; elsewhere it
has no staged copies in the block, and nothing changes (R57, Table 2.10). -/
def execDiscard (blk : Nat) (p : Packet) (s : State) : Host.Outcome State Fault Refusal :=
  let act : Engine → Packet → Engine := fun e p => if e.lockOf blk = p.ctx + 1 then e.discardBlock blk else e
  .next { s with eng := runCommon blk (fnCommon blk 2 (fun _ => none)) act p s.eng }

/-- READ_ACTIVE: active tables and fields go to a host buffer; the source gives no layout (R65; assumption 35). -/
def execReadActive (blk : Nat) (p : Packet) (s : State) : Host.Outcome State Fault Refusal :=
  let act : Engine → Packet → Engine := fun e p =>
    e.post (p.arg64 0) (Config.serialize blk p.target (p.arg 2) (Tab.ofBlocks [blk] e.active ++ Tab.ofBlocks [blk] e.regs))
  .next { s with eng := runCommon blk (fnCommon blk 3 hostBuf) act p s.eng }

end Sys2Proof.Machine
end

