-- ==== Sys2Proof/Machine/Contexts.lean ====
section
/-! DEFINITION. The HST functions: contexts, rights, resources, rings, streams, PTM_SAMPLE (R38 to R44, R65, R67, R69). The source gives
the arguments of CREATE_RING and the target of CLOSE_CTX; those of the others are the model's (assumption 47). -/

namespace Sys2Proof.Machine

/-- Context 0 alone may issue the function (R41; assumption 47). -/
def ctx0Only (_ : Engine) (p : Packet) : Option Nat := if p.ctx = 0 then none else some 0

/-- The target is an open context other than 0. -/
def otherOpen (e : Engine) (c : Nat) : Bool := decide (0 < c) && decide (c < 1024) && e.ctxOpen c

/-! ### Contexts and rights (R39, R41) -/

/-- OPEN_CTX. -/
def fnOpenCtx : Fn :=
  { op := 0x0110, kind := .action, owner := ctx0Only
    range := fun e p => firstBad [(decide (0 < p.target) && decide (p.target < 1024) && !e.ctxOpen p.target, 7)] }

/-- OPEN_CTX: a context that holds the ASSIGNED right only, and no resources (R41). -/
def actOpenCtx (e : Engine) (p : Packet) : Engine := { e with host := { e.host with ctxs := e.host.ctxs.set p.target 1 } }

/-- OPEN_CTX (R41). -/
def execOpenCtx (p : Packet) (s : State) : Host.Outcome State Fault Refusal :=
  .next { s with eng := runAction fnOpenCtx noExtra actOpenCtx p s.eng }

/-- GRANT and REVOKE name a right in argument 0: 1 EXPERT, 2 STREAM, 3 STATE, 4 SECURE. -/
def rightRange (e : Engine) (p : Packet) : Option Nat :=
  firstBad [(otherOpen e p.target, 7), (decide (1 ≤ p.arg 0) && decide (p.arg 0 ≤ 4), 8)]

/-- GRANT. -/
def fnGrant : Fn := { op := 0x0112, kind := .action, owner := ctx0Only, range := rightRange }

/-- REVOKE. -/
def fnRevoke : Fn := { op := 0x0113, kind := .action, owner := ctx0Only, range := rightRange }

/-- Give a context a right, or take it away. -/
def setRight (on : Bool) (e : Engine) (p : Packet) : Engine :=
  let m := e.host.ctxs.get p.target - 1
  let b := 2 ^ (p.arg 0 - 1)
  { e with host := { e.host with ctxs := e.host.ctxs.set p.target (1 + (if on then Nat.lor m b else m - Nat.land m b)) } }

/-- GRANT (R39). -/
def execGrant (p : Packet) (s : State) : Host.Outcome State Fault Refusal :=
  .next { s with eng := runAction fnGrant noExtra (setRight true) p s.eng }

/-- REVOKE (R39). -/
def execRevoke (p : Packet) (s : State) : Host.Outcome State Fault Refusal :=
  .next { s with eng := runAction fnRevoke noExtra (setRight false) p s.eng }

/-! ### Resources (R40) -/

/-- The owner registers of a resource (Table 15.8). -/
def ownerFields (kind i : Nat) : List Fld :=
  if kind = 7 then [Reg.EVT_KOWN_CTX i]
  else if kind = 4 then [Reg.EVT_SOWN_CTX (640 + 2 * i), Reg.EVT_SOWN_CTX (641 + 2 * i)]
  else if kind = 5 then [Reg.EVT_SOWN_CTX (304 + 2 * i), Reg.EVT_SOWN_CTX (305 + 2 * i)]
  else if kind = 6 then [Reg.EVT_SOWN_CTX (512 + 2 * i), Reg.EVT_SOWN_CTX (513 + 2 * i)] else []

/-- Move a resource to context `c`. -/
def moveResource (c : Nat) (e : Engine) (kind i : Nat) : Engine :=
  { e with host := { e.host with owners := e.host.owners.set (resKey kind i) c }
           regs := e.regs.puts ((ownerFields kind i).map (fun f => (f, c))) }

/-- ASSIGN: target a context, argument 0 the kind of resource (assumption 18), argument 1 its index. -/
def fnAssign : Fn :=
  { op := 0x0114, kind := .action, owner := ctx0Only
    range := fun e p => firstBad [(p.target == 0 || otherOpen e p.target, 7), (decide (p.arg 0 < 8), 8),
      (decide (p.arg 1 < resCount (p.arg 0)), 9)] }

/-- A CASCADE link would join counters of two contexts, neither of them context 0 (R351). -/
def assignCascade (e : Engine) (p : Packet) : Option Status :=
  let n := p.arg 1
  let casc : Nat → Bool := fun m => decide (m < 64) && e.reg (Reg.CNT_CFG_SRC m) == srcCascade
  if p.arg 0 = 6 ∧ ((casc n && foreign p.target (e.ownerOf 6 (n - 1))) || (casc (n + 1) && foreign p.target (e.ownerOf 6 (n + 1)))) then
    some (.busy 0x0F) else none

/-- ASSIGN (R40, R320, R351). -/
def execAssign (p : Packet) (s : State) : Host.Outcome State Fault Refusal :=
  let e1 := runAction fnAssign assignCascade (fun e p => pruneRoutes (moveResource p.target e (p.arg 0) (p.arg 1))) p s.eng
  .next { s with eng := e1 }

/-! ### Closing a context (R41) -/

/-- CLOSE_CTX. -/
def fnCloseCtx : Fn :=
  { op := 0x0111, kind := .action, owner := ctx0Only, range := fun e p => firstBad [(otherOpen e p.target, 7)] }

/-- The resources that context `c` owns: kind and index. -/
def ownedBy (e : Engine) (c : Nat) : List (Nat × Nat) :=
  (e.host.owners.filter (fun kv => kv.2 == c)).map (fun kv => (kv.1 / 2 ^ 16, kv.1 % 2 ^ 16))

/-- The windows of the contexts that `p` picks move to context 0; so do those that a waiting write is about to give them (R41, R356). -/
def freeWindows (p : Nat → Bool) (e : Engine) : Engine :=
  let wins := (List.range 16).map (fun w => winFld w 2)
  { e with regs := e.regs.puts ((wins.filter (fun f => p (e.reg f))).map (fun f => (f, 0)))
           r9 := e.r9.map (fun w => if wins.contains w.1 && p w.2 then (w.1, 0) else w) }

/-- The commits that `p` picks stay pending; their context is closed, so that no refusal gives it a stage lock (R38, R41). -/
def closePends (p : Pend → Bool) (e : Engine) : Engine :=
  { e with host := { e.host with pends := e.host.pends.map (fun q => if p q then { q with ctx := closedCtx } else q) } }

/-- The commits of some contexts that wait for AC are not accepted: they go with their context (R38, R41, R370). -/
def dropHeldCommits (p : Nat → Bool) (e : Engine) : Engine :=
  { e with pwr := { e.pwr with unrecorded := e.pwr.unrecorded.filter (fun u => !p u.p.ctx) } }

/-- Close context `c`, in the order of R41. -/
def closeCtx (c : Nat) (e : Engine) : Engine :=
  let mine := e.host.rings.filter (fun r => r.id / 256 == c)
  let e0 := dropHeldCommits (fun q => q == c) e
  let e1 := closePends (fun q => q.ctx == c) (orphan (fun r _ => r != noRing && r / 256 == c) e0)
  let e2 := (e1.lockedBlocks c).foldl (fun a b => a.discardBlock b) e1
  let e3 := putXfers e2 (e2.sec.xfers.filter (fun x => x.ctx != c))
  let owned := ownedBy e3 c
  let e4 := owned.foldl (fun a r => if r.1 = 4 then chainStop a r.2 else if r.1 = 5 then bltAbort a r.2 else a) e3
  let e5 := mine.foldl removeRing e4
  let e6 := owned.foldl (fun a r => moveResource 0 a r.1 r.2) e5
  let e7 := freeWindows (fun o => o == c) e6
  { e7 with host := { e7.host with ctxs := e7.host.ctxs.set c 0 } }

/-- CLOSE_CTX (R41). -/
def execCloseCtx (p : Packet) (s : State) : Host.Outcome State Fault Refusal :=
  .next { s with eng := runAction fnCloseCtx noExtra (fun e p => closeCtx p.target e) p s.eng }

/-! ### Creating and destroying rings (R42 to R44) -/

/-- Fields of argument word 0 of CREATE_RING. -/
def crType (p : Packet) : Nat := bits (p.arg 0) 9 8

/-- The context of the new ring: on the Control ring the target instance names it, elsewhere it is the issuing context (R43;
assumption 47). -/
def crCtx (p : Packet) : Nat := if p.ring = 0 then p.target else p.ctx

/-- The new ring's ID. -/
def crId (p : Packet) : Nat := 256 * crCtx p + p.arg 0 % 256

/-- The bound ring exists and is of type CPL. -/
def crBound (e : Engine) (p : Packet) : Bool := (e.ring? (256 * crCtx p + p.arg 4)).any (fun r => r.typ == 1)

/-- CREATE_RING (R44). -/
def fnCreateRing : Fn :=
  { op := 0x0115, kind := .action
    right := fun p => if crType p = 2 then rightStream else 0
    range := fun e p =>
      let k := bits (p.arg 0) 20 16
      let cmd := crType p == 0
      firstBad [(decide (crCtx p < 1024) && e.ctxOpen (crCtx p), 7),
        (within 0x011F03FF (p.arg 0) && (e.ring? (crId p)).isNone && decide (4 ≤ k) && decide (k ≤ 16)
          && (!tbit (p.arg 0) 24 || crType p == 2) && decide (1 < crId p), 8),
        (decide (p.arg 3 < 2048), 11),
        (if cmd then decide (p.arg 4 < 256) && crBound e p else p.arg 4 == 0, 12),
        (cmd || p.arg 5 == 0, 13), (cmd || p.arg 6 == 0, 14),
        (if crType p = 2 then decide (1 ≤ p.arg 7) && decide (p.arg 7 ≤ 4) else p.arg 7 == 0, 15)]
    align := fun p => if p.arg 1 % 4096 ≠ 0 then some 9 else if p.arg 5 % 8 ≠ 0 then some 13 else none }

/-- The ring that CREATE_RING makes. -/
def newRing (p : Packet) : Ring :=
  { id := crId p, typ := crType p, k := bits (p.arg 0) 20 16, base := p.arg64 1, vec := p.arg 3, cpl := 256 * crCtx p + p.arg 4,
    head := p.arg64 5, kind := p.arg 7, intr := tbit (p.arg 0) 24, prod := 0, cons := 0, fault := false, drops := 0, stopped := false,
    lost := false, armed := true, fence := false, need := 0 }

/-- CREATE_RING adds the ring. -/
def actCreateRing (e : Engine) (p : Packet) : Engine := { e with host := { e.host with rings := insertRing (newRing p) e.host.rings } }

/-- CREATE_RING (R44). -/
def execCreateRing (p : Packet) (s : State) : Host.Outcome State Fault Refusal :=
  .next { s with eng := runAction fnCreateRing noExtra actCreateRing p s.eng }

/-- DESTROY_RING: the target is a ring other than the Control rings (assumption 47). -/
def fnDestroyRing : Fn :=
  { op := 0x0116, kind := .action
    owner := fun _ p => if p.ctx = 0 ∨ p.target / 256 = p.ctx then none else some (p.target / 256)
    range := fun e p => firstBad [(decide (1 < p.target) && (e.ring? p.target).isSome, 7)] }

/-- Commands of a CMD ring that have started complete with ST_ABORTED as the ring goes (Table 2.7); the one of packet `p` does not. -/
def abortStarted (id : Nat) (p : Packet) (e : Engine) : Engine :=
  (e.host.started.filter (fun q => q.ring == id && !(q.ring == p.ring && q.tag == p.tag))).foldl
    (fun a q => a.completeAt q.ring q.tag q.notify .aborted a.cxNow) e

/-- DESTROY_RING: the ring goes once its own completion is written, where it is the ring the command came from (R43, R47). -/
def actDestroyRing (e : Engine) (p : Packet) : Engine :=
  let e1 := (abortStarted p.target p e).complete p .ok
  match e1.ring? p.target with
  | some r => removeRing e1 r
  | none => e1

/-- DESTROY_RING (R43, R47, R175, R195, R327). -/
def execDestroyRing (p : Packet) (s : State) : Host.Outcome State Fault Refusal :=
  .next { s with eng := runAsync fnDestroyRing noExtra actDestroyRing p s.eng }

/-! ### Streams and time (R67, R69) -/

/-- The target of STOP_STREAMS and RESUME_STREAMS: a context, or all of them for context 0. -/
def streamOwner (_ : Engine) (p : Packet) : Option Nat := if p.ctx = 0 ∨ p.target = p.ctx then none else some (p.target % 256)

/-- See `streamOwner`. -/
def streamRange (_ : Engine) (p : Packet) : Option Nat := firstBad [(decide (p.target < 1024) || p.target == allInstances, 7)]

/-- STOP_STREAMS. -/
def fnStopStreams : Fn := { op := 0x0117, kind := .action, owner := streamOwner, range := streamRange }

/-- RESUME_STREAMS. -/
def fnResumeStreams : Fn := { op := 0x0118, kind := .action, owner := streamOwner, range := streamRange }

/-- STOP_STREAMS (R67). -/
def execStopStreams (p : Packet) (s : State) : Host.Outcome State Fault Refusal :=
  let act : Engine → Packet → Engine := fun e p =>
    stopRings (fun c => p.target == allInstances || c == p.target) (if p.target = allInstances then e.reg Reg.HST_STOPSTAT_CTX else p.target) e
  .next { s with eng := runAction fnStopStreams noExtra act p s.eng }

/-- RESUME_STREAMS (R67). -/
def execResumeStreams (p : Packet) (s : State) : Host.Outcome State Fault Refusal :=
  let act : Engine → Packet → Engine := fun e p => resumeRings (fun c => p.target == allInstances || c == p.target) e
  .next { s with eng := runAction fnResumeStreams noExtra act p s.eng }

/-- PTM_SAMPLE: arguments 0 and 1 a host buffer, 8-byte aligned. -/
def fnPtmSample : Fn := { op := 0x0119, kind := .action, align := fun p => if p.arg 0 % 8 = 0 then none else some 8 }

/-- The four words of R69. -/
def ptmBytes (e : Engine) : List Byte :=
  leBytes 4 (e.reg Reg.HST_PTM_ORB_LO_ORB) ++ leBytes 4 (e.reg Reg.HST_PTM_ORB_HI_ORB) ++ leBytes 4 (e.reg Reg.HST_PTM_TIME_LO_T)
    ++ leBytes 4 (e.reg Reg.HST_PTM_TIME_HI_T)

/-- PTM_SAMPLE (R69). -/
def execPtmSample (p : Packet) (s : State) : Host.Outcome State Fault Refusal :=
  .next { s with eng := runAction fnPtmSample noExtra (fun e p => e.post (p.arg64 0) (ptmBytes e)) p s.eng }

/-- PTM_EXCHANGE: an exchange with the root port ends; `time` is the local PTM time, kept with 2 ns resolution (R68). -/
def execPtmExchange (ok : Bool) (time : Nat) (s : State) : Host.Outcome State Fault Refusal :=
  let e := s.eng
  if e.reg Reg.HST_PTM_CTL_EN = 0 then .next s
  else
    let host : HostSt := if ok then { e.host with ptmSeen := true, ptmFails := 0, ptmTime := time / 2 * 2 % 2 ^ 64, ptmBc := e.tim.bc }
      else { e.host with ptmFails := e.host.ptmFails + 1 }
    .next { s with eng := ptmShow { e with host := host } }

/-! ### The link and the resets of the host interface (R35, R36, R38, R437) -/

/-- LINK_TRAIN (R35): both cable ports give x16, Port A alone x8, Port B alone none; at most Gen 4. The unit in OFF, or before step 6 of
the start-up, does not train (R437). -/
def execLinkTrain (portA portB : Bool) (gen : Nat) (s : State) : Host.Outcome State Fault Refusal :=
  let e := s.eng
  if e.st = stOff ∨ e.host.crs ∨ !portA ∨ gen = 0 then .next s
  else
    let ws : List (Fld × Nat) := [(Reg.HST_STATUS_LINKUP, 1), (Reg.HST_STATUS_WIDTH, if portB then 16 else 8), (Reg.HST_STATUS_GEN, min gen 4)]
    .next { s with eng := { e with regs := e.regs.puts ws } }

/-- Every HST register returns to its reset value (R38); HST_CMTLEAD shows the lead, which is what it is defined to show (R58). -/
def hstRegsReset (e : Engine) : Engine :=
  leadReg { e with regs := e.regs.filter (fun kv => decide (32 * 0x100000 ≤ kv.1))
                   r9 := e.r9.filter (fun w => decide (32 * 0x100000 ≤ w.1.key)) }

/-- Chains that run may not reach host memory any more (R38, R377). -/
def cutChains (e : Engine) : Engine := { e with mov := { e.mov with chans := e.mov.chans.map (fun c => { c with cut := true }) } }

/-- R38: contexts other than 0 are closed and own nothing, rings are destroyed, commands are abandoned, HST registers and stage locks are
cleared; staged copies and accepted commits stay (assumption 48). -/
def hostReset (msix : Bool) (e : Engine) : Engine :=
  let e0 := dropHeldCommits (fun _ => true) (cutChains e)
  let e1 := freeWindows (fun o => o != 0) (closePends (fun _ => true) (orphan (fun _ _ => true) e0))
  let e2 := e1.host.rings.foldl removeRing e1
  let owned := e2.host.owners.map (fun kv => (kv.1 / 2 ^ 16, kv.1 % 2 ^ 16))
  let e3 := putXfers (owned.foldl (fun a r => moveResource 0 a r.1 r.2) e2) []
  let host : HostSt := { e3.host with
    ctxs := [], locks := [], started := [], held := [], rr := 0, wait := [], used := 0, usedCtl := 0, frozen := [], draining := false
    ptmTime := 0, ptmBc := 0, ptmFails := 0, ptmSeen := false
    msix := if msix then [] else e3.host.msix
    pba := if msix then [] else e3.host.pba
    fnMask := if msix then false else e3.host.fnMask }
  let msgs := if msix then e3.evt.msgs.map (fun m => { m with masked := false }) else e3.evt.msgs
  hstRegsReset { e3 with host := host, evt := { e3.evt with msgs := msgs } }

/-- FUNCTION_LEVEL_RESET (R38). The MSI-X table returns to its reset value as PCIe has it (assumption 48). -/
def execFunctionLevelReset (s : State) : Host.Outcome State Fault Refusal :=
  if s.eng.st = stOff then .next s else .next { s with eng := hostReset true s.eng }

/-- PCIE_LINK_DOWN (R38). -/
def execPcieLinkDown (s : State) : Host.Outcome State Fault Refusal :=
  if s.eng.st = stOff then .next s
  else
    let e := hostReset true s.eng
    .next { s with eng := { e with host := { e.host with d3hot := false } } }

/-- D3HOT_ENTRY (R36, R38). -/
def execD3hotEntry (s : State) : Host.Outcome State Fault Refusal :=
  if s.eng.st = stOff ∨ s.eng.host.d3hot then .next s
  else
    let e := hostReset false s.eng
    .next { s with eng := { e with host := { e.host with d3hot := true } } }

/-- D3HOT_EXIT: the function is in D0 again (R36). -/
def execD3hotExit (s : State) : Host.Outcome State Fault Refusal :=
  .next { s with eng := { s.eng with host := { s.eng.host with d3hot := false } } }

/-- The capabilities of Table 2.1 (R36). What PCIe itself fixes of a capability's registers, the negotiated payload and read-request sizes and
the error log among them, is the standard's and not the spec's (assumption 119). -/
structure PcieCaps where
  functions : Nat
  d3hot : Bool
  msixVectors : Nat
  aerEcrc : Bool
  functionLevelReset : Bool
  tagBits : Nat
  outstandingReads : Nat
  payloadSizes : List Nat
  readRequestSizes : List Nat
  relaxedOrdering : Bool
  ptmRequester : Bool
  serialNumber : Bool
  /-- MSI, INTx, ASPM L0s, L1 and the L1 substates, SR-IOV, ATS, PRI, PASID, Resizable BAR. -/
  others : Bool
deriving DecidableEq, Repr

/-- See `PcieCaps`. -/
def pcieCaps : PcieCaps :=
  { functions := 1, d3hot := true, msixVectors := 2048, aerEcrc := true, functionLevelReset := true, tagBits := 10, outstandingReads := 512
    payloadSizes := [128, 256, 512], readRequestSizes := [128, 256, 512, 1024, 2048, 4096], relaxedOrdering := true, ptmRequester := true
    serialNumber := true, others := false }

/-- Vendor ID, Device ID, Revision ID (ID_DEVICE.STEP), class code, and the Device Serial Number, low word first (R13, R36). -/
def pcieIdentity : List Nat :=
  [0x1F3C, 0x4608, Config.idWord 0 / 2 ^ 8 % 2 ^ 8, 0x118000, Config.idWord 1 % 2 ^ 32, Config.idWord 2 % 2 ^ 32]

/-- CONFIGURATION_REQUEST: Configuration Request Retry Status from step 2 to the end of step 6, else served (R437): it may read the
identity (R36). -/
def execConfigurationRequest (s : State) : Host.Outcome State Fault Refusal :=
  let e := s.eng
  if e.st = stOff then .next s
  else
    let host : HostSt := if e.host.crs then { e.host with cfgAnswer := 2 } else { e.host with cfgAnswer := 1, cfgData := pcieIdentity }
    .next { s with eng := { e with host := host } }

end Sys2Proof.Machine
end

