-- ==== Sys2Proof/Machine/Inputs.lean ====
section
/-! DEFINITION. What comes in from the lanes and from the event fabric: LANE_FRAME_RECEIVE under the double-banked slot tables (R109 to
R112), and CONSUMER_ACTIVATION (R315, R319, R323, R324). -/

namespace Sys2Proof.Machine

/-- The slot tables that parse a frame whose frame crossing is `tl`: those of a pending commit that names a crossing no later, where its
checker accepts; else those that governed crossing `tl`. The checker is taken to have ruled from the acceptance on (DESIGN CHOICE: R112 gives
the crossing by which it has; a frame that comes before that is early whichever bank parses it; assumption 124). -/
def bankAt (e : Engine) (tl : Nat) : Tab :=
  let early : Pend → Bool := fun p => (p.object == 1 || (p.object == 0 && p.blocks.contains 3)) && !p.relock
    && p.named.any (fun c => decide (c ≤ tl)) && (checkPend e p).isNone
  match e.host.pends.find? early with
  | some p => mergedSet e p
  | none => match e.lnk.banks.find? (fun b => decide (tl < b.1)) with
    | some b => b.2
    | none => e.active

/-- LANE_FRAME_RECEIVE (R95 to R112): `gap` bits lie between the frame before and this one; `line` is the coding layer's blocks of the gap
and the frame, which it covers whole. -/
def execLaneFrameReceive (lane gap : Nat) (line : List LineBlock) (codeErrs fecCorr : Nat) (s : State) : Host.Outcome State Fault Refusal :=
  .next { s with eng := receiveFrame (bankAt s.eng) lane gap line codeErrs fecCorr s.eng }

/-- The task that an activation of input `c` starts (Table 15.2). -/
def inputTask (e : Engine) (c : Nat) : Engine :=
  if c = 256 then (if e.reg Reg.PWR_WAKE_EVENT = 1 then startWake e 3 else e)
  else if c = 257 then snapRequest e
  else if c = 258 then histTrigger e 3 e.stampNow e.tim.bc
  else if c = 264 ∨ c = 265 then bltTry e (c - 264)
  else if 512 ≤ c ∧ c ≤ 575 then
    (if e.reg (Reg.CNT_CFG_SRC (c - 512)) = 3 then
      { e with cnt := { e.cnt with acts := e.cnt.acts.set (c - 512) (e.cnt.acts.get (c - 512) + 1) } } else e)
  else chainStart e (c - 640)

/-- Input `c` is activated: the task starts and the activation is counted as taken; an input that is busy ignores it (R324), and input
258 counts it in OUT_HTLOST (R180), in STANDBY too. The unit in OFF has no input. -/
def activate1 (e : Engine) (c : Nat) : Engine :=
  if e.st = stOff ∨ (c = 256 ∧ e.st ≠ stStandby) then e
  else if c = 258 ∧ inputDown e c then e.bump Reg.OUT_HTLOST_COUNT
  else if inputDown e c ∨ inputBusy e c then busyInput e c
  else
    let e1 := inputTask e c
    if c = 258 ∧ e1.reg Reg.OUT_HTLOST_COUNT ≠ e.reg Reg.OUT_HTLOST_COUNT then e1 else e1.bump (Reg.EVT_CACT_COUNT c)

/-- CONSUMER_ACTIVATION: the sampling edge of input `c`. The events that reached it and pass its gate make one activation (R319, R323). -/
def execConsumerActivation (c : Nat) (s : State) : Host.Outcome State Fault Refusal :=
  let (e1, n) := takeInbox s.eng c
  if n = 0 ∨ !consumerListed c then .next { s with eng := e1 } else .next { s with eng := activate1 (mergeEvents e1 c n) c }

end Sys2Proof.Machine
end

