-- ==== Sys2Proof/Machine/Sched.lean ====
section
/-! DEFINITION. The command scheduler: which CMD ring is served, COMMAND_FETCH, the function of a command, and COMMAND_TIMEOUT (R11, R46,
R48, R50, R52 to R55, R59, R65). -/

namespace Sys2Proof.Machine

/-! ### The function table (R11, R65, Table 2.11) -/

/-- The functions of HST. -/
def runHst (fn : Nat) (p : Packet) (s : State) : Option (Host.Outcome State Fault Refusal) := match fn with
  | 0x10 => some (execOpenCtx p s)
  | 0x11 => some (execCloseCtx p s)
  | 0x12 => some (execGrant p s)
  | 0x13 => some (execRevoke p s)
  | 0x14 => some (execAssign p s)
  | 0x15 => some (execCreateRing p s)
  | 0x16 => some (execDestroyRing p s)
  | 0x17 => some (execStopStreams p s)
  | 0x18 => some (execResumeStreams p s)
  | 0x19 => some (execPtmSample p s)
  | _ => none

/-- The functions of TIM. -/
def runTim (fn : Nat) (p : Packet) (s : State) : Option (Host.Outcome State Fault Refusal) := match fn with
  | 0x10 => some (execSetSource p s)
  | 0x11 => some (execSetOrbit p s)
  | 0x12 => some (execSetMult p s)
  | 0x13 => some (execSetAlign p s)
  | 0x30 => some (execPreviewLatency p s)
  | 0x80 => some (execRawRelease p s)
  | 0x81 => some (execReadRelease p s)
  | _ => none

/-- The functions of LNK. -/
def runLnk (fn : Nat) (p : Packet) (s : State) : Option (Host.Outcome State Fault Refusal) := match fn with
  | 0x10 => some (execLaneMode p s)
  | 0x11 => some (execSetSources p s)
  | 0x12 => some (execEqMode p s)
  | 0x13 => some (execSetTrx p s)
  | 0x80 => some (execRawLanes p s)
  | 0x81 => some (execRawSources p s)
  | 0x82 => some (execEqRead p s)
  | _ => none

/-- The functions of MAP. -/
def runMap (fn : Nat) (p : Packet) (s : State) : Option (Host.Outcome State Fault Refusal) := match fn with
  | 0x10 => some (execSetGeom p s)
  | 0x11 => some (execDefineSource p s)
  | 0x12 => some (execPlace p s)
  | 0x13 => some (execPlaceSrc p s)
  | 0x14 => some (execSetConv p s)
  | 0x15 => some (execMaskCells p s)
  | 0x16 => some (execUnplace p s)
  | 0x80 => some (execRawTmap p s)
  | 0x81 => some (execRawConv p s)
  | 0x82 => some (execRawLut p s)
  | 0x83 => some (execRawMask p s)
  | _ => none

/-- The functions of DOM. -/
def runDom (fn : Nat) (p : Packet) (s : State) : Option (Host.Outcome State Fault Refusal) := match fn with
  | 0x10 => some (execSetLayer p s)
  | 0x11 => some (execSetBlend p s)
  | 0x12 => some (execSetFormat p s)
  | 0x13 => some (execSetPolicy p s)
  | 0x14 => some (execSetDome p s)
  | 0x15 => some (execSetRegion p s)
  | 0x80 => some (execRawLayers p s)
  | 0x81 => some (execRawIlut p s)
  | 0x82 => some (execRawOlut p s)
  | 0x83 => some (execRawAlpha p s)
  | _ => none

/-- The functions of KEEP. -/
def runKeep (fn : Nat) (p : Packet) (s : State) : Option (Host.Outcome State Fault Refusal) := match fn with
  | 0x10 => some (execInstallBundle p s)
  | _ => none

/-- The functions of OBJ. -/
def runObj (fn : Nat) (p : Packet) (s : State) : Option (Host.Outcome State Fault Refusal) := match fn with
  | 0x10 => some (execSetSeed p s)
  | 0x11 => some (execSetFootprint p s)
  | 0x12 => some (execSetLimits p s)
  | 0x13 => some (execSetClass p s)
  | 0x14 => some (execSetObjstream p s)
  | 0x20 => some (execSetSprite p s)
  | 0x21 => some (execSpriteWindow p s)
  | 0x22 => some (execSpriteEnable p s)
  | 0x23 => some (execLoadSprite p s)
  | 0x24 => some (execSpriteArmed p s)
  | 0x80 => some (execRawTurret p s)
  | 0x81 => some (execRawClasses p s)
  | 0x82 => some (execRawSprites p s)
  | 0x83 => some (execRawSprmem p s)
  | _ => none

/-- The functions of SEQ. -/
def runSeq (fn : Nat) (p : Packet) (s : State) : Option (Host.Outcome State Fault Refusal) := match fn with
  | 0x10 => some (execLoadList p s)
  | 0x11 => some (execEnableList p s)
  | 0x80 => some (execRawList p s)
  | _ => none

/-- The functions of MNU. -/
def runMnu (fn : Nat) (p : Packet) (s : State) : Option (Host.Outcome State Fault Refusal) := match fn with
  | 0x10 => some (execSetCond p s)
  | 0x11 => some (execSetLine p s)
  | 0x12 => some (execSetDeadtime p s)
  | 0x13 => some (execSetPsmode p s)
  | 0x14 => some (execSetInput p s)
  | 0x15 => some (execSetLogstream p s)
  | 0x80 => some (execRawConds p s)
  | 0x81 => some (execRawLines p s)
  | _ => none

/-- The functions of BEL. -/
def runBel (fn : Nat) (p : Packet) (s : State) : Option (Host.Outcome State Fault Refusal) := match fn with
  | 0x10 => some (execBelSetInput p s)
  | 0x11 => some (execSetTmo p s)
  | 0x12 => some (execSetGains p s)
  | 0x13 => some (execSetFir p s)
  | 0x14 => some (execSetBusmap p s)
  | 0x15 => some (execSetMonitor p s)
  | 0x80 => some (execBelRawMatrix p s)
  | 0x81 => some (execRawFir p s)
  | 0x82 => some (execRawInputs p s)
  | _ => none

/-- The functions of SPR. -/
def runSpr (fn : Nat) (p : Packet) (s : State) : Option (Host.Outcome State Fault Refusal) := match fn with
  | 0x10 => some (execLoadProgram p s)
  | 0x11 => some (execSetInterleave p s)
  | 0x12 => some (execRun p s)
  | 0x13 => some (execCoreEntry p s)
  | 0x14 => some (execLoadTable p s)
  | 0x80 => some (execRawReadmem p s)
  | _ => none

/-- The functions of ULA. -/
def runUla (fn : Nat) (p : Packet) (s : State) : Option (Host.Outcome State Fault Refusal) := match fn with
  | 0x10 => some (execLoadBitstream p s)
  | 0x11 => some (execSetPortmap p s)
  | _ => none

/-- The functions of EVT. -/
def runEvt (fn : Nat) (p : Packet) (s : State) : Option (Host.Outcome State Fault Refusal) := match fn with
  | 0x10 => some (execPublish p s)
  | 0x11 => some (execSubscribe p s)
  | 0x12 => some (execSetGate p s)
  | 0x13 => some (execSetMatrix p s)
  | 0x14 => some (execSetNotify p s)
  | 0x15 => some (execSetChannel p s)
  | 0x16 => some (execResumeChannel p s)
  | 0x17 => some (execSetGuard p s)
  | 0x18 => some (execRaise p s)
  | 0x80 => some (execEvtRawMatrix p s)
  | 0x81 => some (execRawRoutes p s)
  | 0x82 => some (execRawConsumers p s)
  | _ => none

/-- The functions of IRQ. -/
def runIrq (fn : Nat) (p : Packet) (s : State) : Option (Host.Outcome State Fault Refusal) := match fn with
  | 0x10 => some (execRoute p s)
  | 0x11 => some (execSetFilter p s)
  | 0x12 => some (execMaskTarget p s)
  | 0x13 => some (execClearPending p s)
  | 0x80 => some (execIrqRawSources p s)
  | _ => none

/-- The functions of CNT. -/
def runCnt (fn : Nat) (p : Packet) (s : State) : Option (Host.Outcome State Fault Refusal) := match fn with
  | 0x10 => some (execSetCounter p s)
  | 0x11 => some (execLoad p s)
  | 0x12 => some (execSetCompare p s)
  | 0x13 => some (execSnap p s)
  | 0x80 => some (execRawCounters p s)
  | _ => none

/-- The functions of MEM. -/
def runMem (fn : Nat) (p : Packet) (s : State) : Option (Host.Outcome State Fault Refusal) := match fn with
  | 0x10 => some (execSetWindow p s)
  | 0x11 => some (execRunBist p s)
  | 0x12 => some (execRepair p s)
  | 0x13 => some (execSetCapstream p s)
  | 0x14 => some (execReleaseFreeze p s)
  | 0x15 => some (execSetLogsize p s)
  | 0x16 => some (execReadMem p s)
  | 0x17 => some (execWriteMem p s)
  | 0x80 => some (execInjectError p s)
  | _ => none

/-- The functions of DMA. -/
def runDma (fn : Nat) (p : Packet) (s : State) : Option (Host.Outcome State Fault Refusal) := match fn with
  | 0x10 => some (execDmaSetChannel p s)
  | 0x11 => some (execStart p s)
  | 0x12 => some (execSetNext p s)
  | 0x13 => some (execDmaAbort p s)
  | 0x14 => some (execSetArb p s)
  | 0x80 => some (execRawChannels p s)
  | _ => none

/-- The functions of BLT. -/
def runBlt (fn : Nat) (p : Packet) (s : State) : Option (Host.Outcome State Fault Refusal) := match fn with
  | 0x10 => some (execBlit p s)
  | 0x11 => some (execSetGap p s)
  | 0x12 => some (execBltAbort p s)
  | _ => none

/-- The functions of SEC. -/
def runSec (fn : Nat) (p : Packet) (s : State) : Option (Host.Outcome State Fault Refusal) := match fn with
  | 0x10 => some (execAttest p s)
  | 0x11 => some (execGetCert p s)
  | 0x12 => some (execFwUpdate p s)
  | 0x13 => some (execFwActivate p s)
  | 0x14 => some (execFwConfirm p s)
  | 0x15 => some (execRaiseFloor p s)
  | 0x16 => some (execOwnerClaim p s)
  | 0x17 => some (execOwnerHandover p s)
  | 0x18 => some (execOwnerReset p s)
  | _ => none

/-- The functions of TDM. -/
def runTdm (fn : Nat) (p : Packet) (s : State) : Option (Host.Outcome State Fault Refusal) := match fn with
  | 0x10 => some (execSetRole p s)
  | 0x11 => some (execSwitchPermit p s)
  | 0x12 => some (execClearDemote p s)
  | 0x80 => some (execRawLink p s)
  | _ => none

/-- The functions of PWR. -/
def runPwr (fn : Nat) (p : Packet) (s : State) : Option (Host.Outcome State Fault Refusal) := match fn with
  | 0x10 => some (execReqState p s)
  | 0x11 => some (execSetAvs p s)
  | 0x12 => some (execReset p s)
  | 0x13 => some (execSetWake p s)
  | 0x14 => some (execSetFillcmd p s)
  | 0x15 => some (execSetTlim p s)
  | 0x80 => some (execRawDomains p s)
  | _ => none

/-- The functions of OUT. -/
def runOut (fn : Nat) (p : Packet) (s : State) : Option (Host.Outcome State Fault Refusal) := match fn with
  | 0x10 => some (execSetNimout p s)
  | 0x11 => some (execSetDlane p s)
  | 0x12 => some (execSetRlywarn p s)
  | 0x40 => some (execSetOculus p s)
  | 0x41 => some (execSetCapture p s)
  | 0x42 => some (execSetHistory p s)
  | 0x43 => some (execFreezeHistory p s)
  | 0x44 => some (execReleaseHistory p s)
  | 0x45 => some (execSetOculusSparse p s)
  | 0x80 => some (execRawOuts p s)
  | _ => none

/-- The function of block `blk` with number `fn`: none where the block does not define it. -/
def runFunction (blk fn : Nat) (p : Packet) (s : State) : Option (Host.Outcome State Fault Refusal) := match blk with
  | 1 => runHst fn p s
  | 2 => runTim fn p s
  | 3 => runLnk fn p s
  | 4 => runMap fn p s
  | 5 => runDom fn p s
  | 6 => runKeep fn p s
  | 7 => runObj fn p s
  | 8 => runSeq fn p s
  | 9 => runMnu fn p s
  | 10 => runBel fn p s
  | 11 => runSpr fn p s
  | 12 => runUla fn p s
  | 13 => runEvt fn p s
  | 14 => runIrq fn p s
  | 15 => runCnt fn p s
  | 16 => runMem fn p s
  | 17 => runDma fn p s
  | 18 => runBlt fn p s
  | 19 => runSec fn p s
  | 20 => runTdm fn p s
  | 21 => runPwr fn p s
  | 22 => runOut fn p s
  | _ => none

/-- A command that addresses KEEP with another function than INSTALL_BUNDLE (R16). -/
def keepCommand (fn : Nat) (p : Packet) (s : State) : Host.Outcome State Fault Refusal :=
  .next { s with eng := runCommon 6 (fnCommon 6 fn (fun _ => none)) (fun e _ => e) p s.eng }

/-- Run the command with opcode `op`; one that is not defined is refused (R11, R53). -/
def runCommand (op : Nat) (p : Packet) (s : State) : Host.Outcome State Fault Refusal :=
  let blk := op / 256
  let fn := op % 256
  if fn = 0 then execQuery blk p s
  else if fn = 1 then execCommit blk p s
  else if fn = 2 then execDiscard blk p s
  else if fn = 3 then execReadActive blk p s
  else match runFunction blk fn p s with
  | some o => o
  | none => if blk = 6 then keepCommand fn p s else .next { s with eng := s.eng.complete p .badop }

/-! ### The scheduler (R50, R55) -/

/-- A CMD ring whose next command may start: doorbells cover what is known of it (R46), its completion ring takes entries, and a command with FENCE finds no earlier command of its
ring still running. -/
def cmdReady (e : Engine) (r : Ring) : Bool :=
  r.typ == 0 && !r.fault && e.serving && e.st != stOff && e.st != stBoot && decide (max 1 r.need ≤ r.used)
    && (e.cplOpen r.cpl || (e.ring? r.cpl).isNone) && !e.host.held.any (fun c => c.cplRing == r.cpl)
    && !(r.fence && e.host.started.any (fun q => q.ring == r.id))

/-- The ring that the scheduler serves next: the Control ring where it holds a command, else round-robin from the ring served last. -/
def nextRing (e : Engine) : Option Ring :=
  let rs := e.host.rings.filter (cmdReady e)
  match rs.find? (fun r => r.id == 0) with
  | some r => some r
  | none => match rs.find? (fun r => decide (e.host.rr < r.id)) with
    | some r => some r
    | none => rs.head?

/-- Slots of a command with `n` payload bytes (R54). -/
def cmdSlots (n : Nat) : Nat := 1 + ceilDiv n 64

/-- Write the head report of a CMD ring (R48). -/
def headReport (e : Engine) (r : Ring) : Engine := e.post r.head (leBytes 4 r.cons ++ leBytes 4 0)

/-- The command of packet `p` starts: its slots are consumed and reported, and it runs until it completes. The reads that fetched it went out
behind the writes queued before them (R66; assumption 115). -/
def startCommand (r : Ring) (op : Nat) (p : Packet) (e : Engine) : Engine :=
  let r1 := { r with cons := (r.cons + cmdSlots p.length) % 2 ^ 32, fence := false, need := 0 }
  let e1 := headReport (e.linkDrain.putRing r1) r1
  { e1 with host := { e1.host with rr := if r.id = 0 then e1.host.rr else r.id
                                   started := e1.host.started ++ [⟨r.id, p.tag, op, p.notify, p.ctx⟩] } }

/-- COMMAND_FETCH: `slots` are the bytes of the ring's next command as host memory holds them. It starts where the ring is the one that the
scheduler serves, a doorbell covers all its slots and no FENCE holds it (R46, R55), and until a doorbell covers them the other rings are served; a command longer than its ring puts the ring into
FAULT (R54). -/
def execCommandFetch (ring : Nat) (slots : List Byte) (s : State) : Host.Outcome State Fault Refusal :=
  match nextRing s.eng with
  | none => .next s
  | some r =>
    let (op, p) := decodePacket ring slots
    let n := cmdSlots p.length
    if r.id ≠ ring ∨ slots.length < 64 then .next s
    else if 2 ^ r.k < n then .next { s with eng := ringFault s.eng r }
    else if r.used < n then .next { s with eng := s.eng.putRing { r with need := n } }
    else if slots.length ≠ 64 * n then .next s
    else if p.fence ∧ s.eng.host.started.any (fun q => q.ring == ring) then
      .next { s with eng := s.eng.putRing { r with fence := true } }
    else runCommand op p { s with eng := startCommand r op p s.eng }

/-! ### COMMAND_TIMEOUT (R59) -/

/-- The commands that have not completed, other than commits: ring, tag and NOTIFY. -/
def waiters (e : Engine) : List (Nat × Nat × Bool) :=
  e.host.started.map (fun q => (q.ring, q.tag, q.notify)) ++ e.sec.verifs.map (fun v => (v.p.ring, v.p.tag, v.p.notify))
    ++ e.sec.claim.toList.map (fun c => (c.ring, c.tag, c.notify)) ++ e.sec.reports.map (fun c => (c.ring, c.tag, c.notify))
    ++ e.mov.blts.flatMap (fun b => b.cmd.toList) ++ (e.pwr.reqs ++ e.pwr.wakers).map (fun q => (q.ring, q.tag, q.notify))
    ++ e.cnt.snaps.map (fun c => (c.1, c.2.1, c.2.2.1)) ++ e.tdm.sw.toList.map (fun w => (w.ring, w.tag, w.notify))

/-- COMMAND_TIMEOUT: HST_CMDTMO.MS has passed since the command started. It completes with ST_TIMEOUT, what it started goes on; a commit that
waits for its crossing is exempt (R59). -/
def execCommandTimeout (ring tag : Nat) (s : State) : Host.Outcome State Fault Refusal :=
  let e := s.eng
  let mine := (waiters e).filter (fun w => w.1 == ring && w.2.1 == tag)
  if e.host.pends.any (fun q => q.ring == ring && q.tag == tag) ∨ mine = [] then .next s
  else
    let e1 := orphan (fun r t => r == ring && t == tag) e
    .next { s with eng := e1.completeAt ring tag (mine.any (fun w => w.2.2)) .timeout e1.cxNow }

end Sys2Proof.Machine
end

