-- ==== Sys2Proof/Machine/Pipeline.lean ====
section
/-! DEFINITION. A frame's way through the pipeline (R18, R19, R22 to R25, R258 to R261): its creation, and what becomes of it in
each BC after that, by its age. -/

namespace Sys2Proof.Machine

/-! ### Creation (R85, R130, R131, R134, R205, R243) -/

/-- The set that governs the frame of crossing number `n`: the active set with the entries of the slot lists, and the sprite
anchors (R8, R19, R199, R205), with the bank of the program tables (R303); and the lists that applied an entry. -/
def frameSet (e : Engine) (n : Nat) : Tab × List Nat :=
  let o := overlay e (n % orbitLen e.active)
  ((Tab.setAll o.1 (e.regs.range (anchorFld 0).key (anchorFld 64).key)).put bankFld e.mem.bank, o.2)

/-- The decision of a frame before its core and the Finial have it: SPk handles it, with k = N mod I, where a condition in use holds
a CORE term (R225, R293). -/
def Dec.start (t : Tab) (n : Nat) : Dec :=
  { core := if coreInUse t then n % interleave t else 255, res := 0, resOk := false, covr := false, taken := false, acc := 0, lraw := 0,
    pass := [], supp := 0, inputs := 0, deadT := false, decided := false, driven := false, accnum := 0, digest := 0 }

/-- MAP_FRAME: the cells of the TILE and KEEP sources of a frame, masked, and the sources that are not ready (R130, R131, R134); the
counters and events of MAP. `bel`: what the Belfry places, and its sources that are not ready (R247, R248). -/
def mapFrameCells (t : Tab) (segs : List Seg) (bel : BelOut) (e : Engine) : Engine × Tab × List Nat :=
  let (raw, sats) := mergeSegments t segs
  let masked := (tileSources t).foldl (maskSource t) raw
  let cells := Tab.setAll masked bel.cells
  let bad := (List.range 32).filter (fun m => (notReady t segs).contains m || bel.bad.contains m)
  let e1 := bad.foldl (fun (a : Engine) m => (a.bump (Reg.MAP_SNRDY_COUNT m)).raise Src.map m) e
  let e2 := sats.foldl (fun (a : Engine) ms => a.bumpBy (Reg.MAP_SSAT_COUNT ms.1) ms.2) e1
  let e3 := match sats with
    | ms :: _ => e2.raise (Src.map + 2) ms.1
    | [] => e2
  (e3, cells, bad)

/-- TIM_STAT.BEAM of counted crossing `n` (R72). -/
def beamAt (e : Engine) (n : Nat) : Bool := ((e.tim.beams.find? (fun x => decide (x.1 ≤ n))).map (·.2)).getD false

/-- FRAME_CREATE of crossing number `n` (R85): its parameter set, the segments that leave the alignment buffers, the Belfry's and the
map's part; the frame stands first among the frames. -/
def createFrame (n : Nat) (e : Engine) : Engine :=
  let (t, lists) := frameSet e n
  let e1 := lists.foldl (fun (a : Engine) l => a.bump (Reg.SEQ_LHIT_COUNT l)) e
  let segs := e1.segments n
  let (e2, bel) := belfryFrame t segs n (e1.releaseSegs n)
  let e3 := if e2.bel.waits.isEmpty then finishWaiting e2 else e2
  let (e4, cells, bad) := mapFrameCells t segs bel e3
  let f : Frame :=
    { n := n, born := e.tim.bc, st := e.st, cfg := t, beam := beamAt e n, dead := false, invalid := false
      stale := false, spr := sprFlag t e.st n, cells := cells, bad := bad, pathMiss := false, fs := false, req := false, keepsum := 0
      abort := e.causesNow != 0, pic := Pic.empty, byp := bel.byp, flt := bel.flt, mon := bel.mon, dec := Dec.start t n }
  showSprites { e4 with frames := f :: e4.frames } t e.st n

/-! ### Composition (R139 to R161) -/

/-- The policies of a Dome's composed layers for a frame (R154, R155). -/
def domePolicy (f : Frame) (a : Engine × List (List LayerUse)) (d : Nat) : Engine × List (List LayerUse) :=
  let r := (List.range (domNL f.cfg d)).foldl (layerPolicy f.cfg f.cells f.bad d) (a.1, [])
  (r.1, a.2 ++ [r.2])

/-- The Dome's picture of a frame and its saturations. -/
def domePicture (f : Frame) (us : List LayerUse) (d : Nat) : List Nat × Nat :=
  composeDome f.cfg d (fun l => match us[l]? with
    | some u => u.cells
    | none => []) (spriteTab f.cfg f.st f.n d) (keepAt f.cfg f.cells d)

/-- DOME_COMPOSE: both Domes compose the frame, with the not-ready policies, their sums, counters and events (R149 to R157). -/
def composeFrame (e : Engine) (f : Frame) : Engine × Frame :=
  let t := f.cfg
  let (e1, us) := [0, 1].foldl (domePolicy f) (dropImages e t, [])
  let e2 := keepImages e1 t f.cells f.bad
  let stale := us.any (fun l => l.any (·.stale))
  let veto := us.any (fun l => l.any (·.veto))
  let e3 := if stale then e2.bump Reg.DOM_STALE_COUNT else e2
  let e4 := if veto then e3.bump Reg.DOM_VETO_COUNT else e3
  let ps := (indexed us).map (fun du => domePicture f du.2 du.1)
  let e5 := (indexed ps).foldl (fun (a : Engine) dp => a.bumpBy (Reg.DOM_DSAT_COUNT dp.1) dp.2.2) e4
  let e6 := match (indexed ps).find? (fun dp => dp.2.2 != 0) with
    | some dp => e5.raise (Src.dom + 3) dp.1
    | none => e5
  let sums := ps.map (fun p => domeSum p.1)
  let rsums := (indexed ps).flatMap (fun dp => (List.range 16).map (fun g => regionSum t dp.1 g dp.2.1))
  let e7 : Engine := { e6 with regs := e6.regs.puts ((indexed sums).map (fun ds => (Reg.DOM_DSUM_SUM ds.1, ds.2))) }
  let pic : Pic := { f.pic with outs := ps.map (·.1), dsum := sums, rsum := rsums }
  let f1 : Frame := { f with stale := stale, invalid := f.invalid || veto, pic := pic }
  (displayFrame e7 f1, f1)

/-! ### Stages by age -/

/-- Run a stage on the frame born in BC `b`, unless it has been cut off. -/
def onFrame (b : Nat) (act : Engine → Frame → Engine × Frame) (e : Engine) : Engine :=
  match e.frames.find? (fun f => f.born == b) with
  | none => e
  | some f =>
    if f.dead then e
    else
      let (e1, f1) := act e f
      { e1 with frames := e1.frames.map (fun g => if g.born = b then f1 else g) }

/-- BC from creation to the NIM outputs, and to the start of the decision-lane frame (Table 12.2). -/
def nimAge (t : Tab) : Nat := menuAge t + 2 + lTxN t

/-- See `nimAge`. -/
def laneAge (t : Tab) : Nat := menuAge t + 2 + lTxD t

/-- The stages of a frame of age `a` before the outputs (Table 12.2): the Keep request in the BC after its creation, the picture, the
objects, the end of its core's budget, the Finial's evaluation and its result. -/
def stagesOf (a : Nat) (t : Tab) : List (Engine → Frame → Engine × Frame) :=
  (if a = 1 then [keepEvaluate] else [])
  ++ (if a = 1 + lDome t then [composeFrame] else [])
  ++ (if a = availAge t then [turretFrame] else [])
  ++ (if a = menuAge t then [finialEvaluate] else [])
  ++ (if a = menuAge t + 2 then [fun e f => (captureAccept e f, f)] else [])

/-- The budget of a frame has ended, and its result has moved: what is not finished is an overrun (R294, R297). -/
def budgetStep (b : Nat) (e : Engine) : Engine :=
  match e.frames.find? (fun f => f.born == b) with
  | none => e
  | some f => if e.age f = availAge f.cfg + interleave f.cfg + 1 then overrun e f else e

/-- What the pipeline does in this BC with the frame born in BC `b`. -/
def frameStep (e : Engine) (b : Nat) : Engine :=
  let e1 := budgetStep b e
  match e1.frames.find? (fun f => f.born == b) with
  | none => e1
  | some f => (stagesOf (e1.age f) f.cfg).foldl (fun a act => onFrame b act a) e1

/-- The frames in flight, by the BC of their creation, oldest first: no stage comes later than 128 BC after it. -/
def inFlight (e : Engine) : List Nat :=
  ((e.frames.filter (fun f => !f.dead && decide (e.age f ≤ 128))).map (·.born)).reverse

/-- Every frame in flight moves one BC on. -/
def moveFrames (e : Engine) : Engine := (inFlight e).foldl frameStep e

/-- Frames that have left every stage, and the stage buffers, are forgotten. -/
def pruneFrames (e : Engine) : Engine :=
  let held := (stageFrames e).map (·.born)
  { e with frames := e.frames.filter (fun f => decide (e.age f ≤ 128) || held.contains f.born) }

/-! ### Outputs (R29, R169, R231 to R233, R253) -/

/-- The frame of age `a` by its own latency terms, if one is in flight. -/
def frameOfAge (a : Tab → Nat) (e : Engine) : Option Frame := e.frames.find? (fun f => !f.dead && e.age f == a f.cfg)

/-- The monitor levels and the ABORT output take the values of the frames that reach them in this BC (Table 12.2). -/
def slowOutputs (e : Engine) : Engine :=
  let e1 := match frameOfAge (fun _ => 2) e with
    | some f => if e.running ∧ e.locked then { e with out := { e.out with mon := f.mon } } else e
    | none => e
  match frameOfAge (fun t => 2 + lTxN t) e1 with
  | some f => abortOutput e1 f
  | none => e1

/-- The NIM outputs and the decision-log entry of the frame that reaches them; safe levels where none does (R227, R231). -/
def nimStep (e : Engine) : Engine :=
  match frameOfAge nimAge e with
  | some f => onFrame f.born (fun a g => nimDrive (a.drives g.n) a g) e
  | none => { e with out := { e.out with nim := safeLevels e.active } }

/-- The abort flag of the lane frames that start in this BC is the abort state of the frame whose change they show (R169). -/
def flagStep (e : Engine) : Engine := match frameOfAge (fun t => 2 + lTxD t) e with
  | some f => abortLane e f
  | none => e

/-- The decision lanes: the frame that reaches them, or none (R232, R233). -/
def laneStep (e : Engine) : Engine :=
  if !e.locked then laneUnlocked e
  else
    let e1 := flagStep e
    match frameOfAge laneAge e1 with
    | some f => laneFrame (e1.drives f.n) e1 f
    | none => laneEmpty e1.counted e1

/-- The outputs in the states that leave them undriven or have none (Table 1.5): OFF. -/
def outputsStep (e : Engine) : Engine := if e.out.undriven then e else laneStep (nimStep e)

end Sys2Proof.Machine
end

