-- ==== Sys2Proof/Machine/Tick.lean ====
section
/-! DEFINITION. A crossing of the bunch clock, counted or not: CROSSING_TICK, LOCK_ACQUIRE and HOLDOVER_BC_TICK (R9, R29, R72, R76 to
R79, R83 to R87, R92, R206 to R208, R224, R231 to R233, R253, R447). -/

namespace Sys2Proof.Machine

/-! ### Boundaries (R9) -/

/-- The write waits until its block leaves retention (R9). -/
def retainedWrite (e : Engine) (w : Fld × Nat) : Bool := e.st == stStandby && retained (blockOfKey w.1.key)

/-- The waiting W1C writes clear their bits at the boundary, before anything in it sets one: a set wins (R6, R9). -/
def boundaryClears (e : Engine) : Engine :=
  let now : Fld × Nat → Bool := fun w => w.1.width == 34 && !retainedWrite e w
  if e.r9.any now then (e.r9.filter now).foldl applyLater { e with r9 := e.r9.filter (fun w => !now w) } else e

/-- The writes to fields that are not staged take effect at a frame or BC boundary, in order; those to a block in retention wait
until it leaves it (R9), and W1C bits for the clears of a boundary. Events on their way keep the routes they were raised under (R325). -/
def applyR9 (e : Engine) : Engine :=
  let waits : Fld × Nat → Bool := fun w => w.1.width == 34 || retainedWrite e w
  let now := e.r9.filter (fun w => !waits w)
  let e1 := now.foldl applyLater { e with r9 := e.r9.filter waits }
  if now.isEmpty then e else showRelease (if now.any (fun w => blockOfKey w.1.key == 13) then keepBanks e e1 else e1)

/-- Unstaged mask writes take effect at the same boundaries (R132). -/
def boundaryWrites (e : Engine) : Engine := if e.st = stStandby then applyR9 e else applyUnstaged (applyR9 e)

/-- What every BC brings outside the pipeline: bank cycles and the copier's buffer, counter writes on their way, the core clock, the
presentations of interrupts (R82, R330, R343, R357, R366). -/
def bcRest (e : Engine) : Engine := psFlush (pruneFrames (irqUpdate true (sprTick (cntBoundary (memRest e)))))

/-- The BC of the sweep clock that begins. -/
def nextBc (e : Engine) : Engine := { e with tim := { e.tim with bc := e.tim.bc + 1 } }

/-! ### A BC without a counted crossing (R79, R233) -/

/-- Eight samples of the NIM inputs that the command of a BC does not bring: free values (assumption 1). -/
def freeSamples (e : Engine) : List Nat × Engine :=
  let (v, e1) := e.freeVal
  ((List.range 8).map (fun i => v / 65536 ^ i % 65536), e1)

/-- A BC while TIM is unlocked: the sweep and core clocks run on, frames in flight complete, marked invalid and not driven (R79); the
lanes send the unlocked form (R233); the NIM inputs are captured for the frames that read them (R224); FAULT is entered (R447). -/
def holdoverBc (e : Engine) : Engine :=
  let (samples, e0) := freeSamples (nextBc (boundaryClears e))
  let e1 := outputsStep (faultNow (keepCapture e0.tim.bc samples e0) 0)
  let e2 := moveFrames (lanternIn samples (slowOutputs (boundaryWrites e1)))
  bcRest (if e2.linked then tdmSend e2 else e2)

/-- HOLDOVER_BC_TICK: a BC boundary of the sweep clock while TIM is unlocked. The unit in OFF has no clock. -/
def execHoldoverBcTick (s : State) : Host.Outcome State Fault Refusal :=
  if s.eng.locked ∨ s.eng.st = stOff then .next s else .next { s with eng := holdoverBc s.eng }

/-! ### A counted crossing -/

/-- The local PTM time now: that of the last exchange, carried forward by the BC counted since, each of 10^6 / TIM_FNOM ns, less the
engine's fixed delay, with 2 ns resolution (R68; assumption 1). -/
def ptmNow (e : Engine) : Nat :=
  let t := e.host.ptmTime + (e.tim.bc - e.host.ptmBc) * 1000000 / e.act Reg.TIM_FNOM_KHZ
  (t + 2 ^ 64 - Config.ptmDelay % 2 ^ 64) % 2 ^ 64 / 2 * 2

/-- PTM_ORBIT_LATCH and the ORBIT event at a slot 0: the orbit number and the local PTM time of its marker (R68). -/
def orbitMark (e : Engine) : Engine :=
  if e.tim.slot ≠ 0 then e
  else
    let v := ptmNow e
    let o := e.tim.orbit % 2 ^ 50
    let ws : List (Fld × Nat) := [(Reg.HST_PTM_ORB_LO_ORB, o % 2 ^ 32), (Reg.HST_PTM_ORB_HI_ORB, o / 2 ^ 32),
      (Reg.HST_PTM_TIME_LO_T, v % 2 ^ 32), (Reg.HST_PTM_TIME_HI_T, v / 2 ^ 32)]
    Engine.raise { e with regs := e.regs.puts ws } Src.orbit (o % 2 ^ 32)

/-- Keep the value of TIM_STAT.BEAM of counted crossing `k` (R72): a frame is created at most 4,180 BC after its crossing. -/
def noteBeam (k : Nat) (e : Engine) : Engine :=
  let b := e.reg Reg.TIM_STAT_BEAM == 1
  if e.tim.beams.head?.any (fun x => x.2 == b) then e
  else ({ e with tim := { e.tim with beams := ((k, b) :: e.tim.beams).take 4200 } } : Engine).eqAll

/-- The levels of the NIM inputs at the end of a crossing, after MNU_ICFG.INV (R319). -/
def nimLevelsNow (samples : List Nat) (e : Engine) : Engine :=
  let w := ((List.range 16).map (fun i => 2 ^ i * b2n (xor (tbit (samples.getD 7 0) i) (e.act (Reg.MNU_ICFG_INV i) == 1)))).foldl (· + ·) 0
  { e with evt := { e.evt with nimNow := w } }

/-- The frame of the crossing being created (R85), where the engine creates frames and that crossing has one (R79, R92); without a
frame, the segments held for it leave the buffers all the same. -/
def createStep (e : Engine) : Engine :=
  let d := createDelay e.active
  if e.running && e.tim.resume.any (fun r => decide (r + d ≤ e.counted)) then createFrame (e.counted - d) e
  else e.releaseSegs e.creating

/-- The counted crossing `k` begins: its slot and orbit stand in the counter. `samples`: the NIM inputs; `arrivals`: data at internal
boundaries. The outputs of this BC are those of the state that held until now (R29); then the state changes, segments reach their
buffers, commits and writes take effect, the frame is created and the others move on. -/
def countedCrossing (samples : List Nat) (arrivals : List Arrival) (e : Engine) : Engine :=
  let k := e.counted
  let e1 := arrivals.foldl arrival (orbitMark (noteBeam k (boundaryClears e)))
  let e2 := nimLevelsNow samples (nimCapture e1.tim.bc samples (tdmTick e1))
  let e3 := stateBoundary k false (outputsStep e2)
  let e4 := wakeRequests k (alignDue (slowOutputs e3) k)
  let e5 := createStep (boundaryWrites (commitDue e4))
  bcRest (moveFrames (lanternIn samples e5))

/-- The planned relocks due at the orbit boundary that starts crossing `k`, one after another until one of them ends the lock; the fuel
is the number of pending commits. -/
def relocks : Nat → Nat → Engine → Engine
  | 0, _, e => e
  | n + 1, k, e => match relockDue k e with
    | none => e
    | some p =>
      let e1 := plannedRelock k p e
      if e1.locked then relocks n k e1 else e1

/-- The next crossing of a locked engine. -/
def crossingTick (i : TickIn) (e : Engine) : Engine :=
  let e0 := commandLeft e
  let s := orbitLen e0.active
  let slot := if e0.tim.slot + 1 < s then e0.tim.slot + 1 else 0
  let orb := if slot = 0 then e0.tim.orbit + 1 else e0.tim.orbit
  let (e1, causes) := timingInput i.timing slot orb e0
  if causes ≠ 0 then holdoverBc (lockLost causes (orb * s + slot) false e1)
  else
    let e2 := if slot = 0 then relocks e1.host.pends.length (orb * s) e1 else e1
    if !e2.locked then holdoverBc e2
    else
      let tim : TimSt := { e2.tim with slot := slot, orbit := orb, orbits := if slot = 0 then e2.tim.orbits + 1 else e2.tim.orbits }
      let e3 := commandByte i.timing (beamOf i.timing (nextBc { e2 with tim := tim }))
      countedCrossing i.nim i.arrivals e3

/-- CROSSING_TICK (R83): an event of a locked engine. -/
def execCrossingTick (i : TickIn) (s : State) : Host.Outcome State Fault Refusal :=
  if s.eng.locked then .next { s with eng := crossingTick i s.eng } else .next s

/-! ### Lock (R76, R77) -/

/-- The orbit number of the first counted crossing (R77). -/
def lockOrbit (e : Engine) : Nat :=
  if !e.sma then e.tim.acqOrbit % 2 ^ 50
  else if e.reg Reg.TIM_ORBSET_HI_VALID = 1 then e.reg Reg.TIM_ORBSET_LO_ORB + 2 ^ 32 * e.reg Reg.TIM_ORBSET_HI_ORB
  else e.tim.nextOrbit

/-- Lock: the registers, the counter at slot 0 of orbit `orb`, and what every lock starts anew (R76, R79, R113, R199, R213, R240,
R254). -/
def declareLock (orb : Nat) (e : Engine) : Engine :=
  let k := orb * orbitLen e.active
  let ws : List (Fld × Nat) := [(Reg.TIM_STAT_LOCK, 1), (Reg.TIM_STAT_PHASE, 0), (Reg.TIM_STAT_LENERR, 0), (Reg.TIM_STAT_PLANNED, 0),
    (Reg.TIM_STAT_BEAM, b2n e.sma)] ++ (if e.sma then [(Reg.TIM_ORBSET_HI_VALID, 0)] else [])
  let tim : TimSt := { e.tim with orbit := orb, slot := 0, orbits := 0, recWords := e.tim.acqWords, recFails := 0, absent := 0, errs := [],
                                  acted := 0, cmdDue := none, acqReady := false, resume := some k, beams := [] }
  let e1 := Engine.raise { e with regs := e.regs.puts ws, tim := tim, lnk := { e.lnk with banks := [] } } Src.lock 0
  let e2 := seqBeyond (belRestart (clearSkew e1))
  let e3 := if e2.regs.fld (tabFld tAnchor 64 1 0) = 1 then
      let a := anchorAll k e2
      { a with regs := a.regs.put (tabFld tAnchor 64 1 0) 0 }
    else e2
  leadReg (ptmShow (keepCauses e3))

/-- LOCK_ACQUIRE (R76): the slot 0 of lock is the first crossing counted. Commits that wait for their checker take effect before it
(R80). The command brings no NIM samples: those of this crossing are free values (assumption 1). -/
def execLockAcquire (s : State) : Host.Outcome State Fault Refusal :=
  let e := s.eng
  if e.locked ∨ !e.timing ∨ !e.tim.acqReady then .next s
  else
    let e0 := commitDue e
    if !e0.tim.acqReady then .next { s with eng := e0 }
    else
      let (samples, e1) := freeSamples (nextBc (declareLock (lockOrbit e0) e0))
      .next { s with eng := countedCrossing samples [] e1 }

end Sys2Proof.Machine
end

