-- ==== Sys2Proof/Machine/Dispatch.lean ====
section
/-! DEFINITION. One arm per command: each calls its meaning, in the order of the opcode table. -/

namespace Sys2Proof.Machine

/-- The effect of a command on everything but the queue. -/
def exec (i : Instr) (s : State) : Host.Outcome State Fault Refusal :=
  match i with
  | .registerWrite bar off size val => Sys2Proof.Machine.execRegisterWrite bar off size val s
  | .readClear bar off size => Sys2Proof.Machine.execReadClear bar off size s
  | .timStampRead => Sys2Proof.Machine.execTimStampRead s
  | .ptmOrbRead => Sys2Proof.Machine.execPtmOrbRead s
  | .loWordFreezeRead off => Sys2Proof.Machine.execLoWordFreezeRead off s
  | .doorbellWrite off size val => Sys2Proof.Machine.execDoorbellWrite off size val s
  | .commandFetch ring slots => Sys2Proof.Machine.execCommandFetch ring slots s
  | .commandTimeout ring tag => Sys2Proof.Machine.execCommandTimeout ring tag s
  | .commitActivate => Sys2Proof.Machine.execCommitActivate s
  | .query blk p => Sys2Proof.Machine.execQuery blk p s
  | .commit blk p => Sys2Proof.Machine.execCommit blk p s
  | .discard blk p => Sys2Proof.Machine.execDiscard blk p s
  | .readActive blk p => Sys2Proof.Machine.execReadActive blk p s
  | .openCtx p => Sys2Proof.Machine.execOpenCtx p s
  | .closeCtx p => Sys2Proof.Machine.execCloseCtx p s
  | .grant p => Sys2Proof.Machine.execGrant p s
  | .revoke p => Sys2Proof.Machine.execRevoke p s
  | .assign p => Sys2Proof.Machine.execAssign p s
  | .createRing p => Sys2Proof.Machine.execCreateRing p s
  | .destroyRing p => Sys2Proof.Machine.execDestroyRing p s
  | .stopStreams p => Sys2Proof.Machine.execStopStreams p s
  | .resumeStreams p => Sys2Proof.Machine.execResumeStreams p s
  | .ptmSample p => Sys2Proof.Machine.execPtmSample p s
  | .hstStopCtx ctx => Sys2Proof.Machine.execHstStopCtx ctx s
  | .hstStopAll => Sys2Proof.Machine.execHstStopAll s
  | .hstResumeCtx ctx => Sys2Proof.Machine.execHstResumeCtx ctx s
  | .hstResumeAll => Sys2Proof.Machine.execHstResumeAll s
  | .stopDrainDone => Sys2Proof.Machine.execStopDrainDone s
  | .ptmExchange ok time => Sys2Proof.Machine.execPtmExchange ok time s
  | .linkTrain portA portB gen => Sys2Proof.Machine.execLinkTrain portA portB gen s
  | .functionLevelReset => Sys2Proof.Machine.execFunctionLevelReset s
  | .pcieLinkDown => Sys2Proof.Machine.execPcieLinkDown s
  | .d3hotEntry => Sys2Proof.Machine.execD3hotEntry s
  | .crossingTick t => Sys2Proof.Machine.execCrossingTick t s
  | .tcWake => Sys2Proof.Machine.execTcWake s
  | .tcFillEnd => Sys2Proof.Machine.execTcFillEnd s
  | .tcFillStart => Sys2Proof.Machine.execTcFillStart s
  | .tcMark => Sys2Proof.Machine.execTcMark s
  | .tcUser => Sys2Proof.Machine.execTcUser s
  | .tcUndefined => Sys2Proof.Machine.execTcUndefined s
  | .pllLockChange locked => Sys2Proof.Machine.execPllLockChange locked s
  | .freqWindowEnd khz => Sys2Proof.Machine.execFreqWindowEnd khz s
  | .signalAbsentTimeout => Sys2Proof.Machine.execSignalAbsentTimeout s
  | .lockAcquire => Sys2Proof.Machine.execLockAcquire s
  | .timRpworstClr => Sys2Proof.Machine.execTimRpworstClr s
  | .setSource p => Sys2Proof.Machine.execSetSource p s
  | .setOrbit p => Sys2Proof.Machine.execSetOrbit p s
  | .setMult p => Sys2Proof.Machine.execSetMult p s
  | .setAlign p => Sys2Proof.Machine.execSetAlign p s
  | .previewLatency p => Sys2Proof.Machine.execPreviewLatency p s
  | .rawRelease p => Sys2Proof.Machine.execRawRelease p s
  | .readRelease p => Sys2Proof.Machine.execReadRelease p s
  | .laneSignalChange lane signal => Sys2Proof.Machine.execLaneSignalChange lane signal s
  | .laneFrameReceive lane gap line codeErrs fecCorr => Sys2Proof.Machine.execLaneFrameReceive lane gap line codeErrs fecCorr s
  | .skewEpochEnd => Sys2Proof.Machine.execSkewEpochEnd s
  | .eqHoldStart lane => Sys2Proof.Machine.execEqHoldStart lane s
  | .laneMode p => Sys2Proof.Machine.execLaneMode p s
  | .setSources p => Sys2Proof.Machine.execSetSources p s
  | .eqMode p => Sys2Proof.Machine.execEqMode p s
  | .setTrx p => Sys2Proof.Machine.execSetTrx p s
  | .rawLanes p => Sys2Proof.Machine.execRawLanes p s
  | .rawSources p => Sys2Proof.Machine.execRawSources p s
  | .eqRead p => Sys2Proof.Machine.execEqRead p s
  | .setGeom p => Sys2Proof.Machine.execSetGeom p s
  | .defineSource p => Sys2Proof.Machine.execDefineSource p s
  | .place p => Sys2Proof.Machine.execPlace p s
  | .placeSrc p => Sys2Proof.Machine.execPlaceSrc p s
  | .setConv p => Sys2Proof.Machine.execSetConv p s
  | .maskCells p => Sys2Proof.Machine.execMaskCells p s
  | .unplace p => Sys2Proof.Machine.execUnplace p s
  | .rawTmap p => Sys2Proof.Machine.execRawTmap p s
  | .rawConv p => Sys2Proof.Machine.execRawConv p s
  | .rawLut p => Sys2Proof.Machine.execRawLut p s
  | .rawMask p => Sys2Proof.Machine.execRawMask p s
  | .setLayer p => Sys2Proof.Machine.execSetLayer p s
  | .setBlend p => Sys2Proof.Machine.execSetBlend p s
  | .setFormat p => Sys2Proof.Machine.execSetFormat p s
  | .setPolicy p => Sys2Proof.Machine.execSetPolicy p s
  | .setDome p => Sys2Proof.Machine.execSetDome p s
  | .setRegion p => Sys2Proof.Machine.execSetRegion p s
  | .rawLayers p => Sys2Proof.Machine.execRawLayers p s
  | .rawIlut p => Sys2Proof.Machine.execRawIlut p s
  | .rawOlut p => Sys2Proof.Machine.execRawOlut p s
  | .rawAlpha p => Sys2Proof.Machine.execRawAlpha p s
  | .relaySenseTimeout relay closed => Sys2Proof.Machine.execRelaySenseTimeout relay closed s
  | .relayCountJournal relay => Sys2Proof.Machine.execRelayCountJournal relay s
  | .installBundle p => Sys2Proof.Machine.execInstallBundle p s
  | .captureCopy => Sys2Proof.Machine.execCaptureCopy s
  | .postMortemFreeze => Sys2Proof.Machine.execPostMortemFreeze s
  | .setOculus p => Sys2Proof.Machine.execSetOculus p s
  | .setCapture p => Sys2Proof.Machine.execSetCapture p s
  | .setHistory p => Sys2Proof.Machine.execSetHistory p s
  | .freezeHistory p => Sys2Proof.Machine.execFreezeHistory p s
  | .releaseHistory p => Sys2Proof.Machine.execReleaseHistory p s
  | .setOculusSparse p => Sys2Proof.Machine.execSetOculusSparse p s
  | .setSeed p => Sys2Proof.Machine.execSetSeed p s
  | .setFootprint p => Sys2Proof.Machine.execSetFootprint p s
  | .setLimits p => Sys2Proof.Machine.execSetLimits p s
  | .setClass p => Sys2Proof.Machine.execSetClass p s
  | .setObjstream p => Sys2Proof.Machine.execSetObjstream p s
  | .setSprite p => Sys2Proof.Machine.execSetSprite p s
  | .spriteWindow p => Sys2Proof.Machine.execSpriteWindow p s
  | .spriteEnable p => Sys2Proof.Machine.execSpriteEnable p s
  | .loadSprite p => Sys2Proof.Machine.execLoadSprite p s
  | .spriteArmed p => Sys2Proof.Machine.execSpriteArmed p s
  | .rawTurret p => Sys2Proof.Machine.execRawTurret p s
  | .rawClasses p => Sys2Proof.Machine.execRawClasses p s
  | .rawSprites p => Sys2Proof.Machine.execRawSprites p s
  | .rawSprmem p => Sys2Proof.Machine.execRawSprmem p s
  | .seqStopL0 => Sys2Proof.Machine.execSeqStopL0 s
  | .seqStopL1 => Sys2Proof.Machine.execSeqStopL1 s
  | .loadList p => Sys2Proof.Machine.execLoadList p s
  | .enableList p => Sys2Proof.Machine.execEnableList p s
  | .rawList p => Sys2Proof.Machine.execRawList p s
  | .dlTxFault lane => Sys2Proof.Machine.execDlTxFault lane s
  | .setCond p => Sys2Proof.Machine.execSetCond p s
  | .setLine p => Sys2Proof.Machine.execSetLine p s
  | .setDeadtime p => Sys2Proof.Machine.execSetDeadtime p s
  | .setPsmode p => Sys2Proof.Machine.execSetPsmode p s
  | .setInput p => Sys2Proof.Machine.execSetInput p s
  | .setLogstream p => Sys2Proof.Machine.execSetLogstream p s
  | .rawConds p => Sys2Proof.Machine.execRawConds p s
  | .rawLines p => Sys2Proof.Machine.execRawLines p s
  | .setNimout p => Sys2Proof.Machine.execSetNimout p s
  | .setDlane p => Sys2Proof.Machine.execSetDlane p s
  | .setRlywarn p => Sys2Proof.Machine.execSetRlywarn p s
  | .rlywarnLimitWrite val => Sys2Proof.Machine.execRlywarnLimitWrite val s
  | .rawOuts p => Sys2Proof.Machine.execRawOuts p s
  | .belSetInput p => Sys2Proof.Machine.execBelSetInput p s
  | .setTmo p => Sys2Proof.Machine.execSetTmo p s
  | .setGains p => Sys2Proof.Machine.execSetGains p s
  | .setFir p => Sys2Proof.Machine.execSetFir p s
  | .setBusmap p => Sys2Proof.Machine.execSetBusmap p s
  | .setMonitor p => Sys2Proof.Machine.execSetMonitor p s
  | .belRawMatrix p => Sys2Proof.Machine.execBelRawMatrix p s
  | .rawFir p => Sys2Proof.Machine.execRawFir p s
  | .rawInputs p => Sys2Proof.Machine.execRawInputs p s
  | .add k rd ra rb => Sys2Proof.Machine.execAdd k rd ra rb s
  | .sub k rd ra rb => Sys2Proof.Machine.execSub k rd ra rb s
  | .and k rd ra rb => Sys2Proof.Machine.execAnd k rd ra rb s
  | .or k rd ra rb => Sys2Proof.Machine.execOr k rd ra rb s
  | .xor k rd ra rb => Sys2Proof.Machine.execXor k rd ra rb s
  | .nor k rd ra rb => Sys2Proof.Machine.execNor k rd ra rb s
  | .slt k rd ra rb => Sys2Proof.Machine.execSlt k rd ra rb s
  | .sltu k rd ra rb => Sys2Proof.Machine.execSltu k rd ra rb s
  | .shl k rd ra rb => Sys2Proof.Machine.execShl k rd ra rb s
  | .shr k rd ra rb => Sys2Proof.Machine.execShr k rd ra rb s
  | .shra k rd ra rb => Sys2Proof.Machine.execShra k rd ra rb s
  | .min k rd ra rb => Sys2Proof.Machine.execMin k rd ra rb s
  | .max k rd ra rb => Sys2Proof.Machine.execMax k rd ra rb s
  | .minu k rd ra rb => Sys2Proof.Machine.execMinu k rd ra rb s
  | .maxu k rd ra rb => Sys2Proof.Machine.execMaxu k rd ra rb s
  | .clz k rd ra rb => Sys2Proof.Machine.execClz k rd ra rb s
  | .mul k rd ra rb => Sys2Proof.Machine.execMul k rd ra rb s
  | .mulh k rd ra rb => Sys2Proof.Machine.execMulh k rd ra rb s
  | .mulhu k rd ra rb => Sys2Proof.Machine.execMulhu k rd ra rb s
  | .div k rd ra rb => Sys2Proof.Machine.execDiv k rd ra rb s
  | .divu k rd ra rb => Sys2Proof.Machine.execDivu k rd ra rb s
  | .rem k rd ra rb => Sys2Proof.Machine.execRem k rd ra rb s
  | .remu k rd ra rb => Sys2Proof.Machine.execRemu k rd ra rb s
  | .jr k rd ra rb => Sys2Proof.Machine.execJr k rd ra rb s
  | .jalr k rd ra rb => Sys2Proof.Machine.execJalr k rd ra rb s
  | .jmp k off => Sys2Proof.Machine.execJmp k off s
  | .jal k off => Sys2Proof.Machine.execJal k off s
  | .addk k rd ra imm => Sys2Proof.Machine.execAddk k rd ra imm s
  | .andk k rd ra imm => Sys2Proof.Machine.execAndk k rd ra imm s
  | .ork k rd ra imm => Sys2Proof.Machine.execOrk k rd ra imm s
  | .xork k rd ra imm => Sys2Proof.Machine.execXork k rd ra imm s
  | .sltk k rd ra imm => Sys2Proof.Machine.execSltk k rd ra imm s
  | .sltuk k rd ra imm => Sys2Proof.Machine.execSltuk k rd ra imm s
  | .shlk k rd ra imm => Sys2Proof.Machine.execShlk k rd ra imm s
  | .shrk k rd ra imm => Sys2Proof.Machine.execShrk k rd ra imm s
  | .shrak k rd ra imm => Sys2Proof.Machine.execShrak k rd ra imm s
  | .movh k rd ra imm => Sys2Proof.Machine.execMovh k rd ra imm s
  | .ldb k rd ra imm => Sys2Proof.Machine.execLdb k rd ra imm s
  | .ldbu k rd ra imm => Sys2Proof.Machine.execLdbu k rd ra imm s
  | .ldh k rd ra imm => Sys2Proof.Machine.execLdh k rd ra imm s
  | .ldhu k rd ra imm => Sys2Proof.Machine.execLdhu k rd ra imm s
  | .ldw k rd ra imm => Sys2Proof.Machine.execLdw k rd ra imm s
  | .stb k rs ra imm => Sys2Proof.Machine.execStb k rs ra imm s
  | .sth k rs ra imm => Sys2Proof.Machine.execSth k rs ra imm s
  | .stw k rs ra imm => Sys2Proof.Machine.execStw k rs ra imm s
  | .beq k ra rb off => Sys2Proof.Machine.execBeq k ra rb off s
  | .bne k ra rb off => Sys2Proof.Machine.execBne k ra rb off s
  | .blt k ra rb off => Sys2Proof.Machine.execBlt k ra rb off s
  | .bge k ra rb off => Sys2Proof.Machine.execBge k ra rb off s
  | .bltu k ra rb off => Sys2Proof.Machine.execBltu k ra rb off s
  | .bgeu k ra rb off => Sys2Proof.Machine.execBgeu k ra rb off s
  | .sys k rd ra low => Sys2Proof.Machine.execSys k rd ra low s
  | .wff k rd ra rb func => Sys2Proof.Machine.execWff k rd ra rb func s
  | .wffComplete k => Sys2Proof.Machine.execWffComplete k s
  | .eret k low => Sys2Proof.Machine.execEret k low s
  | .feret k low => Sys2Proof.Machine.execFeret k low s
  | .trap k rd ra imm => Sys2Proof.Machine.execTrap k rd ra imm s
  | .resultArrive k => Sys2Proof.Machine.execResultArrive k s
  | .normalInterruptEntry k => Sys2Proof.Machine.execNormalInterruptEntry k s
  | .fastInterruptEntry k => Sys2Proof.Machine.execFastInterruptEntry k s
  | .ocnt k rd ra rb => Sys2Proof.Machine.execOcnt k rd ra rb s
  | .orec k rd ra rb => Sys2Proof.Machine.execOrec k rd ra rb s
  | .cell k rd ra rb => Sys2Proof.Machine.execCell k rd ra rb s
  | .gather k rd ra rb => Sys2Proof.Machine.execGather k rd ra rb s
  | .hadd k rd ra rb => Sys2Proof.Machine.execHadd k rd ra rb s
  | .hget k rd ra rb => Sys2Proof.Machine.execHget k rd ra rb s
  | .hclr k rd ra rb => Sys2Proof.Machine.execHclr k rd ra rb s
  | .fetch k rd ra rb => Sys2Proof.Machine.execFetch k rd ra rb s
  | .serviceFetchDone k => Sys2Proof.Machine.execServiceFetchDone k s
  | .resw k rd ra rb => Sys2Proof.Machine.execResw k rd ra rb s
  | .resor k rd ra rb => Sys2Proof.Machine.execResor k rd ra rb s
  | .resget k rd ra rb => Sys2Proof.Machine.execResget k rd ra rb s
  | .qget k rd ra rb => Sys2Proof.Machine.execQget k rd ra rb s
  | .lanternPortRequest k cp rd ra rb cfunc => Sys2Proof.Machine.execLanternPortRequest k cp rd ra rb cfunc s
  | .budgetOverrun k => Sys2Proof.Machine.execBudgetOverrun k s
  | .loadProgram p => Sys2Proof.Machine.execLoadProgram p s
  | .setInterleave p => Sys2Proof.Machine.execSetInterleave p s
  | .run p => Sys2Proof.Machine.execRun p s
  | .coreEntry p => Sys2Proof.Machine.execCoreEntry p s
  | .loadTable p => Sys2Proof.Machine.execLoadTable p s
  | .rawReadmem p => Sys2Proof.Machine.execRawReadmem p s
  | .loadBitstream p => Sys2Proof.Machine.execLoadBitstream p s
  | .setPortmap p => Sys2Proof.Machine.execSetPortmap p s
  | .eventRaise src data => Sys2Proof.Machine.execEventRaise src data s
  | .holdoffEnd ch => Sys2Proof.Machine.execHoldoffEnd ch s
  | .guardWindowEnd => Sys2Proof.Machine.execGuardWindowEnd s
  | .consumerActivation c => Sys2Proof.Machine.execConsumerActivation c s
  | .notificationWrite src => Sys2Proof.Machine.execNotificationWrite src s
  | .irqFilterPass src level => Sys2Proof.Machine.execIrqFilterPass src level s
  | .msixSend src => Sys2Proof.Machine.execMsixSend src s
  | .publish p => Sys2Proof.Machine.execPublish p s
  | .subscribe p => Sys2Proof.Machine.execSubscribe p s
  | .setGate p => Sys2Proof.Machine.execSetGate p s
  | .setMatrix p => Sys2Proof.Machine.execSetMatrix p s
  | .setNotify p => Sys2Proof.Machine.execSetNotify p s
  | .setChannel p => Sys2Proof.Machine.execSetChannel p s
  | .resumeChannel p => Sys2Proof.Machine.execResumeChannel p s
  | .setGuard p => Sys2Proof.Machine.execSetGuard p s
  | .raise p => Sys2Proof.Machine.execRaise p s
  | .evtSwpubWrite sw => Sys2Proof.Machine.execEvtSwpubWrite sw s
  | .evtKstatStopWrite ch => Sys2Proof.Machine.execEvtKstatStopWrite ch s
  | .evtRawMatrix p => Sys2Proof.Machine.execEvtRawMatrix p s
  | .rawRoutes p => Sys2Proof.Machine.execRawRoutes p s
  | .rawConsumers p => Sys2Proof.Machine.execRawConsumers p s
  | .route p => Sys2Proof.Machine.execRoute p s
  | .setFilter p => Sys2Proof.Machine.execSetFilter p s
  | .maskTarget p => Sys2Proof.Machine.execMaskTarget p s
  | .clearPending p => Sys2Proof.Machine.execClearPending p s
  | .irqPendWrite src => Sys2Proof.Machine.execIrqPendWrite src s
  | .irqRawSources p => Sys2Proof.Machine.execIrqRawSources p s
  | .counterMatch n => Sys2Proof.Machine.execCounterMatch n s
  | .counterOverflow n => Sys2Proof.Machine.execCounterOverflow n s
  | .counterWriteApply n => Sys2Proof.Machine.execCounterWriteApply n s
  | .cntLoadWrite n val => Sys2Proof.Machine.execCntLoadWrite n val s
  | .cntSnapReq => Sys2Proof.Machine.execCntSnapReq s
  | .snapshotComplete => Sys2Proof.Machine.execSnapshotComplete s
  | .setCounter p => Sys2Proof.Machine.execSetCounter p s
  | .load p => Sys2Proof.Machine.execLoad p s
  | .setCompare p => Sys2Proof.Machine.execSetCompare p s
  | .snap p => Sys2Proof.Machine.execSnap p s
  | .rawCounters p => Sys2Proof.Machine.execRawCounters p s
  | .sramAccess cycle port1 => Sys2Proof.Machine.execSramAccess cycle port1 s
  | .scrubPass => Sys2Proof.Machine.execScrubPass s
  | .journalCompaction running => Sys2Proof.Machine.execJournalCompaction running s
  | .setWindow p => Sys2Proof.Machine.execSetWindow p s
  | .runBist p => Sys2Proof.Machine.execRunBist p s
  | .repair p => Sys2Proof.Machine.execRepair p s
  | .setCapstream p => Sys2Proof.Machine.execSetCapstream p s
  | .releaseFreeze p => Sys2Proof.Machine.execReleaseFreeze p s
  | .setLogsize p => Sys2Proof.Machine.execSetLogsize p s
  | .readMem p => Sys2Proof.Machine.execReadMem p s
  | .writeMem p => Sys2Proof.Machine.execWriteMem p s
  | .injectError p => Sys2Proof.Machine.execInjectError p s
  | .start p => Sys2Proof.Machine.execStart p s
  | .dmaCtlGo ch => Sys2Proof.Machine.execDmaCtlGo ch s
  | .dmaCtlAbort ch => Sys2Proof.Machine.execDmaCtlAbort ch s
  | .dmaNextLoWrite ch val => Sys2Proof.Machine.execDmaNextLoWrite ch val s
  | .dmaBurst ch host => Sys2Proof.Machine.execDmaBurst ch host s
  | .descriptorEnd ch contend => Sys2Proof.Machine.execDescriptorEnd ch contend s
  | .setNext p => Sys2Proof.Machine.execSetNext p s
  | .dmaAbort p => Sys2Proof.Machine.execDmaAbort p s
  | .dmaSetChannel p => Sys2Proof.Machine.execDmaSetChannel p s
  | .setArb p => Sys2Proof.Machine.execSetArb p s
  | .rawChannels p => Sys2Proof.Machine.execRawChannels p s
  | .blit p => Sys2Proof.Machine.execBlit p s
  | .bltCtlGo b => Sys2Proof.Machine.execBltCtlGo b s
  | .bltCtlAbort b => Sys2Proof.Machine.execBltCtlAbort b s
  | .bltBurst b => Sys2Proof.Machine.execBltBurst b s
  | .setGap p => Sys2Proof.Machine.execSetGap p s
  | .bltAbort p => Sys2Proof.Machine.execBltAbort p s
  | .verificationEnd => Sys2Proof.Machine.execVerificationEnd s
  | .transferTimeout op => Sys2Proof.Machine.execTransferTimeout op s
  | .attest p => Sys2Proof.Machine.execAttest p s
  | .attestReportDone ms => Sys2Proof.Machine.execAttestReportDone ms s
  | .getCert p => Sys2Proof.Machine.execGetCert p s
  | .fwUpdate p => Sys2Proof.Machine.execFwUpdate p s
  | .fwActivate p => Sys2Proof.Machine.execFwActivate p s
  | .fwConfirm p => Sys2Proof.Machine.execFwConfirm p s
  | .raiseFloor p => Sys2Proof.Machine.execRaiseFloor p s
  | .ownerClaim p => Sys2Proof.Machine.execOwnerClaim p s
  | .ownerClaimConfirm => Sys2Proof.Machine.execOwnerClaimConfirm s
  | .ownerClaimTimeout => Sys2Proof.Machine.execOwnerClaimTimeout s
  | .ownerHandover p => Sys2Proof.Machine.execOwnerHandover p s
  | .ownerReset p => Sys2Proof.Machine.execOwnerReset p s
  | .trialBootTimeout => Sys2Proof.Machine.execTrialBootTimeout s
  | .tandemFrameReceive lanes owd => Sys2Proof.Machine.execTandemFrameReceive lanes owd s
  | .setRole p => Sys2Proof.Machine.execSetRole p s
  | .switchPermit p => Sys2Proof.Machine.execSwitchPermit p s
  | .clearDemote p => Sys2Proof.Machine.execClearDemote p s
  | .rawLink p => Sys2Proof.Machine.execRawLink p s
  | .reqState p => Sys2Proof.Machine.execReqState p s
  | .standbyWake cause => Sys2Proof.Machine.execStandbyWake cause s
  | .wakeComplete => Sys2Proof.Machine.execWakeComplete s
  | .setAvs p => Sys2Proof.Machine.execSetAvs p s
  | .reset p => Sys2Proof.Machine.execReset p s
  | .setWake p => Sys2Proof.Machine.execSetWake p s
  | .setFillcmd p => Sys2Proof.Machine.execSetFillcmd p s
  | .setTlim p => Sys2Proof.Machine.execSetTlim p s
  | .rawDomains p => Sys2Proof.Machine.execRawDomains p s
  | .powerOn senseA senseB => Sys2Proof.Machine.execPowerOn senseA senseB s
  | .warmReset senseA senseB => Sys2Proof.Machine.execWarmReset senseA senseB s
  | .consoleCommand c => Sys2Proof.Machine.execConsoleCommand c s
  | .powerLoss => Sys2Proof.Machine.execPowerLoss s
  | .supplyDcLoss m r => Sys2Proof.Machine.execSupplyDcLoss m r s
  | .supplyDcGood m r => Sys2Proof.Machine.execSupplyDcGood m r s
  | .acFail => Sys2Proof.Machine.execAcFail s
  | .acReturn m => Sys2Proof.Machine.execAcReturn m s
  | .avsUpdate margins => Sys2Proof.Machine.execAvsUpdate margins s
  | .railFault domain => Sys2Proof.Machine.execRailFault domain s
  | .fanFail fan rpm => Sys2Proof.Machine.execFanFail fan rpm s
  | .thermalWarn x => Sys2Proof.Machine.execThermalWarn x s
  | .thermalFault x => Sys2Proof.Machine.execThermalFault x s
  | .thermalCutoff => Sys2Proof.Machine.execThermalCutoff s
  | .moduleInsert cage => Sys2Proof.Machine.execModuleInsert cage s
  | .moduleRemove cage => Sys2Proof.Machine.execModuleRemove cage s
  | .acquisitionCrossing t => Sys2Proof.Machine.execAcquisitionCrossing t s
  | .holdoverBcTick => Sys2Proof.Machine.execHoldoverBcTick s
  | .counterIncrement n => Sys2Proof.Machine.execCounterIncrement n s
  | .d3hotExit => Sys2Proof.Machine.execD3hotExit s
  | .configurationRequest => Sys2Proof.Machine.execConfigurationRequest s

end Sys2Proof.Machine
end

