-- ==== Sys2Proof/WellFormed.lean ====
section
/-! DEFINITION. Well-formed commands: every operand within the range that the spec gives it. The meanings are total: a command that is not
well-formed has an effect too, and the checks say which commands the spec can spell. -/

namespace Sys2Proof

open Machine

/-- Every field of the header fits its bytes (Table 2.5), and the payload has the length that the header gives. -/
def Machine.Packet.wf (p : Packet) : Bool :=
  decide (p.ring < 2 ^ 18) && decide (p.flags < 2 ^ 16) && decide (p.length ≤ 65536) && decide (p.tag < 2 ^ 64) && decide (p.ctx < 2 ^ 16)
    && decide (p.reserved < 2 ^ 16) && decide (p.applyAt < 2 ^ 64) && decide (p.target < 2 ^ 32) && p.args.length == 8
    && p.args.all (fun a => decide (a < 2 ^ 32)) && p.payload.length == p.length

/-- A byte and a word from the Timing port (R72). -/
def Machine.Timing.wf (t : Timing) : Bool := decide (t.cmd < 2 ^ 8) && decide (t.word < 2 ^ 16)

/-- Eight samples of the 16 NIM inputs (R224); 512 internal boundaries (R87). -/
def Machine.TickIn.wf (i : TickIn) : Bool :=
  i.timing.wf && i.nim.length == 8 && i.nim.all (fun v => decide (v < 2 ^ 16)) && i.arrivals.all (fun a => decide (a.boundary < 512))

/-- An access within one 8-byte word (R358). -/
def Machine.PortAccess.wf (a : PortAccess) : Bool := decide (1 ≤ a.bytes.length) && decide (a.offset % 8 + a.bytes.length ≤ 8)

/-- A console command of the spec. -/
def Machine.ConsoleCmd.wf : ConsoleCmd → Bool
  | .reset => true
  | .firmware slot p => decide (slot < 2) && p.wf
  | .reqState code => decide (code ≤ 6)

/-- A cage of the unit (R454). -/
def Machine.Cage.wf : Cage → Bool
  | .timing => true
  | .dl lane => decide (lane < 8)
  | .tandem => true

/-- The command is well-formed. -/
def Instr.wf : Instr → Bool
  | .registerWrite bar off size val => (bar == 0 || bar == 2 || bar == 4) && (size == 1 || size == 2 || size == 4 || size == 8) && decide (off < 2 ^ 25) && decide (val < 256 ^ size)
  | .readClear bar off size => (bar == 0 || bar == 2 || bar == 4) && (size == 1 || size == 2 || size == 4 || size == 8) && decide (off < 2 ^ 25)
  | .timStampRead | .ptmOrbRead | .commitActivate | .hstStopAll | .hstResumeAll | .stopDrainDone | .functionLevelReset
  | .pcieLinkDown | .d3hotEntry | .tcWake | .tcFillEnd | .tcFillStart | .tcMark | .tcUser | .tcUndefined | .signalAbsentTimeout
  | .lockAcquire | .timRpworstClr | .skewEpochEnd | .captureCopy | .postMortemFreeze | .seqStopL0 | .seqStopL1 | .guardWindowEnd
  | .cntSnapReq | .snapshotComplete | .scrubPass | .verificationEnd | .ownerClaimConfirm | .ownerClaimTimeout | .trialBootTimeout
  | .wakeComplete | .powerLoss | .acFail | .thermalCutoff | .holdoverBcTick | .d3hotExit | .configurationRequest => true
  | .loWordFreezeRead off => decide (off < 2 ^ 25) && off % 4 == 0
  | .doorbellWrite off size val => decide (off < 2 ^ 21) && (size == 4 || size == 8) && decide (val < 256 ^ size)
  | .commandFetch ring slots => decide (ring < 2 ^ 18) && slots.length % 64 == 0
  | .commandTimeout ring tag => decide (ring < 2 ^ 18) && decide (tag < 2 ^ 64)
  | .query blk p | .commit blk p | .discard blk p | .readActive blk p => decide (blk < 256) && p.wf
  | .openCtx p | .closeCtx p | .grant p | .revoke p | .assign p | .createRing p | .destroyRing p | .stopStreams p
  | .resumeStreams p | .ptmSample p | .setSource p | .setOrbit p | .setMult p | .setAlign p | .previewLatency p | .rawRelease p
  | .readRelease p | .laneMode p | .setSources p | .eqMode p | .setTrx p | .rawLanes p | .rawSources p | .eqRead p | .setGeom p
  | .defineSource p | .place p | .placeSrc p | .setConv p | .maskCells p | .unplace p | .rawTmap p | .rawConv p | .rawLut p
  | .rawMask p | .setLayer p | .setBlend p | .setFormat p | .setPolicy p | .setDome p | .setRegion p | .rawLayers p | .rawIlut p
  | .rawOlut p | .rawAlpha p | .installBundle p | .setOculus p | .setCapture p | .setHistory p | .freezeHistory p
  | .releaseHistory p | .setOculusSparse p | .setSeed p | .setFootprint p | .setLimits p | .setClass p | .setObjstream p
  | .setSprite p | .spriteWindow p | .spriteEnable p | .loadSprite p | .spriteArmed p | .rawTurret p | .rawClasses p
  | .rawSprites p | .rawSprmem p | .loadList p | .enableList p | .rawList p | .setCond p | .setLine p | .setDeadtime p
  | .setPsmode p | .setInput p | .setLogstream p | .rawConds p | .rawLines p | .setNimout p | .setDlane p | .setRlywarn p
  | .rawOuts p | .belSetInput p | .setTmo p | .setGains p | .setFir p | .setBusmap p | .setMonitor p | .belRawMatrix p
  | .rawFir p | .rawInputs p | .loadProgram p | .setInterleave p | .run p | .coreEntry p | .loadTable p | .rawReadmem p
  | .loadBitstream p | .setPortmap p | .publish p | .subscribe p | .setGate p | .setMatrix p | .setNotify p | .setChannel p
  | .resumeChannel p | .setGuard p | .raise p | .evtRawMatrix p | .rawRoutes p | .rawConsumers p | .route p | .setFilter p
  | .maskTarget p | .clearPending p | .irqRawSources p | .setCounter p | .load p | .setCompare p | .snap p | .rawCounters p
  | .setWindow p | .runBist p | .repair p | .setCapstream p | .releaseFreeze p | .setLogsize p | .readMem p | .writeMem p
  | .injectError p | .start p | .setNext p | .dmaAbort p | .dmaSetChannel p | .setArb p | .rawChannels p | .blit p | .setGap p
  | .bltAbort p | .attest p | .getCert p | .fwUpdate p | .fwActivate p | .fwConfirm p | .raiseFloor p | .ownerClaim p
  | .ownerHandover p | .ownerReset p | .setRole p | .switchPermit p | .clearDemote p | .rawLink p | .reqState p | .setAvs p
  | .reset p | .setWake p | .setFillcmd p | .setTlim p | .rawDomains p => p.wf
  | .hstStopCtx ctx | .hstResumeCtx ctx => decide (ctx < 1024)
  | .ptmExchange _ time => decide (time < 2 ^ 64)
  | .linkTrain _ _ gen => decide (1 ≤ gen) && decide (gen ≤ 4)
  | .crossingTick i => i.wf
  | .pllLockChange _ => true
  | .freqWindowEnd khz => decide (khz < 2 ^ 17)
  | .laneSignalChange lane _ => decide (lane < 144)
  | .laneFrameReceive lane _ line _ _ => decide (lane < 144) && line.all (fun b => decide (b.header < 4 ∧ b.n ≤ 64 ∧ b.bits < 2 ^ b.n))
  | .eqHoldStart lane => decide (lane < 144)
  | .relaySenseTimeout relay _ => decide (relay < 2)
  | .relayCountJournal relay => decide (relay < 2)
  | .dlTxFault lane => decide (lane < 8)
  | .rlywarnLimitWrite val => decide (val < 2 ^ 32)
  | .add k _ _ _ | .sub k _ _ _ | .and k _ _ _ | .or k _ _ _ | .xor k _ _ _ | .nor k _ _ _ | .slt k _ _ _ | .sltu k _ _ _
  | .shl k _ _ _ | .shr k _ _ _ | .shra k _ _ _ | .min k _ _ _ | .max k _ _ _ | .minu k _ _ _ | .maxu k _ _ _ | .clz k _ _ _
  | .mul k _ _ _ | .mulh k _ _ _ | .mulhu k _ _ _ | .div k _ _ _ | .divu k _ _ _ | .rem k _ _ _ | .remu k _ _ _ | .jr k _ _ _
  | .jalr k _ _ _ | .ocnt k _ _ _ | .orec k _ _ _ | .cell k _ _ _ | .gather k _ _ _ | .hadd k _ _ _ | .hget k _ _ _
  | .hclr k _ _ _ | .fetch k _ _ _ | .resw k _ _ _ | .resor k _ _ _ | .resget k _ _ _ | .qget k _ _ _ => decide (k < 34)
  | .jmp k _ | .jal k _ => decide (k < 34)
  | .addk k _ _ _ | .andk k _ _ _ | .ork k _ _ _ | .xork k _ _ _ | .sltk k _ _ _ | .sltuk k _ _ _ | .shlk k _ _ _ | .shrk k _ _ _
  | .shrak k _ _ _ | .movh k _ _ _ | .ldb k _ _ _ | .ldbu k _ _ _ | .ldh k _ _ _ | .ldhu k _ _ _ | .ldw k _ _ _ | .trap k _ _ _ => decide (k < 34)
  | .stb k _ _ _ | .sth k _ _ _ | .stw k _ _ _ => decide (k < 34)
  | .beq k _ _ _ | .bne k _ _ _ | .blt k _ _ _ | .bge k _ _ _ | .bltu k _ _ _ | .bgeu k _ _ _ => decide (k < 34)
  | .sys k _ _ _ => decide (k < 34)
  | .wff k _ _ _ _ => decide (k < 34)
  | .wffComplete k | .resultArrive k | .normalInterruptEntry k | .fastInterruptEntry k | .serviceFetchDone k | .budgetOverrun k => decide (k < 34)
  | .eret k _ | .feret k _ => decide (k < 34)
  | .lanternPortRequest k cp _ _ _ _ => decide (k < 34) && decide (4 ≤ cp) && decide (cp ≤ 7)
  | .eventRaise src data => decide (src < 4096) && decide (data < 2 ^ 32)
  | .holdoffEnd ch | .evtKstatStopWrite ch => decide (ch < 1024)
  | .consumerActivation c => decide (c < 4096)
  | .notificationWrite src | .msixSend src | .irqPendWrite src => decide (src < 4096)
  | .irqFilterPass src _ => decide (src < 4096)
  | .evtSwpubWrite sw => decide (sw < 128)
  | .counterMatch n | .counterOverflow n | .counterWriteApply n | .counterIncrement n => decide (n < 64)
  | .cntLoadWrite n val => decide (n < 64) && decide (val < 2 ^ 32)
  | .sramAccess cycle port1 => decide (cycle.bank < 384) && (cycle.port0.toList ++ port1.map (·.2)).all PortAccess.wf
  | .journalCompaction _ => true
  | .dmaCtlGo ch | .dmaCtlAbort ch => decide (ch < 64)
  | .dmaNextLoWrite ch val => decide (ch < 64) && decide (val < 2 ^ 32)
  | .dmaBurst ch _ => decide (ch < 64)
  | .descriptorEnd ch _ => decide (ch < 64)
  | .bltCtlGo b | .bltCtlAbort b | .bltBurst b => decide (b < 2)
  | .transferTimeout op => decide (op < 2 ^ 16)
  | .attestReportDone ms => decide (ms < 2 ^ 16)
  | .tandemFrameReceive lanes _ => lanes.length == 4
  | .standbyWake cause => decide (1 ≤ cause) && decide (cause ≤ 3)
  | .powerOn _ _ | .warmReset _ _ => true
  | .consoleCommand c => c.wf
  | .supplyDcLoss m r | .supplyDcGood m r => decide (m < 2) && decide (r.watts < 2 ^ 16) && decide (r.temp < 2 ^ 8)
  | .acReturn m => decide (m < 2)
  | .avsUpdate margins => margins.length == 24
  | .railFault domain => decide (domain < 24)
  | .fanFail fan _ => decide (fan < 6)
  | .thermalWarn x | .thermalFault x => decide (x.die < 256) && decide (x.inlet < 256) && decide (x.outlet < 256)
  | .moduleInsert cage | .moduleRemove cage => cage.wf
  | .acquisitionCrossing t => t.wf

end Sys2Proof
end

