-- ==== Sys2Proof/Safety.lean ====
section
/-! DEFINITION. What the claims speak of: the canonical form of tables and memory, how a command is answered, what a command that stages,
commits or acts at once does, and what a Spire core that issues an instruction does. -/

namespace Sys2Proof.Machine

/-! ### Canonical form -/

/-- The tables of registers, staged and active copies, memory and its bit errors, frozen words, and each Spire core's registers and control words
are in canonical form: equal contents are equal data. -/
def Engine.canonical (e : Engine) : Bool :=
  e.active.wf && e.staged.wf && e.regs.wf && memWf e.mem.cells && e.host.frozen.wf && e.mem.ecc.wf && e.mem.lecc.wf && e.spr.ecc.wf
    && e.spr.cores.all (fun c => c.cw.wf && c.regs.wf)

/-- The same of the staged copies that a pending commit has captured and of the journal's records (R8, R33, R370). -/
def Engine.setsCanonical (e : Engine) : Bool := e.host.pends.all (fun p => p.set.wf) && e.mem.journal.recs.all (fun r => r.set.wf)

/-- Every command that waits is one the spec can spell. -/
def State.queueOk (s : State) : Bool := s.pending.all Instr.wf

/-! ### Answers (R49, R50, R60, Table 2.6) -/

/-- The bytes of a completion entry (Table 2.6) with phase bit `phase`. -/
def Cpl.bytes (c : Cpl) (phase : Nat) : List Byte :=
  leBytes 8 c.tag ++ leBytes 2 c.code ++ leBytes 1 c.detail ++ leBytes 1 (128 * phase) ++ leBytes 4 c.crossing

/-- Nothing of `f` differs from `e` but what a completion touches: the rings, the started commands, the completions that wait, the
outbound queue with its buffer, and the pending-bit array. -/
def OnlyAnswered (e f : Engine) : Prop :=
  f = { e with host := { e.host with rings := f.host.rings, started := f.host.started, held := f.host.held, out := f.host.out,
                                     wait := f.host.wait, used := f.host.used, usedCtl := f.host.usedCtl, pba := f.host.pba } }

/-- From `e` to `f`, the writes `xs` to host memory have been queued, in that order and no other (R63, R66). -/
def Sends (xs : List Posted) (e f : Engine) : Prop :=
  let g := xs.foldl Engine.postAs e
  f.host.out = g.host.out ∧ f.host.wait = g.host.wait ∧ f.host.used = g.host.used ∧ f.host.usedCtl = g.host.usedCtl

/-- The first element of a list that satisfies `p` is gone, and no other (R53: a host may give two commands one tag). -/
def dropsFirst {α : Type} (p : α → Bool) (l m : List α) : Prop :=
  (l.any p = false → m = l) ∧ (∀ a x b, l = a ++ x :: b → a.any p = false → p x = true → m = a ++ b)

/-- From `e` to `f`, the oldest command of ring `ring` with tag `tag` has completed with status `st` and crossing field `cx`: it is no longer
started, and its completion entry is written to the bound CPL ring, or waits behind those of that ring that wait already (R50, R60). -/
def AnswersAt (ring tag : Nat) (notify : Bool) (st : Status) (cx : Nat) (e f : Engine) : Prop :=
  OnlyAnswered e f
    ∧ dropsFirst (fun s : Started => s.ring == ring && s.tag == tag) e.host.started f.host.started
    ∧ ∀ r c, e.ring? ring = some r → e.ring? r.cpl = some c →
        let x : Cpl := ⟨r.cpl, tag, st.code, st.detail % 256, cx, notify⟩
        let free := e.heldFor r.cpl = false ∧ e.cplOpen r.cpl = true
        (free → ∃ more, Sends (⟨c.addr c.prod, x.bytes (c.phase c.prod), false, c.id == 1⟩ :: more) e f)
        ∧ (¬free → f.host.held = e.host.held ++ [x] ∧ Sends [] e f)

/-- The command of packet `p` has completed with status `st` and the crossing being created (R60). -/
def Answers (p : Packet) (st : Status) (e f : Engine) : Prop := AnswersAt p.ring p.tag p.notify st e.cxNow e f

/-- The outcome is a next state whose queue is that of `s`, and whose engine is as `q` says. -/
def Completes (s : State) (o : Host.Outcome State Fault Refusal) (q : Engine → Prop) : Prop :=
  ∃ t, o = .next t ∧ t.pending = s.pending ∧ q t.eng

/-! ### Commands that are refused, stage, commit or act (R8, R14, R53, R56 to R58) -/

/-- A refused command changes nothing: it is answered with the status that refuses it (R53, R60). -/
def RefusedUnchanged (i : Packet → Instr) (f : Fn) (locks : Packet → List Nat) (extra : Engine → Packet → Option Status) : Prop :=
  ∀ (p : Packet) (s : State) (st : Status), refuse f (locks p) extra s.eng p = some st →
    Completes s (exec (i p) s) (fun t => Answers p st s.eng t)

/-- The staging step that writes the fields `ws` into the staged copies. -/
def writing (ws : Engine → Packet → List (Fld × Nat)) (e : Engine) (p : Packet) : Engine := { e with staged := e.staged.puts (ws e p) }

/-- The engine after the staging step, with the stage lock of block `blk` for the context of `p` (R8, R57). -/
def stagedFor (blk : Nat) (stage : Engine → Packet → Engine) (p : Packet) (e : Engine) : Engine := (stage e p).takeLock blk p.ctx

/-- From `e` to `f`, a commit of `blks` with the staged copies of `e` has been accepted for packet `p` (R8, R56): it is the last of the
pending commits and holds the captured copies; the active copies, the frames, the memories and every other part are unchanged. -/
def Captured (blks : List Nat) (object : Nat) (p : Packet) (e f : Engine) : Prop :=
  ∃ pd : Pend, f.host = { e.host with pends := e.host.pends ++ [pd], nextUid := e.host.nextUid + 1, locks := f.host.locks }
    ∧ pd.uid = e.host.nextUid ∧ pd.follow = [] ∧ pd.waiting = false ∧ pd.ring = p.ring ∧ pd.tag = p.tag ∧ pd.ctx = p.ctx ∧ pd.notify = p.notify ∧ pd.blocks = blks ∧ pd.object = object
    ∧ pd.set = Tab.ofBlocks blks e.staged
    ∧ f.staged = e.staged.filter (fun kv => !(onceKey kv.1 && blks.contains (blockOfKey kv.1)))
    ∧ f = { e with host := f.host, staged := f.staged, map := f.map, regs := f.regs }
    ∧ (10 ∉ blks → f.regs = e.regs) ∧ (4 ∉ blks → f.map = e.map)

/-- From `e` to `f`, the commit of packet `p` passes its tests: it is captured and its journal record made; while no record may be started, it
waits for that and nothing else changes (R58, R370, R431). -/
def Accepted (blks : List Nat) (object : Nat) (p : Packet) (e f : Engine) : Prop :=
  (e.pwr.acOut = false → ∃ g, Captured blks object p e g ∧ f = journalSync g)
    ∧ (e.pwr.acOut = true → f = { e with pwr := { e.pwr with
        unrecorded := e.pwr.unrecorded ++ [{ p := p, blocks := blks, object := object, obj := [] }] } })

/-- From `e` to `f`, packet `p` has committed `blks`, or its commit has been refused with the status that refuses it (R8, R56). -/
def Commits (blks : List Nat) (object : Nat) (p : Packet) (e f : Engine) : Prop := match acceptCommit e p blks object with
  | .inr _ => Accepted blks object p e f
  | .inl st => Answers p st e f

/-- A basic command `i` over staged fields (R14, R56): accepted by its checks and by the checks on a commit, it takes its staging step
in its block and commits it; a commit that is not accepted leaves the staged copies written and completes with the status that refuses
it; a command that its checks refuse changes nothing. -/
def BasicCommand (i : Packet → Instr) (f : Fn) (extra : Engine → Packet → Option Status) (stage : Engine → Packet → Engine)
    (object : Nat) : Prop :=
  (∀ (p : Packet) (s : State), refuse f [f.block] extra s.eng p = none →
    (acceptCommit (stagedFor f.block stage p s.eng) p [f.block] object).isRight = true →
    Completes s (exec (i p) s) (Accepted [f.block] object p (stagedFor f.block stage p s.eng)))
  ∧ (∀ (p : Packet) (s : State) (st : Status), refuse f [f.block] extra s.eng p = none →
    acceptCommit (stagedFor f.block stage p s.eng) p [f.block] object = .inl st →
    Completes s (exec (i p) s) (Answers p st (stagedFor f.block stage p s.eng)))
  ∧ RefusedUnchanged i f (fun _ => [f.block]) extra

/-- An expert function `i` over staged fields (R14, R56): without COMMIT it takes its staging step in its block, whose stage lock its
context then holds, and completes with ST_STAGED; with COMMIT it also commits every block in which its context holds staged changes;
refused, it changes nothing. -/
def ExpertCommand (i : Packet → Instr) (f : Fn) (extra : Engine → Packet → Option Status) (stage : Engine → Packet → Engine) : Prop :=
  (∀ (p : Packet) (s : State), refuse f [f.block] extra s.eng p = none → p.commit = false →
    Completes s (exec (i p) s) (Answers p (.staged f.block) (stagedFor f.block stage p s.eng)))
  ∧ (∀ (p : Packet) (s : State), refuse f [f.block] extra s.eng p = none → p.commit = true →
    let m := stagedFor f.block stage p s.eng
    Completes s (exec (i p) s) (Commits (m.lockedBlocks p.ctx) 0 p m))
  ∧ RefusedUnchanged i f (fun _ => [f.block]) extra

/-- From `e` to `f`, a function that has acted has completed: with the commit that it carries, or else with ST_OK, or ST_STAGED where an expert
function carries STAGE (R14, R56). -/
def Ends (f : Fn) (p : Packet) (e g : Engine) : Prop := match alsoCommits f e p with
  | none => Answers p (f.done p) e g
  | some blks => Commits blks 0 p e g

/-- A command `i` that acts at once (R14, R56, R57): it has the effect `act` and, where it carries no commit, completes with ST_OK, or
ST_STAGED where an expert function carries STAGE; a commit that it carries captures the staged copies or is refused with its status; refused, by
another context's stage lock too, it changes nothing. -/
def ActionCommand (i : Packet → Instr) (f : Fn) (extra : Engine → Packet → Option Status) (act : Engine → Packet → Engine) : Prop :=
  (∀ (p : Packet) (s : State), refuse f (f.locks p) extra s.eng p = none → Completes s (exec (i p) s) (Ends f p (act s.eng p)))
  ∧ RefusedUnchanged i f f.locks extra

/-- A command `i` that answers by itself, now or later: accepted by its checks it has the effect `act`; refused, it changes nothing. -/
def AsyncCommand (i : Packet → Instr) (f : Fn) (extra : Engine → Packet → Option Status) (act : Engine → Packet → Engine → Prop) : Prop :=
  (∀ (p : Packet) (s : State), refuse f (f.locks p) extra s.eng p = none → Completes s (exec (i p) s) (act s.eng p))
  ∧ RefusedUnchanged i f f.locks extra

/-- From `e` to `f`, packet `p` of the transfer of function `op` has been taken (R396). Out of order, of another total, or of a length that
does not fit, it ends the transfer with ST_RANGE, detail 8. Else its bytes are appended (firmware goes to its slot) and it completes with
ST_OK, or, the last one, queues the object for verification. A FIRST packet abandons the transfer that is open. -/
def Delivers (op : Nat) (e : Engine) (p : Packet) (f : Engine) : Prop :=
  let cur := if p.first then none else xferOf e op
  let got := (cur.map (·.data)).getD []
  let inOrder := p.arg 0 = (cur.map (·.seq)).getD 0 ∧ (p.first = true ∨ cur.isSome = true) ∧ (∀ x, cur = some x → x.total = p.arg 2)
    ∧ got.length + p.length ≤ p.arg 2 ∧ (if p.last then got.length + p.length = p.arg 2 else p.length = 65536)
  let e0 := if p.first then closeXfer e op else e
  let data := got ++ p.payload
  let e1 := if op = 0x1312 then putSlot e0 p.target data false else e0
  let others := e1.sec.xfers.filter (fun y => y.op != op)
  (¬inOrder → f = (closeXfer e0 op).complete p (.range 8))
    ∧ (inOrder → p.last = false → ∃ x : Xfer, x.seq = p.arg 0 + 1 ∧ x.data = data
        ∧ (∀ y, cur = some y → x.op = y.op ∧ x.ring = y.ring ∧ x.ctx = y.ctx ∧ x.target = y.target ∧ x.total = y.total)
        ∧ (cur = none → x.op = op ∧ x.ring = p.ring ∧ x.ctx = p.ctx ∧ x.target = p.target ∧ x.total = p.arg 2)
        ∧ f = (putXfers e1 (others ++ [x])).complete p .ok)
    ∧ (inOrder → p.last = true → f.sec.verifs = (putXfers e1 others).sec.verifs ++ [⟨op, { p with payload := [] }, data⟩]
        ∧ f = { putXfers e1 others with sec := { (putXfers e1 others).sec with verifs := f.sec.verifs } })

/-! ### The host's accesses (R3 to R7, R69, R84, R87) -/

/-- From `e` to `f`, word `off` of BAR0 has been read and answered `v`: its fields that a read clears are 0, words may have been frozen or
released, and nothing else has changed. -/
def Reads (off v : Nat) (e f : Engine) : Prop :=
  f = { e with
    regs := e.regs.puts (((fieldsAt off).filter (fun fa => fa.2 == .rc)).map (fun fa => (fa.1, 0)))
    tim := if off = 0x100050 then { e.tim with rmissFresh := true } else e.tim
    host := { e.host with lastRead := v, frozen := f.host.frozen } }

/-- The resets of the host interface (R38): contexts but 0 closed, rings destroyed, commands abandoned, what waits for them dropped, stage
locks and HST registers cleared, and the MSI-X table and masks where `msix`. What the outbound queue has taken, memory and the frames are
as before. -/
def HostCleared (msix : Bool) (e f : Engine) : Prop :=
  f.host.ctxs = [] ∧ f.host.locks = [] ∧ f.host.rings = [] ∧ f.host.started = [] ∧ f.host.held = [] ∧ f.host.frozen = []
    ∧ f.host.wait = [] ∧ f.host.used = 0 ∧ f.host.usedCtl = 0
    ∧ (msix = true → f.host.msix = [] ∧ f.host.pba = [] ∧ f.host.fnMask = false)
    ∧ (msix = false → f.host.msix = e.host.msix ∧ f.host.pba = e.host.pba ∧ f.host.fnMask = e.host.fnMask)
    ∧ f.host.out = e.host.out ∧ f.mem.cells = e.mem.cells ∧ f.frames = e.frames
    ∧ ∀ g : Fld, g.key < 32 * 0x100000 → g.key ≠ Reg.HST_CMTLEAD_LEAD.key → f.reg g = g.reset

/-! ### Events (R314 to R318, R322, R327, R329) -/

/-- From `e` to `f` nothing has changed but what raising events reaches: the event fabric's own state and registers, those from EVT on. -/
def EventsOnly (e f : Engine) : Prop :=
  f = { e with regs := f.regs, evt := f.evt }
    ∧ (e.regs.wf = true → f.regs.wf = true ∧ ∀ g : Fld, g.key < 32 * 0xE00000 → f.reg g = e.reg g)

/-! ### Spire cores (R268, R270, R274, R276, R278) -/

/-- The engine in which core `k` issues: what was due by its cycle has arrived (R274, R276). -/
def issuing (k : Nat) (s : State) : Engine := s.eng.settle k

/-- Core `k` runs, its program counter is aligned and lies in its instruction memory, the word there holds no error and is `w`, a word of Table
13.3 or of a coprocessor, and a control transfer does not stand in a delay slot (R268, R270, R279, R298). A service core fetches from outside
the model: there the command is itself the word (R292). -/
def ReadyFor (k w : Nat) (control : Bool) (s : State) : Prop :=
  k < 34 ∧ (s.eng.core k).st = 1 ∧ wordCause w = 0
    ∧ ((issuing k s).core k).pc % 4 = 0
    ∧ (isService k = false → ((issuing k s).core k).pc < 65536
        ∧ (issuing k s).spr.ecc.get (imemFld k (((issuing k s).core k).pc / 4)).key = 0
        ∧ (issuing k s).reg (imemFld k (((issuing k s).core k).pc / 4)) = w)
    ∧ (control = true → ((issuing k s).core k).slot = 0)

/-- The outcome is the next state in which core `k`, having been as it stood when it issued, has become some `c'` that `q` allows, `e`
being the engine with everything else that the instruction changes. -/
def IssuesIn (e : Engine) (k : Nat) (s : State) (o : Host.Outcome State Fault Refusal) (q : SpireCore → SpireCore → Prop) : Prop :=
  ∃ c', o = .next { s with eng := e.putCore k c' } ∧ q ((issuing k s).core k) c'

/-- Core `k` issues and nothing but the core changes. -/
def Issues (k : Nat) (s : State) (o : Host.Outcome State Fault Refusal) (q : SpireCore → SpireCore → Prop) : Prop :=
  IssuesIn (issuing k s) k s o q

/-- The program counter and the delay slot after an instruction that transfers no control (R278): in the second delay slot of a taken
transfer the next instruction is its target. -/
def SpireCore.stepped (c c' : SpireCore) : Prop :=
  c'.cyc = c.cyc + 1
    ∧ (c.slot = 0 → c'.pc = (c.pc + 4) % 2 ^ 32 ∧ c'.slot = 0)
    ∧ (c.slot = 1 → c'.pc = (c.pc + 4) % 2 ^ 32 ∧ c'.slot = 2 ∧ c'.slotTgt = c.slotTgt)
    ∧ (c.slot = 2 → c'.pc = c.slotTgt.getD ((c.pc + 4) % 2 ^ 32) ∧ c'.slot = 0)

/-- From `c` to `c'` the instruction has passed and nothing but the program counter, the cycle and the delay slot has changed. -/
def SpireCore.passed (c c' : SpireCore) : Prop :=
  c.stepped c' ∧ c' = { c with pc := c'.pc, cyc := c'.cyc, slot := c'.slot, slotTgt := c'.slotTgt }

/-- From `c` to `c'` the instruction has passed, and the result `v` is on its way to register `rd`, where it arrives at distance `d`; a
result for g0 goes nowhere (R266, R274, R276). -/
def SpireCore.gives (rd : BitVec 5) (v d : Nat) (c c' : SpireCore) : Prop :=
  c.stepped c' ∧ c' = { c with pc := c'.pc, cyc := c'.cyc, slot := c'.slot, slotTgt := c'.slotTgt
                               flight := insertFlight ⟨if rd = 0 then 0 else c.phys rd.toNat, v, c.cyc + d⟩ c.flight }

/-- From `c` to `c'` a control transfer to `tgt`, where it is taken, has issued: two delay slots follow (R278). -/
def SpireCore.transfers (tgt : Option Nat) (c c' : SpireCore) : Prop :=
  c' = { c with pc := (c.pc + 4) % 2 ^ 32, cyc := c.cyc + 1, slot := 1, slotTgt := tgt }

/-- The number of the delay slot in which the core stands, of a transfer that is taken; 0 for none (R282). -/
def SpireCore.dslot (c : SpireCore) : Nat := if c.slotTgt.isSome then c.slot else 0

/-- The core with an exception's fields recorded: CW_EPC, CW_EADDR, in a delay slot CW_ETGT, and CW_ECAUSE with DSLOT (R282). -/
def SpireCore.records (cause epc eaddr : Nat) (c : SpireCore) : SpireCore :=
  { c with cw := c.cw.puts ([(cwFld 4, epc), (cwFld 6, eaddr)] ++ (if c.dslot = 0 then [] else [(cwFld 7, c.slotTgt.getD 0)])
      ++ [(cwFld 5, cause + 16 * c.dslot)]) }

/-- From `c` to `c'` an exception has been taken: its fields are recorded, INX is set, and the instruction at CW_EVEC issues in the
third cycle, or after the last result in flight has arrived (R282). -/
def SpireCore.enters (cause epc eaddr : Nat) (c c' : SpireCore) : Prop :=
  let x := (c.records cause epc eaddr).setStat 4 true
  c' = { x with pc := c.cwv 8, slot := 0, slotTgt := none, cyc := max (c.cyc + 3) (c.lastDue + 1) }

/-- The core after a double fault: the fields of the second exception with cause 8, and halted (R285). -/
def SpireCore.doubleFault (epc eaddr : Nat) (c : SpireCore) : SpireCore :=
  { c.records 8 epc eaddr with st := 2, slot := 0, slotTgt := none }

/-- Core `k` takes an exception of cause `cause`; raised in an exception handler it is a double fault, which halts the core, raises the
halt event with the core's number and, of a service core, is a cause of FAULT (R282, R285, Table 21.7). -/
def Traps (k : Nat) (s : State) (o : Host.Outcome State Fault Refusal) (cause : Nat) (epc eaddr : SpireCore → Nat) : Prop :=
  let e := issuing k s
  let c := e.core k
  (c.inx = false → c.cw.wf = true → Issues k s o (SpireCore.enters cause (epc c) (eaddr c)))
    ∧ (c.inx = true → ∃ t, o = .next { s with eng := t }
        ∧ t = (if isService k then faultDetect 1 else id) ((e.putCore k (c.doubleFault (epc c) (eaddr c))).raise Src.halt k))

/-- The core, the word and whether it is a control transfer, of an instruction of Table 13.3 or of coprocessors CP0 to CP3
(Tables 13.2, 13.3, 14.3). -/
def spireWord : Instr → Option (Nat × Nat × Bool)
  | .add k rd ra rb => some (k, wordA 0 rd ra rb 1, false)
  | .sub k rd ra rb => some (k, wordA 0 rd ra rb 2, false)
  | .and k rd ra rb => some (k, wordA 0 rd ra rb 3, false)
  | .or k rd ra rb => some (k, wordA 0 rd ra rb 4, false)
  | .xor k rd ra rb => some (k, wordA 0 rd ra rb 5, false)
  | .nor k rd ra rb => some (k, wordA 0 rd ra rb 6, false)
  | .slt k rd ra rb => some (k, wordA 0 rd ra rb 7, false)
  | .sltu k rd ra rb => some (k, wordA 0 rd ra rb 8, false)
  | .shl k rd ra rb => some (k, wordA 0 rd ra rb 9, false)
  | .shr k rd ra rb => some (k, wordA 0 rd ra rb 10, false)
  | .shra k rd ra rb => some (k, wordA 0 rd ra rb 11, false)
  | .min k rd ra rb => some (k, wordA 0 rd ra rb 12, false)
  | .max k rd ra rb => some (k, wordA 0 rd ra rb 13, false)
  | .minu k rd ra rb => some (k, wordA 0 rd ra rb 14, false)
  | .maxu k rd ra rb => some (k, wordA 0 rd ra rb 15, false)
  | .clz k rd ra rb => some (k, wordA 0 rd ra rb 16, false)
  | .mul k rd ra rb => some (k, wordA 1 rd ra rb 0, false)
  | .mulh k rd ra rb => some (k, wordA 1 rd ra rb 1, false)
  | .mulhu k rd ra rb => some (k, wordA 1 rd ra rb 2, false)
  | .div k rd ra rb => some (k, wordA 1 rd ra rb 3, false)
  | .divu k rd ra rb => some (k, wordA 1 rd ra rb 4, false)
  | .rem k rd ra rb => some (k, wordA 1 rd ra rb 5, false)
  | .remu k rd ra rb => some (k, wordA 1 rd ra rb 6, false)
  | .jr k rd ra rb => some (k, wordA 2 rd ra rb 0, true)
  | .jalr k rd ra rb => some (k, wordA 2 rd ra rb 1, true)
  | .jmp k off => some (k, wordJ 4 off, true)
  | .jal k off => some (k, wordJ 5 off, true)
  | .addk k rd ra imm => some (k, wordK 8 rd ra imm, false)
  | .andk k rd ra imm => some (k, wordK 9 rd ra imm, false)
  | .ork k rd ra imm => some (k, wordK 10 rd ra imm, false)
  | .xork k rd ra imm => some (k, wordK 11 rd ra imm, false)
  | .sltk k rd ra imm => some (k, wordK 12 rd ra imm, false)
  | .sltuk k rd ra imm => some (k, wordK 13 rd ra imm, false)
  | .shlk k rd ra imm => some (k, wordK 14 rd ra imm, false)
  | .shrk k rd ra imm => some (k, wordK 15 rd ra imm, false)
  | .shrak k rd ra imm => some (k, wordK 16 rd ra imm, false)
  | .movh k rd ra imm => some (k, wordK 17 rd ra imm, false)
  | .ldb k rd ra imm => some (k, wordK 24 rd ra imm, false)
  | .ldbu k rd ra imm => some (k, wordK 25 rd ra imm, false)
  | .ldh k rd ra imm => some (k, wordK 26 rd ra imm, false)
  | .ldhu k rd ra imm => some (k, wordK 27 rd ra imm, false)
  | .ldw k rd ra imm => some (k, wordK 28 rd ra imm, false)
  | .stb k rs ra imm => some (k, wordK 29 rs ra imm, false)
  | .sth k rs ra imm => some (k, wordK 30 rs ra imm, false)
  | .stw k rs ra imm => some (k, wordK 31 rs ra imm, false)
  | .beq k ra rb off => some (k, wordK 32 ra rb off, true)
  | .bne k ra rb off => some (k, wordK 33 ra rb off, true)
  | .blt k ra rb off => some (k, wordK 34 ra rb off, true)
  | .bge k ra rb off => some (k, wordK 35 ra rb off, true)
  | .bltu k ra rb off => some (k, wordK 36 ra rb off, true)
  | .bgeu k ra rb off => some (k, wordK 37 ra rb off, true)
  | .sys k rd ra low => some (k, wordK 0x30 rd ra low, false)
  | .wff k rd ra rb func => some (k, wordA 0x31 rd ra rb func.toNat, true)
  | .eret k low => some (k, wordJ 0x32 low, true)
  | .feret k low => some (k, wordJ 0x33 low, true)
  | .trap k rd ra imm => some (k, wordK 0x34 rd ra imm, true)
  | .ocnt k rd ra rb => some (k, wordA (0x38 + 0) rd ra rb 1, false)
  | .orec k rd ra rb => some (k, wordA (0x38 + 0) rd ra rb 2, false)
  | .cell k rd ra rb => some (k, wordA (0x38 + 1) rd ra rb 1, false)
  | .gather k rd ra rb => some (k, wordA (0x38 + 1) rd ra rb 2, false)
  | .hadd k rd ra rb => some (k, wordA (0x38 + 2) rd ra rb 1, false)
  | .hget k rd ra rb => some (k, wordA (0x38 + 2) rd ra rb 2, false)
  | .hclr k rd ra rb => some (k, wordA (0x38 + 2) rd ra rb 3, false)
  | .fetch k rd ra rb => some (k, wordA (0x38 + 2) rd ra rb 4, false)
  | .resw k rd ra rb => some (k, wordA (0x38 + 3) rd ra rb 1, false)
  | .resor k rd ra rb => some (k, wordA (0x38 + 3) rd ra rb 2, false)
  | .resget k rd ra rb => some (k, wordA (0x38 + 3) rd ra rb 3, false)
  | .qget k rd ra rb => some (k, wordA (0x38 + 3) rd ra rb 4, false)
  | _ => none

end Sys2Proof.Machine
end

