-- ==== Sys2Proof/Certificates/Slice0/Obligations.lean ====
section
/-! DEFINITION. The statements for the provers. A statement speaks of a command by `exec`, of a step by `step`; the vocabulary is that of
Safety.lean. -/

open Sys2Proof Sys2Proof.Machine

/-- Table 13.3, opcode 0x00 (R271, R274): each instruction on a core that is ready for its word puts its result on its way to rd at distance
1, and changes nothing else but the program counter and the cycle. A row for a service core stands for the word at its program counter
(assumption 23). -/
def Obligations.SpireArithmetic : Prop :=
  ∀ (k : Nat) (rd ra rb : BitVec 5) (s : State),
    let c := (issuing k s).core k
    let a := c.word ra
    let b := c.word rb
    let sh := b.toNat % 32
    let op := fun (i : Instr) (func : Nat) (v : BitVec 32) =>
      ReadyFor k (wordA 0 rd ra rb func) false s → Issues k s (exec i s) (SpireCore.gives rd v.toNat 1)
    op (.add k rd ra rb) 1 (a + b)
    ∧ op (.sub k rd ra rb) 2 (a - b)
    ∧ op (.and k rd ra rb) 3 (a &&& b)
    ∧ op (.or k rd ra rb) 4 (a ||| b)
    ∧ op (.xor k rd ra rb) 5 (a ^^^ b)
    ∧ op (.nor k rd ra rb) 6 (~~~(a ||| b))
    ∧ op (.slt k rd ra rb) 7 (if a.toInt < b.toInt then 1 else 0)
    ∧ op (.sltu k rd ra rb) 8 (if a.toNat < b.toNat then 1 else 0)
    ∧ op (.shl k rd ra rb) 9 (BitVec.ofNat 32 (a.toNat * 2 ^ sh))
    ∧ op (.shr k rd ra rb) 10 (BitVec.ofNat 32 (a.toNat / 2 ^ sh))
    ∧ op (.shra k rd ra rb) 11 (BitVec.ofInt 32 (a.toInt / 2 ^ sh))
    ∧ op (.min k rd ra rb) 12 (BitVec.ofInt 32 (min a.toInt b.toInt))
    ∧ op (.max k rd ra rb) 13 (BitVec.ofInt 32 (max a.toInt b.toInt))
    ∧ op (.minu k rd ra rb) 14 (BitVec.ofNat 32 (min a.toNat b.toNat))
    ∧ op (.maxu k rd ra rb) 15 (BitVec.ofNat 32 (max a.toNat b.toNat))
    ∧ (∀ n : Nat, n ≤ 32 → a.toNat < 2 ^ (32 - n) → (n < 32 → 2 ^ (31 - n) ≤ a.toNat) → op (.clz k rd ra rb) 16 (BitVec.ofNat 32 n))

/-- Table 13.3, opcode 0x01, with the special cases of Table 13.5 (R271, R273): products at distance 3, quotients and remainders at distance
18. -/
def Obligations.SpireMultiplyDivide : Prop :=
  ∀ (k : Nat) (rd ra rb : BitVec 5) (s : State),
    let c := (issuing k s).core k
    let a := c.word ra
    let b := c.word rb
    let op := fun (i : Instr) (func : Nat) (v : BitVec 32) (d : Nat) =>
      ReadyFor k (wordA 1 rd ra rb func) false s → Issues k s (exec i s) (SpireCore.gives rd v.toNat d)
    op (.mul k rd ra rb) 0 (BitVec.ofNat 32 (a.toNat * b.toNat)) 3
    ∧ op (.mulh k rd ra rb) 1 (BitVec.ofInt 32 (a.toInt * b.toInt / 2 ^ 32)) 3
    ∧ op (.mulhu k rd ra rb) 2 (BitVec.ofNat 32 (a.toNat * b.toNat / 2 ^ 32)) 3
    ∧ op (.div k rd ra rb) 3 (if b = 0 then 0xFFFFFFFF else BitVec.ofInt 32 (a.toInt.tdiv b.toInt)) 18
    ∧ op (.divu k rd ra rb) 4 (if b = 0 then 0xFFFFFFFF else BitVec.ofNat 32 (a.toNat / b.toNat)) 18
    ∧ op (.rem k rd ra rb) 5 (if b = 0 then a else BitVec.ofInt 32 (a.toInt.tmod b.toInt)) 18
    ∧ op (.remu k rd ra rb) 6 (if b = 0 then a else BitVec.ofNat 32 (a.toNat % b.toNat)) 18

/-- Table 13.3, format K (R271): immediates, extended as each instruction says, at distance 1. A row for a service core stands for the word
at its program counter (assumption 23). -/
def Obligations.SpireImmediates : Prop :=
  ∀ (k : Nat) (rd ra : BitVec 5) (imm : BitVec 16) (s : State),
    let a := ((issuing k s).core k).word ra
    let sx := BitVec.ofInt 32 imm.toInt
    let zx := BitVec.ofNat 32 imm.toNat
    let sh := imm.toNat % 32
    let op := fun (i : Instr) (major : Nat) (v : BitVec 32) =>
      ReadyFor k (wordK major rd ra imm) false s → Issues k s (exec i s) (SpireCore.gives rd v.toNat 1)
    op (.addk k rd ra imm) 0x08 (a + sx)
    ∧ op (.andk k rd ra imm) 0x09 (a &&& zx)
    ∧ op (.ork k rd ra imm) 0x0A (a ||| zx)
    ∧ op (.xork k rd ra imm) 0x0B (a ^^^ zx)
    ∧ op (.sltk k rd ra imm) 0x0C (if a.toInt < imm.toInt then 1 else 0)
    ∧ op (.sltuk k rd ra imm) 0x0D (if a.toNat < sx.toNat then 1 else 0)
    ∧ op (.shlk k rd ra imm) 0x0E (BitVec.ofNat 32 (a.toNat * 2 ^ sh))
    ∧ op (.shrk k rd ra imm) 0x0F (BitVec.ofNat 32 (a.toNat / 2 ^ sh))
    ∧ op (.shrak k rd ra imm) 0x10 (BitVec.ofInt 32 (a.toInt / 2 ^ sh))
    ∧ op (.movh k rd ra imm) 0x11 (BitVec.ofNat 32 (imm.toNat * 2 ^ 16))

/-- Loads and stores (R267, R271, R277): the address is ra + sext(imm16); a load gives the byte, half-word or word there, extended, at
distance 3; a store writes the low bits of rs there, before the next access; either takes one cycle; an address that is not a multiple of
the access size raises ALIGN and nothing is read or written, an aligned one outside data memory BUS (R268), and a word with two bad bits
MEMERR; one bad bit is corrected and counted (R298). What a store writes: data memory reads back the stored bytes at the stored address, and
every byte outside them, of every core, reads as before. Memory is little-endian. -/
def Obligations.SpireLoadsStores : Prop :=
  (∀ (k : Nat) (rd ra : BitVec 5) (imm : BitVec 16) (s : State),
     let e := issuing k s
     let c := e.core k
     let a := (c.word ra + BitVec.ofInt 32 imm.toInt).toNat
     let m := e.spr.ecc.get (dmemFld k (a / 4)).key
     let counted := e.bump (Reg.SPR_CECC_COUNT k)
     let stops := fun (i : Instr) (n : Nat) =>
       (a % n ≠ 0 → Traps k s (exec i s) 3 (fun c => c.pc) (fun _ => a))
       ∧ (a % n = 0 → 65536 ≤ a → Traps k s (exec i s) 4 (fun c => c.pc) (fun _ => a))
     let load := fun (i : Instr) (major n : Nat) (v : BitVec 32) => ReadyFor k (wordK major rd ra imm) false s →
       (a % n = 0 → a < 65536 → m = 0 → Issues k s (exec i s) (SpireCore.gives rd v.toNat 3))
       ∧ (a % n = 0 → a < 65536 → popCount 39 m = 1 → IssuesIn counted k s (exec i s) (SpireCore.gives rd v.toNat 3))
       ∧ (a % n = 0 → a < 65536 → popCount 39 m = 2 → Traps k s (exec i s) 7 (fun c => c.pc) (fun _ => a))
       ∧ stops i n
     let store := fun (i : Instr) (major n : Nat) => ReadyFor k (wordK major rd ra imm) false s →
       (a % n = 0 → a < 65536 → m = 0 ∨ n = 4 → IssuesIn (e.dmemStore k a n (c.get rd.toNat)) k s (exec i s) SpireCore.passed)
       ∧ (a % n = 0 → a < 65536 → n ≠ 4 → popCount 39 m = 1 →
           IssuesIn (counted.dmemStore k a n (c.get rd.toNat)) k s (exec i s) SpireCore.passed)
       ∧ (a % n = 0 → a < 65536 → n ≠ 4 → popCount 39 m = 2 → Traps k s (exec i s) 7 (fun c => c.pc) (fun _ => a))
       ∧ stops i n
     load (.ldb k rd ra imm) 0x18 1 (BitVec.ofInt 32 (BitVec.ofNat 8 (e.dmemGet k a 1)).toInt)
     ∧ load (.ldbu k rd ra imm) 0x19 1 (BitVec.ofNat 32 (e.dmemGet k a 1))
     ∧ load (.ldh k rd ra imm) 0x1A 2 (BitVec.ofInt 32 (BitVec.ofNat 16 (e.dmemGet k a 2)).toInt)
     ∧ load (.ldhu k rd ra imm) 0x1B 2 (BitVec.ofNat 32 (e.dmemGet k a 2))
     ∧ load (.ldw k rd ra imm) 0x1C 4 (BitVec.ofNat 32 (e.dmemGet k a 4))
     ∧ store (.stb k rd ra imm) 0x1D 1
     ∧ store (.sth k rd ra imm) 0x1E 2
     ∧ store (.stw k rd ra imm) 0x1F 4)
  ∧ (∀ (e : Engine) (k a n v : Nat), e.canonical = true → k < 34 → a < 65536 → n = 1 ∨ n = 2 ∨ n = 4 → a % n = 0 →
     (e.dmemStore k a n v).dmemGet k a n = v % 2 ^ (8 * n)
     ∧ (∀ j b, j < 34 → b < 65536 → (j ≠ k ∨ b < a ∨ a + n ≤ b) → (e.dmemStore k a n v).dmemGet j b 1 = e.dmemGet j b 1)
     ∧ (e.dmemStore k a n v).spr.ecc.get (dmemFld k (a / 4)).key = 0
     ∧ ∀ g : Fld, g.key ≠ (dmemFld k (a / 4)).key → (e.dmemStore k a n v).spr.ecc.get g.key = e.spr.ecc.get g.key)
  ∧ (∀ (e : Engine) (k a : Nat),
     (a % 2 = 0 → e.dmemGet k a 2 = e.dmemGet k a 1 + 256 * e.dmemGet k (a + 1) 1)
     ∧ (a % 4 = 0 → e.dmemGet k a 4 = e.dmemGet k a 2 + 65536 * e.dmemGet k (a + 2) 2))

/-- Jumps and branches (R271, R278): a taken one goes to its target after two delay slots, one whose condition fails runs on; JAL and JALR
put the address after the second slot on its way to the link register; in a delay slot any of them raises ILLEGAL (R279). A row for a
service core stands for the word at its program counter (assumption 23). -/
def Obligations.SpireTransfers : Prop :=
  ∀ (k : Nat) (rd ra rb : BitVec 5) (off : BitVec 16) (far : BitVec 26) (s : State),
    let c := (issuing k s).core k
    let a := c.word ra
    let b := c.word rb
    let near := (w32 c.pc + 4 * BitVec.ofInt 32 off.toInt).toNat
    let dist := (w32 c.pc + 4 * BitVec.ofInt 32 far.toInt).toNat
    let branch := fun (i : Instr) (major : Nat) (taken : Prop) => ReadyFor k (wordK major ra rb off) true s →
      (taken → Issues k s (exec i s) (SpireCore.transfers (some near))) ∧ (¬taken → Issues k s (exec i s) (SpireCore.transfers none))
    let link := fun (r : Nat) (tgt : Nat) (c c' : SpireCore) =>
      SpireCore.transfers (some tgt) (c.result r ((c.pc + 12) % 2 ^ 32) 1) c'
    branch (.beq k ra rb off) 0x20 (a = b)
    ∧ branch (.bne k ra rb off) 0x21 (a ≠ b)
    ∧ branch (.blt k ra rb off) 0x22 (a.toInt < b.toInt)
    ∧ branch (.bge k ra rb off) 0x23 (b.toInt ≤ a.toInt)
    ∧ branch (.bltu k ra rb off) 0x24 (a.toNat < b.toNat)
    ∧ branch (.bgeu k ra rb off) 0x25 (b.toNat ≤ a.toNat)
    ∧ (ReadyFor k (wordA 2 rd ra rb 0) true s → Issues k s (exec (.jr k rd ra rb) s) (SpireCore.transfers (some a.toNat)))
    ∧ (ReadyFor k (wordA 2 rd ra rb 1) true s → Issues k s (exec (.jalr k rd ra rb) s) (link rd.toNat a.toNat))
    ∧ (ReadyFor k (wordJ 4 far) true s → Issues k s (exec (.jmp k far) s) (SpireCore.transfers (some dist)))
    ∧ (ReadyFor k (wordJ 5 far) true s → Issues k s (exec (.jal k far) s) (link 31 dist))

/-- SYS (R280): rd takes the control word's value; with W = 1 the word then becomes ra, for the next instruction. Reading CW_CYC_LO freezes
CW_CYC_HI, reading that releases it, reading CW_IWMAX clears it; a number that no table lists raises ILLEGAL. A write changes the RW fields
of its word (Tables 13.6, 14.2), and nothing of any other. -/
def Obligations.SpireControlWords : Prop :=
  (∀ (k : Nat) (rd ra : BitVec 5) (low : BitVec 16) (s : State), ReadyFor k (wordK 0x30 rd ra low) false s →
     let c := (issuing k s).core k
     let n := low.toNat % 4096
     let high := c.cycHi.getD (c.cyc / 2 ^ 32 % 2 ^ 32)
     let gives := fun (v : Nat) (after : SpireCore) => Issues k s (exec (.sys k rd ra low) s) (fun _ c' =>
       ∃ m, SpireCore.gives rd (v % 2 ^ 32) 1 after m ∧ c' = if 32768 ≤ low.toNat then cwWrite m n (c.get ra.toNat) else m)
     (n = 0 ∨ (4 ≤ n ∧ n ≤ 14) ∨ n = 0x100 ∨ n = 0x103 ∨ n = 0x104 ∨ n = 0x105 → gives (c.cwv n) c)
     ∧ (n = 1 → gives (if 32 ≤ k then k + 256 else k) c)
     ∧ (n = 2 → gives c.cyc { c with cycHi := some high })
     ∧ (n = 3 → gives high { c with cycHi := none })
     ∧ (n = 15 → gives (c.cwv 15) (c.setCw 15 0))
     ∧ (∀ i, i < 8 → n = 0x40 + i → gives (c.regs.get (32 + i)) c)
     ∧ (∀ i, i < 8 → n = 0x48 + i → gives (c.regs.get (24 + i)) c)
     ∧ (n = 0x101 → gives (min (c.endAt - c.cyc) 65535) c)
     ∧ (n = 0x102 → gives (interleave (issuing k s).active + 256 * mulOf ((issuing k s).act Reg.TIM_CLK_M)) c)
     ∧ ((15 < n ∧ n < 0x40) ∨ (0x4F < n ∧ n < 0x100) ∨ 0x105 < n →
         Traps k s (exec (.sys k rd ra low) s) 1 (fun c => c.pc) (fun _ => 0)))
  ∧ (∀ (c : SpireCore) (n v : Nat), c.cw.wf = true → v < 2 ^ 32 →
     (∀ m, m ≠ n → (cwWrite c n v).cwv m = c.cwv m)
     ∧ (n < 0x40 ∨ 0x4F < n → (cwWrite c n v).regs = c.regs)
     ∧ (c.cwv 0 < 32 → n = 0 → (cwWrite c n v).cwv 0 = c.cwv 0 / 4 * 4 + v % 4)
     ∧ (n = 4 ∨ n = 7 ∨ n = 9 ∨ n = 12 → (cwWrite c n v).cwv n = v)
     ∧ (c.cwv 5 < 64 → n = 5 → (cwWrite c n v).cwv 5 = v % 64)
     ∧ (c.cwv n % 4 = 0 → n = 8 ∨ n = 10 ∨ n = 13 → (cwWrite c n v).cwv n = v / 4 * 4)
     ∧ (c.cwv n < 2 ^ 32 → n = 1 ∨ n = 2 ∨ n = 3 ∨ n = 6 ∨ n = 11 ∨ n = 14 ∨ n = 15 ∨ (0x100 ≤ n ∧ n ≤ 0x102) → (cwWrite c n v).cwv n = c.cwv n)
     ∧ (c.cwv n < 4 → n = 0x103 → (cwWrite c n v).cwv n = if v % 2 = 1 then c.cwv n / 2 * 2 else c.cwv n)
     ∧ (c.cwv n < 2 ^ 13 → n = 0x104 → (cwWrite c n v).cwv n = v % 2 ^ 13)
     ∧ (c.cwv n < 2 ^ 14 → n = 0x105 → (cwWrite c n v).cwv n = v % 2 ^ 14)
     ∧ (∀ i, i < 8 → c.regs.wf = true → n = 0x40 + i → (cwWrite c n v).regs.get (32 + i) = v ∧ ∀ r, r ≠ 32 + i → (cwWrite c n v).regs.get r = c.regs.get r)
     ∧ (∀ i, i < 8 → c.regs.wf = true → n = 0x48 + i → (cwWrite c n v).regs.get (24 + i) = v ∧ ∀ r, r ≠ 24 + i → (cwWrite c n v).regs.get r = c.regs.get r))

/-- Exceptions at issue (R268, R270, R279, R282, R284, R285): whatever instruction a running core comes to, a program counter outside
instruction memory or not aligned raises FETCH, a word that Table 13.3 does not list ILLEGAL (a coprocessor function that does not exist,
CP), a word that holds an uncorrectable error MEMERR, and a control transfer in a delay slot ILLEGAL; TRAP raises cause 5 with CW_EPC after
it and its code in CW_EADDR. A core that is stopped, halted or waiting issues nothing. That FETCH is judged before the word, and the word
before its place in a delay slot, is the model's reading (assumption 53); a row for a service core stands for the word at its program
counter (assumption 23). -/
def Obligations.SpireExceptions : Prop :=
  (∀ (i : Instr) (k w : Nat) (control : Bool) (s : State), spireWord i = some (k, w, control) → k < 34 → (s.eng.core k).st = 1 →
    let e := issuing k s
    let pc := (e.core k).pc
    let x := if isService k then w else e.reg (imemFld k (pc / 4))
    let m := if isService k then 0 else e.spr.ecc.get (imemFld k (pc / 4)).key
    let fetched := pc % 4 = 0 ∧ (isService k = true ∨ pc < 65536)
    ((isService k = false ∧ 65536 ≤ pc) ∨ pc % 4 ≠ 0 → Traps k s (exec i s) 2 (fun c => c.pc) (fun c => c.pc))
    ∧ (fetched → popCount 39 m = 2 → Traps k s (exec i s) 7 (fun c => c.pc) (fun c => c.pc))
    ∧ (fetched → m = 0 → wordCause x ≠ 0 → Traps k s (exec i s) (wordCause x) (fun c => c.pc) (fun _ => 0))
    ∧ (fetched → m = 0 → wordCause x = 0 → x = w → control = true → (e.core k).slot ≠ 0 →
        Traps k s (exec i s) 1 (fun c => c.pc) (fun _ => 0)))
  ∧ (∀ (k : Nat) (rd ra : BitVec 5) (imm : BitVec 16) (s : State), ReadyFor k (wordK 0x34 rd ra imm) true s →
    Traps k s (exec (.trap k rd ra imm) s) 5 (fun c => (c.pc + 4) % 2 ^ 32) (fun _ => imm.toNat))
  ∧ (∀ (i : Instr) (k w : Nat) (control : Bool) (s : State), spireWord i = some (k, w, control) → (s.eng.core k).st ≠ 1 → exec i s = .next s)

/-- ERET, FERET and WFF (R283, R287, R289, R290, R296): a return waits until no result is in flight, clears its bit of CW_STAT and resumes
at the saved address, ERET from an exception in a delay slot with the rest of the transfer; where there is nothing to return from it raises
ILLEGAL. WFF waits for its destination; on a decision core whose budget still runs it finishes the frame. -/
def Obligations.SpireReturnsAndWait : Prop :=
  ∀ (k : Nat) (rd ra rb : BitVec 5) (func : BitVec 11) (low : BitVec 26) (s : State),
    let e := issuing k s
    let c := e.core k
    let d := c.cwv 5 / 16 % 4
    let later := max (c.cyc + 1) c.lastDue
    (ReadyFor k (wordJ 0x32 low) true s →
      (c.inx = true → d = 1 ∨ d = 2 → Issues k s (exec (.eret k low) s) (fun c c' =>
          c' = { c.setStat 4 false with cyc := later, pc := c.cwv 4, slot := d, slotTgt := some (c.cwv 7) }))
      ∧ (c.inx = true → d = 0 → Issues k s (exec (.eret k low) s) (fun c c' => c' = { c.setStat 4 false with cyc := later, pc := c.cwv 4 }))
      ∧ (c.inx = false → c.inn = true →
          Issues k s (exec (.eret k low) s) (fun c c' => c' = { c.setStat 2 false with cyc := later, pc := c.cwv 9 }))
      ∧ (c.inx = false → c.inn = false → Traps k s (exec (.eret k low) s) 1 (fun c => c.pc) (fun _ => 0)))
    ∧ (ReadyFor k (wordJ 0x33 low) true s →
      (c.inf = true → c.inx = false → Issues k s (exec (.feret k low) s) (fun c c' => c' = { c.setStat 3 false with cyc := later, pc := c.cwv 12 }))
      ∧ (c.inf = false ∨ c.inx = true → Traps k s (exec (.feret k low) s) 1 (fun c => c.pc) (fun _ => 0)))
    ∧ (ReadyFor k (wordA 0x31 rd ra rb func.toNat) true s →
      (isService k = true ∨ c.frame = none ∨ c.done = true ∨ c.endAt ≤ c.cyc →
        Issues k s (exec (.wff k rd ra rb func) s) (fun c c' => c' = { c with st := 3, waitRd := rd.toNat }))
      ∧ (∀ f, isService k = false → c.frame = some f → c.done = false → c.cyc < c.endAt →
        let e0 := mapFrame e f (fun x => if x.dec.covr then x else { x with dec := { x.dec with res := c.resw, resOk := true } })
        let e1 := e0.setReg (Reg.SPR_CRES_RES k) c.resw
        IssuesIn (e1.setReg (Reg.SPR_CMAXC_CYC k) (satU 16 (max (e1.reg (Reg.SPR_CMAXC_CYC k)) (c.cyc - c.tookAt)))) k s
          (exec (.wff k rd ra rb func) s) (fun c c' => c' = { c with done := true, st := 3, waitRd := rd.toNat })))

/-- RESULT_ARRIVE (R274, R276): the first result in flight reaches its register, one for g0 none; a core that issues nothing comes to the
cycle of that arrival. That the row advances a core which issues nothing is the model's choice (assumption 7). -/
def Obligations.SpireResultsArrive : Prop :=
  ∀ (k : Nat) (s : State) (x : Flight) (rest : List Flight), k < 34 →
    let c := s.eng.core k
    let got := if x.dst = 0 then c.regs else c.regs.set x.dst x.val
    c.flight = x :: rest → c.gather = [] →
    (c.st = 1 → x.due ≤ c.cyc → (∀ y ∈ rest, c.cyc < y.due) →
      exec (.resultArrive k) s = .next { s with eng := s.eng.putCore k { c with flight := rest, regs := got } })
    ∧ (c.st ≠ 1 → s.eng.spr.cores.length = 34 → (∀ y ∈ rest, max c.cyc x.due < y.due) →
      let c2 : SpireCore := { c with cyc := max c.cyc x.due }
      exec (.resultArrive k) s = .next { s with eng := (s.eng.putCore k c2).putCore k { c2 with flight := rest, regs := got } })

/-- NORMAL_INTERRUPT_ENTRY and FAST_INTERRUPT_ENTRY at a clean boundary (R286 to R288, R332): the source presented is accepted; the core
saves the address after the boundary and the source, sets INN or INF, and issues the instruction at the vector. WFF_COMPLETE (R290, R295,
R335): a service core that waits takes the number of the source presented to it, counts the wake, and runs on; a decision core that waits
takes the oldest frame newer than its last whose budget has not ended, is RUNNING with that frame's crossing number on its way to rd, and
has a fetch that is due delivered. The cycle of the handler's first instruction and the class that wakes first are the model's readings
(assumptions 51 and 58). -/
def Obligations.SpireInterruptsAndWakes : Prop :=
  (∀ (k b src : Nat) (s : State), k < 34 →
     let c := s.eng.core k
     let e1 := (s.eng.putCore k { c with cyc := b }).settle k
     let c1 := e1.core k
     let enters := fun (pcw srcw vecw stat pres : Nat) => e1.putCore k
       { (((c1.setCw pcw c1.pc).setCw srcw src).setStat stat true).setCw 15 (max (c1.cwv 15) (min (b - pres) 65535)) with
         st := 1, pc := c1.cwv vecw, cyc := b + 2 }
     let accepts := fun (pres : Nat) =>
       (c.st = 1 ∧ c.slot = 0 ∧ c.inx = false ∧ c.lastDue ≤ c.cyc ∧ pres ≤ c.cyc ∧ b = c.cyc)
         ∨ (c.st = 3 ∧ isService k = false ∧ c.slot = 0 ∧ c.inx = false ∧ b = max (max c.cyc c.lastDue) pres)
     (accepts c.presN → s.eng.reg (Reg.IRQ_TPRES_NVALID k) = 1 → src = s.eng.reg (Reg.IRQ_TPRES_NSRC k) → c.ie = true → c.inn = false → c.inf = false →
         (c.fie = false ∨ s.eng.reg (Reg.IRQ_TPRES_FVALID k) ≠ 1) →
       exec (.normalInterruptEntry k) s = .next { s with eng := irqAccept k 0 src (enters 9 11 10 2 c.presN) })
     ∧ (accepts c.presF → s.eng.reg (Reg.IRQ_TPRES_FVALID k) = 1 → src = s.eng.reg (Reg.IRQ_TPRES_FSRC k) → c.fie = true → c.inf = false →
       exec (.fastInterruptEntry k) s = .next { s with eng := irqAccept k 1 src (enters 12 14 13 3 c.presF) }))
  ∧ (∀ (k : Nat) (s : State), (s.eng.core k).st = 3 →
     let e := s.eng
     let c := e.core k
     (∀ src, (k = 32 ∨ k = 33) →
         (e.reg (Reg.IRQ_TPRES_FVALID k) = 1 ∧ src = e.reg (Reg.IRQ_TPRES_FSRC k))
           ∨ (e.reg (Reg.IRQ_TPRES_FVALID k) ≠ 1 ∧ e.reg (Reg.IRQ_TPRES_NVALID k) = 1 ∧ src = e.reg (Reg.IRQ_TPRES_NSRC k)) →
       let p := max (max c.cyc c.lastDue) (if e.reg (Reg.IRQ_TPRES_FVALID k) = 1 then c.presF else c.presN)
       let e1 := (e.putCore k { c with cyc := p }).settle k
       let c1 := ((e1.core k).result c.waitRd src 1).advance
       exec (.wffComplete k) s = .next { s with eng := (e1.putCore k { c1 with st := 1 }).bump (Reg.IRQ_TWAKE_COUNT k) })
     ∧ (∀ f, k < 32 → e.locked = true → c.frame = none → (framesOf e k).find? (fun f => decide (max c.cyc c.lastDue < budgetEnd e f)) = some f →
       let p := max (max c.cyc c.lastDue) (availCycle e f)
       let e1 := mapFrame ((e.putCore k { c with cyc := p }).settle k) f (fun x => { x with dec := { x.dec with taken := true } })
       let c1 := (((e1.core k).setCw 0x100 (f.n % 2 ^ 32)).result c.waitRd (f.n % 2 ^ 32) 1).advance
       let c2 : SpireCore := { c1 with st := 1, resw := 0, frame := some f, tookAt := p, endAt := budgetEnd e f, done := false }
       exec (.wffComplete k) s = .next { s with eng := deliverFetch (e1.putCore k c2) k f }))

/-- CP0, CP1 and CP3 functions that return a result on a decision core (R291, R300, R302, R305): the kept objects, a word of an object
record, a cell of a held frame, the result word, a frame quantity, each at its distance; before the first frame they read 0; a reserved
selector raises CP. That OCNT alone of its kind checks rb, and raises CP, is the model's reading (assumption 85). -/
def Obligations.SpireFrameReads : Prop :=
  ∀ (k : Nat) (rd ra rb : BitVec 5) (s : State), k < 32 →
    let e := issuing k s
    let c := e.core k
    let a := c.get ra.toNat
    let b := c.get rb.toNat
    let reads := fun (i : Instr) (cp func v d : Nat) =>
      ReadyFor k (wordA (0x38 + cp) rd ra rb func) false s → Issues k s (exec i s) (SpireCore.gives rd (v % 2 ^ 32) d)
    (c.frame = none →
      reads (.ocnt k rd ra rb) 0 1 0 2 ∧ reads (.orec k rd ra rb) 0 2 0 3 ∧ reads (.cell k rd ra rb) 1 1 0 4)
    ∧ (∀ f, c.frame = some f →
      reads (.ocnt k rd ra rb) 0 1 (f.pic.objs.getD (a % 2) []).length 2
      ∧ ((f.pic.objs.getD (a / 256 % 2) []).length ≤ a % 256 → reads (.orec k rd ra rb) 0 2 0 3)
      ∧ (∀ o, (f.pic.objs.getD (a / 256 % 2) [])[a % 256]? = some o →
          reads (.orec k rd ra rb) 0 2 ((objWords f (a / 256 % 2) (a % 256) o).getD (b % 4) 0) 3)
      ∧ (heldFrame e c (b % 64) = none → reads (.cell k rd ra rb) 1 1 0x80000000 4)
      ∧ (∀ x, heldFrame e c (b % 64) = some x →
          let row := a / 256 % 128
          reads (.cell k rd ra rb) 1 1 (if row < mapRows x.cfg then x.cell (a / 65536 % 2) (a % 256 % mapCols x.cfg) row else 0) 4))
    ∧ reads (.resget k rd ra rb) 3 3 c.resw 1
    ∧ (∀ v, frameQuantity c a = some v → reads (.qget k rd ra rb) 3 4 v 2)
    ∧ (frameQuantity c a = none → ReadyFor k (wordA 0x3B rd ra rb 4) false s →
        Traps k s (exec (.qget k rd ra rb) s) 6 (fun c => c.pc) (fun _ => 0))

/-- GATHER (R301, R302): the window's cells go row by row to data memory from rb on, four each cycle from the fourth, and rd takes their
number, with bit 31 set and zeros written where the frame is not held; an odd rb raises ALIGN, a window past the end BUS. -/
def Obligations.SpireGather : Prop :=
  ∀ (k : Nat) (rd ra rb : BitVec 5) (s : State), k < 32 → ReadyFor k (wordA 0x39 rd ra rb 2) false s →
    let e := issuing k s
    let c := e.core k
    let a := c.get ra.toNat
    let b := c.get rb.toNat
    let win := c.cwv 0x105
    let w := win % 16 + 1
    let n := w * (win / 16 % 16 + 1)
    let x := heldFrame e c (win / 256 % 64)
    let v := fun j => match x with
      | some x => stageCell x (a / 65536 % 2) (a % 256 + j % w) (a / 256 % 128 + j / w)
      | none => 0
    (b % 2 ≠ 0 → Traps k s (exec (.gather k rd ra rb) s) 3 (fun c => c.pc) (fun _ => b))
    ∧ (b % 2 = 0 → 65536 < b + 2 * n → Traps k s (exec (.gather k rd ra rb) s) 4 (fun c => c.pc) (fun _ => b))
    ∧ (b % 2 = 0 → b + 2 * n ≤ 65536 →
        Issues k s (exec (.gather k rd ra rb) s) (fun c c' =>
          ∃ m, SpireCore.gives rd (if x = none ∧ c.frame ≠ none then 0x80000000 + n else n) (4 + ceilDiv n 4) c m
            ∧ c' = { m with gather := (List.range n).foldl (fun g j => insertFlight ⟨b + 2 * j, v j, c.cyc + 4 + j / 4⟩ g) c.gather }))

/-- CP2 and the result word (R291, R299, R300, R303, R304): HADD, HGET and HCLR on the core's bins; RESW and RESOR on the result word; FETCH
records source, destination and length and sets BUSY, and raises ALIGN, BUS or, while BUSY, CP; a function without a result raises CP where
rd is not 0. On a service core the bins and FETCH are there, the others raise CP (R292). -/
def Obligations.SpireBinsResultFetch : Prop :=
  ∀ (k : Nat) (rd ra rb : BitVec 5) (s : State),
    let e := issuing k s
    let c := e.core k
    let a := c.get ra.toNat
    let b := c.get rb.toNat
    let bin := c.bins.get (a % 256)
    let len := c.cwv 0x104
    let top := if isService k then 96 * 2 ^ 20 else 2 ^ 21
    let cp := fun (i : Instr) => Traps k s (exec i s) 6 (fun c => c.pc) (fun _ => 0)
    let does := fun (i : Instr) (q : SpireCore → SpireCore) =>
      (rd = 0 → Issues k s (exec i s) (fun c c' => ∃ m, SpireCore.passed c m ∧ c' = q m)) ∧ (rd ≠ 0 → cp i)
    (ReadyFor k (wordA 0x3A rd ra rb 1) false s →
      does (.hadd k rd ra rb) (fun m => { m with bins := m.bins.set (a % 256) ((bin + b) % 2 ^ 32) }))
    ∧ (ReadyFor k (wordA 0x3A rd ra rb 2) false s → Issues k s (exec (.hget k rd ra rb) s) (SpireCore.gives rd (bin % 2 ^ 32) 2))
    ∧ (ReadyFor k (wordA 0x3A rd ra rb 3) false s → does (.hclr k rd ra rb) (fun m => { m with bins := [] }))
    ∧ (k < 32 → ReadyFor k (wordA 0x3B rd ra rb 1) false s → does (.resw k rd ra rb) (fun m => { m with resw := a }))
    ∧ (k < 32 → ReadyFor k (wordA 0x3B rd ra rb 2) false s → does (.resor k rd ra rb) (fun m => { m with resw := Nat.lor m.resw a }))
    ∧ (k = 32 ∨ k = 33 → ReadyFor k (wordA 0x3B rd ra rb 1) false s → cp (.resw k rd ra rb))
    ∧ (k = 32 ∨ k = 33 → ReadyFor k (wordA 0x38 rd ra rb 1) false s → cp (.ocnt k rd ra rb))
    ∧ (k = 32 ∨ k = 33 → ReadyFor k (wordA 0x39 rd ra rb 1) false s → cp (.cell k rd ra rb))
    ∧ (ReadyFor k (wordA 0x3A rd ra rb 4) false s → rd = 0 →
      (a % 8 = 0 → b % 8 = 0 → len % 8 = 0 → a + len ≤ top → b + len ≤ 65536 → tbit (c.cwv 0x103) 1 = false →
        Issues k s (exec (.fetch k rd ra rb) s) (fun c c' => ∃ m, SpireCore.passed (c.setCw 0x103 (c.cwv 0x103 + 2)) m
          ∧ c' = { m with fetch := some ⟨a, b, len, bcOfCycle e c.cyc⟩ }))
      ∧ (a % 8 ≠ 0 → Traps k s (exec (.fetch k rd ra rb) s) 3 (fun c => c.pc) (fun _ => a))
      ∧ (a % 8 = 0 → b % 8 ≠ 0 ∨ len % 8 ≠ 0 → Traps k s (exec (.fetch k rd ra rb) s) 3 (fun c => c.pc) (fun _ => b))
      ∧ (a % 8 = 0 → b % 8 = 0 → len % 8 = 0 → a + len ≤ top → b + len ≤ 65536 → tbit (c.cwv 0x103) 1 = true → cp (.fetch k rd ra rb)))

/-- SERVICE_FETCH_DONE (R304): the bytes read from shared SRAM are written to data memory, DONE sets, and FETCHDONE is raised with the
core's number. LANTERN_PORT_REQUEST (R291, R292, R307): on the port's core, with a declared distance d, the result that the fabric's lines
hold, a free value, is on its way at distance d; elsewhere, and on a port without a distance, CP is raised. BUDGET_OVERRUN (R297): the
oldest frame of the core whose budget has ended unfinished is marked, SPR_COVR counts it where the core has taken it and SPR_CSKIP where
not, and OVR is raised with the core's number. What the lines hold is opaque (assumption 6); a core memory's errors are state that no row
brings (assumption 128); an overrun of a frame of a stopped core counts without exception (assumption 71). -/
def Obligations.CoreEvents : Prop :=
  (∀ (k : Nat) (s : State) (x : Fetch), k = 32 ∨ k = 33 → (s.eng.core k).fetch = some x →
     let r := sramRead s.eng x.src x.len
     exec (.serviceFetchDone k) s = .next { s with eng :=
       (((r.1.putCore k { (s.eng.core k).setCw 0x103 1 with fetch := none }).dmemBytes k x.dst r.2.1).coreFresh (dmemFld k (x.dst / 4)).key
         (dmemFld k ((x.dst + x.len) / 4)).key).raise Src.fetchDone k })
  ∧ (∀ (k cp : Nat) (rd ra rb : BitVec 5) (cfunc : BitVec 11) (s : State), 4 ≤ cp → cp ≤ 7 →
     ReadyFor k (wordA (0x38 + cp) rd ra rb cfunc.toNat) false s →
     let e := issuing k s
     let d := e.reg Reg.ULA_PDIST_DIST / 2 ^ (8 * (cp - 4)) % 256
     (k < 32 → portCore e cp = k → d ≠ 0 → ∃ v, v < 2 ^ 32 ∧
       IssuesIn { e with free := e.free + 1 } k s (exec (.lanternPortRequest k cp rd ra rb cfunc) s) (SpireCore.gives rd v d))
     ∧ (32 ≤ k ∨ portCore e cp ≠ k ∨ d = 0 →
       Traps k s (exec (.lanternPortRequest k cp rd ra rb cfunc) s) 6 (fun c => c.pc) (fun _ => 0)))
  ∧ (∀ (k : Nat) (s : State) (f : Frame), f.n % interleave f.cfg = k → f.dec.resOk = false → f.dec.covr = false → f.dead = false →
     availAge f.cfg + interleave f.cfg ≤ s.eng.age f → framesOf s.eng k = [f] →
     exec (.budgetOverrun k) s = .next { s with eng :=
       (maskBit ((mapFrame s.eng f (fun x => { x with dec := { x.dec with covr := true } })).bump
         (if f.dec.taken then Reg.SPR_COVR_COUNT k else Reg.SPR_CSKIP_COUNT k)) Reg.SPR_OVRSEEN_MASK k true).raise Src.ovr k })

/-- Timing and link functions over staged fields (Tables 3.9, 4.8): which fields each stages, from which argument and payload bits. That a
command whose commit is refused leaves what it staged, and which words are not checked, are the model's readings (assumptions 37 and 77). -/
def Obligations.TimingLinkFields : Prop :=
  BasicCommand .setSource fnSetSource noExtra
    (writing (fun (_ : Engine) (p : Packet) => [(Reg.TIM_CTL_SRC, p.arg 0), (Reg.TIM_FNOM_KHZ, p.arg 1)])) 0
  ∧ BasicCommand .setOrbit fnSetOrbit noExtra
    (writing (fun (_ : Engine) (p : Packet) => [(Reg.TIM_ORBIT_LEN, p.arg 0)])) 0
  ∧ BasicCommand .setMult fnSetMult noExtra
    (writing (fun (_ : Engine) (p : Packet) => [(Reg.TIM_CLK_M, p.arg 0)])) 0
  ∧ BasicCommand .setAlign fnSetAlign noExtra
    (writing (fun (_ : Engine) (p : Packet) => [(Reg.TIM_ALIGN_A, p.arg 0), (Reg.TIM_ORIGIN_O, p.arg 1)])) 0
  ∧ ExpertCommand .rawRelease fnRawRelease noExtra
    (writing (fun (_ : Engine) (p : Packet) => (List.range p.nwords).map (fun i => (relFld (p.arg 0 + i), 1 + p.word i))))
  ∧ BasicCommand .laneMode fnLaneMode (lnkExtra wLaneMode)
    (writing (fun (_ : Engine) (p : Packet) =>
        (laneTargets p.target).map (fun l => (Reg.LNK_LCFG_MODE l, p.arg 0)))) 0
  ∧ BasicCommand .setSources fnSetSources (lnkExtra wSetSources)
    (writing (fun (_ : Engine) (p : Packet) =>
        (List.range 8).flatMap (fun j => scfgImage (8 * p.target + j) (p.word j)))) 0
  ∧ BasicCommand .eqMode fnEqMode (lnkExtra wEqMode)
    (writing (fun (_ : Engine) (p : Packet) =>
        (laneTargets p.target).map (fun l => (Reg.LNK_LCFG_EQ l, p.arg 0)))) 0
  ∧ BasicCommand .setTrx fnSetTrx noExtra
    (writing (fun (_ : Engine) (p : Packet) => [(Reg.LNK_CTL_TRX, p.arg 0)])) 0
  ∧ ExpertCommand .rawLanes fnRawLanes (lnkExtra wRawLanes)
    (writing (fun (_ : Engine) (p : Packet) =>
        (List.range (p.length / 4)).flatMap (fun i =>
          let l := p.target + i
          let v := p.word i
          [(Reg.LNK_LCFG_MODE l, bits v 1 0), (Reg.LNK_LCFG_EQ l, bits v 5 4), (Reg.LNK_LCFG_INV l, bit v 8)])))
  ∧ ExpertCommand .rawSources fnRawSources (lnkExtra wRawSources)
    (writing (fun (_ : Engine) (p : Packet) =>
        (List.range (p.length / 4)).flatMap (fun i => scfgImage (p.target + i) (p.word i))))

/-- Cell map functions over staged fields (Table 5.3): the geometry, the source definitions, the tile entries at the positions R136 gives,
the conversion fields, and mask writes, which wait staged until their commit. That a command whose commit is refused leaves what it staged,
and which words are not checked, are the model's readings (assumptions 37 and 77). -/
def Obligations.CellMapFields : Prop :=
  BasicCommand .setGeom fnSetGeom noExtra
    (writing (fun (_ : Engine) (p : Packet) => [(Reg.MAP_GEOM_COLS, p.arg 0), (Reg.MAP_GEOM_ROWS, p.arg 1)])) 0
  ∧ BasicCommand .defineSource fnDefineSource extraDefine
    (writing (fun (_ : Engine) (p : Packet) =>
        let m := p.target
        [(Reg.MAP_SDEF_KIND m, if m = 31 then 0 else p.arg 0), (Reg.MAP_SDEF_W m, p.arg 1), (Reg.MAP_SDEF_H m, p.arg 2),
         (Reg.MAP_SDEF_MERGE m, p.arg 3), (Reg.MAP_SDEAD_VAL m, p.arg 4), (Reg.MAP_SHOT_CAP m, p.arg 5)])) 0
  ∧ BasicCommand .place fnPlace (mapExtra wPlace)
    (writing (fun (e : Engine) (p : Packet) =>
        let v := placeView e p
        (List.range (p.arg 4)).map (fun k =>
          let a := placeAt v p k
          (tileFld (v.base + p.arg 3 + k), tileEntry v.m a.1 a.2.1.toNat)))) 0
  ∧ BasicCommand .placeSrc fnPlaceSrc extraPlaceSrc
    (writing (fun (e : Engine) (p : Packet) =>
        let t := e.viewOf [4] p.ctx
        (List.range (p.arg 4)).map (fun k =>
          let a := srcAt (srcW t (p.arg 0)) p k
          (tileFld (t.fld (Reg.MAP_TBASE_BASE p.target) + p.arg 3 + k), tileEntry (p.arg 0) a.1 a.2)))) 0
  ∧ BasicCommand .setConv fnSetConv (mapExtra wSetConv)
    (writing (fun (e : Engine) (p : Packet) =>
        let q := p.target
        [(Reg.MAP_CONV_MODE q, p.arg 0), (Reg.MAP_CGAIN_GAIN q, p.arg 1), (Reg.MAP_CONV_SH q, p.arg 2), (Reg.MAP_CGAIN_PED q, p.arg 3),
         (Reg.MAP_CONV_LUT q, p.arg 4), (Reg.MAP_CONV_SATCODE q, p.arg 5), (Reg.MAP_TBASE_BASE q, (convBase e p).getD 0)])) 0
  ∧ BasicCommand .maskCells fnMaskCells (fun e p => maskPerm e (cellsWrite p))
    (fun e p => stageMask (cellsWrite p) e) 0
  ∧ BasicCommand .unplace fnUnplace (mapExtra wUnplace)
    (writing (fun (e : Engine) (p : Packet) =>
        let t := e.viewOf [4] p.ctx
        (List.range (p.arg 1)).map (fun k =>
          let f := tileFld (t.fld (Reg.MAP_TBASE_BASE p.target) + p.arg 0 + k)
          (f, t.fld f % 2 ^ 31)))) 0
  ∧ ExpertCommand .rawTmap fnRawTmap (mapExtra wRawTmap)
    (writing (fun (_ : Engine) (p : Packet) =>
        (List.range (p.length / 4)).map (fun i => (tileFld (p.target + i), p.word i))))
  ∧ ExpertCommand .rawConv fnRawConv (mapExtra wRawConv)
    (writing (fun (_ : Engine) (p : Packet) =>
        (List.range (p.length / 16)).flatMap (fun i =>
          let q := p.target + i
          let c := p.word (4 * i)
          let g := p.word (4 * i + 1)
          [(Reg.MAP_CONV_MODE q, bits c 1 0), (Reg.MAP_CONV_SATCODE q, bit c 2), (Reg.MAP_CONV_LUT q, bits c 9 4),
           (Reg.MAP_CONV_SH q, bits c 15 12), (Reg.MAP_CGAIN_GAIN q, bits g 15 0), (Reg.MAP_CGAIN_PED q, bits g 31 16),
           (Reg.MAP_TBASE_BASE q, p.word (4 * i + 2))])))
  ∧ ExpertCommand .rawLut fnRawLut noExtra
    (writing (fun (_ : Engine) (p : Packet) => (List.range 4096).map (fun i => (convFld p.target i, p.word i))))

/-- Dome functions over staged fields (Table 6.5): which fields and table entries each stages. That a command whose commit is refused leaves
what it staged, and which words are not checked, are the model's readings (assumptions 37 and 77). -/
def Obligations.DomeFields : Prop :=
  BasicCommand .setLayer fnSetLayer noExtra
    (writing (fun (_ : Engine) (p : Packet) =>
        let d := p.target
        let l := p.arg 0
        [(Reg.DOM_LSRC_SRC d l, p.arg 1), (Reg.DOM_LSRC_TEST d l, p.arg 2)] ++ lkindImage d l (p.arg 3) ++
          [(Reg.DOM_LPOS_PC d l, p.arg 4), (Reg.DOM_LPOS_PR d l, p.arg 5), (Reg.DOM_LSIZE_LW d l, p.arg 6), (Reg.DOM_LSIZE_LH d l, p.arg 7)])) 0
  ∧ BasicCommand .setBlend fnSetBlend noExtra
    (writing (fun (_ : Engine) (p : Packet) =>
        let d := p.target
        let l := p.arg 0
        [(Reg.DOM_LBLEND_MODE d l, p.arg 1), (Reg.DOM_LBLEND_PRE d l, p.arg 2), (Reg.DOM_LALPHA_A d l, p.arg 3)] ++
          (if p.arg 4 = allInstances then [(Reg.DOM_LBLEND_APEN d l, 0)]
           else [(Reg.DOM_LBLEND_APEN d l, 1), (Reg.DOM_LBLEND_APL d l, p.arg 4)]))) 0
  ∧ BasicCommand .setFormat fnSetFormat noExtra
    (writing (fun (_ : Engine) (p : Packet) =>
        [(Reg.DOM_LFMT_FMT p.target (p.arg 0), p.arg 1), (Reg.DOM_LFMT_ISH p.target (p.arg 0), p.arg 2)])) 0
  ∧ BasicCommand .setPolicy fnSetPolicy noExtra
    (writing (fun (_ : Engine) (p : Packet) =>
        [(Reg.DOM_LPOL_POL p.target (p.arg 0), p.arg 1), (Reg.DOM_LPOL_MAXAGE p.target (p.arg 0), p.arg 2)])) 0
  ∧ BasicCommand .setDome fnSetDome noExtra
    (writing (fun (_ : Engine) (p : Packet) => [(Reg.DOM_CTL_NL p.target, p.arg 0), (Reg.DOM_BG_VAL p.target, p.arg 1)])) 0
  ∧ BasicCommand .setRegion fnSetRegion noExtra
    (writing (fun (_ : Engine) (p : Packet) =>
        let d := p.target
        let g := p.arg 0
        [(Reg.DOM_RGCOL_COL0 d g, p.arg 1), (Reg.DOM_RGCOL_NCOL d g, p.arg 2), (Reg.DOM_RGROW_ROW0 d g, p.arg 3),
         (Reg.DOM_RGROW_NROW d g, p.arg 4)])) 0
  ∧ ExpertCommand .rawLayers fnRawLayers noExtra
    (writing (fun (_ : Engine) (p : Packet) =>
        let d := p.target
        (List.range (p.length / 32)).flatMap (fun i =>
          let l := p.arg 0 + i
          let w := fun j => p.word (8 * i + j)
          [(Reg.DOM_LSRC_SRC d l, bits (w 0) 5 0), (Reg.DOM_LSRC_TEST d l, bit (w 0) 8), (Reg.DOM_LPOS_PC d l, bits (w 1) 7 0),
           (Reg.DOM_LPOS_PR d l, bits (w 1) 25 16), (Reg.DOM_LSIZE_LW d l, bits (w 2) 8 0), (Reg.DOM_LSIZE_LH d l, bits (w 2) 25 16)]
          ++ lkindImage d l (w 3) ++
          [(Reg.DOM_LFMT_FMT d l, bit (w 4) 0), (Reg.DOM_LFMT_ISH d l, bits (w 4) 7 4), (Reg.DOM_LBLEND_MODE d l, bits (w 5) 1 0),
           (Reg.DOM_LBLEND_PRE d l, bit (w 5) 2), (Reg.DOM_LBLEND_APEN d l, bit (w 5) 3), (Reg.DOM_LBLEND_APL d l, bits (w 5) 7 4),
           (Reg.DOM_LALPHA_A d l, bits (w 6) 8 0), (Reg.DOM_LPOL_POL d l, bits (w 7) 1 0), (Reg.DOM_LPOL_MAXAGE d l, bits (w 7) 31 16)])))
  ∧ ExpertCommand .rawIlut fnRawIlut noExtra
    (writing (fun (_ : Engine) (p : Packet) => (List.range 1024).map (fun i => (ilutFld p.target (p.arg 0) i, p.word i))))
  ∧ ExpertCommand .rawOlut fnRawOlut noExtra
    (writing (fun (_ : Engine) (p : Packet) => (List.range 4096).map (fun i => (olutFld p.target i, p.word i))))
  ∧ ExpertCommand .rawAlpha fnRawAlpha noExtra
    (writing (fun (_ : Engine) (p : Packet) =>
        (List.range (p.length / 2)).map (fun i => (alphaFld p.target (p.arg 0 + i), p.half i))))

/-- Display, capture, history and stream functions over staged fields: which fields each stages; FREEZE and RELEASE commit their action with
no field. That a command whose commit is refused leaves what it staged, and which words are not checked, are the model's readings
(assumptions 37 and 77). -/
def Obligations.DisplayStreamFields : Prop :=
  BasicCommand .setOculus fnSetOculus noExtra
    (writing (fun (e : Engine) (p : Packet) =>
        let w := setupFld tOcul p.target
        [(w 0, 4 + p.arg 0), (w 1, p.arg 1), (w 2, p.arg 2), (w 3, p.arg 3), (w 4, p.arg 4), (w 5, p.arg 5), (w 6, p.arg 6), (w 7, p.arg 7)]
          ++ (if e.stg (w 0) = 0 then [(maxspFld p.target, 16384)] else []))) 0
  ∧ BasicCommand .setCapture fnSetCapture noExtra
    (writing (fun (_ : Engine) (p : Packet) =>
        [(Reg.OUT_DCAP_SAFE, bit (p.arg 0) 0), (Reg.OUT_DCAP_HOLD, bit (p.arg 0) 1), (Reg.OUT_DCAP_DOMEA, bit (p.arg 0) 4),
         (Reg.OUT_DCAP_DOMEB, bit (p.arg 0) 5), (Reg.OUT_DCAPMASK_LO_MASK, p.arg 1), (Reg.OUT_DCAPMASK_HI_MASK, p.arg 2)])) 0
  ∧ BasicCommand .setHistory fnSetHistory noExtra
    (writing (fun (_ : Engine) (p : Packet) =>
        [(Reg.OUT_HCFG_DEPTHA, p.arg 0), (Reg.OUT_HCFG_DEPTHB, p.arg 1), (Reg.OUT_HDEC_DEC, p.arg 2), (Reg.OUT_HPOST_POST, p.arg 3),
         (Reg.OUT_HFRZ_FRZK, bit (p.arg 4) 0), (Reg.OUT_HFRZ_EVEN, bit (p.arg 4) 1), (Reg.OUT_HFRZ_CH, bits (p.arg 4) 25 16),
         (Reg.OUT_HFRZ_AUTO, bit (p.arg 4) 31)])) 0
  ∧ BasicCommand .freezeHistory fnFreezeHistory noExtra
    (writing (fun _ _ => [])) 4
  ∧ BasicCommand .releaseHistory fnReleaseHistory extraRelease
    (writing (fun _ _ => [])) 5
  ∧ BasicCommand .setOculusSparse fnSetOculusSparse noExtra
    (writing (fun (_ : Engine) (p : Packet) => [(maxspFld p.target, p.arg 0)])) 0
  ∧ BasicCommand .setCapstream fnSetCapstream noExtra
    (writing (fun (_ : Engine) (p : Packet) => [(setupFld tCaps p.target 0, p.arg 0)])) 0
  ∧ BasicCommand .setLogsize fnSetLogsize noExtra
    (writing (fun _ p => [(Reg.MEM_CAPCFG_LOGSZ, p.arg 0)])) 0
  ∧ BasicCommand .setLogstream fnSetLogstream noExtra
    (writing (fun (_ : Engine) (p : Packet) =>
        let w := setupFld tLogs p.target
        [(w 0, 1), (w 1, p.arg 0), (w 2, p.arg 1), (w 3, p.arg 2), (w 4, p.arg 3)])) 0
  ∧ BasicCommand .setObjstream fnSetObjstream noExtra
    (writing (fun (_ : Engine) (p : Packet) =>
        let w := setupFld tObjs p.target
        [(w 0, 4 + p.arg 0), (w 1, p.arg 1), (w 2, p.arg 2), (w 3, p.arg 3), (w 4, p.arg 4)])) 0

/-- Turret and sprite functions over staged fields: which fields, class rows, sprite words and anchors each stages. That a command whose
commit is refused leaves what it staged, and which words are not checked, are the model's readings (assumptions 37 and 77). -/
def Obligations.TurretFields : Prop :=
  BasicCommand .setSeed fnSetSeed noExtra
    (writing (fun (_ : Engine) (p : Packet) =>
        [(Reg.OBJ_TSEED_THR p.target, p.arg 0), (Reg.OBJ_TSEED_WIN p.target, p.arg 1)])) 0
  ∧ BasicCommand .setFootprint fnSetFootprint noExtra
    (writing (fun (_ : Engine) (p : Packet) =>
        [(Reg.OBJ_TFOOT_FW p.target, p.arg 0), (Reg.OBJ_TFOOT_FH p.target, p.arg 1)])) 0
  ∧ BasicCommand .setLimits fnSetLimits noExtra
    (writing (fun (_ : Engine) (p : Packet) =>
        [(Reg.OBJ_TLIM_ROWMAX p.target, p.arg 0), (Reg.OBJ_TLIM_FRMAX p.target, p.arg 1)])) 0
  ∧ BasicCommand .setClass fnSetClass noExtra
    (writing (fun (_ : Engine) (p : Packet) =>
        let d := p.target
        let k := p.arg 0
        [(Reg.OBJ_CEMIN_EN d k, p.arg 1), (Reg.OBJ_CEMIN_EMIN d k, p.arg 2), (Reg.OBJ_CISO_MAX d k, p.arg 3), (Reg.OBJ_CREL_REL d k, p.arg 4),
         (Reg.OBJ_CROW_LO d k, p.arg 5), (Reg.OBJ_CROW_HI d k, p.arg 6)])) 0
  ∧ BasicCommand .setSprite fnSetSprite noExtra
    (writing (fun (e : Engine) (p : Packet) =>
        let s := p.target
        let q := contPos e p
        [(Reg.OBJ_SCFG_DOME s, p.arg 0), (Reg.OBJ_SCFG_SW s, p.arg 1 - 1), (Reg.OBJ_SCFG_SH s, p.arg 2 - 1),
         (Reg.OBJ_SPX_PX s, if p.arg 7 = 1 then q.1 else p.arg 3), (Reg.OBJ_SPY_PY s, if p.arg 7 = 1 then scode 13 q.2 else p.arg 4),
         (Reg.OBJ_SMOV_DX s, p.arg 5), (Reg.OBJ_SMOV_DY s, p.arg 6)])) 0
  ∧ BasicCommand .spriteWindow fnSpriteWindow noExtra
    (writing (fun (_ : Engine) (p : Packet) =>
        [(Reg.OBJ_SWIN_SLO p.target, p.arg 0), (Reg.OBJ_SWIN_SHI p.target, p.arg 1)])) 0
  ∧ BasicCommand .spriteEnable fnSpriteEnable noExtra
    (writing (fun (_ : Engine) (p : Packet) => (selectedSprites p).map (fun s => (Reg.OBJ_SCFG_EN s, p.arg 2)))) 0
  ∧ BasicCommand .loadSprite fnLoadSprite noExtra
    (writing (fun (_ : Engine) (p : Packet) => (List.range 256).map (fun i => (spriteFld (256 * p.target + i), p.word i)))) 0
  ∧ BasicCommand .spriteArmed fnSpriteArmed noExtra
    (writing (fun (_ : Engine) (p : Packet) => [(Reg.OBJ_SCTL_ARMED, p.arg 0)])) 0
  ∧ ExpertCommand .rawTurret fnRawTurret noExtra
    (writing (fun (_ : Engine) (p : Packet) =>
        let d := p.target
        [(Reg.OBJ_TSEED_THR d, bits (p.word 0) 15 0), (Reg.OBJ_TSEED_WIN d, bit (p.word 0) 16), (Reg.OBJ_TFOOT_FW d, bits (p.word 1) 3 0),
         (Reg.OBJ_TFOOT_FH d, bits (p.word 1) 11 8), (Reg.OBJ_TLIM_ROWMAX d, bits (p.word 2) 3 0), (Reg.OBJ_TLIM_FRMAX d, bits (p.word 2) 24 16)]))
  ∧ ExpertCommand .rawClasses fnRawClasses noExtra
    (writing (fun (_ : Engine) (p : Packet) =>
        let d := p.target
        (List.range (p.length / 16)).flatMap (fun i =>
          let k := p.arg 0 + i
          let w := fun j => p.word (4 * i + j)
          [(Reg.OBJ_CEMIN_EMIN d k, bits (w 0) 21 0), (Reg.OBJ_CEMIN_EN d k, bit (w 0) 31), (Reg.OBJ_CISO_MAX d k, w 1), (Reg.OBJ_CREL_REL d k, w 2),
           (Reg.OBJ_CROW_LO d k, bits (w 3) 6 0), (Reg.OBJ_CROW_HI d k, bits (w 3) 22 16)])))
  ∧ ExpertCommand .rawSprites fnRawSprites noExtra
    (writing (fun (_ : Engine) (p : Packet) =>
        (List.range (p.length / 32)).flatMap (fun i =>
          let s := p.target + i
          let w := fun j => p.word (8 * i + j)
          [(Reg.OBJ_SCFG_EN s, bit (w 0) 0), (Reg.OBJ_SCFG_DOME s, bit (w 0) 1), (Reg.OBJ_SCFG_SW s, bits (w 0) 7 4),
           (Reg.OBJ_SCFG_SH s, bits (w 0) 11 8), (Reg.OBJ_SPX_PX s, w 1), (Reg.OBJ_SPY_PY s, w 2), (Reg.OBJ_SMOV_DX s, bits (w 3) 7 0),
           (Reg.OBJ_SMOV_DY s, bits (w 3) 15 8), (Reg.OBJ_SWIN_SLO s, bits (w 4) 13 0), (Reg.OBJ_SWIN_SHI s, bits (w 4) 29 16)])))
  ∧ ExpertCommand .rawSprmem fnRawSprmem noExtra
    (writing (fun (_ : Engine) (p : Packet) =>
        (List.range (p.length / 4)).map (fun i => (spriteFld (p.target + i), p.word i))))

/-- Sequencer, Finial and output functions over staged fields: slot lists, conditions, lines, dead time, inputs, NIM outputs and Decision
lanes. That a command whose commit is refused leaves what it staged, and which words are not checked, are the model's readings (assumptions
37 and 77). -/
def Obligations.FinialFields : Prop :=
  BasicCommand .loadList fnLoadList noExtra
    (writing (fun (e : Engine) (p : Packet) =>
        let l := p.target
        let n := p.length / 16
        entryWrites p l 0 ++ (List.range (4096 - n)).map (fun i => (seqFld l (n + i) 0, e.stg (seqFld l (n + i) 0) % 2 ^ 31))
          ++ [(Reg.SEQ_LCTL_EN l, p.arg 0), (seqMark l, 1)])) 0
  ∧ BasicCommand .enableList fnEnableList noExtra
    (writing (fun (_ : Engine) (p : Packet) =>
        (if p.target = allInstances then [0, 1] else [p.target]).flatMap (fun l => [(Reg.SEQ_LCTL_EN l, p.arg 0), (seqMark l, 1)]))) 0
  ∧ ExpertCommand .rawList fnRawList noExtra
    (writing (fun (_ : Engine) (p : Packet) => entryWrites p p.target (p.arg 0) ++ [(seqMark p.target, 1)]))
  ∧ BasicCommand .setCond fnSetCond noExtra
    (writing (fun (_ : Engine) (p : Packet) =>
        let w := condFld p.target
        (List.range 8).map (fun j => (w j, p.word j)) ++
          [(w 8, p.arg 0 + 2 ^ 31 * p.arg 1), (w 9, p.arg 2), (w 10, p.arg 3), (w 12, p.arg 4), (w 13, p.arg 5)])) 0
  ∧ BasicCommand .setLine fnSetLine noExtra
    (writing (fun (_ : Engine) (p : Packet) => [(Reg.MNU_LCTL_EN p.target, p.arg 0), (Reg.MNU_LCTL_VETO p.target, p.arg 1)])) 0
  ∧ BasicCommand .setDeadtime fnSetDeadtime noExtra
    (writing (fun (_ : Engine) (p : Packet) =>
        [(Reg.MNU_DEAD_SPACE, p.arg 0), (Reg.MNU_DEAD_WINK, p.arg 1), (Reg.MNU_DEAD_WINW, p.arg 2)])) 0
  ∧ BasicCommand .setPsmode fnSetPsmode noExtra
    (writing (fun (_ : Engine) (p : Packet) => [(Reg.MNU_GCTL_PSMODE, p.arg 0)])) 0
  ∧ BasicCommand .setInput fnSetInput noExtra
    (writing (fun (_ : Engine) (p : Packet) =>
        let n := p.target
        [(Reg.MNU_ICFG_BUSY n, p.arg 0), (Reg.MNU_ICFG_INV n, p.arg 1), (Reg.MNU_ICFG_MODE n, p.arg 2), (Reg.MNU_ICFG_PH n, p.arg 3),
         (Reg.MNU_ICFG_DELAY n, p.arg 4)])) 0
  ∧ ExpertCommand .rawConds fnRawConds noExtra
    (writing (fun (_ : Engine) (p : Packet) =>
        (List.range p.nwords).map (fun k => (condFld (p.target + k / 16) (k % 16), p.word k))))
  ∧ ExpertCommand .rawLines fnRawLines noExtra
    (writing (fun (_ : Engine) (p : Packet) =>
        (List.range p.nwords).flatMap (fun k =>
          [(Reg.MNU_LCTL_EN (p.target + k), bit (p.word k) 0), (Reg.MNU_LCTL_VETO (p.target + k), bits (p.word k) 31 16)])))
  ∧ BasicCommand .setNimout fnSetNimout noExtra
    (writing (fun (_ : Engine) (p : Packet) =>
        let n := p.target
        [(Reg.OUT_NOCFG_SRC n, p.arg 0), (Reg.OUT_NOCFG_IDX n, p.arg 1), (Reg.OUT_NOCFG_INV n, p.arg 2), (Reg.OUT_NOCFG_SAFE n, p.arg 3),
         (Reg.OUT_NOCFG_WIDTH n, p.arg 4), (Reg.OUT_NOCFG_CV n, p.arg 5)])) 0
  ∧ BasicCommand .setDlane fnSetDlane noExtra
    (writing (fun (_ : Engine) (p : Packet) =>
        let k := p.target
        [(Reg.OUT_DLCFG_EN k, p.arg 0), (Reg.OUT_DLCFG_INV k, p.arg 1), (Reg.OUT_DLMASK_LO_MASK k, p.arg 2), (Reg.OUT_DLMASK_HI_MASK k, p.arg 3)])) 0
  ∧ ExpertCommand .rawOuts fnRawOuts noExtra
    (writing (fun (_ : Engine) (p : Packet) =>
        (List.range p.nwords).flatMap (fun k =>
          let n := p.target + k
          let v := p.word k
          [(Reg.OUT_NOCFG_SRC n, bits v 2 0), (Reg.OUT_NOCFG_IDX n, bits v 12 4), (Reg.OUT_NOCFG_INV n, bit v 16), (Reg.OUT_NOCFG_SAFE n, bit v 17),
           (Reg.OUT_NOCFG_WIDTH n, bits v 22 20), (Reg.OUT_NOCFG_CV n, bit v 24)])))

/-- Belfry functions over staged fields: inputs, gains, filters, buses and monitors. That a command whose commit is refused leaves what it
staged, and which words are not checked, are the model's readings (assumptions 37 and 77). -/
def Obligations.BelfryFields : Prop :=
  BasicCommand .belSetInput fnBelSetInput noExtra
    (writing (fun (_ : Engine) (p : Packet) =>
        let i := p.target
        [(Reg.BEL_ICFG_MODE i, p.arg 0), (Reg.BEL_ICFG_K i, p.arg 1), (Reg.BEL_IBFIX_VAL i, p.arg 2), (Reg.BEL_IPULSE_THR i, p.arg 3),
         (Reg.BEL_IPULSE_HOLD i, p.arg 4), (Reg.BEL_ICFG_SEN i, p.arg 5), (Reg.BEL_ISIL_THR i, p.arg 6), (Reg.BEL_ISIL_NS i, p.arg 7)])) 0
  ∧ BasicCommand .setTmo fnSetTmo noExtra
    (writing (fun (_ : Engine) (p : Packet) => [(Reg.BEL_ITMO_TMO p.target, p.arg 0)])) 0
  ∧ BasicCommand .setGains fnSetGains noExtra
    (writing (fun (_ : Engine) (p : Packet) =>
        (List.range p.nwords).map (fun k => (gainFld (bits (p.word k) 5 0) (bits (p.word k) 12 8), bits (p.word k) 31 16)))) 0
  ∧ BasicCommand .setFir fnSetFir noExtra
    (writing (fun (_ : Engine) (p : Packet) =>
        (Reg.BEL_BCFG_NTAP p.target, p.arg 0) :: (List.range 48).map (fun k => (firFld p.target k, if k < p.arg 0 then p.word k else 0)))) 0
  ∧ BasicCommand .setBusmap fnSetBusmap noExtra
    (writing (fun (_ : Engine) (p : Packet) =>
        let n := p.target
        [(Reg.BEL_BMAP_EN n, p.arg 0), (Reg.BEL_BMAP_MS n, p.arg 1), (Reg.BEL_BMAP_X n, p.arg 2), (Reg.BEL_BMAP_Y n, p.arg 3),
         (Reg.BEL_BMAP_SEL n, p.arg 4), (Reg.BEL_BMAP_BSH n, p.arg 5)])) 0
  ∧ BasicCommand .setMonitor fnSetMonitor noExtra
    (writing (fun (_ : Engine) (p : Packet) =>
        let m := p.target
        [(Reg.BEL_MCFG_SRC m, p.arg 0), (Reg.BEL_MCFG_IDX m, p.arg 1), (Reg.BEL_MCFG_MSH m, p.arg 2)])) 0
  ∧ ExpertCommand .belRawMatrix fnBelRawMatrix noExtra
    (writing (fun (_ : Engine) (p : Packet) =>
        (List.range 2048).map (fun k => (gainFld (k / 32) (k % 32), p.half k))))
  ∧ ExpertCommand .rawFir fnRawFir noExtra
    (writing (fun (_ : Engine) (p : Packet) =>
        (List.range p.nwords).map (fun k => (firFld (p.target + k / 48) (k % 48), p.word k))))
  ∧ ExpertCommand .rawInputs fnRawInputs noExtra
    (writing (fun (_ : Engine) (p : Packet) =>
        (List.range (p.length / 16)).flatMap (fun j =>
          let i := p.target + j
          let w := fun k => p.word (4 * j + k)
          [(Reg.BEL_ICFG_MODE i, bits (w 0) 1 0), (Reg.BEL_ICFG_K i, bits (w 0) 12 8), (Reg.BEL_ICFG_SEN i, bit (w 0) 16),
           (Reg.BEL_IBFIX_VAL i, w 1), (Reg.BEL_IPULSE_THR i, bits (w 2) 13 0), (Reg.BEL_IPULSE_HOLD i, bits (w 2) 23 16),
           (Reg.BEL_ISIL_THR i, bits (w 3) 13 0), (Reg.BEL_ISIL_NS i, bits (w 3) 31 16)])))

/-- Core, Lantern and Tandem functions over staged fields: images, interleave, STOP and START requests, entries, program tables, ports and
the role. That a command whose commit is refused leaves what it staged, and which words are not checked, are the model's readings
(assumptions 37 and 77). -/
def Obligations.CoreAndTandemFields : Prop :=
  BasicCommand .loadProgram fnLoadProgram noExtra
    (writing (fun (e : Engine) (p : Packet) =>
        let f : Nat → Fld := if p.arg 0 = 0 then imemFld p.target else dmemFld p.target
        (imageFld p.target, Nat.lor (e.stg (imageFld p.target)) (p.arg 0 + 1))
          :: (indexed (p.words 0 p.nwords)).map (fun iw => (f (p.arg 1 / 4 + iw.1), iw.2)))) 0
  ∧ BasicCommand .setInterleave fnSetInterleave noExtra
    (writing (fun (_ : Engine) (p : Packet) => [(Reg.SPR_CTL_I, p.arg 0)])) 0
  ∧ BasicCommand .run fnRun noExtra
    (writing (fun (e : Engine) (p : Packet) =>
        (runCores p).map (fun k => (runFld k, Nat.lor (e.stg (runFld k)) (p.arg 1 + 1))))) 0
  ∧ BasicCommand .coreEntry fnCoreEntry noExtra
    (writing (fun (_ : Engine) (p : Packet) => [(Reg.SPR_CENTRY_PC p.target, p.arg 0 / 4)])) 0
  ∧ BasicCommand .loadTable fnLoadTable noExtra
    (writing (fun (_ : Engine) (p : Packet) =>
        (indexed (p.words 0 p.nwords)).map (fun iw => (progFld (p.arg 0 / 4 + iw.1), iw.2)))) 0
  ∧ BasicCommand .setPortmap fnSetPortmap noExtra
    (writing (fun (_ : Engine) (p : Packet) =>
        [(Reg.ULA_PMAP_CP4, p.arg 0), (Reg.ULA_PMAP_CP5, p.arg 1), (Reg.ULA_PMAP_CP6, p.arg 2), (Reg.ULA_PMAP_CP7, p.arg 3)])) 0
  ∧ BasicCommand .setRole fnSetRole noExtra
    (writing (fun (_ : Engine) (p : Packet) =>
        [(Reg.TDM_CFG_ROLE, p.arg 0), (Reg.TDM_CFG_POLICY, p.arg 1), (Reg.TDM_DET_MISS, p.arg 2), (Reg.TDM_DET_WAIT, p.arg 3), (Reg.TDM_MISPOL_N, p.arg 4)])) 0

/-- HST functions (R39 to R45, R67, R68): OPEN_CTX opens the context with no right; CLOSE_CTX takes the seven steps of R41; GRANT and REVOKE
set and clear one right of Table 2.3; ASSIGN moves a resource and removes the routes that would join two contexts; CREATE_RING adds the ring
its eight words describe; DESTROY_RING aborts what its ring started and removes the ring; STOP_STREAMS and RESUME_STREAMS stop the STR rings
of a context, or of all, and let them run again; PTM_SAMPLE writes the latched orbit number and PTM time. The places of arguments that the
spec does not give, and who may issue these functions, are the model's choices (assumptions 18 and 47). -/
def Obligations.ContextFunctions : Prop :=
  ActionCommand .openCtx fnOpenCtx noExtra
    (fun (e : Engine) (p : Packet) => { e with host := { e.host with ctxs := e.host.ctxs.set p.target 1 } })
  ∧ ActionCommand .closeCtx fnCloseCtx noExtra
    (fun e p =>
      let c := p.target
      let mine := e.host.rings.filter (fun r => r.id / 256 == c)
      let owned := fun (x : Engine) => (x.host.owners.filter (fun kv => kv.2 == c)).map (fun kv => (kv.1 / 2 ^ 16, kv.1 % 2 ^ 16))
      let step1 := orphan (fun r _ => r != noRing && r / 256 == c) (dropHeldCommits (fun q => q == c) e)
      let left := step1.host.pends.map (fun q => if q.ctx == c then { q with ctx := closedCtx } else q)
      let kept : Engine := { step1 with host := { step1.host with pends := left } }
      let step2 := (kept.lockedBlocks c).foldl (fun a b => a.discardBlock b) kept
      let step3 := putXfers step2 (step2.sec.xfers.filter (fun x => x.ctx != c))
      let step4 := (owned step3).foldl (fun a r => if r.1 = 4 then chainStop a r.2 else if r.1 = 5 then bltAbort a r.2 else a) step3
      let step5 := mine.foldl removeRing step4
      let step6 := freeWindows (fun o => o == c) ((owned step3).foldl (fun a r => moveResource 0 a r.1 r.2) step5)
      { step6 with host := { step6.host with ctxs := step6.host.ctxs.set c 0 } })
  ∧ ActionCommand .grant fnGrant noExtra
    (fun e p =>
      let held := e.host.ctxs.get p.target - 1
      { e with host := { e.host with ctxs := e.host.ctxs.set p.target (1 + Nat.lor held (2 ^ (p.arg 0 - 1))) } })
  ∧ ActionCommand .revoke fnRevoke noExtra
    (fun e p =>
      let held := e.host.ctxs.get p.target - 1
      { e with host := { e.host with ctxs := e.host.ctxs.set p.target (1 + (held - Nat.land held (2 ^ (p.arg 0 - 1)))) } })
  ∧ ActionCommand .assign fnAssign assignCascade
    (fun e p => pruneRoutes { e with host := { e.host with owners := e.host.owners.set (resKey (p.arg 0) (p.arg 1)) p.target }
                                     regs := e.regs.puts ((ownerFields (p.arg 0) (p.arg 1)).map (fun f => (f, p.target))) })
  ∧ ActionCommand .createRing fnCreateRing noExtra
    (fun (e : Engine) (p : Packet) =>
      let ctx := if p.ring = 0 then p.target else p.ctx
      let ring : Ring := { id := 256 * ctx + p.arg 0 % 256, typ := bits (p.arg 0) 9 8, k := bits (p.arg 0) 20 16, base := p.arg64 1
                           vec := p.arg 3, cpl := 256 * ctx + p.arg 4, head := p.arg64 5, kind := p.arg 7, intr := tbit (p.arg 0) 24
                           prod := 0, cons := 0, fault := false, drops := 0, stopped := false, lost := false, armed := true
                           fence := false, need := 0 }
      { e with host := { e.host with rings := insertRing ring e.host.rings } })
  ∧ AsyncCommand .destroyRing fnDestroyRing noExtra
    (fun e p f => f = (
      let others := e.host.started.filter (fun q => q.ring == p.target && !(q.ring == p.ring && q.tag == p.tag))
      let aborted := others.foldl (fun a q => a.completeAt q.ring q.tag q.notify .aborted a.cxNow) e
      let e1 := aborted.complete p .ok
      match e1.ring? p.target with
      | some r => removeRing e1 r
      | none => e1))
  ∧ ActionCommand .stopStreams fnStopStreams noExtra
    (fun e p =>
      let halts : Ring → Ring := fun r =>
        if r.typ = 2 ∧ (p.target == allInstances || r.id / 256 == p.target) = true then { r with stopped := true, lost := true } else r
      let e1 : Engine := { e with host := { e.host with rings := e.host.rings.map halts, draining := true } }
      (e1.setReg Reg.HST_STOPSTAT_CTX (if p.target = allInstances then e.reg Reg.HST_STOPSTAT_CTX else p.target)).setReg Reg.HST_STOPSTAT_DONE 0)
  ∧ ActionCommand .resumeStreams fnResumeStreams noExtra
    (fun e p =>
      let runs : Ring → Ring := fun r =>
        if r.typ = 2 ∧ (p.target == allInstances || r.id / 256 == p.target) = true then { r with stopped := false } else r
      { e with host := { e.host with rings := e.host.rings.map runs } })
  ∧ ActionCommand .ptmSample fnPtmSample noExtra
    (fun e p => e.post (p.arg64 0) (leBytes 4 (e.reg Reg.HST_PTM_ORB_LO_ORB) ++ leBytes 4 (e.reg Reg.HST_PTM_ORB_HI_ORB)
      ++ leBytes 4 (e.reg Reg.HST_PTM_TIME_LO_T) ++ leBytes 4 (e.reg Reg.HST_PTM_TIME_HI_T)))

/-- Functions that read into a host buffer (R65, R117, R265, R312, R361, R371, R391, R472): the bytes each writes there; a READ_MEM that
meets an uncorrectable word completes with ST_HWERR of a free island. Buffers without a layout are opaque (assumption 35); the island of an
ST_HWERR is free (assumptions 19 and 31). -/
def Obligations.ReadFunctions : Prop :=
  ActionCommand .previewLatency fnPreviewLatency noExtra
    (fun (e : Engine) (p : Packet) => e.post (p.arg64 0) (previewBytes (e.viewOf stagedBlocks p.ctx) e.active))
  ∧ ActionCommand .readRelease fnReadRelease noExtra
    (fun e p => e.post (p.arg64 0) (releaseBytes e))
  ∧ ActionCommand .eqRead fnEqRead noExtra
    (fun (e : Engine) (p : Packet) =>
      let l := p.target
      let held := e.reg (Reg.LNK_LSTAT_EQF l) == 1
      let k := if held then e.lnk.coefs.get l - 1 else e.free
      let e1 : Engine := if held then e else { e with free := e.free + 1 }
      e1.post (p.arg64 0) ((List.range 13).flatMap (fun i => leBytes 2 (Config.eqCoef l i k)) ++ leBytes 2 (e.fom l) ++ leBytes 36 0))
  ∧ ActionCommand .rawReadmem fnRawReadmem noExtra
    (fun (e : Engine) (p : Packet) => e.post (p.arg64 3) (coreBytes e p.target (p.arg 0) (p.arg 1) (p.arg 2)))
  ∧ AsyncCommand .readMem fnReadMem noExtra
    (fun e p f => f = (
      let (e1, bs, bad) := engRead e (p.arg64 0) (p.arg 2)
      if bad then
        let (v, e2) := e1.freeVal
        e2.complete p (.hwerr v)
      else (e1.post (p.arg64 3) bs).complete p .ok))
  ∧ ActionCommand .getCert fnGetCert noExtra
    (fun e p => e.post (p.arg64 0) certObj)

/-- EVT functions (R314 to R328): the fields of publication, subscription, gate, matrix, notification, channel ownership and guard that each
writes, at the next boundary (R9), and the resume and raise actions. That SET_CHANNEL needs SECURE is the model's reading (assumption 79).
-/
def Obligations.EventFunctions : Prop :=
  ActionCommand .publish fnPublish (fun e p => permIf (p.arg 0 == 1 && pubRefused e p.target (p.arg 1)))
    (fun e p => e.laterAll [(Reg.EVT_SPUB_EN p.target, p.arg 0), (Reg.EVT_SPUB_CH p.target, p.arg 1)])
  ∧ ActionCommand .subscribe fnSubscribe (fun e p => permIf (p.arg 0 == 1 && subRefused e p.target (p.arg 1)))
    (fun e p => e.laterAll (subWrites p.target (p.arg 0) (p.arg 1)))
  ∧ ActionCommand .setGate fnSetGate (fun e p => permIf (p.arg 0 == 2 && subRefused e p.target (p.arg 1)))
    (fun e p => e.laterAll [(Reg.EVT_CGATE_KIND p.target, p.arg 0), (Reg.EVT_CGATE_SEL p.target, p.arg 1),
          (Reg.EVT_CGATE_INV p.target, p.arg 2)])
  ∧ ActionCommand .setMatrix fnSetMatrix noExtra
    (fun e p => e.laterAll [(matrixFld (p.target / 128) (p.arg 0) (p.target % 128), p.arg 1)])
  ∧ ActionCommand .setNotify fnSetNotify noExtra
    (fun e p => e.laterAll [(Reg.EVT_SNOTE_EN p.target, p.arg 0), (Reg.EVT_SNOTE_RING p.target, p.arg 1)])
  ∧ ActionCommand .setChannel fnSetChannel (fun e p => if p.arg 0 = 1 ∧ insecureOn e p.target then some (.busy 13) else none)
    (fun e p => e.laterAll [(Reg.EVT_KOWN_SEC p.target, p.arg 0)])
  ∧ ActionCommand .resumeChannel fnResumeChannel noExtra
    (fun e p => e.setReg (Reg.EVT_KSTAT_STOP p.target) 0)
  ∧ ActionCommand .setGuard fnSetGuard noExtra
    (fun e p => e.laterAll [(Reg.EVT_GUARD_COUNT, p.arg 0), (Reg.EVT_GWIN_NS, p.arg 1)])
  ∧ ActionCommand .raise fnRaise noExtra
    (fun e p => e.raise (Src.sw + p.target) (p.arg 0))
  ∧ ActionCommand .evtRawMatrix fnEvtRawMatrix noExtra
    (fun e p =>
        e.laterAll ((List.range 512).flatMap (fun i =>
          (List.range 32).map (fun b => (matrixFld p.target (32 * (i % 4) + b) (i / 4), bit (p.word i) b)))))
  ∧ ActionCommand .rawRoutes fnRawRoutes (fun e p => permIf ((rawRoutes p).any (fun (s, w0, _) => tbit w0 15 && pubRefused e s (w0 % 1024))))
    (fun e p => e.laterAll ((rawRoutes p).flatMap (fun (s, w0, w1) =>
          [(Reg.EVT_SPUB_EN s, bit w0 15), (Reg.EVT_SPUB_CH s, w0 % 1024), (Reg.EVT_SNOTE_EN s, bit w1 31), (Reg.EVT_SNOTE_RING s, w1 % 2 ^ 18)])))
  ∧ ActionCommand .rawConsumers fnRawConsumers (fun e p => permIf ((rawConsumers p).any (fun (c, w0, w1) =>
          (tbit w0 15 && subRefused e c (w0 % 1024)) || (w1 % 4 == 2 && subRefused e c (bits w1 13 4)))))
    (fun e p => e.laterAll ((rawConsumers p).flatMap (fun (c, w0, w1) =>
          subWrites c (bit w0 15) (w0 % 1024) ++ [(Reg.EVT_CGATE_KIND c, w1 % 4), (Reg.EVT_CGATE_SEL c, bits w1 13 4),
            (Reg.EVT_CGATE_INV c, bit w1 15)])))

/-- IRQ functions (R329 to R338): the route, filter and mask fields that each writes, at the next boundary (R9), and the clearing of a
pending source. -/
def Obligations.InterruptFunctions : Prop :=
  ActionCommand .route fnRoute noExtra
    (fun e p => e.laterAll (routeWrites p.target (p.arg 0) (p.arg 1) (p.arg 2) (p.arg 3) (p.arg 4)))
  ∧ ActionCommand .setFilter fnSetFilter noExtra
    (fun e p => e.later (Reg.IRQ_SFILT_N p.target) (p.arg 0))
  ∧ ActionCommand .maskTarget fnMaskTarget noExtra
    (fun e p => e.laterAll [(Reg.IRQ_TMASK_N p.target, p.arg 0), (Reg.IRQ_TMASK_F p.target, p.arg 1)])
  ∧ ActionCommand .clearPending fnClearPending noExtra
    (fun e p => clearPend p.target e)
  ∧ ActionCommand .irqRawSources fnIrqRawSources noExtra
    (fun e p =>
        e.laterAll ((List.range (p.nwords / 2)).flatMap (fun i =>
          let w := p.word (2 * i)
          routeWrites (p.target + i) (bit w 0) (bit w 1) (bits w 6 4) (bit w 8) (bits w 26 16)
            ++ [(Reg.IRQ_SFILT_N (p.target + i), p.word (2 * i + 1) % 256)])))

/-- CNT, MEM and OUT functions that act at once (R343 to R351, R356 to R372, R236): counter writes on their way, snapshots, windows,
built-in test, freeze slots, memory writes, injected errors and the relay limit. The outcome of a built-in test is free and SET_WINDOW is
open to any context (assumptions 30 and 60). -/
def Obligations.CounterMemoryFunctions : Prop :=
  ActionCommand .setCounter fnSetCounter noExtra
    (fun e p => cntWrite p.target 2 (p.arg 0 + 256 * p.arg 1 + 512 * p.arg 2) e)
  ∧ ActionCommand .load fnLoad noExtra
    (fun e p => cntWrite p.target 0 (p.arg 0) e)
  ∧ ActionCommand .setCompare fnSetCompare noExtra
    (fun e p => cntWrite p.target 1 (p.arg 0) e)
  ∧ AsyncCommand .snap fnSnap noExtra
    (fun e p f => f = (
        let e1 := snapRequest e
        { e1 with cnt := { e1.cnt with snaps := e1.cnt.snaps ++ [(p.ring, p.tag, p.notify, p.arg64 0)] } }))
  ∧ ActionCommand .rawCounters fnRawCounters noExtra
    (fun e p =>
        (List.range (p.nwords / 2)).foldl (fun a i =>
          cntWrite (p.target + i) 1 (p.word (2 * i + 1)) (cntWrite (p.target + i) 2 (p.word (2 * i)) a)) e)
  ∧ ActionCommand .setWindow fnSetWindow noExtra
    (fun e p => e.laterAll [(winFld p.target 0, p.arg 0), (winFld p.target 1, p.arg 1), (winFld p.target 2, p.arg 2)])
  ∧ ActionCommand .runBist fnRunBist safeOnly
    (fun (e : Engine) (p : Packet) =>
      let banks := (List.range (p.arg 1)).map (· + p.arg 0)
      let (e1, bad) := banks.foldl bistBank (e, 0)
      let e2 := if banks.any (fun b => decide (b < 16)) then restoreTables e e1 else e1
      (if banks.any (fun b => decide (16 ≤ b ∧ b ≤ 272)) then histReset e2 else e2).raise Src.bistDone bad)
  ∧ ActionCommand .releaseFreeze fnReleaseFreeze noExtra
    (fun (e : Engine) (p : Packet) =>
      let e1 := maskBit (maskBit e Reg.MEM_FZSTAT_HELD p.target false) Reg.MEM_FZSTAT_FAULT p.target false
      { e1 with mem := { e1.mem with held := e1.mem.held.filter (· != p.target) } })
  ∧ AsyncCommand .writeMem fnWriteMem noExtra
    (fun e p f =>
      ((engWrite e (p.arg64 0) p.payload).2 = false → Ends fnWriteMem p (engWrite e (p.arg64 0) p.payload).1 f)
      ∧ ((engWrite e (p.arg64 0) p.payload).2 = true →
          let g := (engWrite e (p.arg64 0) p.payload).1
          Answers p (.hwerr (Config.freeValue g.free)) { g with free := g.free + 1 } f))
  ∧ ActionCommand .injectError fnInjectError safeOnly
    (fun (e : Engine) (p : Packet) =>
      let k := p.arg 0 / 8
      { e with mem := { e.mem with ecc := e.mem.ecc.set k (Nat.xor (e.mem.ecc.get k) (p.arg64 1 + 2 ^ 64 * p.arg 3)) } })
  ∧ ActionCommand .setRlywarn fnSetRlywarn noExtra
    (fun e p => setLimit e (p.arg 0))

/-- DMA and BLT functions (R373 to R390): chain starts, hand-over addresses, aborts, priorities, arbitration, blits and gaps. That a refused
BLIT writes no register is the model's reading (assumption 99). -/
def Obligations.MoverFunctions : Prop :=
  ActionCommand .start fnStart startBusy
    (fun (e : Engine) (p : Packet) =>
      chainStart (dmaHeadWrite (dmaHoldHead e p.target (p.arg 1)) p.target (p.arg 0)) p.target)
  ∧ ActionCommand .setNext fnSetNext noExtra
    (fun e p => dmaNextWrite (dmaHoldNext e p.target (p.arg 1)) p.target (p.arg 0))
  ∧ AsyncCommand .dmaAbort fnDmaAbort noExtra
    (fun e p f => f = (
      let e1 := chainAbort e p.target
      let c := e1.chan p.target
      if e1.chanRun p.target then e1.putChan p.target { c with waiters := c.waiters ++ [(p.ring, p.tag, p.notify)] } else e1.complete p .ok))
  ∧ ActionCommand .dmaSetChannel fnDmaSetChannel noExtra
    (fun e p => e.setReg (Reg.DMA_CFG_PRIO p.target) (p.arg 0))
  ∧ ActionCommand .setArb fnSetArb noExtra
    (fun e p => e.setReg Reg.DMA_ARB_MODE (p.arg 0))
  ∧ ActionCommand .rawChannels fnRawChannels noExtra
    (fun e p => (List.range (p.nwords / 4)).foldl (rawChannel p) e)
  ∧ AsyncCommand .blit fnBlit blitBad
    (fun e p f => f = (
      let b := p.target
      let pat : List (Fld × Nat) := if tbit (p.arg 0) 1 then (List.range 64).map (fun k => (Reg.BLT_PAT_VAL b k, p.word (16 + k))) else []
      let e1 : Engine := { e with regs := (e.regs.puts (bltWrites b (blitImage p))).puts pat }
      if tbit (p.arg 0) 0 then bltStart e1 b (blitImage p) (some (p.ring, p.tag, p.notify)) else e1.complete p .ok))
  ∧ ActionCommand .setGap fnSetGap noExtra
    (fun e p => e.setReg (Reg.BLT_GAP_GAP p.target) (p.arg 0))
  ∧ ActionCommand .bltAbort fnBltAbort noExtra
    (fun e p => bltAbort e p.target)

/-- SEC, TDM and PWR functions that act at once or answer later: reports, firmware slots and floor (R397 to R409), the planned switch and
demotion (R419, R427), state requests, resets, voltages, wake and limits (R434 to R446). The reference of REQ_STATE's apply-at, and some
statuses, are the model's readings (assumptions 63, 79 and 94). -/
def Obligations.SecurityTandemPowerFunctions : Prop :=
  AsyncCommand .attest fnAttest noExtra
    (fun e p f => f = (
        startReport { e with sec := { e.sec with reports := e.sec.reports ++ [⟨p.ring, p.tag, p.notify, p.arg64 0, p.payload, []⟩] } }))
  ∧ ActionCommand .fwActivate fnFwActivate noExtra
    (fun e p =>
        ((e.setReg Reg.SEC_FW_NEXT p.target).setReg Reg.SEC_FW_TRIAL 1).setReg Reg.SEC_FW_TRIED 0)
  ∧ ActionCommand .fwConfirm fnFwConfirm confirmState
    (fun e _ => endTrial e)
  ∧ ActionCommand .raiseFloor fnRaiseFloor floorState
    (fun (e : Engine) (_ : Packet) =>
      let v := runningSvn e
      let o := 1 - e.reg Reg.SEC_FW_SLOT
      let svn := e.reg (if o = 0 then Reg.SEC_SVN_A else Reg.SEC_SVN_B)
      let e1 := e.setReg Reg.SEC_FLOOR_FLOOR v
      (if svn < v then maskBit e1 Reg.SEC_FW_VALID o false else e1).raise Src.floor v)
  ∧ AsyncCommand .switchPermit fnSwitchPermit switchState
    (fun e p f => f = match nameCrossing e p.applyAt false with
      | .inl st => e.complete p st
      | .inr none => e.complete p (.state e.st)
      | .inr (some k) => { e with tdm := { e.tdm with sw := some ⟨k, p.ring, p.tag, p.notify, false⟩ } })
  ∧ ActionCommand .clearDemote fnClearDemote noExtra
    (fun e _ => Engine.setReg { e with tdm := { e.tdm with mism := [] } } Reg.TDM_STAT_DEMOTED 0)
  ∧ ActionCommand .rawLink fnRawLink noExtra
    (fun e p => e.laterAll (wRawLink p))
  ∧ AsyncCommand .reqState fnReqState noExtra
    (fun e p f => f = request (requestOf p.ring p.tag p.notify (p.arg 0) none) p.applyAt false e)
  ∧ ActionCommand .setAvs fnSetAvs noExtra
    (fun e p => e.laterAll ((domainsOf p.target).flatMap (fun d =>
        [(Reg.PWR_DCFG_VMIN d, p.arg 0), (Reg.PWR_DCFG_VMAX d, p.arg 1), (Reg.PWR_DMARGIN_PCT d, p.arg 2)])))
  ∧ AsyncCommand .reset fnReset noExtra
    (fun e p f => f = selfReset 1 (e.complete p .ok))
  ∧ ActionCommand .setWake fnSetWake noExtra
    (fun e p => e.laterAll [(Reg.PWR_WAKE_TIMCMD, bit (p.arg 0) 0), (Reg.PWR_WAKE_EVENT, bit (p.arg 0) 1)])
  ∧ ActionCommand .setFillcmd fnSetFillcmd noExtra
    (fun e p => e.later Reg.PWR_CTL_FILLCMD (p.arg 0))
  ∧ ActionCommand .setTlim fnSetTlim noExtra
    (fun e p => e.later Reg.PWR_TLIM_WARN (p.arg 0))
  ∧ ActionCommand .rawDomains fnRawDomains noExtra
    (fun e p => e.laterAll ((List.range (p.length / 8)).flatMap (fun i =>
        [(Reg.PWR_DCFG_VMIN (p.target + i), bits (p.word (2 * i)) 9 0), (Reg.PWR_DCFG_VMAX (p.target + i), bits (p.word (2 * i)) 25 16),
         (Reg.PWR_DMARGIN_PCT (p.target + i), bits (p.word (2 * i + 1)) 4 0)])))

/-- RAW_MASK (R56, R132): with STAGE its mask write waits staged, as that of a stage function; without it waits for the next frame,
overtakes the staged writes to its bits, those of pending commits too, and completes with ST_OK; refused, it changes nothing. -/
def Obligations.RawMask : Prop :=
  ∀ (p : Packet) (s : State),
    let extra := fun (e : Engine) (p : Packet) => maskPerm e (rawMaskWrite p)
    let m := stagedFor 4 (fun e p => stageMask (rawMaskWrite p) e) p s.eng
    let passed := fun (ms : List MaskWrite) => ms.map (overtake s.eng.active (rawMaskWrite p))
    let u : Engine := { s.eng with map := { staged := passed s.eng.map.staged, unstaged := s.eng.map.unstaged ++ [rawMaskWrite p] }
                                   host := { s.eng.host with pends := s.eng.host.pends.map (fun q => { q with masks := passed q.masks }) } }
    (p.stage = true → refuse fnRawMask [4] extra s.eng p = none → p.commit = false →
      Completes s (exec (.rawMask p) s) (Answers p (.staged 4) m))
    ∧ (p.stage = true → refuse fnRawMask [4] extra s.eng p = none → p.commit = true →
      Completes s (exec (.rawMask p) s) (Commits (m.lockedBlocks p.ctx) 0 p m))
    ∧ (p.stage = false → refuse fnRawMask [] extra s.eng p = none → p.commit = false →
      Completes s (exec (.rawMask p) s) (Answers p .ok u))
    ∧ (∀ st, refuse fnRawMask (if p.stage then [4] else []) extra s.eng p = some st →
      Completes s (exec (.rawMask p) s) (Answers p st s.eng))

/-- The common functions (R11, R16, R56, R57, R65, Table 2.10): in every block but KEEP, QUERY and READ_ACTIVE write their bytes to the host
buffer, COMMIT commits every block in which the context holds staged changes, and DISCARD returns the block's staged copies to the active
values and ends its lock, where its own context holds it. KEEP refuses them with ST_PERM 5 once the header's bits and context pass (R53), an
undefined block code with ST_BADOP. Buffers without a layout are opaque (assumption 35). -/
def Obligations.CommonFunctions : Prop :=
  (∀ blk, 1 ≤ blk → blk ≤ 22 → blk ≠ 6 →
    ActionCommand (.query blk) (fnCommon blk 0 hostBuf) noExtra (fun e p => e.post (p.arg64 0) (queryBytes e blk p))
    ∧ ActionCommand (.commit blk) (fnCommon blk 1 (fun _ => none)) noExtra (fun e _ => e)
    ∧ ActionCommand (.discard blk) (fnCommon blk 2 (fun _ => none)) noExtra
        (fun e p =>
          let follows : Pend → Pend := fun q => if q.blocks.contains blk then { q with follow := blk :: q.follow } else q
          if e.lockOf blk = p.ctx + 1 then
            Engine.dropLock { e with staged := Tab.swapBlocks [blk] e.staged e.active
                                     host := { e.host with pends := e.host.pends.map follows }
                                     map := if blk = 4 then { e.map with staged := [] } else e.map } blk
          else e)
    ∧ ActionCommand (.readActive blk) (fnCommon blk 3 hostBuf) noExtra
        (fun e p => e.post (p.arg64 0) (Config.serialize blk p.target (p.arg 2) (Tab.ofBlocks [blk] e.active ++ Tab.ofBlocks [blk] e.regs))))
  ∧ ∀ (p : Packet) (s : State) (i : Instr) (blk : Nat), i ∈ [Instr.query blk p, .commit blk p, .discard blk p, .readActive blk p] →
      (blk = 0 ∨ 22 < blk → Completes s (exec i s) (Answers p .badop s.eng))
      ∧ (blk = 6 → Completes s (exec i s) (Answers p (if 32 ≤ p.flags ∨ p.reserved ≠ 0 then .badop
          else if p.ctx ≠ p.ring / 256 then .owner (p.ring / 256) else .perm 5) s.eng))

/-- Functions that deliver objects (R396, R397, R309, R363, R402 to R404): each takes its packets as R396 states, and refuses what its
engine state, its rights and the open transfer do not allow. Which rights they need is the model's reading (assumption 79). -/
def Obligations.ObjectTransfers : Prop :=
  AsyncCommand .installBundle (fnXfer 0x0610 1) (xferExtra 0x0610 bundleState) (Delivers 0x0610)
  ∧ AsyncCommand .loadBitstream (fnXfer 0x0C10 1) (xferExtra 0x0C10 bitsState) (Delivers 0x0C10)
  ∧ AsyncCommand .repair (fnXfer 0x1012 1) (xferExtra 0x1012 safeOnly) (Delivers 0x1012)
  ∧ AsyncCommand .fwUpdate (fnXfer 0x1312 2) (xferExtra 0x1312 fwState) (Delivers 0x1312)
  ∧ AsyncCommand .ownerClaim { fnXfer 0x1316 1 with owner := zeroOnly } (xferExtra 0x1316 claimState) (Delivers 0x1316)
  ∧ AsyncCommand .ownerHandover (fnXfer 0x1317 1) (xferExtra 0x1317 upState) (Delivers 0x1317)
  ∧ AsyncCommand .ownerReset { fnXfer 0x1318 1 with owner := zeroOnly } (xferExtra 0x1318 safeOnly) (Delivers 0x1318)

/-- Reads and writes of BAR0 (R3 to R9, R69, R84, R182, R217, R349, R372): an aligned word answers its value and clears its RC fields; an
access of another size or alignment answers ones and is recorded in HST_ERRSTAT and HST_ERRADDR, the first one deciding; a _LO word freezes
its companions until they are released; a written word stages its ST fields and takes the lock for context 0 where it is free; its other
fields wait for the boundary, the bits that it clears by themselves, so that a set there wins (R6). A write across a stage lock, a second
read of a _LO word, a read of BAR2 and a value out of its range are the model's choices (assumptions 45, 46, 72 and 120). -/
def Obligations.HostAccess : Prop :=
  (∀ (off : Nat) (s : State), s.eng.st ≠ stOff → off < 2 ^ 25 → off % 4 = 0 → s.eng.host.frozen.get off = 0 →
      (∀ g ∈ freezers, g.1 ≠ off ∧ g.2.2 ≠ off) →
    Completes s (exec (.readClear 0 off 4) s) (fun t => Reads off (wordValue s.eng off) s.eng t ∧ t.host.frozen = s.eng.host.frozen))
  ∧ (∀ (off size val : Nat) (s : State), s.eng.st ≠ stOff → off < 2 ^ 25 → (size ≠ 4 ∧ size ≠ 8) ∨ off % size ≠ 0 →
    let e1 := if s.eng.reg Reg.HST_ERRSTAT_BADACC = 0 then s.eng.setReg Reg.HST_ERRADDR_ADDR off else s.eng
    let e2 := e1.setReg Reg.HST_ERRSTAT_BADACC 1
    exec (.readClear 0 off size) s = .next { s with eng := { e2 with host := { e2.host with lastRead := 0xFFFFFFFF } } }
      ∧ exec (.registerWrite 0 off size val) s = .next { s with eng := e2 })
  ∧ (∀ (s : State), s.eng.st ≠ stOff → s.eng.host.frozen.wf = true →
    (s.eng.host.frozen.get 0x10002C = 0 → s.eng.host.frozen.get 0x100030 = 0 →
      Completes s (exec .timStampRead s) (fun t => Reads 0x10002C (s.eng.stampNow % 2 ^ 32) s.eng t
        ∧ t.host.frozen.get 0x100030 = 1 + s.eng.stampNow / 2 ^ 32))
    ∧ (s.eng.host.frozen.get 0x64 = 0 →
      Completes s (exec .ptmOrbRead s) (fun t => Reads 0x64 (wordValue s.eng 0x64) s.eng t
        ∧ ∀ h ∈ [0x68, 0x6C, 0x70], s.eng.host.frozen.get h = 0 → t.host.frozen.get h = 1 + wordValue s.eng h))
    ∧ (∀ g ∈ freezers, s.eng.host.frozen.get g.1 = 0 →
      Completes s (exec (.loWordFreezeRead g.1) s) (fun t => Reads g.1 (wordValue s.eng g.1) s.eng t
        ∧ ∀ h ∈ g.2.1, s.eng.host.frozen.get h = 0 → t.host.frozen.get h = 1 + wordValue s.eng h))
    ∧ (∀ g ∈ freezers, s.eng.host.frozen.get g.2.2 ≠ 0 →
      Completes s (exec (.readClear 0 g.2.2 4) s) (fun t => Reads g.2.2 (s.eng.host.frozen.get g.2.2 - 1) s.eng t
        ∧ ∀ h ∈ g.2.1, t.host.frozen.get h = 0)))
  ∧ (∀ (off val : Nat) (s : State), s.eng.st ≠ stOff → s.eng.st ≠ stStandby → off < 2 ^ 25 → off % 4 = 0 → off ≠ 0xE21020 →
      s.eng.reg Reg.HST_CTL_EN = 0 ∨ ctrlWord off = false → (actsAtOnce off).isNone = true → blockOfAddr off ∉ [8, 17, 18] →
    let v := val % 2 ^ 32
    let staged := (((fieldsAt off).filter (fun fa => fa.2 == .st)).map (fun fa => (fa.1, v / 2 ^ fa.1.lo % 2 ^ fa.1.width))).filter
      (fun w => !keepChange s.eng w.1 w.2)
    let e1 : Engine := if staged = [] then s.eng else Engine.takeLock { s.eng with staged := s.eng.staged.puts staged } (blockOfAddr off) 0
    let waits := (fieldsAt off).any (fun fa => fa.2 == .rw || fa.2 == .w1c || fa.2 == .w1s)
    let clears := (fieldsAt off).any (fun fa => fa.2 == .w1c && v / 2 ^ fa.1.lo % 2 ^ fa.1.width != 0)
    let e2 : Engine := { e1 with r9 := e1.r9 ++ ((if clears then [(clearFld off, v)] else []) ++ [(wordFld off, v)]) }
    exec (.registerWrite 0 off 4 val) s = .next { s with eng := if waits = true then e2 else e1 })

/-- Doorbells (R45, R47, R50, R51): a CMD ring's producer count and another ring's consumer count take a value that the ring admits, and
held completions are written where there is space; another value puts the ring into FAULT; a ring in FAULT ignores its doorbell, and a
doorbell of no ring is counted. Stops and resumes (R67): STR rings of the context, or all, stop, and LOST is due; they run again; DONE and
its event when the last queued record has left. A consumer count that moves backwards, and STOPSTAT.CTX after a stop of all, are the model's
choices (assumptions 43 and 44). -/
def Obligations.DoorbellsAndStops : Prop :=
  (∀ (id v : Nat) (s : State) (r : Ring), s.eng.st ≠ stOff → id < 2 ^ 18 → v < 2 ^ 32 → s.eng.ring? id = some r →
    let o := exec (.doorbellWrite (8 * id) 4 v) s
    (r.fault = true → o = .next s)
    ∧ (r.fault = false → r.typ = 0 → (v + 2 ^ 32 - r.prod) % 2 ^ 32 < 2 ^ 31 → (v + 2 ^ 32 - r.cons) % 2 ^ 32 ≤ 2 ^ r.k →
        o = .next { s with eng := s.eng.putRing { r with prod := v } })
    ∧ (r.fault = false → r.typ = 0 → 2 ^ 31 ≤ (v + 2 ^ 32 - r.prod) % 2 ^ 32 ∨ 2 ^ r.k < (v + 2 ^ 32 - r.cons) % 2 ^ 32 →
        o = .next { s with eng := ringFault s.eng r })
    ∧ (r.fault = false → r.typ ≠ 0 → (v + 2 ^ 32 - r.cons) % 2 ^ 32 ≤ r.used →
        o = .next { s with eng := (s.eng.putRing { r with cons := v, armed := true }).flushHeld })
    ∧ (r.fault = false → r.typ ≠ 0 → r.used < (v + 2 ^ 32 - r.cons) % 2 ^ 32 → o = .next { s with eng := ringFault s.eng r }))
  ∧ (∀ (id v : Nat) (s : State), s.eng.st ≠ stOff → id < 2 ^ 18 → s.eng.ring? id = none →
      exec (.doorbellWrite (8 * id) 4 v) s = .next { s with eng := s.eng.bump Reg.HST_DBLOST_COUNT })
  ∧ (∀ (ctx : Nat) (s : State),
    let halted := fun (p : Ring → Bool) =>
      s.eng.host.rings.map (fun r => if r.typ = 2 ∧ p r = true then { r with stopped := true, lost := true } else r)
    let again := fun (p : Ring → Bool) => s.eng.host.rings.map (fun r => if r.typ = 2 ∧ p r = true then { r with stopped := false } else r)
    let stop := fun (p : Ring → Bool) (c : Nat) =>
      let e1 : Engine := { s.eng with host := { s.eng.host with rings := halted p, draining := true } }
      State.mk ((e1.setReg Reg.HST_STOPSTAT_CTX c).setReg Reg.HST_STOPSTAT_DONE 0) s.pending
    let go := fun (p : Ring → Bool) => State.mk { s.eng with host := { s.eng.host with rings := again p } } s.pending
    let left : Engine := { s.eng.linkDrain with host := { s.eng.linkDrain.host with draining := false } }
    exec (.hstStopCtx ctx) s = .next (stop (fun r => r.id / 256 == ctx % 1024) (ctx % 1024))
    ∧ exec .hstStopAll s = .next (stop (fun _ => true) (s.eng.reg Reg.HST_STOPSTAT_CTX))
    ∧ exec (.hstResumeCtx ctx) s = .next (go (fun r => r.id / 256 == ctx % 1024))
    ∧ exec .hstResumeAll s = .next (go (fun _ => true))
    ∧ (s.eng.host.draining = true → exec .stopDrainDone s =
        .next { s with eng := (left.setReg Reg.HST_STOPSTAT_DONE 1).raise Src.stopDone (s.eng.reg Reg.HST_STOPSTAT_CTX) }))

/-- Commands in a ring (R46, R48, R54, R55, R59): a command that the scheduler serves and whose slots a doorbell covers consumes them,
reports the new count to the host, counts as started, and then does what its function does; one longer than its ring puts it into FAULT; one
whose slots a doorbell covers only in part leaves its turn to other rings; an undefined one completes with ST_BADOP; one with FENCE waits
for the earlier ones. A command that has not completed in time completes with ST_TIMEOUT, and what it started answers no more. Commits that
are due are ruled on together and become active, in their order, or complete with ST_INCONS (R8, R59, R80, R135); every other commit waits.
How the row names ring and slots, what goes on after a timeout, when the outbound buffer empties, and which of two equal tags ends are the
model's choices (assumptions 73, 74, 115 and 116). -/
def Obligations.CommandsAndCommits : Prop :=
  (∀ (ring : Nat) (slots : List Byte) (s : State) (r : Ring), nextRing s.eng = some r → r.id = ring →
    let d := decodePacket ring slots
    let n := 1 + ceilDiv d.2.length 64
    64 ≤ slots.length →
    (2 ^ r.k < n → exec (.commandFetch ring slots) s = .next { s with eng := ringFault s.eng r })
    ∧ (n ≤ 2 ^ r.k → r.used < n → exec (.commandFetch ring slots) s = .next { s with eng := s.eng.putRing { r with need := n } })
    ∧ (n ≤ 2 ^ r.k → n ≤ r.used → slots.length = 64 * n →
      let busy := s.eng.host.started.any (fun q => q.ring == ring)
      let r1 := { r with cons := (r.cons + n) % 2 ^ 32, fence := false, need := 0 }
      let e1 := (s.eng.linkDrain.putRing r1).post r.head (leBytes 4 r1.cons ++ leBytes 4 0)
      let served : HostSt := { e1.host with
        rr := (if ring = 0 then e1.host.rr else ring), started := e1.host.started ++ [⟨ring, d.2.tag, d.1, d.2.notify, d.2.ctx⟩] }
      let e2 : Engine := { e1 with host := served }
      (d.2.fence = true ∧ busy = true → exec (.commandFetch ring slots) s = .next { s with eng := s.eng.putRing { r with fence := true } })
      ∧ (d.2.fence = false ∨ busy = false → ∃ t, exec (.commandFetch ring slots) s = .next t
          ∧ runCommand d.1 d.2 { s with eng := e2 } = .next t ∧ t.pending = s.pending)
      ∧ (d.2.fence = false ∨ busy = false → d.1 = 0x0211 → exec (.commandFetch ring slots) s = exec (.setOrbit d.2) { s with eng := e2 })
      ∧ (d.2.fence = false ∨ busy = false → d.1 / 256 ≠ 6 → 4 ≤ d.1 % 256 → runFunction (d.1 / 256) (d.1 % 256) d.2 { s with eng := e2 } = none →
          Completes s (exec (.commandFetch ring slots) s) (Answers d.2 .badop e2))))
  ∧ (∀ (ring : Nat) (slots : List Byte) (s : State), (∀ r, nextRing s.eng = some r → r.id ≠ ring) → exec (.commandFetch ring slots) s = .next s)
  ∧ (∀ (ring tag : Nat) (s : State),
    let mine := (waiters s.eng).filter (fun w => w.1 == ring && w.2.1 == tag)
    let exempt := ∃ q ∈ s.eng.host.pends, q.ring = ring ∧ q.tag = tag
    (¬exempt → mine ≠ [] → Completes s (exec (.commandTimeout ring tag) s) (fun t =>
      let e1 := orphan (fun r g => r == ring && g == tag) s.eng
      AnswersAt ring tag (mine.any (fun w => w.2.2)) .timeout e1.cxNow e1 t))
    ∧ (exempt ∨ mine = [] → exec (.commandTimeout ring tag) s = .next s))
  ∧ (∀ (s : State),
    let e := s.eng
    let d := createDelay e.active
    let due := e.host.pends.filter (fun p =>
      !p.waiting && (!e.locked || (!p.relock && p.named.all (fun n => decide (n + d ≤ e.counted)))))
    let bad := refusals e due.length due
    let ruling := fun (p : Pend) => (bad.find? (fun x => x.1 == p.uid)).map (fun x => x.2)
    (due = [] → exec .commitActivate s = .next s)
    ∧ (∀ q, due = [q] →
      let c := if e.locked then some (e.counted - d) else none
      let cx := (c.map (cxField (orbitLen e.active))).getD 0
      let done := fun (x : Engine) => if e.locked then x else clockChanged q e.active x
      ruling q = checkIn e (withPend e e.active q) q
      ∧ (∀ w, ruling q = some w → exec .commitActivate s = .next { s with eng := done (dropPend e q (.incons w) cx) })
      ∧ (ruling q = none → exec .commitActivate s = .next { s with eng := done (commitTo q c (e.locked && e.running) cx e) })
      ∧ (ruling q = none → q.object = 0 → 10 ∉ q.blocks → e.locked = true →
          let applied := journalSync (keepBank e.active (e.counted - d) (applySet q c (removePend e q)))
          Completes s (exec .commitActivate s) (AnswersAt q.ring q.tag q.notify .ok cx applied)))
    ∧ exec .commitActivate s = .next { s with
        eng := due.foldl (fun a p =>
          if a.locked then activate p (ruling p) (some (a.counted - createDelay a.active)) a
          else clockChanged p a.active (activate p (ruling p) none a)) e })

/-- The PCIe side (R35, R36, R38, R68, R437): training gives width and generation; function-level reset, link down and D3hot clear the host
interface; D3hot ends; a configuration request is answered with Retry Status until the start-up has passed step 6; a PTM exchange keeps the
local time or counts a failure. What each reset of the host interface reaches, and what configuration space holds, are the model's readings
(assumptions 48 and 119). -/
def Obligations.PcieEvents : Prop :=
  ∀ (s : State), s.eng.st ≠ stOff →
    (∀ (portB : Bool) (gen : Nat), s.eng.host.crs = false → gen ≠ 0 →
      let up := [(Reg.HST_STATUS_LINKUP, 1), (Reg.HST_STATUS_WIDTH, if portB then 16 else 8), (Reg.HST_STATUS_GEN, min gen 4)]
      exec (.linkTrain true portB gen) s = .next { s with eng := { s.eng with regs := s.eng.regs.puts up } })
    ∧ (∀ (portB : Bool) (gen : Nat), exec (.linkTrain false portB gen) s = .next s)
    ∧ (s.eng.regs.wf = true →
        Completes s (exec .functionLevelReset s) (fun t => HostCleared true s.eng t ∧ t.host.d3hot = s.eng.host.d3hot)
        ∧ Completes s (exec .pcieLinkDown s) (fun t => HostCleared true s.eng t ∧ t.host.d3hot = false)
        ∧ (s.eng.host.d3hot = false → Completes s (exec .d3hotEntry s) (fun t => HostCleared false s.eng t ∧ t.host.d3hot = true)))
    ∧ exec .d3hotExit s = .next { s with eng := { s.eng with host := { s.eng.host with d3hot := false } } }
    ∧ (let identity := [0x1F3C, 0x4608, Config.idWord 0 / 2 ^ 8 % 2 ^ 8, 0x118000, Config.idWord 1 % 2 ^ 32, Config.idWord 2 % 2 ^ 32]
      let answered : HostSt := if s.eng.host.crs then { s.eng.host with cfgAnswer := 2 }
        else { s.eng.host with cfgAnswer := 1, cfgData := identity }
      exec .configurationRequest s = .next { s with eng := { s.eng with host := answered } })
    ∧ (∀ (time : Nat), s.eng.reg Reg.HST_PTM_CTL_EN = 1 →
        let good : HostSt := { s.eng.host with ptmSeen := true, ptmFails := 0, ptmTime := time / 2 * 2 % 2 ^ 64, ptmBc := s.eng.tim.bc }
        let bad : HostSt := { s.eng.host with ptmFails := s.eng.host.ptmFails + 1 }
        exec (.ptmExchange true time) s = .next { s with eng := ptmShow { s.eng with host := good } }
        ∧ exec (.ptmExchange false time) s = .next { s with eng := ptmShow { s.eng with host := bad } })

/-- Acquisition (R76, Table 3.4): the step that a crossing received while TIM is unlocked passes or fails, from step 1 to the slot 0 of
lock; without a signal it begins anew. A measuring window of 1 ms decides the frequency, and the PLL its lock. The phase between the last
step and lock, and the restart of step 3, are the model's readings (assumptions 65 and 122). -/
def Obligations.AcquisitionSteps : Prop :=
  (∀ (x : Timing) (s : State), s.eng.locked = false → s.eng.timing = true → s.eng.tim.acqReady = false → s.eng.regs.wf = true →
    let o := exec (.acquisitionCrossing x) s
    let ph := s.eng.reg Reg.TIM_STAT_PHASE
    let here := signalIn s.eng x
    let mark := markerIn s.eng x
    let n := s.eng.tim.sinceMark + 1
    let framed := x.codeErrs = 0 ∧ (x.char0 = .k281 ∨ x.char0 = .k285 ∨ x.char0 = .k286)
    let restarted : Engine → Prop := fun t => t.reg Reg.TIM_STAT_PHASE = 1 ∧ t.tim.goodChars = 0 ∧ t.tim.marks = 0 ∧ t.tim.acqWords = []
      ∧ t.tim.freqOk = false
    (here = false → Completes s o (fun t => restarted t ∧ t.reg Reg.TIM_STAT_SIGNAL = 0))
    ∧ (here = true → ph = 1 → s.eng.tim.freqOk = true →
        Completes s o (fun t => t.reg Reg.TIM_STAT_PHASE = if s.eng.tim.pll then (if s.eng.sma then 4 else 3) else 2))
    ∧ (here = true → ph = 3 → framed → 15 ≤ s.eng.tim.goodChars → Completes s o (fun t => t.reg Reg.TIM_STAT_PHASE = 4))
    ∧ (here = true → ph = 3 → framed → s.eng.tim.goodChars < 15 →
        Completes s o (fun t => t.reg Reg.TIM_STAT_PHASE = 3 ∧ t.tim.goodChars = s.eng.tim.goodChars + 1))
    ∧ (here = true → ph = 3 → ¬framed → Completes s o (fun t => t.reg Reg.TIM_STAT_PHASE = 3 ∧ t.tim.goodChars = 0))
    ∧ (here = true → ph = 4 → mark = true → s.eng.tim.marks = 0 →
        Completes s o (fun t => t.reg Reg.TIM_STAT_PHASE = 4 ∧ t.tim.marks = 1 ∧ t.tim.sinceMark = 0))
    ∧ (here = true → ph = 4 → mark = true → s.eng.tim.marks ≠ 0 → n = orbitLen s.eng.active →
        Completes s o (fun t => t.reg Reg.TIM_STAT_PHASE = if s.eng.sma then 0 else 5))
    ∧ (here = true → ph = 4 → mark = true → s.eng.tim.marks ≠ 0 → n ≠ orbitLen s.eng.active →
        Completes s o (fun t => restarted t ∧ t.reg Reg.TIM_STAT_LENERR = 1))
    ∧ (here = true → ph = 5 → mark = false → n = 7 → s.eng.tim.acqWords.length = 7 → ∀ orb s1,
        recordOf (s.eng.tim.acqWords ++ [x.word]) = some (orb, s1) →
        (s1 = orbitLen s.eng.active - 1 → Completes s o (fun t => t.reg Reg.TIM_STAT_PHASE = 0 ∧ t.tim.acqOrbit = orb + 1))
        ∧ (s1 ≠ orbitLen s.eng.active - 1 → Completes s o (fun t => restarted t ∧ t.reg Reg.TIM_STAT_LENERR = 1)))
    ∧ (here = true → ph = 5 → mark = false → n = 7 → s.eng.tim.acqWords.length = 7 →
        recordOf (s.eng.tim.acqWords ++ [x.word]) = none →
        Completes s o (fun t => ∃ g : Engine, t = recordFailed g ∧ g.reg Reg.TIM_STAT_PHASE = 5
          ∧ g = { s.eng with regs := g.regs, tim := g.tim }))
    ∧ (here = true → ph = 0 → mark = true → s.eng.sma = false ∨ n = orbitLen s.eng.active →
        Completes s o (fun t => t.tim.acqReady = true ∧ t.reg Reg.TIM_STAT_PHASE = 0)))
  ∧ (∀ (khz : Nat) (s : State), s.eng.locked = false → s.eng.timing = true → s.eng.regs.wf = true →
    let near := freqNear (s.eng.act Reg.TIM_FNOM_KHZ) khz
    Completes s (exec (.freqWindowEnd khz) s) (fun t => t.reg Reg.TIM_MEAS_KHZ = min khz 131071
      ∧ (near = true → t.tim.freqOk = true ∧ (s.eng.reg Reg.TIM_STAT_PHASE = 1 → s.eng.reg Reg.TIM_STAT_SIGNAL = 1 →
          t.reg Reg.TIM_STAT_PHASE = if s.eng.tim.pll then (if s.eng.sma then 4 else 3) else 2))
      ∧ (near = false → t.reg Reg.TIM_STAT_PHASE = 1 ∧ t.tim.freqOk = false)))
  ∧ (∀ (s : State), s.eng.locked = false → s.eng.timing = true → s.eng.regs.wf = true →
    (s.eng.reg Reg.TIM_STAT_PHASE = 2 →
      Completes s (exec (.pllLockChange true) s) (fun t => t.tim.pll = true ∧ t.reg Reg.TIM_STAT_PHASE = if s.eng.sma then 4 else 3))
    ∧ (s.eng.reg Reg.TIM_STAT_PHASE ≠ 1 →
      Completes s (exec (.pllLockChange false) s) (fun t => t.tim.pll = false ∧ t.reg Reg.TIM_STAT_PHASE = 1)))

/-- Lock, counting and loss (R74, R76 to R79, R83, R88): the slot 0 of lock is counted with the orbit number of R77; each crossing of a
locked engine advances slot and orbit, unless a cause of Table 3.5 ends the lock; PLL, frequency and a signal absent for four crossings end
it; without lock a BC of the holdover completes what is in flight. Tracking of a release point restarts. When a cause is judged, the orbit
number at lock and the free values of lock are the model's readings (assumptions 1, 64, 68, 105 and 122). -/
def Obligations.LockAndCrossings : Prop :=
  (∀ (s : State), s.eng.locked = false → s.eng.timing = true → s.eng.tim.acqReady = true → s.eng.host.pends = [] →
    let set := s.eng.reg Reg.TIM_ORBSET_LO_ORB + 2 ^ 32 * s.eng.reg Reg.TIM_ORBSET_HI_ORB
    let orb := if s.eng.sma = false then s.eng.tim.acqOrbit % 2 ^ 50
      else if s.eng.reg Reg.TIM_ORBSET_HI_VALID = 1 then set else s.eng.tim.nextOrbit
    let e1 := nextBc (declareLock orb s.eng)
    exec .lockAcquire s =
      .next { s with eng := countedCrossing ((List.range 8).map (fun i => e1.freeVal.1 / 65536 ^ i % 65536)) [] e1.freeVal.2 })
  ∧ (∀ (i : TickIn) (s : State), s.eng.locked = true → s.eng.tim.cmdDue = none → s.eng.regs.wf = true →
    let slot := if s.eng.tim.slot + 1 < orbitLen s.eng.active then s.eng.tim.slot + 1 else 0
    let orb := if slot = 0 then s.eng.tim.orbit + 1 else s.eng.tim.orbit
    let mark := markerIn s.eng i.timing
    let here := signalIn s.eng i.timing
    let absent := if here then 0 else s.eng.tim.absent + 1
    let errs := (errsAfter s.eng.tim.errs (errorsIn s.eng i.timing)).map (·.2)
    let e1 := (timingInput i.timing slot orb s.eng).1
    let causes := (timingInput i.timing slot orb s.eng).2
    let tim : TimSt := { e1.tim with slot := slot, orbit := orb, orbits := if slot = 0 then e1.tim.orbits + 1 else e1.tim.orbits }
    (causes.testBit 0 = (!here && (decide (4 ≤ absent) || decide (slot = 0))))
    ∧ causes.testBit 3 = (decide (slot = 0) != mark)
    ∧ causes.testBit 4 = decide (s.eng.reg Reg.TIM_ERRWIN_MAX < errs.foldl (· + ·) 0)
    ∧ (causes.testBit 1 = false ∧ causes.testBit 2 = false ∧ causes.testBit 7 = false)
    ∧ (causes ≠ 0 → exec (.crossingTick i) s =
        .next { s with eng := holdoverBc (lockLost causes (orb * orbitLen s.eng.active + slot) false e1) })
    ∧ (causes = 0 → slot ≠ 0 ∨ s.eng.host.pends = [] → exec (.crossingTick i) s = .next { s with
        eng := countedCrossing i.nim i.arrivals (commandByte i.timing (beamOf i.timing (nextBc { e1 with tim := tim }))) }))
  ∧ (∀ (s : State), s.eng.timing = true → s.eng.locked = true →
    exec (.pllLockChange false) s =
        .next { s with eng := lockLost 2 s.eng.counted false { s.eng with tim := { s.eng.tim with pll := false } } }
    ∧ (∀ khz, freqNear (s.eng.act Reg.TIM_FNOM_KHZ) khz = false → exec (.freqWindowEnd khz) s =
        .next { s with eng := lockLost 4 s.eng.counted false (s.eng.setReg Reg.TIM_MEAS_KHZ (min khz 131071)) })
    ∧ (∀ khz, freqNear (s.eng.act Reg.TIM_FNOM_KHZ) khz = true →
        exec (.freqWindowEnd khz) s = .next { s with eng := s.eng.setReg Reg.TIM_MEAS_KHZ (min khz 131071) })
    ∧ (3 ≤ s.eng.tim.absent → exec .signalAbsentTimeout s =
        .next { s with eng := lockLost 1 s.eng.counted false (s.eng.setReg Reg.TIM_STAT_SIGNAL 0) }))
  ∧ (∀ (s : State), s.eng.locked = false → s.eng.st ≠ stOff →
    let e0 := nextBc (boundaryClears s.eng)
    let samples := (List.range 8).map (fun i => e0.freeVal.1 / 65536 ^ i % 65536)
    let e1 := outputsStep (faultNow (keepCapture e0.tim.bc samples e0.freeVal.2) 0)
    let e2 := moveFrames (lanternIn samples (slowOutputs (boundaryWrites e1)))
    let e3 := if e2.linked = true then tdmSend e2 else e2
    exec .holdoverBcTick s = .next { s with eng := psFlush (pruneFrames (irqUpdate true (sprTick (cntBoundary (memRest e3))))) })
  ∧ (∀ (s : State), s.eng.regs.wf = true → s.eng.tim.rpWorst.wf = true →
    Completes s (exec .timRpworstClr s) (fun t => t.reg Reg.TIM_RPWORST_SC = 0
      ∧ t.tim.rpWorst.get (s.eng.reg Reg.TIM_RPIDX_ID) = 0
      ∧ (∀ b, b ≠ s.eng.reg Reg.TIM_RPIDX_ID → t.tim.rpWorst.get b = s.eng.tim.rpWorst.get b)
      ∧ (∀ g : Fld, g.key ≠ Reg.TIM_RPSET_SC.key → g.key ≠ Reg.TIM_RPWORST_SC.key → t.reg g = s.eng.reg g)))

/-- Timing commands (R74, R435, R444): a byte that comes in two consecutive crossings acts once, again only after a crossing with another
byte, and NOP never; a command that acts is recorded and raises its event, WAKE wakes where PWR_WAKE allows it, FILL_END and FILL_START ask
for HOLD and its end where PWR_CTL allows it; an undefined one is counted. While TIM is unlocked none acts. That a row acts where its
command is due, and what a missing crossing does to a pair, are the model's readings (assumptions 88 and 121). -/
def Obligations.TimingCommands : Prop :=
  (∀ (x : Timing) (e : Engine), e.sma = false → x.char0 ≠ .absent → x.cmd < 256 →
    let t := (commandByte x e).tim
    t.prevCmd = x.cmd + 1
    ∧ (x.cmd ≠ 0 → e.tim.prevCmd = x.cmd + 1 → e.tim.acted ≠ x.cmd + 1 → t.cmdDue = some x.cmd ∧ t.acted = x.cmd + 1)
    ∧ (x.cmd = 0 ∨ e.tim.prevCmd ≠ x.cmd + 1 ∨ e.tim.acted = x.cmd + 1 → t.cmdDue = e.tim.cmdDue)
    ∧ (e.tim.acted = x.cmd + 1 → t.acted = x.cmd + 1)
    ∧ (e.tim.acted ≠ x.cmd + 1 → e.tim.prevCmd ≠ x.cmd + 1 → t.acted = 0))
  ∧ (∀ (x : Timing) (e : Engine), e.sma = false → x.char0 = .absent →
    let t := (commandByte x e).tim
    t.prevCmd = 0 ∧ t.cmdDue = e.tim.cmdDue ∧ t.acted = e.tim.acted)
  ∧ (∀ (s : State) (c : Nat), s.eng.locked = true → s.eng.tim.cmdDue = some c →
    let e0 : Engine := { s.eng with tim := { s.eng.tim with cmdDue := none } }
    let e1 := (e0.setReg Reg.TIM_CMD_LAST c).raise Src.cmd c
    let due : Engine := { e1 with pwr := { e1.pwr with fillDue := c } }
    (c = 1 → exec .tcWake s = .next { s with eng := if e1.reg Reg.PWR_WAKE_TIMCMD = 1 then startWake e1 2 else e1 })
    ∧ (c = 2 → exec .tcFillEnd s = .next { s with eng := if e1.reg Reg.PWR_CTL_FILLCMD = 1 then due else e1 })
    ∧ (c = 3 → exec .tcFillStart s = .next { s with eng := if e1.reg Reg.PWR_CTL_FILLCMD = 1 then due else e1 })
    ∧ (c = 4 → exec .tcMark s = .next { s with eng := e1 })
    ∧ (0x40 ≤ c → c ≤ 0x7F → exec .tcUser s = .next { s with eng := e1 })
    ∧ (c = 0 ∨ (4 < c ∧ c < 0x40) ∨ 0x7F < c → exec .tcUndefined s = .next { s with eng := e0.bump Reg.TIM_CMDBAD_COUNT }))
  ∧ (∀ (s : State), s.eng.locked = false ∨ s.eng.tim.cmdDue = none → exec .tcWake s = .next s ∧ exec .tcFillEnd s = .next s
    ∧ exec .tcFillStart s = .next s ∧ exec .tcMark s = .next s ∧ exec .tcUser s = .next s ∧ exec .tcUndefined s = .next s)

/-- Shevo lanes (R108, R113, R115): a lane goes to HUNT when its coding layer locks, at the polarity that INV gives, and to DOWN when it is
lost, and its segments in the receive stage with it; a millisecond after entry into UP a holding lane holds, with the coefficients found
till then; the skew reports are formed anew when an epoch of 128 orbits ends. A lane that is OFF changes in nothing. When these rows come is
the sender's choice (assumption 7); the line's polarity comes with the row, and what an equaliser holds is opaque (assumptions 20 and 123).
-/
def Obligations.LaneStates : Prop :=
  (∀ (lane : Nat) (s : State), lane < 144 → s.eng.regs.wf = true → s.eng.lnk.good.wf = true → s.eng.lnk.bad.wf = true →
    let st := s.eng.laneState lane
    let o := fun (locked : Bool) => exec (.laneSignalChange lane ⟨locked, s.eng.act (Reg.LNK_LCFG_INV lane) == 1⟩) s
    let rest : Engine → Prop := fun t => ∀ g : Fld, g.key < 32 * 0xE00000 → g.key ≠ (Reg.LNK_LSTAT_STATE lane).key →
      g.key ≠ (upFld lane).key → g.key ≠ (Reg.LNK_LSTAT_EQF lane).key → g.key ≠ (Reg.LNK_SYNCLOSS_COUNT lane).key →
      g.key ≠ (Reg.LNK_LSTAT_READAPT lane).key → t.reg g = s.eng.reg g
    (st = 0 → o true = .next s ∧ o false = .next s)
    ∧ (st = 1 → o false = .next s ∧ Completes s (o true) (fun t => t.laneState lane = 2 ∧ rest t))
    ∧ (∀ inv, inv ≠ (s.eng.act (Reg.LNK_LCFG_INV lane) == 1) → exec (.laneSignalChange lane ⟨true, inv⟩) s = o false)
    ∧ (2 ≤ st → o true = .next s ∧ Completes s (o false) (fun t => t.laneState lane = 1 ∧ t.reg (Reg.LNK_LSTAT_EQF lane) = 0 ∧ rest t
        ∧ t.lnk.good.get lane = 0 ∧ t.lnk.bad.get lane = 0
        ∧ (st = 3 → t.reg (Reg.LNK_SYNCLOSS_COUNT lane) = min (s.eng.reg (Reg.LNK_SYNCLOSS_COUNT lane) + 1) (2 ^ 32 - 1)
            ∧ (s.eng.reg (Reg.LNK_LSTAT_EQF lane) = 1 → t.reg (Reg.LNK_LSTAT_READAPT lane) = 1)
            ∧ t.lnk.rx = (s.eng.dropRx lane).lnk.rx))))
  ∧ (∀ (lane : Nat) (s : State), lane < 144 → s.eng.regs.wf = true → s.eng.lnk.adapting.wf = true → s.eng.laneState lane = 3 →
    Completes s (exec (.eqHoldStart lane) s) (fun t => t.lnk.adapting.get lane = 0
      ∧ t.reg (Reg.LNK_LSTAT_EQF lane) = b2n (s.eng.holdMode lane)
      ∧ (s.eng.holdMode lane = true → s.eng.reg (Reg.LNK_LSTAT_EQF lane) = 0 → s.eng.lnk.coefs.wf = true →
          t.lnk.coefs.get lane = 1 + s.eng.free ∧ t.free = s.eng.free + 1)
      ∧ (s.eng.reg (Reg.LNK_LSTAT_EQF lane) = 1 → t.lnk.coefs = s.eng.lnk.coefs)
      ∧ (∀ g : Fld, g.key ≠ (Reg.LNK_LSTAT_EQF lane).key → t.reg g = s.eng.reg g)))
  ∧ (∀ (s : State), s.eng.locked = true → 128 ≤ s.eng.tim.orbits →
    let lnk : LnkSt := { s.eng.lnk with skew := shiftEpochs s.eng.lnk.skew }
    let e1 : Engine := { s.eng with lnk := lnk, tim := { s.eng.tim with orbits := s.eng.tim.orbits - 128 } }
    exec .skewEpochEnd s = .next { s with eng := ((skewed s.eng.lnk.skew).foldl Engine.reportSkew e1).skewSum })

/-- Frames (R95, R98 to R102, R108 to R111, R414, R415): the coding layer's blocks give the frame's bits, descrambled, at the polarity of
INV, a bad block's as zeros and counted; four valid headers in a row bring a lane to UP, four bad ones back to HUNT; a frame in UP is
resolved by its TAG, one with TAG ≥ S is discarded and counted; a segment declared missing, or whose CRC fails, is counted, and one that
passes is sent on to its buffer while TIM is locked. The Tandem lanes deliver their frames to the link. That a segment is counted late or
early at its buffer, what the row brings of the line, and when a pending slot table rules are the model's readings (assumptions 106, 123 and
124). -/
def Obligations.LaneFrames : Prop :=
  (∀ (lane gap codeErrs fecCorr : Nat) (line : List LineBlock) (s : State), lane < 144 → s.eng.regs.wf = true → s.eng.lnk.good.wf = true →
    s.eng.lnk.bad.wf = true →
    let o := exec (.laneFrameReceive lane gap line codeErrs fecCorr) s
    let st := s.eng.laneState lane
    let f := frameBits s.eng.active lane
    let n25 := laneMode s.eng.active lane == 1
    let data := lineBits n25 (s.eng.act (Reg.LNK_LCFG_INV lane) == 1) (s.eng.lnk.scr.get lane) line
    let frame := data.1 % 2 ^ f
    let heard : LnkSt := { s.eng.lnk with scr := s.eng.lnk.scr.set lane data.2.2.1 }
    let e0 := Engine.bumpBy { s.eng with lnk := heard } (Reg.LNK_CODEERR_COUNT lane) (if n25 then data.2.2.2 else codeErrs)
    let e1 := if laneMode s.eng.active lane = 2 then e0.bumpBy (Reg.LNK_FECCORR_COUNT lane) fecCorr else e0
    (st < 2 ∨ data.2.1 ≠ gap + f → o = .next s)
    ∧ (st = 2 → data.2.1 = gap + f → headerOk frame f = false → Completes s o (fun t => t.laneState lane = 2 ∧ t.lnk.good.get lane = 0))
    ∧ (st = 2 → data.2.1 = gap + f → headerOk frame f = true → s.eng.lnk.good.get lane < 3 → gap ≤ 15 →
        Completes s o (fun t => t.laneState lane = 2 ∧ t.lnk.good.get lane = s.eng.lnk.good.get lane + 1
          ∧ t.reg (Reg.LNK_LSTAT_TAG lane) = frameField frame f 4 14))
    ∧ (st = 2 → data.2.1 = gap + f → headerOk frame f = true → 3 ≤ s.eng.lnk.good.get lane → gap ≤ 15 → ∃ g : Engine, g.laneState lane = 3
        ∧ o = .next { s with eng := receiveValid (bankAt s.eng) lane frame g })
    ∧ (st = 3 → data.2.1 = gap + f → headerOk frame f = false ∨ 15 < gap → Completes s o (fun t =>
        (s.eng.lnk.bad.get lane < 3 → t.laneState lane = 3 ∧ t.lnk.bad.get lane = s.eng.lnk.bad.get lane + 1)
        ∧ (3 ≤ s.eng.lnk.bad.get lane → t.laneState lane = 2)
        ∧ t.reg (Reg.LNK_LCHKERR_COUNT lane) = min (s.eng.reg (Reg.LNK_LCHKERR_COUNT lane) + 1) (2 ^ 32 - 1)))
    ∧ (st = 3 → data.2.1 = gap + f → headerOk frame f = true → gap ≤ 15 → o =
        .next { s with eng := receiveValid (bankAt s.eng) lane frame { e1 with lnk := { e1.lnk with bad := e1.lnk.bad.set lane 0 } } }))
  ∧ (∀ (bankOf : Nat → Tab) (l frame : Nat) (e : Engine),
    let tag := frameField frame (frameBits e.active l) 4 14
    let e0 := e.setReg (Reg.LNK_LSTAT_TAG l) tag
    orbitLen e.active ≤ tag → receiveValid bankOf l frame e = (e0.bump (Reg.LNK_TAGERR_COUNT l)).raise (Src.lnk + 2) l)
  ∧ (∀ (bank : Tab) (f frame tag pres j q pos : Nat) (skew : Int) (e : Engine),
    let w := slotOf bank q
    let bad := segCrc tag (msbBits w.size (frameField frame f pos w.size)) ≠ frameField frame f (pos + w.size) 16
    let r := receiveSlot bank f frame tag pres skew (e, pos) j q
    let words := (List.range w.count).map (fun i => frameField frame f (pos + i * w.bits) w.bits)
    (w.en = false → r = (e, pos))
    ∧ (w.en = true → r.2 = pos + w.size + 16)
    ∧ (w.en = true → tbit pres j = false → r.1 = (e.bump (Reg.LNK_SABSENT_COUNT q)).raise (Src.lnk + 7) q)
    ∧ (w.en = true → tbit pres j = true → bad → r.1 = (e.bump (Reg.LNK_SCRC_COUNT q)).raise (Src.lnk + 6) q)
    ∧ (w.en = true → tbit pres j = true → ¬bad → e.locked = false → r.1 = e)
    ∧ (w.en = true → tbit pres j = true → ¬bad → e.locked = true → ∃ x : Seg, r.1.lnk.rx = e.lnk.rx ++ [x] ∧ x.q = q ∧ x.words = words
        ∧ x.skew = skew + (w.lag : Nat) ∧ r.1.regs = e.regs ∧ r.1.lnk.buf = e.lnk.buf))
  ∧ (∀ (lanes : List (Option Nat)) (owd : Nat) (s : State), s.eng.linked = true →
    let rx := (List.range 4).map (laneRx s.eng lanes)
    let up := ((indexed rx).map (fun ix => 2 ^ ix.1 * b2n ix.2.isSome)).foldl (· + ·) 0
    let fs := rx.filterMap id
    let seen : Engine := { s.eng with regs := s.eng.regs.puts [(Reg.TDM_LANES_UP, up), (Reg.TDM_OWD_SC, owd)] }
    let e1 := seen.bumpBy Reg.TDM_RXERR_COUNT (fs.filter (fun w => !tandemOk w)).length
    let e2 := if e1.reg Reg.TDM_STAT_LINK = 0 then setLink e1 1 else e1
    let o := exec (.tandemFrameReceive lanes owd) s
    (fs = [] → o = .next { s with eng := tdmDown e1 })
    ∧ (fs ≠ [] → fs.find? tandemOk = none → o = .next { s with eng := e2 })
    ∧ (∀ w, fs.find? tandemOk = some w → o = .next { s with eng := partnerRx e2 w owd }))

/-- Outputs (R9, R170, R215, R233, R234): a list stops from the next frame on; the relay counts are journalled; a new wear limit is
evaluated at once and a bit that rises raises RLYWEAR; a transmit fault is shown and raised; a relay whose sense contact disagrees with its
coil sets RLYF, raises KRELAY and leads to FAULT. That sense contacts follow the coils is the model's choice (assumption 22). -/
def Obligations.OutputEvents : Prop :=
  (∀ (s : State),
    exec .seqStopL0 s = .next { s with eng := { s.eng with r9 := s.eng.r9 ++ [(Reg.SEQ_LSTAT_STOPPED 0, 1)] } }
    ∧ exec .seqStopL1 s = .next { s with eng := { s.eng with r9 := s.eng.r9 ++ [(Reg.SEQ_LSTAT_STOPPED 1, 1)] } })
  ∧ (∀ (s : State),
    let a : OutSt := { s.eng.out with relayJournal := s.eng.out.relayJournal.set 0 (s.eng.reg Reg.OUT_RLYCNT_A_COUNT) }
    let b : OutSt := { s.eng.out with relayJournal := s.eng.out.relayJournal.set 1 (s.eng.reg Reg.OUT_RLYCNT_B_COUNT) }
    exec (.relayCountJournal 0) s = .next { s with eng := { s.eng with out := a } }
    ∧ exec (.relayCountJournal 1) s = .next { s with eng := { s.eng with out := b } })
  ∧ (∀ (v : Nat) (s : State), s.eng.regs.wf = true → v < 2 ^ 32 →
    let old := s.eng.reg Reg.OUT_RLYSTAT_WEAR
    let a := decide (v ≤ s.eng.reg Reg.OUT_RLYCNT_A_COUNT)
    let b := decide (v ≤ s.eng.reg Reg.OUT_RLYCNT_B_COUNT)
    let e1 := (s.eng.setReg Reg.OUT_RLYWARN_LIMIT v).setReg Reg.OUT_RLYSTAT_WEAR (b2n a + 2 * b2n b)
    let e2 := if a = true ∧ tbit old 0 = false then e1.raise Src.rlyWear 0 else e1
    exec (.rlywarnLimitWrite v) s = .next { s with eng := if b = true ∧ tbit old 1 = false then e2.raise Src.rlyWear 1 else e2 })
  ∧ (∀ (lane : Nat) (s : State), lane ≤ 7 →
    exec (.dlTxFault lane) s = .next { s with eng := (s.eng.setReg (Reg.OUT_DLSTAT_TXF lane) 1).raise Src.dlFault lane })
  ∧ (∀ (relay : Nat) (closed : Bool) (s : State), relay ≤ 1 → tbit (s.eng.reg Reg.OUT_KSTAT_COIL) relay ≠ closed →
    let v := s.eng.reg Reg.OUT_KSTAT_SENSE
    let e1 := s.eng.setReg Reg.OUT_KSTAT_SENSE (v - 2 ^ relay * bit v relay + 2 ^ relay * b2n closed)
    exec (.relaySenseTimeout relay closed) s = .next { s with eng := faultReport 0 ((e1.addCause 6).raise Src.krelay relay) })

/-- Raising an event (R314, R317, R318, R326, R327, R329): a listed source counts it, raises its line, and publishes a request; a channel
outside hold-off fires, in hold-off it absorbs the request, a stopped one counts it alone, and one above the guard's count stops. A firing
reaches every subscribed input. On a secure channel a source that is not secure publishes nothing and an input whose owner lacks SECURE
hears nothing (R321). Requests absorbed under routes that have changed since reach whom those routes name (R325). Reserved sources and lines
that the Lantern does not drive raise nothing; nothing but the event fabric and registers from EVT on changes. Which lines the Lantern
drives is opaque (assumption 6); a route that a BAR write makes on a secure channel carries nothing by choice (assumption 129). -/
def Obligations.EventFabric : Prop :=
  (∀ (src data : Nat) (s : State),
    let led := tbit (s.eng.reg (Reg.ULA_EUSED_MASK ((src - 384) / 32))) ((src - 384) % 32)
    let seen : EvtSt := { s.eng.evt with nimNow := Nat.lor s.eng.evt.nimNow (2 ^ (src - 320)) }
    (sourceListed src = false → exec (.eventRaise src data) s = .next s)
    ∧ (sourceListed src = true → src < 320 ∨ 447 < src → exec (.eventRaise src data) s = .next { s with eng := s.eng.raise src data })
    ∧ (320 ≤ src → src ≤ 335 → exec (.eventRaise src data) s = .next { s with eng := { s.eng with evt := seen }.raise src (src - 320) })
    ∧ (384 ≤ src → src ≤ 447 → s.eng.reg Reg.ULA_STAT_LOADED ≠ 0 → s.eng.reg Reg.ULA_STAT_CONFIG ≠ 1 → led = true →
        exec (.eventRaise src data) s = .next { s with eng := s.eng.raise src (src - 384) })
    ∧ (384 ≤ src → src ≤ 447 → s.eng.reg Reg.ULA_STAT_LOADED = 0 ∨ s.eng.reg Reg.ULA_STAT_CONFIG = 1 ∨ led = false →
        exec (.eventRaise src data) s = .next s)
    ∧ (src < 128 → exec (.evtSwpubWrite src) s = .next { s with eng := s.eng.raise (768 + src) 0 })
    ∧ EventsOnly s.eng (s.eng.raise src data))
  ∧ (∀ (src data k : Nat) (e : Engine), sourceListed src = true → e.regs.wf = true → k < 1024 →
    e.joined (src / 128) (src % 128) = [] → e.reg (Reg.EVT_SNOTE_EN src) = 0 → e.reg (Reg.EVT_SPUB_CH src) = k →
    let e1 := e.bump (Reg.EVT_SCNT_COUNT src)
    let e2 := if sourceLevel src = true then e1 else e1.irqPulse src
    let counted := e2.bump (Reg.EVT_KREQ_COUNT k)
    let n := e.evt.window.get k + 1
    let e3 : Engine := { counted with evt := { counted.evt with window := e.evt.window.set k n } }
    let late : EvtSt := { e3.evt with hold := e3.evt.hold.set k 2 }
    let guard := e.reg Reg.EVT_GUARD_COUNT
    let off := e3.setReg (Reg.EVT_KSTAT_STOP k) 1
    let flagged := if e.reg Reg.EVT_LOOP_FLAG = 0 then (off.setReg Reg.EVT_LOOP_CH k).setReg Reg.EVT_LOOP_FLAG 1 else off
    let heard := e.reg (Reg.EVT_SPUB_EN src) = 1 ∧ (e.reg (Reg.EVT_KOWN_SEC k) = 1 → sourceSecure src = true)
    (¬heard → e.raise src data = e2)
    ∧ (heard → e.reg (Reg.EVT_KSTAT_STOP k) = 1 → e.raise src data = e3)
    ∧ (heard → e.reg (Reg.EVT_KSTAT_STOP k) = 0 → guard = 0 ∨ n ≤ guard →
        e.raise src data = if e.evt.hold.get k = 0 then e3.fire k else { e3 with evt := late })
    ∧ (heard → e.reg (Reg.EVT_KSTAT_STOP k) = 0 → guard ≠ 0 → guard < n →
        ∃ fuel, e.raise src data = Engine.raiseFuel fuel (flagged.bump Reg.EVT_LOOPCNT_COUNT) Src.loop k))
  ∧ (∀ (k c : Nat) (e : Engine), k < 1024 → consumerListed c = true → e.regs.wf = true → e.evt.inbox.wf = true → e.evt.hold.wf = true →
    (e.fire k).evt.inbox.get c = e.evt.inbox.get c + (if e.subscription c = some k ∧ subInsecure e c k = false then 1 else 0)
    ∧ (e.fire k).evt.hold.get k = 1
    ∧ (e.fire k).reg (Reg.EVT_KFIRE_COUNT k) = min (e.reg (Reg.EVT_KFIRE_COUNT k) + 1) (2 ^ 32 - 1))
  ∧ (∀ (ch : Nat) (s : State),
    let quiet : EvtSt := { s.eng.evt with hold := s.eng.evt.hold.set ch 0 }
    let stopped : EvtSt := { quiet with oldHold := s.eng.evt.oldHold.filter (fun x => x.ch != ch) }
    let anew : EvtSt := { s.eng.evt with window := [] }
    let o := exec (.holdoffEnd ch) s
    (s.eng.reg (Reg.EVT_KSTAT_STOP ch) = 1 → o = .next { s with eng := { s.eng with evt := stopped } })
    ∧ (s.eng.reg (Reg.EVT_KSTAT_STOP ch) = 0 → (∀ x ∈ s.eng.evt.oldHold, x.ch ≠ ch) → s.eng.evt.hold.get ch = 2 →
        o = .next { s with eng := s.eng.fire ch })
    ∧ (s.eng.reg (Reg.EVT_KSTAT_STOP ch) = 0 → (∀ x ∈ s.eng.evt.oldHold, x.ch ≠ ch) → s.eng.evt.hold.get ch ≠ 2 →
        o = .next { s with eng := { s.eng with evt := quiet } })
    ∧ (s.eng.reg (Reg.EVT_KSTAT_STOP ch) = 0 → (∃ x ∈ s.eng.evt.oldHold, x.ch = ch) → o = .next { s with eng := fireOld s.eng ch })
    ∧ exec .guardWindowEnd s = .next { s with eng := { s.eng with evt := anew } }
    ∧ (ch < 1024 → exec (.evtKstatStopWrite ch) s = .next { s with eng := s.eng.setReg (Reg.EVT_KSTAT_STOP ch) 0 }))

/-- What takes an event (R64, R319, R323, R324, R327): a notification is written to its EVN ring with its source, count, crossing and data,
or dropped where the ring is full; at the sampling edge of a consumer input the events that pass its gate, each under the bank of its
raising (R325), make one activation, which starts the input's task, or, where it is busy, is ignored and counted. An activation of the wake
input with EVENT = 0 is counted by choice (assumption 80), and a gate that has changed is closed (assumption 132). -/
def Obligations.EventConsumers : Prop :=
  (∀ (src : Nat) (s : State) (n : Note) (r : Ring), s.eng.evt.notes.find? (fun m => m.src == src) = some n → s.eng.ring? n.ring = some r →
    r.fault = false → r.typ = 3 → s.eng.serving = true →
    let taken : EvtSt := { s.eng.evt with notes := s.eng.evt.notes.filter (fun m => m.src != n.src) }
    let e1 : Engine := { s.eng with evt := taken }
    let bytes := leBytes 8 n.crossing ++ leBytes 2 n.src ++ leBytes 1 n.count ++ leBytes 1 (128 * r.phase r.prod + b2n r.lost) ++ leBytes 4 n.data
    (0 < r.space → exec (.notificationWrite src) s = .next { s with
        eng := (e1.post (r.addr r.prod) bytes).ringIrq { r with prod := (r.prod + 1) % 2 ^ 32, lost := false } })
    ∧ (r.space = 0 → exec (.notificationWrite src) s =
        .next { s with eng := e1.putRing { r with drops := r.drops + 1, lost := true } }))
  ∧ (∀ (c : Nat) (s : State), consumerListed c = true →
    let (e1, n) := takeNow s.eng c
    let mine := s.eng.evt.oldbox.filter (fun x => x.c == c)
    let m := (mine.map (fun x => e1.passing x.gate x.n x.armed)).foldl (· + ·) 0
    let left : EvtSt := { e1.evt with oldbox := e1.evt.oldbox.filter (fun x => x.c != c) }
    let e2 : Engine := { e1 with evt := left }
    mine ≠ [] → exec (.consumerActivation c) s =
      .next { s with eng := if n + m = 0 then e2 else activate1 (mergeEvents e2 c (n + m)) c })
  ∧ (∀ (c : Nat) (s : State), consumerListed c = true → (∀ x ∈ s.eng.evt.oldbox, x.c ≠ c) →
    let n := s.eng.evt.inbox.get c
    let box : EvtSt := { s.eng.evt with inbox := s.eng.evt.inbox.set c 0, armbox := s.eng.evt.armbox.set c 0 }
    let e1 : Engine := { s.eng with evt := box }
    let merged := fun (e : Engine) (m : Nat) => if m ≤ 1 then e else (e.bumpBy Reg.EVT_MERGE_COUNT (m - 1)).setReg Reg.EVT_LAST_MERGE c
    let level := s.eng.gateLevel (s.eng.reg (Reg.EVT_CGATE_SEL c) % 16) != (s.eng.reg (Reg.EVT_CGATE_INV c) == 1)
    let opened := s.eng.evt.armbox.get c != 0 || s.eng.reg (Reg.EVT_CSTAT_OPEN c) == 1
    let o := exec (.consumerActivation c) s
    (n = 0 → s.eng.reg (Reg.EVT_CGATE_KIND c) ≠ 2 → o = .next { s with eng := e1 })
    ∧ (0 < n → s.eng.reg (Reg.EVT_CGATE_KIND c) = 0 → o = .next { s with eng := activate1 (merged e1 n) c })
    ∧ (0 < n → s.eng.reg (Reg.EVT_CGATE_KIND c) = 1 → o = .next { s with eng := if level = true then activate1 (merged e1 n) c else e1 })
    ∧ (s.eng.reg (Reg.EVT_CGATE_KIND c) = 2 → let e2 := e1.setReg (Reg.EVT_CSTAT_OPEN c) (b2n (opened && decide (n = 0)))
        o = .next { s with eng := if opened = true ∧ 0 < n then activate1 e2 c else e2 }))
  ∧ (∀ (c : Nat) (e : Engine),
    (e.st = stOff ∨ (c = 256 ∧ e.st ≠ stStandby) → activate1 e c = e)
    ∧ (e.st ≠ stOff → ¬(c = 256 ∧ e.st ≠ stStandby) →
        (c = 258 → inputDown e c = true → activate1 e c = e.bump Reg.OUT_HTLOST_COUNT)
        ∧ (c ≠ 258 → inputDown e c = true ∨ inputBusy e c = true →
            activate1 e c = (e.bump Reg.EVT_BUSY_COUNT).setReg Reg.EVT_LAST_BUSY c)
        ∧ (inputDown e c = false → inputBusy e c = false → c ≠ 258 → activate1 e c = (inputTask e c).bump (Reg.EVT_CACT_COUNT c))))

/-- The interrupt controller (R329, R334, R337): a rising edge that it takes makes the source pending, and one taken while it is pending is
merged; a host target's message is sent with its vector's address and data, or, where it is masked, counts as masked before acceptance and
is held with its pending bit; a 1 written to PEND clears it, and no other source's. That the row of an input brings its level is the model's
choice (assumption 57). -/
def Obligations.InterruptController : Prop :=
  (∀ (src : Nat) (s : State), sourceListed src = true → sourceLevel src = false → s.eng.evt.lines.get src ≠ 0 → s.eng.regs.wf = true →
    (s.eng.reg (Reg.IRQ_SSTAT_PEND src) = 0 → Completes s (exec (.irqFilterPass src true) s) (fun t =>
      t.reg (Reg.IRQ_SSTAT_PEND src) = 1 ∧ t.evt.lines = s.eng.evt.lines.set src 0 ∧ t.reg Reg.IRQ_MERGE_COUNT = s.eng.reg Reg.IRQ_MERGE_COUNT))
    ∧ (s.eng.reg (Reg.IRQ_SSTAT_PEND src) = 1 → Completes s (exec (.irqFilterPass src true) s) (fun t =>
      t.reg (Reg.IRQ_SSTAT_PEND src) = 1 ∧ t.evt.lines = s.eng.evt.lines.set src 0
        ∧ t.reg Reg.IRQ_MERGE_COUNT = min (s.eng.reg Reg.IRQ_MERGE_COUNT + 1) (2 ^ 32 - 1))))
  ∧ (∀ (src : Nat) (s : State), s.eng.evt.lines.get src = 0 → sourceLevel src = false → exec (.irqFilterPass src true) s = .next s)
  ∧ (∀ (src v : Nat) (s : State), src < 4096 → s.eng.reg (Reg.IRQ_SSTAT_PEND src) = 1 → s.eng.reg (Reg.IRQ_SCFG_EN src) = 1 →
    s.eng.reg (Reg.IRQ_SCFG_HOST src) = 1 → s.eng.reg (Reg.IRQ_SCFG_TGT src) = v → s.eng.serving = true → s.eng.reg Reg.HST_STATUS_LINKUP = 1 →
    s.eng.regs.wf = true →
    let masked := s.eng.host.fnMask || tbit (s.eng.host.msix.fld (msixFld v 3)) 0
    let already := s.eng.evt.msgs.any (fun m => m.src == src && m.masked)
    let addr := s.eng.host.msix.fld (msixFld v 0) + 2 ^ 32 * s.eng.host.msix.fld (msixFld v 1)
    (masked = true → already = true → exec (.msixSend src) s = .next s)
    ∧ (masked = true → already = false → Completes s (exec (.msixSend src) s) (fun t => t.reg (Reg.IRQ_SSTAT_PRES src) = 0
        ∧ t.reg (Reg.IRQ_SSTAT_PEND src) = 1 ∧ t.evt.msgs = s.eng.evt.msgs.filter (fun x => x.src != src) ++ [⟨src, v, true⟩]
        ∧ t.reg Reg.IRQ_WITHDRAW_COUNT = min (s.eng.reg Reg.IRQ_WITHDRAW_COUNT + 1) (2 ^ 32 - 1) ∧ t.host.out = s.eng.host.out
        ∧ (s.eng.host.pba.wf = true → t.host.pba.get v = s.eng.host.pba.get v % 2 + 2)))
    ∧ (masked = false → Completes s (exec (.msixSend src) s) (fun t => t.reg (Reg.IRQ_SSTAT_PEND src) = 0
        ∧ t.reg (Reg.IRQ_SSTAT_PRES src) = 0 ∧ Sends [⟨addr, leBytes 4 (s.eng.host.msix.fld (msixFld v 2)), false, false⟩] s.eng t
        ∧ t.reg (Reg.IRQ_SCNT_COUNT src) = min (s.eng.reg (Reg.IRQ_SCNT_COUNT src) + 1) (2 ^ 32 - 1))))
  ∧ (∀ (src : Nat) (s : State), s.eng.serving = false ∨ s.eng.reg Reg.HST_STATUS_LINKUP = 0 ∨ s.eng.reg (Reg.IRQ_SSTAT_PEND src) ≠ 1
    ∨ s.eng.reg (Reg.IRQ_SCFG_EN src) ≠ 1 ∨ s.eng.reg (Reg.IRQ_SCFG_HOST src) ≠ 1 → exec (.msixSend src) s = .next s)
  ∧ (∀ (src : Nat) (s : State), src < 4096 → s.eng.regs.wf = true →
    Completes s (exec (.irqPendWrite src) s) (fun t => t.reg (Reg.IRQ_SSTAT_PEND src) = 0
      ∧ (∀ x, x < 4096 → x ≠ src → t.reg (Reg.IRQ_SSTAT_PEND x) = s.eng.reg (Reg.IRQ_SSTAT_PEND x))))

/-- The cascade counters (R340, R341, R343 to R345, R347, R349): an increment adds 1 modulo 2^32, a match and an overflow set their bits and
raise their events where enabled, an overflow carries into a CASCADE counter above in the same cycle; a write waits for its boundary and
then acts; a snapshot latches each chain at the first edge of its own clock after the request, what has had none at the end, shows the
stamp, and completes the commands that asked for it. The unit in OFF counts nothing (R342). The roles of the three increment rows are the
model's choice (assumption 27). -/
def Obligations.CascadeCounters : Prop :=
  (∀ (n : Nat) (s : State), n < 64 → s.eng.regs.wf = true → s.eng.st ≠ stOff → s.eng.reg (Reg.CNT_CFG_SRC n) ≤ 2 →
    s.eng.cnt.snapping = false ∨ s.eng.cnt.latched.contains n = true →
    let o := exec (.counterIncrement n) s
    let v := (s.eng.reg (Reg.CNT_VAL_COUNT n) + 1) % 2 ^ 32
    let cmp := s.eng.reg (Reg.CNT_CMP_VAL n)
    let e1 := s.eng.setReg (Reg.CNT_VAL_COUNT n) v
    let hit := e1.setReg (Reg.CNT_STAT_MATCH n) 1
    let wrapped := e1.setReg (Reg.CNT_STAT_OVF n) 1
    let next := (s.eng.reg (Reg.CNT_VAL_COUNT (n + 1)) + 1) % 2 ^ 32
    (v ≠ 0 → v ≠ cmp → o = .next { s with eng := e1 })
    ∧ (v ≠ 0 → v = cmp → o = .next { s with eng := if s.eng.reg (Reg.CNT_CFG_EVM n) = 1 then hit.raise (512 + 2 * n) v else hit }
        ∧ exec (.counterMatch n) s = o)
    ∧ (v ≠ cmp → exec (.counterMatch n) s = .next s)
    ∧ (s.eng.reg (Reg.CNT_VAL_COUNT n) ≠ 2 ^ 32 - 1 → exec (.counterOverflow n) s = .next s)
    ∧ (v = 0 → cmp ≠ 0 → s.eng.cascades (n + 1) = false →
        o = .next { s with eng := if s.eng.reg (Reg.CNT_CFG_EVO n) = 1 then wrapped.raise (512 + 2 * n + 1) 0 else wrapped }
        ∧ (s.eng.reg (Reg.CNT_VAL_COUNT n) = 2 ^ 32 - 1 → exec (.counterOverflow n) s = o))
    ∧ (v = 0 → cmp ≠ 0 → s.eng.cascades (n + 1) = true → s.eng.reg (Reg.CNT_CFG_EVO n) = 0 → next ≠ 0 →
        next ≠ s.eng.reg (Reg.CNT_CMP_VAL (n + 1)) → o = .next { s with eng := wrapped.setReg (Reg.CNT_VAL_COUNT (n + 1)) next }))
  ∧ (∀ (n : Nat) (s : State), n < 64 → s.eng.st ≠ stOff → s.eng.cnt.snapping = true → s.eng.cnt.latched.contains n = false →
    let o := exec (.counterIncrement n) s
    let e1 : Engine := { s.eng with free := s.eng.free + 1 }
    let first := Config.freeValue s.eng.free % 2 == 1
    let latched := fun (x : Engine) =>
      let ns := (n :: ((List.range (63 - n)).map (fun i => i + n + 1)).takeWhile x.cascades).filter (fun m => !x.cnt.latched.contains m)
      ({ x with regs := x.regs.puts (ns.map (fun m => (Reg.CNT_SNAPV_COUNT m, x.reg (Reg.CNT_VAL_COUNT m))))
                cnt := { x.cnt with latched := x.cnt.latched ++ ns } } : Engine)
    (s.eng.reg (Reg.CNT_CFG_SRC n) = 0 ∨ s.eng.reg (Reg.CNT_CFG_SRC n) = 2 →
        o = .next { s with eng := latched (Engine.incrFuel 64 s.eng n) })
    ∧ (s.eng.reg (Reg.CNT_CFG_SRC n) = 1 →
        o = .next { s with eng := if first then Engine.incrFuel 64 (latched e1) n else latched (Engine.incrFuel 64 e1 n) }))
  ∧ (∀ (n : Nat) (s : State), s.eng.st = stOff → exec (.counterIncrement n) s = .next s)
  ∧ (∀ (n : Nat) (s : State), n < 64 → s.eng.st ≠ stOff → s.eng.reg (Reg.CNT_CFG_SRC n) = 3 →
    s.eng.cnt.snapping = false ∨ s.eng.cnt.latched.contains n = true →
    let used : CntSt := { s.eng.cnt with acts := s.eng.cnt.acts.set n (s.eng.cnt.acts.get n - 1) }
    (s.eng.cnt.acts.get n = 0 → exec (.counterIncrement n) s = .next s)
    ∧ (s.eng.cnt.acts.get n ≠ 0 →
        exec (.counterIncrement n) s = .next { s with eng := Engine.incrFuel 64 { s.eng with cnt := used } n }))
  ∧ (∀ (n : Nat) (s : State), 4 ≤ s.eng.reg (Reg.CNT_CFG_SRC n) → exec (.counterIncrement n) s = .next s)
  ∧ (∀ (n v : Nat) (s : State), n < 64 → v < 2 ^ 32 →
    let held : CntSt := { s.eng.cnt with writes := s.eng.cnt.writes ++ [⟨n, 0, v, false⟩] }
    exec (.cntLoadWrite n v) s = .next { s with eng := { s.eng with cnt := held } })
  ∧ (∀ (n v : Nat) (s : State), n < 64 → v < 2 ^ 32 → s.eng.regs.wf = true →
    (s.eng.cnt.writes = [⟨n, 0, v, true⟩] → Completes s (exec (.counterWriteApply n) s) (fun t =>
        t.reg (Reg.CNT_VAL_COUNT n) = v ∧ t.cnt.writes = [] ∧ (∀ g : Fld, g.key ≠ (Reg.CNT_VAL_COUNT n).key → t.reg g = s.eng.reg g)))
    ∧ (s.eng.cnt.writes = [⟨n, 1, v, true⟩] → Completes s (exec (.counterWriteApply n) s) (fun t =>
        t.reg (Reg.CNT_CMP_VAL n) = v ∧ t.cnt.writes = [] ∧ (∀ g : Fld, g.key ≠ (Reg.CNT_CMP_VAL n).key → t.reg g = s.eng.reg g)))
    ∧ (s.eng.cnt.writes = [⟨n, 2, v, true⟩] → Completes s (exec (.counterWriteApply n) s) (fun t =>
        t.reg (Reg.CNT_CFG_EVM n) = bit v 8 ∧ t.reg (Reg.CNT_CFG_EVO n) = bit v 9 ∧ t.cnt.writes = []
        ∧ t.reg (Reg.CNT_CFG_SRC n) = (if 4 < v % 8 ∨ (n = 0 ∧ v % 8 = 4) then s.eng.reg (Reg.CNT_CFG_SRC n) else v % 8)
        ∧ ∀ m, m < 64 → t.reg (Reg.CNT_VAL_COUNT m) = s.eng.reg (Reg.CNT_VAL_COUNT m)))
    ∧ (s.eng.cnt.writes = [⟨n, 0, v, false⟩] → exec (.counterWriteApply n) s = .next s))
  ∧ (∀ (s : State), s.eng.regs.wf = true →
    let asked : CntSt := { s.eng.cnt with snapping := true, latched := [] }
    (s.eng.cnt.snapping = true → exec .cntSnapReq s = .next s)
    ∧ (s.eng.cnt.snapping = false → exec .cntSnapReq s = .next { s with eng := { s.eng with cnt := asked } })
    ∧ (s.eng.cnt.snapping = false → exec .snapshotComplete s = .next s)
    ∧ (s.eng.cnt.snapping = true → ∃ g : Engine, (∀ n, n < 64 → g.reg (Reg.CNT_SNAPV_COUNT n) =
          if s.eng.cnt.latched.contains n then s.eng.reg (Reg.CNT_SNAPV_COUNT n) else s.eng.reg (Reg.CNT_VAL_COUNT n) % 2 ^ 32)
        ∧ g.reg Reg.CNT_SNAPSEQ_SEQ = (s.eng.reg Reg.CNT_SNAPSEQ_SEQ + 1) % 2 ^ 32
        ∧ g.reg Reg.CNT_SNAPST_LO_STAMP = s.eng.stampNow % 2 ^ 32 ∧ g.reg Reg.CNT_SNAPST_HI_STAMP = s.eng.stampNow / 2 ^ 32 % 2 ^ 32
        ∧ g.cnt.snapping = false ∧ g.cnt.snaps = [] ∧ (∀ n, n < 64 → g.reg (Reg.CNT_VAL_COUNT n) = s.eng.reg (Reg.CNT_VAL_COUNT n))
        ∧ (s.eng.cnt.snaps = [] → exec .snapshotComplete s = .next { s with eng := g })
        ∧ (∀ ring tag notify addr, s.eng.cnt.snaps = [(ring, tag, notify, addr)] →
            Completes s (exec .snapshotComplete s) (AnswersAt ring tag notify .ok g.cxNow (g.post addr (snapBytes g))))))

/-- Shared and capture memory (R174, R357 to R360, R362, R366, R369, R370): port 1 serves, of the requesters that wait, the one first in
turn after the last served; simultaneous accesses to one word read it as it was, and of two writes port 0's is stored and the other is
counted; a single-bit error is corrected, and written back when port 1 is free, a double one is flagged; the scrubber finds errors;
compaction keeps what the journal holds; captures are copied to their region, wait while the staging buffer is full, or are dropped where
the frame has been overwritten; a freeze takes the lowest free slot. Words with more than two bad bits, the header of a stage entry, the
copier's pace and the journal's records are the model's choices (assumptions 7, 28, 29, 61 and 130). -/
def Obligations.MemoryEvents : Prop :=
  (∀ (bank : Nat) (port0 : Option PortAccess) (port1 : List (Requester × PortAccess)) (s : State),
    let waiting := s.eng.mem.waiting ++ port1.filter (fun w => inBank bank w.2)
    let p0 := port0.filter (inBank bank)
    let e1 : Engine := { s.eng with mem := { s.eng.mem with waiting := waiting } }
    let served := s.eng.mem.served.get bank
    let order := requesters.drop served ++ requesters.take served
    let o := exec (.sramAccess ⟨bank, port0⟩ port1) s
    (∀ (before after : List Requester) (q : Requester) (w : Requester × PortAccess), order = before ++ q :: after →
      (∀ x ∈ waiting, inBank bank x.2 = true → x.1 ∉ before) → waiting.find? (fun x => x.1 == q && inBank bank x.2) = some w →
      o = .next { s with eng := bankCycle p0 (some w.2) { e1 with mem := { e1.mem with
        waiting := waiting.erase w, served := s.eng.mem.served.set bank (1 + requesters.idxOf q) } } })
    ∧ ((∀ x ∈ waiting, inBank bank x.2 = false) →
      let e2 := bankCycle p0 none e1
      let back := e2.mem.wback.find? (fun k => 8 * k / 262144 == bank)
      (back = none → o = .next { s with eng := e2 })
      ∧ (∀ k, back = some k → o = .next { s with eng := { e2 with mem := { e2.mem with
        ecc := e2.mem.ecc.set k 0, wback := e2.mem.wback.filter (fun x => x != k) } } })))
  ∧ (∀ (a b : PortAccess) (e : Engine), a.offset < sramSize → b.offset < sramSize → e.mem.ecc = [] →
    let word := fun (x : PortAccess) => leVal ((List.range 8).map (fun i => sramByte e (x.offset / 8 * 8 + i)))
    let shown := fun (l : List (Nat × Bool)) => ({ e with mem := { e.mem with portRead := l } } : Engine)
    let r := bankCycle (some a) (some b) e
    (a.op = .read → b.op = .read → r = shown [(word a, false), (word b, false)])
    ∧ (a.op = .read → b.op ≠ .read → r = portWrite (shown [(word a, false), (0, false)]) b)
    ∧ (a.op ≠ .read → b.op = .read → r = portWrite (shown [(0, false), (word b, false)]) a)
    ∧ (a.op ≠ .read → b.op ≠ .read → a.offset / 8 = b.offset / 8 →
        let stored := portWrite (shown [(0, false), (0, false)]) a
        r = ((stored.bump Reg.MEM_WWCOL_COUNT).setReg Reg.MEM_WWADDR_ADDR b.offset).raise Src.wwcol b.offset)
    ∧ (a.op ≠ .read → b.op ≠ .read → a.offset / 8 ≠ b.offset / 8 →
        r = portWrite (portWrite (shown [(0, false), (0, false)]) a) b))
  ∧ (∀ (a : Nat) (bs : List Byte) (e : Engine), 2 ^ 22 ≤ a → e.mem.ecc = [] → memWf e.mem.cells = true → ∀ i, (h : i < bs.length) →
    let old := memGet e.mem.cells (a + i)
    memGet (sramWrite e a bs).1.mem.cells (a + i) = bs[i]
    ∧ memGet (aliasWrite true e a bs).1.mem.cells (a + i) = old ||| bs[i]
    ∧ memGet (aliasWrite false e a bs).1.mem.cells (a + i) = old &&& ~~~bs[i])
  ∧ (∀ (k : Nat) (e : Engine), e.mem.ecc.wf = true →
    (e.mem.ecc.get k = 0 → eccRead e k = (e, 0, false))
    ∧ (popCount 72 (e.mem.ecc.get k) = 1 → (eccRead e k).2 = (0, false) ∧ (eccRead e k).1.mem.ecc = e.mem.ecc
        ∧ (eccRead e k).1.mem.wback = if e.mem.wback.contains k then e.mem.wback else e.mem.wback ++ [k])
    ∧ (popCount 72 (e.mem.ecc.get k) = 2 → (eccRead e k).2 = (e.mem.ecc.get k % 2 ^ 64, true) ∧ (eccRead e k).1.mem = e.mem))
  ∧ (∀ (s : State),
    (s.eng.reg Reg.MEM_SCRUB_EN ≠ 0 → exec .scrubPass s = .next { s with
        eng := (s.eng.mem.ecc.map (·.1)).foldl (fun a k => (eccRead a k).1) s.eng })
    ∧ (s.eng.reg Reg.MEM_SCRUB_EN = 0 ∨ s.eng.mem.ecc = [] → exec .scrubPass s = .next s)
    ∧ exec (.journalCompaction true) s = .next { s with eng := s.eng.setReg Reg.MEM_JSTAT_COMPACT 1 }
    ∧ (s.eng.reg Reg.MEM_JSTAT_COMPACT ≠ 1 → exec (.journalCompaction false) s = .next { s with eng := s.eng.setReg Reg.MEM_JSTAT_COMPACT 0 })
    ∧ (s.eng.reg Reg.MEM_JSTAT_COMPACT = 1 → ∃ j : Journal,
        exec (.journalCompaction false) s = .next { s with eng := (s.eng.putJournal j).setReg Reg.MEM_JSTAT_COMPACT 0 }
        ∧ j.cfg = s.eng.mem.journal.cfg ∧ j.bundle = s.eng.mem.journal.bundle ∧ j.keepVer = s.eng.mem.journal.keepVer
        ∧ j.bits = s.eng.mem.journal.bits ∧ j.owner = s.eng.mem.journal.owner ∧ j.recs.length ≤ 4))
  ∧ (∀ (s : State) (c : Cap) (cs : List Cap), s.eng.out.caps = c :: cs →
    let e1 : Engine := { s.eng with out := { s.eng.out with caps := cs } }
    let held := (stageFrames s.eng).find? (fun f => f.n == c.n)
    let full := fun (f : Frame) => stagingSize < s.eng.mem.stageUsed + (captureRecord f c.accept).length
    let waits : OutSt := { s.eng.out with caps := { c with stalled := true } :: cs }
    (s.eng.running = false → exec .captureCopy s = .next s)
    ∧ (s.eng.running = true → held = none → exec .captureCopy s = .next { s with eng := (e1.bump Reg.OUT_DCAPDROP_COUNT).raise Src.capDrop 0 })
    ∧ (∀ f, s.eng.running = true → held = some f → ¬full f → setups f.cfg tCaps = [] →
        let bs := captureRecord f c.accept
        let staged : Engine := { e1 with mem := { e1.mem with stageUsed := s.eng.mem.stageUsed + bs.length } }
        exec .captureCopy s = .next { s with eng := appendCapture (staged.bump Reg.OUT_DCAPCNT_COUNT) bs })
    ∧ (∀ f, s.eng.running = true → held = some f → full f → exec .captureCopy s = .next { s with
        eng := { (if c.stalled then s.eng else s.eng.bump Reg.MEM_CSTALL_COUNT) with out := waits } }))
  ∧ (∀ (bs : List Byte) (e : Engine),
    let head := e.reg Reg.MEM_CAPHEAD_LO_ADDR + 2 ^ 32 * e.reg Reg.MEM_CAPHEAD_HI_ADDR
    let start := if captureBase e ≤ head ∧ head + bs.length ≤ 2 ^ 38 then head else captureBase e
    (appendCapture e bs).mem.cells = memWrite e.mem.cells start bs)
  ∧ (∀ (s : State) (cause : Nat) (rest : List Nat), s.eng.out.freezes = cause :: rest →
    let e1 : Engine := { s.eng with out := { s.eng.out with freezes := rest } }
    let slot := (List.range 8).find? (fun k => !tbit (s.eng.reg Reg.MEM_FZSTAT_HELD) k)
    let oldest := s.eng.mem.held.find? (fun k => !tbit (s.eng.reg Reg.MEM_FZSTAT_FAULT) k)
    let taken := fun (k : Nat) =>
      let e2 := maskBit (maskBit (fillFreeze e1 k) Reg.MEM_FZSTAT_HELD k true) Reg.MEM_FZSTAT_FAULT k (cause == 1)
      let e3 : Engine := { e2 with mem := { e2.mem with held := e2.mem.held.filter (· != k) ++ [k] } }
      afterFreeze cause (e3.raise Src.freeze k)
    (∀ k, slot = some k → exec .postMortemFreeze s = .next { s with eng := taken k })
    ∧ (∀ k, slot = none → cause = 1 → oldest = some k → exec .postMortemFreeze s = .next { s with eng := taken k })
    ∧ (slot = none → cause ≠ 1 ∨ oldest = none → exec .postMortemFreeze s =
        .next { s with eng := afterFreeze cause ((e1.bump Reg.MEM_FZDROP_COUNT).raise Src.fzDrop 0) }))

/-- DMA chains (R374, R375, R378, R379, R382): a start of an IDLE channel points it at DMA_HEAD and a start of a running one is counted; a
channel reads its whole descriptor; at the end of a descriptor DMA_NEXT goes before NEXT and END; an abort outside a burst ends the chain
with its status and the commands that wait for it complete; an abort inside a burst that still waits for host data waits with it. When NEXT
is checked and what an abort finishes are the model's readings (assumptions 101 and 102). -/
def Obligations.MoverChains : Prop :=
  ∀ (n : Nat) (s : State), n < 64 → s.eng.regs.wf = true → s.eng.mov.chans.length = 64 →
  let e := s.eng
  let c := e.chan n
  let idle := fun (code resid : Nat) (x : Engine) => x.reg (Reg.DMA_STAT_STATE n) = 0 ∧ x.reg (Reg.DMA_STAT_CODE n) = code % 65536
    ∧ x.reg (Reg.DMA_RESID_BYTES n) = resid % 2 ^ 32 ∧ (x.chan n).desc = [] ∧ x.mov.holder ≠ some n
    ∧ ∀ m, m ≠ n → x.chan m = e.chan m
  let wb := fun (code resid : Nat) => dmaWrite e (e.curSpace n) (e.curAddr n + 16)
    (leBytes 4 resid ++ leBytes 2 code ++ leBytes 1 (b2n c.mism + 2 * b2n c.late) ++ leBytes 1 128)
  let told := fun (x : Engine) => c.waiters.foldl (fun a w => a.completeAt w.1 w.2.1 w.2.2 .ok a.cxNow) x
  -- a start
  (e.reg (Reg.DMA_STAT_STATE n) = 1 → exec (.dmaCtlGo n) s = .next { s with eng := e.bump (Reg.DMA_IGN_COUNT n) })
  ∧ (e.reg (Reg.DMA_STAT_STATE n) ≠ 1 → e.reg (Reg.DMA_HEAD_LO_SP n) < 2 → e.reg (Reg.DMA_HEAD_LO_ADDR n) < 2 ^ 27 →
      e.reg (Reg.DMA_HEAD_HI_ADDR n) < 2 ^ 32 → Completes s (exec (.dmaCtlGo n) s) (fun t =>
        t.reg (Reg.DMA_STAT_STATE n) = 1 ∧ t.curSpace n = e.reg (Reg.DMA_HEAD_LO_SP n)
        ∧ t.curAddr n = 32 * e.reg (Reg.DMA_HEAD_LO_ADDR n) + 2 ^ 32 * e.reg (Reg.DMA_HEAD_HI_ADDR n)
        ∧ (t.chan n).desc = [] ∧ (t.chan n).linked = false ∧ busyShown t (640 + n) = true
        ∧ (∀ m, m ≠ n → t.chan m = e.chan m) ∧ t.mem = e.mem ∧ t.host = e.host))
  -- DMA_NEXT, with the held word where there is one
  ∧ (∀ v, v < 2 ^ 32 → Completes s (exec (.dmaNextLoWrite n v) s) (fun t =>
        t.reg (Reg.DMA_NEXT_LO_SP n) = v % 2 ∧ t.reg (Reg.DMA_NEXT_LO_V n) = v / 4 % 2 ∧ t.reg (Reg.DMA_NEXT_LO_ADDR n) = v / 32
        ∧ t.reg (Reg.DMA_NEXT_HI_ADDR n) = (match c.nextHi with
          | some h => h % 2 ^ 32
          | none => e.reg (Reg.DMA_NEXT_HI_ADDR n))
        ∧ (t.chan n).nextHi = none ∧ t.mem = e.mem))
  -- the descriptor is read, from host memory or from the machine's own
  ∧ (∀ host, e.reg (Reg.DMA_STAT_STATE n) = 1 → c.desc = [] → c.failed = false → dmaBad e n (e.curSpace n) (e.curAddr n) 32 false = none →
      let o := exec (.dmaBurst n host) s
      let e1 := fun (d : List Byte) => e.putChan n { c with desc := d, pos := 0, burst := 0, mism := false, buf := [] }
      let readAs := fun (d : List Byte) => (descBad d = none → o = .next { s with eng := e1 d })
        ∧ (∀ st side, descBad d = some (st, side) → o = .next { s with eng := chainFault (e1 d) n st side })
      (e.curSpace n = 1 → ∀ bs, host = some bs →
          let got := c.buf ++ bs.take (32 - c.buf.length)
          (got.length < 32 → o = .next { s with eng := e.putChan n { c with buf := got } }) ∧ (32 ≤ got.length → readAs (got.take 32)))
      ∧ (e.curSpace n = 1 → host = none → c.buf.length < 32 →
          o = .next { s with eng := chainFault (e.putChan n { c with failed := true }) n (.hwerr 0) 0 })
      ∧ (e.curSpace n = 0 → e.curAddr n < 2 ^ 40 → e.mem.ecc = [] → e.mem.lecc = [] →
          readAs (if (addrKind (e.curAddr n)).1 = 4 then e.bytes (e.curAddr n) 32
            else (List.range 32).map (fun i => sramByte e ((addrKind (e.curAddr n)).2 + i)))))
  -- a descriptor that has moved its bytes ends
  ∧ (∀ late, e.reg (Reg.DMA_STAT_STATE n) = 1 → c.desc ≠ [] → c.mism = false → dLen c.desc ≤ c.pos → tbit (dCtl c.desc) 6 = false →
      let o := exec (.descriptorEnd n late) s
      let counted := fun (x : Engine) => x.reg (Reg.DMA_DESC_COUNT n) = satU 32 (e.reg (Reg.DMA_DESC_COUNT n) + 1)
        ∧ (late = true → x.reg (Reg.DMA_STAT_LATE n) = 1)
      (e.reg (Reg.DMA_NEXT_LO_V n) ≠ 1 → tbit (dNext c.desc) 1 = true →
          Completes s o (fun t => ∃ x, t = dmaDone (told x) n ∧ idle 0 0 x ∧ counted x))
      ∧ (e.reg (Reg.DMA_NEXT_LO_V n) = 1 → e.reg (Reg.DMA_NEXT_LO_SP n) < 2 → e.reg (Reg.DMA_NEXT_LO_ADDR n) < 2 ^ 27 →
          e.reg (Reg.DMA_NEXT_HI_ADDR n) < 2 ^ 32 → tbit (dCtl c.desc) 7 = false → Completes s o (fun t =>
          t.curAddr n = 32 * e.reg (Reg.DMA_NEXT_LO_ADDR n) + 2 ^ 32 * e.reg (Reg.DMA_NEXT_HI_ADDR n)
          ∧ t.curSpace n = e.reg (Reg.DMA_NEXT_LO_SP n) ∧ t.reg (Reg.DMA_NEXT_LO_V n) = 0 ∧ (t.chan n).desc = [] ∧ counted t
          ∧ t.reg (Reg.DMA_STAT_STATE n) = 1))
      ∧ (e.reg (Reg.DMA_NEXT_LO_V n) ≠ 1 → tbit (dNext c.desc) 1 = false → tbit (dCtl c.desc) 7 = false → Completes s o (fun t =>
          t.curAddr n = dNext c.desc / 32 * 32 ∧ t.curSpace n = dNext c.desc % 2 ∧ (t.chan n).desc = [] ∧ counted t
          ∧ t.reg (Reg.DMA_STAT_STATE n) = 1)))
  -- a COMPARE that has met a difference writes its status back and ends the chain
  ∧ (∀ late, e.reg (Reg.DMA_STAT_STATE n) = 1 → c.desc ≠ [] → c.mism = true →
      let o := exec (.descriptorEnd n late) s
      let resid := dLen c.desc - c.pos
      let why := dmaBad e n (e.curSpace n) (e.curAddr n + 16) 8 true
      (why = none → (wb 0 resid).2 = false → Completes s o (fun t => ∃ x, t = dmaDone (told x) n ∧ idle 0 resid x
          ∧ x.mem.cells = (wb 0 resid).1.mem.cells ∧ x.host.out = (wb 0 resid).1.host.out))
      ∧ (why = none → (wb 0 resid).2 = true →
          o = .next { s with eng := chainFault ((wb 0 resid).1.putChan n { c with late := false }) n (.hwerr 0) 0 })
      ∧ (∀ st, why = some st → o = .next { s with eng := chainFault e n st 0 }))
  -- an abort
  ∧ (e.reg (Reg.DMA_STAT_STATE n) ≠ 1 → exec (.dmaCtlAbort n) s = .next s)
  ∧ (e.reg (Reg.DMA_STAT_STATE n) = 1 → e.mov.holder ≠ some n ∨ c.burst ≤ c.pos →
      let resid := if c.desc = [] then 0 else dLen c.desc - c.pos
      let silent := c.desc = [] ∨ dmaBad e n (e.curSpace n) (e.curAddr n + 16) 8 true ≠ none
      Completes s (exec (.dmaCtlAbort n) s) (fun t => ∃ x,
        t = ((told x).setReg (Reg.DMA_STAT_DETAIL n) 0).raise (Src.dma + 2 * n + 1) Status.aborted.code
          ∧ idle Status.aborted.code resid x
          ∧ (silent → x.mem.cells = e.mem.cells) ∧ (¬silent → x.mem.cells = (wb Status.aborted.code resid).1.mem.cells)))
  ∧ (e.reg (Reg.DMA_STAT_STATE n) = 1 → e.mov.holder = some n → c.pos < c.burst → e.ready n = false →
      exec (.dmaCtlAbort n) s = .next { s with eng := e.putChan n { c with aborting := true } })

/-- Beats of the mover (R376, R380): host memory's answer lands in the channel's buffer, or marks the channel's read as failed; then the
channel that wins the mover moves up to 64 bytes, 8 where a side is fixed; COPY and FILL store them at the destination, COMPARE stops at the
first difference; the mover is held to the end of the burst, where an abort that waited takes effect. With none ready, nothing moves. That a
row serves one beat is the model's choice (assumption 32). -/
def Obligations.MoverBeats : Prop :=
  ∀ (ch : Nat) (host : Option (List Byte)) (s : State), ch < 64 → s.eng.regs.wf = true → s.eng.mov.chans.length = 64 →
  s.eng.mem.ecc = [] → s.eng.mem.lecc = [] →
  let c0 := s.eng.chan ch
  let left := s.eng.hostLeft ch
  let e := hostData s.eng ch host
  let o := exec (.dmaBurst ch host) s
  -- the answer of host memory
  (left = 0 ∨ s.eng.hostOpen ch = false ∨ c0.failed = true → e = s.eng)
  ∧ (left ≠ 0 → s.eng.hostOpen ch = true → c0.failed = false →
      (∀ bs, host = some bs → e = s.eng.putChan ch { c0 with buf := c0.buf ++ bs.take left })
      ∧ (host = none → e = s.eng.putChan ch { c0 with failed := true }))
  -- the beat
  ∧ (¬(e.reg (Reg.DMA_STAT_STATE ch) = 1 ∧ (e.chan ch).desc = []) →
      (moverPick e (readyChans e) = none → o = .next { s with eng := e })
      ∧ (∀ n, moverPick e (readyChans e) = some n →
          let c := e.chan n
          let d := c.desc
          let last := burstOf c
          let len := beatLen d c.pos last
          let plain := fun (a : Nat) => if (addrKind a).1 = 4 then e.bytes a len
            else (List.range len).map (fun i => sramByte e ((addrKind a).2 + i))
          let src := if !dReads d then (List.range len).map (fun i => d.getD (i % 8) 0)
            else if dSpace d 0 = 1 then c.buf.take len else plain (dAddr d 0 c.pos)
          let dst := if dSpace d 1 = 1 then (if dSpace d 0 = 1 then c.buf.drop len else c.buf).take len else plain (dAddr d 1 c.pos)
          let w := dmaWrite e (dSpace d 1) (dAddr d 1 c.pos) src
          let moved := fun (k : Nat) (x : Engine) => (x.chan n).pos = c.pos + k ∧ x.reg (Reg.DMA_STAT_STATE n) = 1
            ∧ x.reg (Reg.DMA_BYTES_COUNT n) = satU 32 (e.reg (Reg.DMA_BYTES_COUNT n) + k) ∧ x.mov.last = n
            ∧ ∀ m, m ≠ n → x.chan m = e.chan m
          let stored := fun (x : Engine) => moved len x ∧ x.mem.cells = w.1.mem.cells ∧ x.host.out = w.1.host.out
          (∀ st side, (if c.pos < c.burst then hostShut e n d else burstBad e n c (last - c.pos)) = some (st, side) →
              o = .next { s with eng := chainFault { e with mov := { e.mov with last := n } } n st side })
          ∧ ((if c.pos < c.burst then hostShut e n d else burstBad e n c (last - c.pos)) = none →
              (c.failed = true → dReads d = true → dSpace d 0 = 1 → c.buf.length < len →
                  let x := Engine.putChan { e with mov := { e.mov with last := n, holder := some n } } n { c with burst := last }
                  o = .next { s with eng := freeMover (chainFault x n (.hwerr 0) 1) n })
              ∧ (hostNeed c ≤ c.buf.length → dOp d ≠ 2 →
                  (c.pos + len < last → Completes s o (fun t => stored t ∧ t.mov.holder = some n))
                  ∧ (last ≤ c.pos + len → c.aborting = false → Completes s o (fun t => stored t ∧ t.mov.holder = none))
                  ∧ (last ≤ c.pos + len → c.aborting = true →
                      Completes s o (fun t => ∃ x, stored x ∧ x.mov.holder = none ∧ t = chainFault x n .aborted 0)))
              ∧ (hostNeed c ≤ c.buf.length → dOp d = 2 → c.aborting = false →
                  (firstDiff src dst = none → Completes s o (fun t => moved len t ∧ t.mem = e.mem ∧ t.host = e.host))
                  ∧ (∀ k, firstDiff src dst = some k → Completes s o (fun t => moved k t ∧ t.mem = e.mem ∧ t.host = e.host
                      ∧ (t.chan n).mism = true ∧ t.reg (Reg.DMA_STAT_MISM n) = 1 ∧ t.reg (Reg.DMA_CMOFF_OFF n) = (c.pos + k) % 2 ^ 32
                      ∧ t.mov.holder = none))))))

/-- The blitters (R384 to R389): a start of an idle blitter checks the operation and starts it with its directions, or reports why not; a
start of a running one is counted; a burst writes new elements of one row, and the last one ends the operation; an abort ends it. That an
operation works on what its registers held at its start is the model's reading (assumptions 98 and 100). -/
def Obligations.BlitterOperations : Prop :=
  ∀ (b : Nat) (s : State), b < 2 → s.eng.regs.wf = true → s.eng.mov.blts.length = 2 →
  let e := s.eng
  let x := e.blt b
  let g := x.img
  let ended := fun (st : Status) (f : Engine) => f.reg (Reg.BLT_STAT_STATE b) = 0 ∧ f.reg (Reg.BLT_STAT_CODE b) = st.code % 65536
    ∧ (f.blt b).cmd = none ∧ f.blt (1 - b) = e.blt (1 - b)
  -- GO
  (e.reg (Reg.BLT_STAT_STATE b) = 1 → exec (.bltCtlGo b) s = .next { s with eng := e.bump (Reg.BLT_IGN_COUNT b) })
  ∧ (e.reg (Reg.BLT_STAT_STATE b) ≠ 1 → bltBad e b (bltImage e b) = none → Completes s (exec (.bltCtlGo b) s) (fun t =>
      t.reg (Reg.BLT_STAT_STATE b) = 1 ∧ t.reg (Reg.BLT_ROWS_COUNT b) = 0
      ∧ t.reg (Reg.BLT_STAT_XDIR b) = b2n (usesS (bltImage e b) && decide ((regionOf (bltImage e b) 0).x < (regionOf (bltImage e b) 1).x))
      ∧ t.reg (Reg.BLT_STAT_YDIR b) = b2n (usesS (bltImage e b) && decide ((regionOf (bltImage e b) 0).y < (regionOf (bltImage e b) 1).y))
      ∧ t.blt b = ⟨bltImage e b, bltPat e b, 0, 0, none⟩ ∧ t.blt (1 - b) = e.blt (1 - b) ∧ t.mem = e.mem ∧ t.host = e.host))
  ∧ (e.reg (Reg.BLT_STAT_STATE b) ≠ 1 → ∀ st, bltBad e b (bltImage e b) = some st → Completes s (exec (.bltCtlGo b) s) (fun t => ∃ f : Engine,
      t = f.raise (Src.blt + 2 * b + 1) (st.code + 2 ^ 16 * st.detail) ∧ f.reg (Reg.BLT_STAT_STATE b) = e.reg (Reg.BLT_STAT_STATE b)
      ∧ f.reg (Reg.BLT_STAT_CODE b) = st.code % 65536 ∧ f.reg (Reg.BLT_STAT_DETAIL b) = st.detail % 256 ∧ f.mov = e.mov ∧ f.mem = e.mem))
  -- ABORT
  ∧ (e.reg (Reg.BLT_STAT_STATE b) ≠ 1 → exec (.bltCtlAbort b) s = .next s ∧ exec (.bltBurst b) s = .next s)
  ∧ (e.reg (Reg.BLT_STAT_STATE b) = 1 → x.cmd = none → Completes s (exec (.bltCtlAbort b) s) (fun t => ∃ f : Engine,
      t = f.raise (Src.blt + 2 * b + 1) Status.aborted.code ∧ ended .aborted f ∧ f.mem = e.mem))
  -- a burst
  ∧ (e.reg (Reg.BLT_STAT_STATE b) = 1 → e.mem.ecc = [] → e.mem.lecc = [] →
      let y := if e.reg (Reg.BLT_STAT_YDIR b) = 1 then bltH g - 1 - x.row else x.row
      let cols := burstCols g (e.reg (Reg.BLT_STAT_XDIR b) == 1) x.col y
      let elem := fun (used : Bool) (side col : Nat) => if used then
          let a := (regionOf g side).addr (esz g) col y
          leVal (if (addrKind a).1 = 4 then e.bytes a (esz g) else (List.range (esz g)).map (fun i => sramByte e ((addrKind a).2 + i)))
        else 0
      let stored := cols.foldl (fun (a : Engine) col => (engWrite a ((regionOf g 1).addr (esz g) col y)
        (leBytes (esz g) (newElem x (esz g) (elem (usesS g) 0 col) (elem (readsD g) 1 col) col y))).1) e
      (∀ st, burstStop e b g cols y = some st → exec (.bltBurst b) s = .next { s with eng := bltStop e b st })
      ∧ (burstStop e b g cols y = none → x.col + cols.length < bltW g →
          exec (.bltBurst b) s = .next { s with eng := stored.putBlt b { x with col := x.col + cols.length } })
      ∧ (burstStop e b g cols y = none → bltW g ≤ x.col + cols.length → x.row + 1 < bltH g → Completes s (exec (.bltBurst b) s) (fun t =>
          t.mem = stored.mem ∧ t.blt b = { x with row := x.row + 1, col := 0 } ∧ t.reg (Reg.BLT_ROWS_COUNT b) = (x.row + 1) % 2 ^ 17
          ∧ t.reg (Reg.BLT_STAT_STATE b) = 1))
      ∧ (burstStop e b g cols y = none → bltW g ≤ x.col + cols.length → bltH g ≤ x.row + 1 → x.cmd = none →
          Completes s (exec (.bltBurst b) s) (fun t => ∃ f : Engine, t = f.raise (Src.blt + 2 * b) ((x.row + 1) % 2 ^ 17)
            ∧ ended .ok f ∧ f.mem = stored.mem ∧ f.reg (Reg.BLT_OPS_COUNT b) = satU 32 (e.reg (Reg.BLT_OPS_COUNT b) + 1))))

/-- Security (R394 to R396, R399, R402 to R404, R407 to R409): a verification that fails is recorded and its command completes with ST_SIG;
a verified image, claim, handover, reset, repair, bundle or bitstream has its effect; a transfer that times out is closed; a report is
written with the device's signature and the next one starts; a claim that is confirmed brings its key into force, and one that is not ends
in ST_TIMEOUT. Signatures and digests are opaque (assumption 5); when the journal takes a record is the model's reading (assumptions 62 and
130). -/
def Obligations.SecurityEvents : Prop :=
  (∀ (s : State) (v : Verif) (vs : List Verif), s.eng.sec.verifs = v :: vs → s.eng.regs.wf = true → s.eng.sec.slots.length = 2 →
    let e1 : Engine := { s.eng with sec := { s.eng.sec with verifs := vs } }
    let fails := objFail e1 (typeOf v.op) false v.obj
    let o := exec .verificationEnd s
    let noted := fun (x : Engine) => x.reg Reg.SEC_VLAST_TYPE = objType v.obj % 2 ^ Reg.SEC_VLAST_TYPE.width
      ∧ x.reg Reg.SEC_VLAST_CAUSE = fails % 8 ∧ x.active = s.eng.active ∧ x.mem.cells = s.eng.mem.cells
      ∧ x.mem.journal = s.eng.mem.journal ∧ x.sec.verifs = vs ∧ x.host = s.eng.host
    (fails ≠ 0 → ∃ x : Engine, noted x ∧ x.sec = e1.sec ∧ x.reg Reg.SEC_VFAIL_COUNT = satU 32 (s.eng.reg Reg.SEC_VFAIL_COUNT + 1)
        ∧ Completes s o (Answers v.p .sig (x.raise Src.vfail (objType v.obj))))
    ∧ (fails = 0 → v.op = 0x1312 → v.p.target < 2 → ∃ x : Engine, noted x ∧ slotObj x v.p.target = v.obj
        ∧ slotObj x (1 - v.p.target) = slotObj s.eng (1 - v.p.target)
        ∧ tbit (x.reg Reg.SEC_FW_VALID) v.p.target = true ∧ tbit (x.reg Reg.SEC_FW_FAIL) v.p.target = false
        ∧ Completes s o (Answers v.p .ok (x.raise Src.fwDone v.p.target)))
    ∧ (fails = 0 → v.op = 0x1316 → s.eng.st = stSafe → s.eng.reg Reg.SEC_STAT_OWNER = 0 → Completes s o (fun t =>
        noted t ∧ t.sec.claim = some ⟨v.p.ring, v.p.tag, v.p.notify, (objBody v.obj).take 64⟩))
    ∧ (fails = 0 → v.op = 0x1316 → s.eng.st ≠ stSafe ∨ s.eng.reg Reg.SEC_STAT_OWNER ≠ 0 → ∃ x : Engine, noted x ∧ x.sec = e1.sec
        ∧ Completes s o (Answers v.p (.state s.eng.st) x))
    ∧ (fails = 0 → v.op = 0x1317 → (objBody v.obj).take 64 ≠ [] → ∃ x : Engine, noted x ∧ x.sec.ownerKey = (objBody v.obj).take 64
        ∧ x.reg Reg.SEC_STAT_OWNER = 1
        ∧ Completes s o (Answers v.p .ok (journalSync (x.raise Src.owner (leAt (digest64 ((objBody v.obj).take 64)) 0 4)))))
    ∧ (fails = 0 → v.op = 0x1318 → s.eng.st = stSafe → ∃ x : Engine, noted x ∧ x.sec.ownerKey = [] ∧ x.reg Reg.SEC_STAT_OWNER = 0
        ∧ (∀ i, i < 16 → x.reg (Reg.SEC_OWNKEY_DIG i) = 0)
        ∧ Completes s o (Answers v.p .ok (journalSync (removeBits ((removeBundle x).setReg Reg.SEC_KEEPVER_VER 0)))))
    ∧ (fails = 0 → v.op = 0x1318 → s.eng.st ≠ stSafe → ∃ x : Engine, noted x ∧ x.sec = e1.sec
        ∧ Completes s o (Answers v.p (.state s.eng.st) x))
    ∧ (fails = 0 → v.op = 0x1012 →
        let b := leAt (objBody v.obj) 0 4
        let fits := b < 384 ∧ s.eng.reg (Reg.MEM_BANK_BISTV b) ≠ 0 ∧ s.eng.reg (Reg.MEM_BANK_FCOL b) = leAt (objBody v.obj) 4 4
        (¬fits → ∃ x : Engine, noted x ∧ x.sec = e1.sec ∧ Completes s o (Answers v.p (.incons 0x10) x))
        ∧ (fits → s.eng.reg (Reg.MEM_BANK_SPARE b) = 0 → ∃ x : Engine, noted x ∧ x.sec = e1.sec ∧ Completes s o (Answers v.p (.range 8) x))
        ∧ (fits → s.eng.reg (Reg.MEM_BANK_SPARE b) ≠ 0 → ∃ x : Engine, noted x ∧ x.sec = e1.sec
            ∧ x.reg (Reg.MEM_BANK_SPARE b) = (s.eng.reg (Reg.MEM_BANK_SPARE b) - 1) % 2 ^ (Reg.MEM_BANK_SPARE b).width
            ∧ x.reg (Reg.MEM_BANK_REP b) = (s.eng.reg (Reg.MEM_BANK_REP b) + 1) % 2 ^ (Reg.MEM_BANK_REP b).width
            ∧ Completes s o (Answers v.p .ok (clearBank x b))))
    ∧ (fails = 0 → v.op = 0x0610 → ∃ x : Engine, noted x ∧ x.sec = e1.sec ∧ o = .next { s with eng := acceptBundle x v.p v.obj })
    ∧ (fails = 0 → v.op = 0x0C10 → ∃ x : Engine, noted x ∧ x.sec = e1.sec ∧ o = .next { s with eng := acceptBits x v.p v.obj }))
  ∧ (∀ (s : State), s.eng.sec.verifs = [] → exec .verificationEnd s = .next s)
  ∧ (∀ (op : Nat) (s : State),
    let left := s.eng.sec.xfers.filter (fun x => x.op != op)
    let sec : SecSt := { s.eng.sec with xfers := left }
    ((∀ x ∈ s.eng.sec.xfers, x.op ≠ op) → exec (.transferTimeout op) s = .next s)
    ∧ ((∃ x ∈ s.eng.sec.xfers, x.op = op) → exec (.transferTimeout op) s = .next { s with
        eng := (Engine.setReg { s.eng with sec := sec } Reg.SEC_STAT_XFER (b2n (!left.isEmpty))).raise Src.xferLost op }))
  ∧ (∀ (ms : Nat) (s : State) (r : Report) (rs : List Report), s.eng.sec.reports = r :: rs → s.eng.regs.wf = true →
    ∃ x y : Engine, exec (.attestReportDone ms) s = .next { s with eng := startReport (y.raise Src.attDone 0) }
      ∧ AnswersAt r.ring r.tag r.notify .ok x.cxNow x y
      ∧ x.host.out = (s.eng.post r.addr (r.body ++ reportSig s.eng r.body)).host.out ∧ x.sec.reports = rs
      ∧ x.reg Reg.SEC_ATTCNT_COUNT = satU 32 (s.eng.reg Reg.SEC_ATTCNT_COUNT + 1)
      ∧ x.reg Reg.SEC_ATTMAX_MS = max (s.eng.reg Reg.SEC_ATTMAX_MS) (min ms 65535) % 65536)
  ∧ (∀ (ms : Nat) (s : State), s.eng.sec.reports = [] → exec (.attestReportDone ms) s = .next s)
  ∧ (∀ (s : State) (c : Claim), s.eng.sec.claim = some c → s.eng.regs.wf = true →
    let e1 : Engine := { s.eng with sec := { s.eng.sec with claim := none } }
    Completes s (exec .ownerClaimTimeout s) (AnswersAt c.ring c.tag c.notify .timeout e1.cxNow e1)
    ∧ (c.key ≠ [] → ∃ x : Engine, x.sec.ownerKey = c.key ∧ x.sec.claim = none ∧ x.reg Reg.SEC_STAT_OWNER = 1
        ∧ (∀ i, i < 16 → x.reg (Reg.SEC_OWNKEY_DIG i) = leAt (digest64 c.key) (4 * i) 4 % 2 ^ 32)
        ∧ let y := journalSync (x.raise Src.owner (leAt (digest64 c.key) 0 4))
          Completes s (exec .ownerClaimConfirm s) (AnswersAt c.ring c.tag c.notify .ok y.cxNow y)))
  ∧ (∀ (s : State), s.eng.sec.claim = none → exec .ownerClaimTimeout s = .next s ∧ exec .ownerClaimConfirm s = .next s)

/-- Power and resets (R28, R431, R436 to R440, R444, R461): power-on and the warm resets clear what Table 21.4 clears, keep what it keeps
and run the start-up; loss of power and thermal cut-off bring OFF; a wake source starts the return to SAFE, which enters SAFE; the console
resets, requests a state and delivers firmware. The start-up as one command, and the cause of a warm reset, are the model's choices
(assumptions 10 and 39); what the journal restores rests on assumption 130. -/
def Obligations.PowerAndResets : Prop :=
  (∀ (a b : Bool) (s : State), s.eng.regs.wf = true →
    let e := s.eng
    let fresh := fun (z : Engine) => z.st = stBoot ∧ z.frames = [] ∧ z.host = { Engine.reset.host with out := e.host.out }
      ∧ z.active = Engine.reset.active ∧ z.staged = Engine.reset.staged ∧ z.mem.journal = e.mem.journal
      ∧ z.sec.slots = e.sec.slots ∧ z.sec.ownerKey = e.sec.ownerKey ∧ z.spr = Engine.reset.spr
    let kept := fun (z : Engine) => z.reg Reg.SEC_FLOOR_FLOOR = e.reg Reg.SEC_FLOOR_FLOOR % 2 ^ Reg.SEC_FLOOR_FLOOR.width
      ∧ z.reg Reg.SEC_FW_NEXT = e.reg Reg.SEC_FW_NEXT % 2 ^ Reg.SEC_FW_NEXT.width
    (e.st = stOff ∨ e.st = stBoot → ∃ z, exec (.powerOn a b) s = .next { s with eng := startUp a b z } ∧ fresh z ∧ kept z ∧ z.mem.cells = []
        ∧ z.reg Reg.PWR_STAT_PREV = 0 ∧ z.reg Reg.OUT_RLYCNT_A_COUNT = e.out.relayJournal.getD 0 0 % 2 ^ 32
        ∧ z.reg Reg.OUT_RLYCNT_B_COUNT = e.out.relayJournal.getD 1 0 % 2 ^ 32)
    ∧ (e.st ≠ stOff → e.st ≠ stBoot → exec (.powerOn a b) s = .next s)
    ∧ (e.st ≠ stOff → ∃ z, exec (.warmReset a b) s = .next { s with eng := startUp a b z } ∧ fresh z
        ∧ z.mem.cells = e.mem.cells.filter (fun c => decide (2 ^ 37 ≤ c.1)) ∧ z.mem.held = e.mem.held
        ∧ 1 ≤ z.reg Reg.PWR_RSTCAUSE_CAUSE ∧ z.reg Reg.PWR_RSTCAUSE_CAUSE ≤ 3
        ∧ (e.reg Reg.OUT_KSTAT_COIL = 0 → kept z ∧ z.reg Reg.PWR_STAT_PREV = e.st % 8))
    ∧ (e.st = stOff → exec (.warmReset a b) s = .next s ∧ exec .powerLoss s = .next s ∧ exec .thermalCutoff s = .next s
        ∧ ∀ c, exec (.consoleCommand c) s = .next s)
    ∧ (e.st ≠ stOff → e.pwr.reached = false → e.reg Reg.SEC_FW_TRIAL = 1 → e.reg Reg.SEC_FW_TRIED = 1 → ∃ z,
        exec .trialBootTimeout s = .next { s with eng := (startUp (welded e 0) (welded e 1) z).raise Src.fwFailBoot 0 } ∧ fresh z
        ∧ z.reg Reg.PWR_RSTCAUSE_CAUSE = 3)
    ∧ (e.st = stOff ∨ e.pwr.reached = true ∨ e.reg Reg.SEC_FW_TRIAL ≠ 1 ∨ e.reg Reg.SEC_FW_TRIED ≠ 1 → exec .trialBootTimeout s = .next s)
    ∧ (e.st ≠ stOff → ∃ z, exec (.consoleCommand .reset) s = .next { s with eng := startUp (welded e 0) (welded e 1) z } ∧ fresh z
        ∧ z.reg Reg.PWR_RSTCAUSE_CAUSE = 2)
    ∧ (e.st ≠ stOff → exec .thermalCutoff s = exec .powerLoss s ∧ Completes s (exec .powerLoss s) (fun t => t.st = stOff
        ∧ t.mem.cells = [] ∧ t.frames = [] ∧ t.host.rings = [] ∧ t.out.undriven = true ∧ t.reg Reg.OUT_KSTAT_COIL = 0
        ∧ t.mem.journal = e.mem.journal ∧ t.sec.slots = e.sec.slots)))
  ∧ (∀ (a b : Bool) (e : Engine),
    ((bootRom e).2 = false → startUp a b e = keepCauses (bootRom e).1)
    ∧ ((bootRom e).2 = true →
        let running := ((bootRom e).1.putCore 32 { (bootRom e).1.core 32 with st := 1 })
        let both := running.putCore 33 { running.core 33 with st := 1 }
        let up : Engine := { both with host := { both.host with crs := false }, sec := { both.sec with deviceKey := deriveKey } }
        let r := relayCheck a b (keepCauses (restore (up.setReg Reg.SEC_STAT_CERTOK (b2n (certOk up)))))
        startUp a b e = if r.st = stFault then lanesOn r else belRestart (lanesOn (enterState r stSafe 0))))
  ∧ (∀ (s : State), s.eng.st = stStandby →
    let e := s.eng
    let waking := fun (cause : Nat) => (e.setReg Reg.PWR_STAT_WAKING 1).raise Src.wake cause
    (e.reg Reg.PWR_STAT_WAKING ≠ 1 → exec (.standbyWake 1) s = .next { s with eng := waking 1 }
      ∧ (e.reg Reg.PWR_WAKE_TIMCMD = 1 → e.locked = true → exec (.standbyWake 2) s = .next { s with eng := waking 2 })
      ∧ (e.reg Reg.PWR_WAKE_EVENT = 1 → exec (.standbyWake 3) s = .next { s with eng := waking 3 })
      ∧ exec .wakeComplete s = .next s)
    ∧ (e.reg Reg.PWR_STAT_WAKING = 1 → (∀ c, exec (.standbyWake c) s = .next s) ∧
        let ws : List (Fld × Nat) := [(Reg.PWR_STAT_STATE, stSafe), (Reg.PWR_STAT_PREV, stStandby)]
        let told := Engine.raise { e with regs := e.regs.puts ws } Src.state stSafe
        let safe := outputsFollow (wakeEntry { told with pwr := { told.pwr with reached := true } })
        exec .wakeComplete s = .next { s with eng := finishWakers safe e.counted }))
  ∧ (∀ (s : State) (c : Nat), s.eng.st ≠ stStandby → exec (.standbyWake c) s = .next s ∧ exec .wakeComplete s = .next s)
  ∧ (∀ (code : Nat) (s : State), s.eng.st ≠ stOff →
    let e := s.eng
    let o := exec (.consoleCommand (.reqState code)) s
    let r : StReq := ⟨2 ^ 18, 0, false, code, none⟩
    (code < 2 ∨ 5 < code → o = .next s)
    ∧ (2 ≤ code → code ≤ 5 → code ≠ stStandby → e.st ≠ code → e.st ≠ stStandby → requestOk e code = true →
        o = .next { s with eng := { e with pwr := { e.pwr with reqs := r :: e.pwr.reqs } } })
    ∧ (code = stStandby → e.st ≠ stStandby → requestOk e stStandby = true →
        o = .next { s with eng := finishReq (enterState e stStandby e.counted) r .ok e.counted }))
  ∧ (∀ (slot : Nat) (p : Packet) (s : State), s.eng.st = stBoot → slot < 2 →
    let q : Packet := { p with ring := 2 ^ 18, ctx := 0, target := slot }
    xferBusy 0x1312 s.eng q = none → Completes s (exec (.consoleCommand (.firmware slot p)) s) (Delivers 0x1312 s.eng q))

/-- Supplies, voltage and heat (R430, R431, R441, R442, R446, R447, R455): a supply's report shows and its loss and return raise their
events; AC failing completes the journal's writes and stops new ones; when AC returns, the commits that waited for their records are
accepted; AVS raises or lowers a domain's target by its margin; a fan, the die's temperature and a rail report; modules come and go. AVS
judging LIM before it moves, commits that wait for AC, and modules that change nothing are the model's readings (assumptions 67, 111 and
130). -/
def Obligations.SuppliesAndHeat : Prop :=
  (∀ (m : Nat) (r : SupplyReport) (s : State), m < 2 → s.eng.regs.wf = true →
    let e := s.eng
    let shown := fun (dc : Nat) (x : Engine) => x.reg (Reg.PWR_SUP_DCOK m) = dc ∧ x.reg (Reg.PWR_SUP_PRES m) = b2n r.present
      ∧ x.reg (Reg.PWR_SUP_ACOK m) = b2n r.acGood ∧ x.reg (Reg.PWR_SUP_FAULT m) = b2n r.fault ∧ x.mem = e.mem ∧ x.host = e.host
    (e.st = stOff ∨ e.reg (Reg.PWR_SUP_DCOK m) = 0 → Completes s (exec (.supplyDcLoss m r) s) (shown 0))
    ∧ (e.st ≠ stOff → e.reg (Reg.PWR_SUP_DCOK m) ≠ 0 →
        Completes s (exec (.supplyDcLoss m r) s) (fun t => ∃ x, shown 0 x ∧ t = x.raise Src.supLoss m))
    ∧ (e.st = stOff ∨ e.reg (Reg.PWR_SUP_DCOK m) = 1 → Completes s (exec (.supplyDcGood m r) s) (shown 1))
    ∧ (e.st ≠ stOff → e.reg (Reg.PWR_SUP_DCOK m) ≠ 1 →
        Completes s (exec (.supplyDcGood m r) s) (fun t => ∃ x, shown 1 x ∧ t = x.raise Src.supOk m)))
  ∧ (∀ (s : State), s.eng.regs.wf = true →
    let e := s.eng
    (e.pwr.acOut = true ∨ e.st = stOff → exec .acFail s = .next s)
    ∧ (e.pwr.acOut = false → e.st ≠ stOff → Completes s (exec .acFail s) (fun t => ∃ x : Engine, t = x.raise Src.acFail 0
        ∧ x.reg (Reg.PWR_SUP_ACOK 0) = 0 ∧ x.reg (Reg.PWR_SUP_ACOK 1) = 0 ∧ x.pwr.acOut = true
        ∧ x.reg Reg.PWR_ACFAILCNT_COUNT = satU 32 (e.reg Reg.PWR_ACFAILCNT_COUNT + 1)
        ∧ x.out.relayJournal = [e.reg Reg.OUT_RLYCNT_A_COUNT, e.reg Reg.OUT_RLYCNT_B_COUNT]))
    ∧ (∀ m, m < 2 → ∃ x : Engine, x.reg (Reg.PWR_SUP_ACOK m) = 1 ∧ x.pwr = { e.pwr with acOut := false, unrecorded := [] }
        ∧ x.active = e.active ∧ x.mem = e.mem ∧ x.host = e.host
        ∧ (e.pwr.acOut = false ∨ e.st = stOff → exec (.acReturn m) s = .next { s with eng := x })
        ∧ (e.pwr.acOut = true → e.st ≠ stOff → exec (.acReturn m) s = .next { s with
            eng := e.pwr.unrecorded.foldl (fun (a : Engine) u => if u.object = 1 then acceptBundle a u.p u.obj
              else if u.object = 2 then acceptBits a u.p u.obj else commitOr a u.p u.blocks u.object) (journalSync x) })))
  ∧ (∀ (m : Nat) (r : SupplyReport) (s : State), 2 ≤ m →
    exec (.supplyDcLoss m r) s = .next s ∧ exec (.supplyDcGood m r) s = .next s ∧ exec (.acReturn m) s = .next s)
  ∧ (∀ (d m : Nat) (e : Engine), d < 24 → m < 32 → e.regs.wf = true → e.reg (Reg.PWR_DCFG_VMAX d) ≤ 1023 →
    let v := e.reg (Reg.PWR_DSTAT_MV d)
    let want := e.reg (Reg.PWR_DMARGIN_PCT d)
    let top := e.reg (Reg.PWR_DCFG_VMAX d)
    let t := avsDomain e (d, m)
    ¬(v = top ∧ m < want) → 2 ≤ m ∨ e.pwr.lowRuns.get d ≠ 9 → v ≤ 1023 →
      t.reg (Reg.PWR_DSTAT_MARGIN d) = m ∧ t.reg (Reg.PWR_DSTAT_LIM d) = 0
      ∧ (m < want → t.reg (Reg.PWR_DSTAT_MV d) = min top (v + 5 * (want - m)))
      ∧ (want + 2 < m → t.reg (Reg.PWR_DSTAT_MV d) = max (e.reg (Reg.PWR_DCFG_VMIN d)) (v - 5) % 1024)
      ∧ (want ≤ m → m ≤ want + 2 → t.reg (Reg.PWR_DSTAT_MV d) = v))
  ∧ (∀ (margins : List Nat) (s : State),
    (s.eng.st = stOff ∨ s.eng.st = stBoot → exec (.avsUpdate margins) s = .next s)
    ∧ (s.eng.st ≠ stOff → s.eng.st ≠ stBoot → exec (.avsUpdate margins) s = .next { s with
        eng := (List.range (min 24 margins.length)).foldl (fun a d => avsDomain a (d, margins.getD d 0)) s.eng }))
  ∧ (∀ (b : Nat) (e : Engine), e.st ≠ stOff →
    let seen := e.setReg Reg.PWR_FCAUSE_CAUSE (Nat.lor (e.reg Reg.PWR_FCAUSE_CAUSE) (2 ^ b))
    let f := faultDetect b e
    (e.st = stFault → e.locked = true → e.regs.wf = true → faultReport b e = seen)
    ∧ (f.locked = true → faultReport b e = f)
    ∧ (f.locked = false → f.pwr.faultDue ≠ 0 →
        faultReport b e = finishWakers (enterState (f.setReg Reg.PWR_STAT_WAKING 0) stFault 0) 0)
    ∧ (e.st ≠ stFault → faultDetect b e = keepCauses { seen with pwr := { seen.pwr with faultDue := Nat.lor e.pwr.faultDue (2 ^ b) } }))
  ∧ (∀ (domain fan rpm : Nat) (s : State),
    (domain < 24 → exec (.railFault domain) s = .next { s with eng := faultReport 4 s.eng })
    ∧ (fan < 6 → s.eng.st ≠ stOff → exec (.fanFail fan rpm) s = .next { s with
        eng := ((s.eng.setReg (Reg.PWR_FAN_RPM fan) rpm).setReg (Reg.PWR_FAN_FAIL fan) 1).raise Src.fanFail fan })
    ∧ (24 ≤ domain → exec (.railFault domain) s = .next s)
    ∧ (6 ≤ fan ∨ s.eng.st = stOff → exec (.fanFail fan rpm) s = .next s))
  ∧ (∀ (x : Temperatures) (s : State), s.eng.st ≠ stOff →
    let e := s.eng
    let ws : List (Fld × Nat) := [(Reg.PWR_TEMP_DIE, x.die), (Reg.PWR_TEMP_INLET, x.inlet), (Reg.PWR_TEMP_OUTLET, x.outlet)]
    let shown : Engine := { e with regs := e.regs.puts ws }
    let warn : Int := e.reg Reg.PWR_TLIM_WARN
    let o := exec (.thermalWarn x) s
    let hot := fun (b : Bool) => ({ shown with pwr := { e.pwr with hot := b } } : Engine)
    (e.pwr.hot = false → warn ≤ sval 8 x.die → o = .next { s with eng := (hot true).raise Src.thermWarn 0 })
    ∧ (e.pwr.hot = true → sval 8 x.die ≤ warn - 5 → o = .next { s with eng := (hot false).raise Src.thermOk 0 })
    ∧ (e.pwr.hot = false → sval 8 x.die < warn → o = .next { s with eng := shown })
    ∧ (e.pwr.hot = true → warn - 5 < sval 8 x.die → o = .next { s with eng := shown })
    ∧ (∀ y, o = .next { s with eng := y } → exec (.thermalFault x) s =
        .next { s with eng := if (e.reg Reg.PWR_TLIM_CRIT : Int) ≤ sval 8 x.die then faultReport 2 y else y }))
  ∧ (∀ (x : Temperatures) (s : State), s.eng.st = stOff → exec (.thermalWarn x) s = .next s ∧ exec (.thermalFault x) s = .next s)
  ∧ (∀ (s : State), exec (.moduleInsert .timing) s = .next s ∧ exec (.moduleInsert .tandem) s = .next s
    ∧ (s.eng.act Reg.TIM_CTL_SRC ≠ 0 → exec (.moduleRemove .timing) s = .next s)
    ∧ (s.eng.role = 0 → exec (.moduleRemove .tandem) s = .next s))
  ∧ (∀ (lane : Nat) (s : State), lane < 8 →
    exec (.moduleInsert (.dl lane)) s = .next { s with eng := s.eng.setReg (Reg.OUT_DLSTAT_MOD lane) 1 }
    ∧ exec (.moduleRemove (.dl lane)) s = .next { s with eng := s.eng.setReg (Reg.OUT_DLSTAT_MOD lane) 0 }
    ∧ (s.eng.act Reg.TIM_CTL_SRC = 0 → exec (.moduleRemove .timing) s = .next { s with eng := s.eng.setReg Reg.TIM_STAT_SIGNAL 0 })
    ∧ (s.eng.role ≠ 0 → exec (.moduleRemove .tandem) s = .next { s with eng := tdmDown s.eng }))

/-- A step takes the command at the front of the queue and is that command with the rest of the queue. On an empty queue the link takes what
the outbound buffer holds, the writes that wait for a place enter it, completions first, and nothing else happens: that clause is the
model's choice (assumptions 49 and 115). -/
def Obligations.StepRunsFrontCommand : Prop :=
  (∀ (c : Instr) (s : State), step { s with pending := c :: s.pending } = exec c s)
  ∧ (∀ (c : Instr) (rest : List Instr) (s : State), s.pending = c :: rest → step s = exec c { s with pending := rest })
  ∧ (∀ (s : State), s.pending = [] →
    let taken : Engine := { s.eng with host := { s.eng.host with wait := [], used := 0, usedCtl := 0 } }
    let entering := s.eng.host.wait.filter (fun x => x.ctl) ++ s.eng.host.wait.filter (fun x => !x.ctl)
    step s = .next { s with eng := entering.foldl Engine.postAs taken })

/-- Reset (R8, R28, R38, R436): the engine is in BOOT with its relays open and ABORT asserted, every field at its reset value in all three
copies, TIM unlocked, no frame, ring, context, lock or pending commit, no Spire core running, no chain and no blit, memory empty and no
command waiting. Values that the spec does not give are the model's (assumptions 10, 12 and 38); no clause names one of them. -/
def Obligations.ResetState : Prop :=
  let e := State.reset.eng
  State.reset.pending = [] ∧ e.st = stBoot ∧ e.locked = false ∧ e.frames = [] ∧ e.mem.cells = []
  ∧ (∀ f : Fld, e.act f = f.reset ∧ e.stg f = f.reset)
  ∧ (∀ f : Fld, f.key ∉ resetRegs.map (·.1.key) → e.reg f = f.reset)
  ∧ e.host.rings = [] ∧ e.host.ctxs = [] ∧ e.host.locks = [] ∧ e.host.pends = [] ∧ e.host.started = [] ∧ e.host.held = []
  ∧ e.reg Reg.OUT_KSTAT_COIL = 0 ∧ e.reg Reg.OUT_KSTAT_SENSE = 0 ∧ e.keep.state = true
  ∧ (∀ k, k < 34 → (e.core k).st = 0) ∧ (∀ n, n < 64 → e.chanRun n = false) ∧ (∀ b, b < 2 → e.bltRun b = false)
  ∧ State.reset.queueOk = true

/-- Every command completes in every state: its outcome is a next state that leaves the waiting commands as they are; none faults and none
is refused. That the model has no stop is its own: it gives every row an effect (assumptions 7 and 11). -/
def Obligations.EveryCommandCompletes : Prop := ∀ (i : Instr) (s : State), ∃ t, exec i s = .next t ∧ t.pending = s.pending

/-- Every queue of commands runs to its end: after as many steps as commands wait, the machine has taken each of them, first in first out,
and none is left; and while they run the commands that still wait are those that can be spelled. The queue is the model's, and so is the
drain of the outbound buffer on an empty one (assumptions 7 and 49). -/
def Obligations.QueueDrains : Prop :=
  (∀ (s : State), ∃ t : State, Host.Core.run Sys2Proof.core s.pending.length s = .next t ∧ t.pending = [])
  ∧ (∀ (k : Nat) (s : State), k ≤ s.pending.length → ∃ t : State, Host.Core.run Sys2Proof.core k s = .next t ∧ t.pending = s.pending.drop k
      ∧ (s.queueOk = true → t.queueOk = true))

/-- Every step keeps the canonical form: the tables of active, staged and unstaged fields, the captured copies of pending commits, the
journal, memory and every Spire core's registers and control words stay sorted, without a repeated key and without an entry equal to what an
unlisted one reads as; so equal contents stay equal data. The form is the model's (assumptions 8 and 15). -/
def Obligations.StepKeepsCanonical : Prop :=
  ∀ (s t : State), s.eng.canonical = true → s.eng.setsCanonical = true → step s = .next t →
    t.eng.canonical = true ∧ t.eng.setsCanonical = true

/-- The state after reset is in canonical form. The form is the model's (assumptions 8 and 15). -/
def Obligations.ResetIsCanonical : Prop :=
  State.reset.eng.canonical = true ∧ State.reset.eng.setsCanonical = true

/-- The checks on a packet in their order (R53), the stage lock (R57) and what a commit names (R58): a packet's first failing check gives
its status; staging takes a block's lock for its context and keeps every other context out until a commit captures the changes; a block with
a pending commit accepts no second one, and a commit that captures list entries of another context's Domes none (R212); apply-at 0 names the
first crossing that leaves the lead, a stamp the crossing of that number nearest to the one counted (R77). Where an expert function lacks
EXPERT the status is the model's reading (assumption 78). -/
def Obligations.PacketsAndCommits : Prop :=
  (∀ (f : Fn) (e : Engine) (p : Packet),
    let r := checkHeader f e p
    let known := p.flags < 32 ∧ p.reserved = 0 ∧ (f.expert = true → p.expert = true) ∧ (f.kind = .stage → p.stage = true)
      ∧ (f.kind = .direct → p.commit = true → p.stage = true) ∧ (f.op % 256 = 1 → p.commit = true)
    let own := p.ctx = p.ring / 256
    let owned := f.owner e p = none
    let may := ¬(p.expert = true ∧ f.block = 6) ∧ (p.expert = true ∨ f.op % 256 = 3 → e.hasRight p.ctx rightExpert = true)
      ∧ e.hasRight p.ctx (f.right p) = true
    let fits := p.length ≤ 65536 ∧ f.len p = true
    let apply := p.applyAt = 0 ∨ (f.noApply = false ∧ f.commits p = true)
    (¬known → r = some .badop)
    ∧ (known → ¬own → r = some (.owner (p.ring / 256)))
    ∧ (known → own → ∀ d, f.owner e p = some d → r = some (.owner d))
    ∧ (known → own → owned → ¬may → ∃ d, r = some (.perm d))
    ∧ (known → own → owned → may → ¬fits → r = some .badlen)
    ∧ (known → own → owned → may → fits → ¬apply → r = some (.range 5))
    ∧ (known → own → owned → may → fits → apply → ∀ d, f.range e p = some d → r = some (.range d))
    ∧ (known → own → owned → may → fits → apply → f.range e p = none → r = (f.align p).map .align))
  ∧ (∀ (f : Fn) (extra : Engine → Packet → Option Status) (b c : Nat) (e : Engine) (p : Packet),
    (e.lockOf b = 0 → (e.takeLock b c).lockOf b = c + 1)
    ∧ (e.lockOf b = c + 1 → p.ctx ≠ c → checkHeader f e p = none → checkState f e = none → refuse f [b] extra e p = some (.busy b))
    ∧ (e.host.locks.wf = true → (e.dropLock b).lockOf b = 0))
  ∧ (∀ (e : Engine) (p : Packet) (blocks : List Nat) (object : Nat),
    (∀ b, blocks.find? (fun x => e.pendingOn x) = some b → acceptCommit e p blocks object = .inl (.busy b))
    ∧ (∀ g, acceptCommit e p blocks object = .inr g → ∀ b ∈ blocks, e.pendingOn b = false ∧ g.pendingOn b = true)
    ∧ (∀ c, blocks.find? (fun x => e.pendingOn x) = none → 8 ∈ blocks → stagedOwner e p.ctx = some c →
        acceptCommit e p blocks object = .inl (.owner c)))
  ∧ (∀ (e : Engine) (applyAt : Nat) (long : Bool),
    let s := orbitLen e.active
    let lead := if long then e.lead + lRx e.active + 128 else e.lead
    let first := max (e.counted + lead - createDelay e.active) (e.tim.resume.getD 0)
    let n := e.crossingNamed applyAt
    let r := nameCrossing e applyAt long
    (numberOf s applyAt < crossMod s → e.counted ≤ crossMod s / 2 → n = numberOf s applyAt)
    ∧ (e.locked = false → applyAt = 0 → r = .inr none)
    ∧ (e.locked = false → applyAt ≠ 0 → r = .inl (.state e.st))
    ∧ (e.locked = true → applyAt = 0 → r = .inr (some first))
    ∧ (e.locked = true → applyAt ≠ 0 → applyAt % 2 ^ 14 < s → n < first → r = .inl .late)
    ∧ (e.locked = true → applyAt ≠ 0 → applyAt % 2 ^ 14 < s → first ≤ n → n ≤ e.counted - createDelay e.active + 2 ^ 40 → r = .inr (some n))
    ∧ (e.locked = true → applyAt ≠ 0 → s ≤ applyAt % 2 ^ 14 ∨ (first ≤ n ∧ e.counted - createDelay e.active + 2 ^ 40 < n) →
        r = .inl (.range 5)))
end

