-- ==== Sys2Proof/Laws/Tab.lean ====
section
/-! SUPPORT. Laws of the sparse tables: a read after a write gives the value written, other keys keep theirs, the canonical form is
kept, and canonical tables with equal values are equal. -/

namespace Sys2Proof.Machine

namespace Tab

theorem wfFrom_mono {b c : Nat} : ∀ {t : Tab}, wfFrom c t = true → b ≤ c → wfFrom b t = true
  | [], _, _ => rfl
  | (k, v) :: t, h, hb => by
    simp only [wfFrom, Bool.and_eq_true, decide_eq_true_eq] at h ⊢
    exact ⟨⟨by omega, h.1.2⟩, h.2⟩

/-- A key below every listed key reads as 0. -/
theorem get_below {b x : Nat} : ∀ {t : Tab}, wfFrom b t = true → x < b → t.get x = 0
  | [], _, _ => rfl
  | (k, v) :: t, h, hx => by
    simp only [wfFrom, Bool.and_eq_true, decide_eq_true_eq] at h
    simp [get, show x ≠ k by omega, show x < k by omega]

theorem wfFrom_set {b x v : Nat} (hx : b ≤ x) : ∀ {t : Tab}, wfFrom b t = true → wfFrom b (t.set x v) = true
  | [], _ => by by_cases hv : v = 0 <;> simp [set, wfFrom, hv, hx]
  | (k, w) :: t, h => by
    simp only [wfFrom, Bool.and_eq_true, decide_eq_true_eq] at h
    by_cases hk : x = k
    · by_cases hv : v = 0
      · simpa [set, hk, hv] using wfFrom_mono h.2 (by omega)
      · simpa [set, hk, hv, wfFrom] using ⟨h.1.1, h.2⟩
    · by_cases hlt : x < k
      · by_cases hv : v = 0
        · simpa [set, hk, hlt, hv, wfFrom] using h
        · simp only [set, hk, hlt, hv, wfFrom, if_false, if_true, Bool.and_eq_true, decide_eq_true_eq]
          exact ⟨⟨hx, hv⟩, ⟨by omega, h.1.2⟩, h.2⟩
      · have := wfFrom_set (b := k + 1) (x := x) (v := v) (by omega) h.2
        simpa [set, hk, hlt, wfFrom] using ⟨h.1, this⟩

/-- A write keeps the canonical form. -/
theorem wf_set {t : Tab} (h : t.wf = true) (x v : Nat) : (t.set x v).wf = true := wfFrom_set (Nat.zero_le x) h

theorem get_set_same_from {x v : Nat} : ∀ {b : Nat} {t : Tab}, wfFrom b t = true → (t.set x v).get x = v
  | _, [], _ => by by_cases hv : v = 0 <;> simp [set, get, hv]
  | b, (k, w) :: t, h => by
    simp only [wfFrom, Bool.and_eq_true, decide_eq_true_eq] at h
    by_cases hk : x = k
    · by_cases hv : v = 0
      · simpa [set, hk, hv] using get_below h.2 (by omega)
      · simp [set, get, hk, hv]
    · by_cases hlt : x < k
      · by_cases hv : v = 0 <;> simp [set, get, hk, hlt, hv]
      · simpa [set, get, hk, hlt] using get_set_same_from h.2

/-- A read after a write of the same key gives the value written. -/
theorem get_set_same {t : Tab} (h : t.wf = true) (x v : Nat) : (t.set x v).get x = v := get_set_same_from h

/-- A value other than 0 is read back even from a table that is not canonical. -/
theorem get_set_nonzero {x v : Nat} (hv : v ≠ 0) : ∀ (t : Tab), (t.set x v).get x = v
  | [] => by simp [set, get, hv]
  | (k, w) :: t => by
    by_cases hk : x = k
    · simp [set, get, hk, hv]
    · by_cases hlt : x < k
      · simp [set, get, hk, hlt, hv]
      · simpa [set, get, hk, hlt] using get_set_nonzero hv t

theorem get_set_ne_from {x y v : Nat} (hxy : y ≠ x) : ∀ {b : Nat} {t : Tab}, wfFrom b t = true → (t.set x v).get y = t.get y
  | _, [], _ => by by_cases hv : v = 0 <;> simp [set, get, hv, hxy]
  | b, (k, w) :: t, h => by
    simp only [wfFrom, Bool.and_eq_true, decide_eq_true_eq] at h
    by_cases hk : x = k
    · by_cases hv : v = 0
      · by_cases hy : y < k
        · simp [set, get, hk, hv, hy, show y ≠ k by omega, get_below h.2 (show y < k + 1 by omega)]
        · simp [set, get, hk, hv, hy, show y ≠ k by omega]
      · simp [set, get, hk, hv, show y ≠ k by omega]
    · by_cases hlt : x < k
      · by_cases hv : v = 0
        · simp [set, get, hk, hlt, hv]
        · by_cases hy : y < x
          · simp [set, get, hk, hlt, hv, hxy, hy, show y ≠ k by omega, show y < k by omega]
          · simp [set, get, hk, hlt, hv, hxy, hy]
      · have := get_set_ne_from (v := v) hxy h.2
        simp [set, get, hk, hlt, this]

/-- A write leaves every other key alone. -/
theorem get_set_ne {t : Tab} (h : t.wf = true) {x y : Nat} (hxy : y ≠ x) (v : Nat) : (t.set x v).get y = t.get y :=
  get_set_ne_from hxy h

theorem wfFrom_filter (q : Nat × Nat → Bool) : ∀ {b : Nat} {t : Tab}, wfFrom b t = true → wfFrom b (t.filter q) = true
  | _, [], _ => rfl
  | b, (k, v) :: t, h => by
    simp only [wfFrom, Bool.and_eq_true, decide_eq_true_eq] at h
    have ih := wfFrom_filter q h.2
    by_cases hq : q (k, v) = true
    · simpa [List.filter, hq, wfFrom] using ⟨h.1, ih⟩
    · simpa [List.filter, hq] using wfFrom_mono ih (by omega)

/-- Removing entries keeps the canonical form. -/
theorem wf_filter {t : Tab} (h : t.wf = true) (q : Nat × Nat → Bool) : wf (t.filter q) = true := wfFrom_filter q h

theorem wf_range {t : Tab} (h : t.wf = true) (lo hi : Nat) : (t.range lo hi).wf = true := wf_filter h _

theorem wf_setAll : ∀ (kvs : List (Nat × Nat)) {t : Tab}, t.wf = true → (t.setAll kvs).wf = true
  | [], _, h => h
  | kv :: kvs, _, h => wf_setAll kvs (wf_set h kv.1 kv.2)

theorem wf_replace (p : Nat → Bool) {t : Tab} (h : t.wf = true) (u : Tab) : (replace p t u).wf = true :=
  wf_setAll _ (wf_filter h _)

/-- A canonical table lists no key below `b`, so equal values make equal tables. -/
theorem ext_from : ∀ {b : Nat} {t u : Tab}, wfFrom b t = true → wfFrom b u = true → (∀ x, t.get x = u.get x) → t = u
  | _, [], [], _, _, _ => rfl
  | b, [], (k, v) :: u, _, hu, h => by
    simp only [wfFrom, Bool.and_eq_true, decide_eq_true_eq] at hu
    have := h k
    simp [get] at this
    omega
  | b, (k, v) :: t, [], ht, _, h => by
    simp only [wfFrom, Bool.and_eq_true, decide_eq_true_eq] at ht
    have := h k
    simp [get] at this
    omega
  | b, (k, v) :: t, (l, w) :: u, ht, hu, h => by
    simp only [wfFrom, Bool.and_eq_true, decide_eq_true_eq] at ht hu
    have hk := h k
    have hl := h l
    simp only [get] at hk hl
    have e : k = l := by
      rcases Nat.lt_trichotomy k l with c | c | c
      · simp [show k ≠ l by omega, c] at hk; omega
      · exact c
      · simp [show l ≠ k by omega, c] at hl; omega
    subst e
    simp only [if_true] at hk
    subst hk
    have : t = u := ext_from ht.2 hu.2 (fun x => by
      have hx := h x
      by_cases c : x < k + 1
      · rw [get_below ht.2 c, get_below hu.2 c]
      · simpa [get, show x ≠ k by omega, show ¬ x < k by omega] using hx)
    rw [this]

/-- Canonical tables with equal values are equal. -/
theorem ext {t u : Tab} (ht : t.wf = true) (hu : u.wf = true) (h : ∀ x, t.get x = u.get x) : t = u := ext_from ht hu h

/-! ### Fields -/

theorem wf_put {t : Tab} (h : t.wf = true) (f : Fld) (v : Nat) : (t.put f v).wf = true := wf_set h _ _

theorem wf_puts : ∀ (fs : List (Fld × Nat)) {t : Tab}, t.wf = true → (t.puts fs).wf = true
  | [], _, h => h
  | fv :: fs, _, h => wf_puts fs (wf_put h fv.1 fv.2)

/-- A field reads as the value it was given, kept to its width. -/
theorem fld_put_same {t : Tab} (h : t.wf = true) (f : Fld) (v : Nat) : (t.put f v).fld f = v % 2 ^ f.width := by
  simp only [fld, put, get_set_same h]
  exact Nat.xor_xor_cancel_right _ _

/-- A field keeps its value when a field with another key is written. -/
theorem fld_put_ne {t : Tab} (h : t.wf = true) {f g : Fld} (hfg : g.key ≠ f.key) (v : Nat) : (t.put f v).fld g = t.fld g := by
  simp only [fld, put, get_set_ne h hfg]

/-- A field keeps its value when fields with other keys are written. -/
theorem fld_puts_ne {g : Fld} : ∀ (fs : List (Fld × Nat)) {t : Tab}, t.wf = true → (∀ x ∈ fs, g.key ≠ x.1.key) → (t.puts fs).fld g = t.fld g
  | [], _, _, _ => rfl
  | fv :: fs, t, h, hne => by
    have h1 := fld_puts_ne fs (wf_put h fv.1 fv.2) (fun x hx => hne x (List.mem_cons_of_mem _ hx))
    have h2 := fld_put_ne h (hne fv List.mem_cons_self) fv.2
    simpa [puts] using h1.trans h2

theorem puts_append (t : Tab) (a b : List (Fld × Nat)) : t.puts (a ++ b) = (t.puts a).puts b := List.foldl_append

@[simp] theorem puts_nil (t : Tab) : t.puts [] = t := rfl

theorem puts_cons (t : Tab) (f : Fld) (v : Nat) (fs : List (Fld × Nat)) : t.puts ((f, v) :: fs) = (t.put f v).puts fs := rfl

/-- The last value given to a field is the one it reads as. -/
theorem fld_puts_last {t : Tab} (h : t.wf = true) (f : Fld) (v : Nat) (fs gs : List (Fld × Nat)) (hg : ∀ x ∈ gs, f.key ≠ x.1.key) :
    (t.puts (fs ++ (f, v) :: gs)).fld f = v % 2 ^ f.width := by
  rw [puts_append, puts_cons, fld_puts_ne gs (wf_put (wf_puts fs h) f v) hg, fld_put_same (wf_puts fs h)]

end Tab

end Sys2Proof.Machine
end

