-- ==== Sys2Proof/Laws/Cmd.lean ====
section
/-! SUPPORT. What the shared operations of commands do: completions, stage locks, acceptance of a commit, and the runners that every
function is built on. -/

namespace Sys2Proof.Machine

/-! ### The outbound queue -/

/-- A write joins the queue, or waits, by what the queue holds alone. -/
theorem postAs_host (e : Engine) (x : Posted) : e.postAs x = { e with host := { e.host with
    out := (e.postAs x).host.out, wait := (e.postAs x).host.wait, used := (e.postAs x).host.used, usedCtl := (e.postAs x).host.usedCtl } } := by
  unfold Engine.postAs
  dsimp only
  split <;> rfl

theorem postAs_only (e : Engine) (x : Posted) : OnlyAnswered e (e.postAs x) := by
  unfold OnlyAnswered
  rw [postAs_host]

theorem Sends.refl (e : Engine) : Sends [] e e := ⟨rfl, rfl, rfl, rfl⟩

/-- Two engines whose outbound queues are the same. -/
def sameOut (e f : Engine) : Prop :=
  f.host.out = e.host.out ∧ f.host.wait = e.host.wait ∧ f.host.used = e.host.used ∧ f.host.usedCtl = e.host.usedCtl

theorem sameOut.postAs {e f : Engine} (h : sameOut e f) (x : Posted) : sameOut (e.postAs x) (f.postAs x) := by
  obtain ⟨h1, h2, h3, h4⟩ := h
  unfold Engine.postAs Engine.admits sameOut
  rw [h1, h2, h3, h4]
  dsimp only
  split <;> split <;> simp_all

theorem sameOut.foldl : ∀ (xs : List Posted) {e f : Engine}, sameOut e f → sameOut (xs.foldl Engine.postAs e) (xs.foldl Engine.postAs f)
  | [], _, _, h => h
  | x :: xs, _, _, h => sameOut.foldl xs (h.postAs x)

theorem Sends.trans {xs ys : List Posted} {e f g : Engine} (h1 : Sends xs e f) (h2 : Sends ys f g) : Sends (xs ++ ys) e g := by
  obtain ⟨a, b, c, d⟩ := sameOut.foldl ys (e := xs.foldl Engine.postAs e) (f := f) h1
  unfold Sends at *
  dsimp only at *
  rw [List.foldl_append]
  exact ⟨h2.1.trans a, h2.2.1.trans b, h2.2.2.1.trans c, h2.2.2.2.trans d⟩

theorem postAs_sends (e : Engine) (x : Posted) : Sends [x] e (e.postAs x) := ⟨rfl, rfl, rfl, rfl⟩

/-! ### Completions -/

theorem OnlyAnswered.trans {e f g : Engine} (h1 : OnlyAnswered e f) (h2 : OnlyAnswered f g) : OnlyAnswered e g := by
  unfold OnlyAnswered at *
  rw [h2, h1]

theorem sendMsix_only (e : Engine) (v : Nat) : OnlyAnswered e (e.sendMsix v) := by
  unfold Engine.sendMsix
  split
  · rfl
  · exact postAs_only _ _

theorem sendMsix_sends (e : Engine) (v : Nat) : ∃ xs, Sends xs e (e.sendMsix v) := by
  unfold Engine.sendMsix
  split
  · exact ⟨[], rfl, rfl, rfl, rfl⟩
  · exact ⟨_, postAs_sends _ _⟩

theorem ringIrq_only (e : Engine) (r : Ring) : OnlyAnswered e (e.ringIrq r) := by
  unfold Engine.ringIrq
  split
  · exact OnlyAnswered.trans (f := e.putRing { r with armed := false }) rfl (sendMsix_only _ _)
  · rfl

theorem ringIrq_sends (e : Engine) (r : Ring) : ∃ xs, Sends xs e (e.ringIrq r) := by
  unfold Engine.ringIrq
  split
  · obtain ⟨xs, h⟩ := sendMsix_sends (e.putRing { r with armed := false }) r.vec
    exact ⟨xs, Sends.trans (xs := []) (f := e.putRing { r with armed := false }) ⟨rfl, rfl, rfl, rfl⟩ h⟩
  · exact ⟨[], rfl, rfl, rfl, rfl⟩

theorem postAs_started (e : Engine) (x : Posted) : (e.postAs x).host.started = e.host.started := by rw [postAs_host]

theorem ringIrq_started (e : Engine) (r : Ring) : (e.ringIrq r).host.started = e.host.started := by
  unfold Engine.ringIrq Engine.sendMsix Engine.post
  split
  · split
    · rfl
    · exact postAs_started _ _
  · rfl

theorem writeCpl_only (e : Engine) (c : Cpl) : OnlyAnswered e (e.writeCpl c) := by
  unfold Engine.writeCpl
  split
  · rfl
  · dsimp only
    split
    · exact OnlyAnswered.trans (postAs_only _ _) (ringIrq_only _ _)
    · exact OnlyAnswered.trans (postAs_only _ _) rfl

theorem writeCpl_started (e : Engine) (c : Cpl) : (e.writeCpl c).host.started = e.host.started := by
  unfold Engine.writeCpl
  split
  · rfl
  · dsimp only
    split
    · exact (ringIrq_started _ _).trans (postAs_started _ _)
    · exact postAs_started _ _

/-- A completion entry is written where the ring's producer count points, with the phase bit of that pass (R49). -/
theorem writeCpl_sends (e : Engine) (c : Cpl) (r : Ring) (h : e.ring? c.cplRing = some r) :
    ∃ more, Sends (⟨r.addr r.prod, c.bytes (r.phase r.prod), false, r.id == 1⟩ :: more) e (e.writeCpl c) := by
  unfold Engine.writeCpl
  simp only [h]
  have h0 : Sends [⟨r.addr r.prod, c.bytes (r.phase r.prod), false, r.id == 1⟩] e
      (e.postAs ⟨r.addr r.prod, c.bytes (r.phase r.prod), false, r.id == 1⟩) := postAs_sends _ _
  split
  · obtain ⟨more, hm⟩ := ringIrq_sends (e.postAs ⟨r.addr r.prod, c.bytes (r.phase r.prod), false, r.id == 1⟩)
      { r with prod := (r.prod + 1) % 2 ^ 32 }
    exact ⟨more, h0.trans hm⟩
  · exact ⟨[], h0⟩

theorem eraseP_drops {α : Type} (p : α → Bool) (l : List α) : dropsFirst p l (l.eraseP p) := by
  refine ⟨fun h => List.eraseP_of_forall_not fun a ha hp => ?_, fun a x b hl ha hx => ?_⟩
  · rw [List.any_eq_true.mpr ⟨a, ha, hp⟩] at h; exact absurd h (by simp)
  · subst hl
    rw [List.eraseP_append_right]
    · simp [hx]
    · intro y hy hp
      rw [List.any_eq_true.mpr ⟨y, hy, hp⟩] at ha; exact absurd ha (by simp)

/-- What completing a command does (R50, R60). -/
theorem completeAt_answers (e : Engine) (ring tag : Nat) (notify : Bool) (st : Status) (cx : Nat) :
    AnswersAt ring tag notify st cx e (e.completeAt ring tag notify st cx) := by
  have hd := eraseP_drops (fun s : Started => s.ring == ring && s.tag == tag) e.host.started
  unfold Engine.completeAt
  dsimp only
  split
  · rename_i hr
    exact ⟨rfl, hd, fun r c h _ => absurd (hr.symm.trans h) (by simp)⟩
  · rename_i r hr
    have hring : ∀ id, (e.endStarted ring tag).ring? id = e.ring? id := fun _ => rfl
    have hopen : ∀ id, (e.endStarted ring tag).cplOpen id = e.cplOpen id := fun _ => rfl
    have hheld : ∀ id, (e.endStarted ring tag).heldFor id = e.heldFor id := fun _ => rfl
    simp only [hopen, hheld, Bool.and_eq_true, Bool.not_eq_true']
    split
    · rename_i hw
      refine ⟨OnlyAnswered.trans (f := e.endStarted ring tag) rfl (writeCpl_only _ _), ?_, fun r' c h h' => ⟨fun _ => ?_, fun hn => ?_⟩⟩
      · rw [writeCpl_started]; exact hd
      · cases hr.symm.trans h
        obtain ⟨more, hm⟩ := writeCpl_sends (e.endStarted ring tag) ⟨r.cpl, tag, st.code, st.detail % 256, cx, notify⟩ c h'
        exact ⟨more, Sends.trans (xs := []) (f := e.endStarted ring tag) ⟨rfl, rfl, rfl, rfl⟩ hm⟩
      · cases hr.symm.trans h
        exact absurd hw hn
    · rename_i hw
      split
      · refine ⟨rfl, hd, fun r' c h h' => ⟨fun hy => ?_, fun _ => ?_⟩⟩
        · cases hr.symm.trans h
          exact absurd hy hw
        · cases hr.symm.trans h
          exact ⟨rfl, rfl, rfl, rfl, rfl⟩
      · rename_i hc
        refine ⟨rfl, hd, fun r' c h h' => ?_⟩
        cases hr.symm.trans h
        rw [hring, h'] at hc
        simp at hc

/-- What completing the command of a packet does. -/
theorem complete_answers (e : Engine) (p : Packet) (st : Status) : Answers p st e (e.complete p st) :=
  completeAt_answers e p.ring p.tag p.notify st e.cxNow

/-! ### Stage locks -/

theorem takeLock_lockOf (e : Engine) (b c : Nat) (h : e.lockedOut b c = false) : (e.takeLock b c).lockOf b = c + 1 := by
  unfold Engine.takeLock
  split
  · exact Tab.get_set_nonzero (by omega) _
  · rename_i h0
    simp only [Engine.lockedOut, Bool.and_eq_false_imp, bne_iff_ne, ne_eq] at h
    simpa using h (by simpa using h0)

/-! ### Acceptance of a commit -/

theorem dropLocks_host (blks : List Nat) : ∀ (e : Engine),
    blks.foldl (fun a b => a.dropLock b) e
      = { e with host := { e.host with locks := (blks.foldl (fun a b => a.dropLock b) e).host.locks } } := by
  induction blks with
  | nil => intro e; rfl
  | cons b bs ih =>
    intro e
    simp only [List.foldl_cons]
    rw [ih (e.dropLock b)]
    rfl

/-- What accepting a commit does. -/
theorem acceptCommit_captured {e f : Engine} {p : Packet} {blks : List Nat} {object : Nat}
    (h : acceptCommit e p blks object = .inr f) : Captured blks object p e f := by
  unfold acceptCommit at h
  split at h
  · exact absurd h (by simp)
  · split at h
    · exact absurd h (by simp)
    · dsimp only at h
      split at h
      · exact absurd h (by simp)
      · split at h
        · exact absurd h (by simp)
        · rw [dropLocks_host] at h
          cases h
          by_cases h10 : blks.contains 10 <;> by_cases h4 : blks.contains 4 <;> simp only [h10, h4, if_true, Engine.setReg] <;>
            exact ⟨_, rfl, rfl, rfl, rfl, rfl, rfl, rfl, rfl, rfl, rfl, rfl, rfl, rfl, fun _ => by simp_all, fun _ => by simp_all⟩

/-- A commit that its tests accept is captured and recorded, or waits for AC (R58, R370, R431). -/
theorem commitOr_accepted {e : Engine} {p : Packet} {blks : List Nat} {object : Nat}
    (h : (acceptCommit e p blks object).isRight = true) : Accepted blks object p e (commitOr e p blks object) := by
  unfold commitOr
  split
  · rename_i hs; rw [hs] at h; exact absurd h (by simp)
  · rename_i g hs
    refine ⟨fun ha => ⟨g, acceptCommit_captured hs, ?_⟩, fun ha => ?_⟩
    · simp [ha]
    · rw [if_pos ha]; rfl

/-- What committing does. -/
theorem commitOr_commits (e : Engine) (p : Packet) (blks : List Nat) (object : Nat) : Commits blks object p e (commitOr e p blks object) := by
  unfold Commits
  split
  · rename_i h; exact commitOr_accepted (by rw [h]; rfl)
  · rename_i st h
    unfold commitOr
    rw [h]
    exact complete_answers _ _ _

/-! ### Runners -/

theorem refuse_locks {f : Fn} {locks : List Nat} {extra : Engine → Packet → Option Status} {e : Engine} {p : Packet}
    (h : refuse f locks extra e p = none) : ∀ b ∈ locks, e.lockedOut b p.ctx = false := by
  unfold refuse at h
  split at h
  · exact absurd h (by simp)
  · split at h
    · exact absurd h (by simp)
    · split at h
      · exact absurd h (by simp)
      · rename_i hf
        intro b hb
        simpa using List.find?_eq_none.mp hf b hb

variable {i : Packet → Instr} {f : Fn} {extra : Engine → Packet → Option Status}

/-- A function over staged copies that is basic does what a basic command does. -/
theorem runStage_basic {stage : Engine → Packet → Engine} {object : Nat}
    (hx : ∀ p s, exec (i p) s = .next { s with eng := runStage f extra stage object p s.eng }) (hk : f.kind = .basic) :
    BasicCommand i f extra stage object := by
  refine ⟨fun p s hr ha => ?_, fun p s st hr ha => ?_, fun p s st hr => ?_⟩
  · refine ⟨_, hx p s, rfl, ?_⟩
    simp only [runStage, hr, hk, if_true]
    exact commitOr_accepted ha
  · refine ⟨_, hx p s, rfl, ?_⟩
    simp only [runStage, hr, hk, if_true, commitOr]
    unfold stagedFor at ha ⊢
    rw [ha]
    exact complete_answers _ _ _
  · refine ⟨_, hx p s, rfl, ?_⟩
    simp only [runStage, hr]
    exact complete_answers _ _ _

/-- A function over staged copies that is not basic does what an expert function over staged fields does. -/
theorem runStage_expert {stage : Engine → Packet → Engine}
    (hx : ∀ p s, exec (i p) s = .next { s with eng := runStage f extra stage 0 p s.eng }) (hk : f.kind ≠ .basic) :
    ExpertCommand i f extra stage := by
  refine ⟨fun p s hr hc => ?_, fun p s hr hc => ?_, fun p s st hr => ?_⟩
  · refine ⟨_, hx p s, rfl, ?_⟩
    simp only [runStage, hr, hk, hc, if_false, Bool.false_eq_true]
    exact complete_answers _ _ _
  · refine ⟨_, hx p s, rfl, ?_⟩
    simp only [runStage, hr, hk, hc, if_false, if_true]
    exact commitOr_commits _ _ _ _
  · refine ⟨_, hx p s, rfl, ?_⟩
    simp only [runStage, hr]
    exact complete_answers _ _ _

/-- What ends a function that has acted. -/
theorem endAction_ends (f : Fn) (e : Engine) (p : Packet) : Ends f p e (endAction f e p) := by
  unfold Ends endAction
  split
  · rename_i h; rw [h]; exact complete_answers _ _ _
  · rename_i h; rw [h]; exact commitOr_commits _ _ _ _

/-- What a command that acts at once does. -/
theorem runAction_does {act : Engine → Packet → Engine}
    (hx : ∀ p s, exec (i p) s = .next { s with eng := runAction f extra act p s.eng }) : ActionCommand i f extra act := by
  refine ⟨fun p s hr => ?_, fun p s st hr => ?_⟩
  · refine ⟨_, hx p s, rfl, ?_⟩
    simp only [runAction, hr]
    exact endAction_ends _ _ _
  · refine ⟨_, hx p s, rfl, ?_⟩
    simp only [runAction, hr]
    exact complete_answers _ _ _

/-- What a command that answers by itself does. -/
theorem runAsync_does {act : Engine → Packet → Engine} {q : Engine → Packet → Engine → Prop} (hq : ∀ e p, q e p (act e p))
    (hx : ∀ p s, exec (i p) s = .next { s with eng := runAsync f extra act p s.eng }) : AsyncCommand i f extra q := by
  refine ⟨fun p s hr => ⟨_, hx p s, rfl, ?_⟩, fun p s st hr => ⟨_, hx p s, rfl, ?_⟩⟩
  · simp only [runAsync, hr]
    exact hq _ _
  · simp only [runAsync, hr]
    exact complete_answers _ _ _

/-! ### Commands that a ring brings -/

theorem runHst_next {fn : Nat} {p : Packet} {s : State} {o : Host.Outcome State Fault Refusal} (h : runHst fn p s = some o) :
    ∃ e, o = .next { s with eng := e } := by
  unfold runHst at h
  split at h <;> first | (cases h; exact ⟨_, rfl⟩) | cases h

theorem runTim_next {fn : Nat} {p : Packet} {s : State} {o : Host.Outcome State Fault Refusal} (h : runTim fn p s = some o) :
    ∃ e, o = .next { s with eng := e } := by
  unfold runTim at h
  split at h <;> first | (cases h; exact ⟨_, rfl⟩) | cases h

theorem runLnk_next {fn : Nat} {p : Packet} {s : State} {o : Host.Outcome State Fault Refusal} (h : runLnk fn p s = some o) :
    ∃ e, o = .next { s with eng := e } := by
  unfold runLnk at h
  split at h <;> first | (cases h; exact ⟨_, rfl⟩) | cases h

theorem runMap_next {fn : Nat} {p : Packet} {s : State} {o : Host.Outcome State Fault Refusal} (h : runMap fn p s = some o) :
    ∃ e, o = .next { s with eng := e } := by
  unfold runMap at h
  split at h <;> first | (cases h; exact ⟨_, rfl⟩) | cases h

theorem runDom_next {fn : Nat} {p : Packet} {s : State} {o : Host.Outcome State Fault Refusal} (h : runDom fn p s = some o) :
    ∃ e, o = .next { s with eng := e } := by
  unfold runDom at h
  split at h <;> first | (cases h; exact ⟨_, rfl⟩) | cases h

theorem runKeep_next {fn : Nat} {p : Packet} {s : State} {o : Host.Outcome State Fault Refusal} (h : runKeep fn p s = some o) :
    ∃ e, o = .next { s with eng := e } := by
  unfold runKeep at h
  split at h <;> first | (cases h; exact ⟨_, rfl⟩) | cases h

theorem runObj_next {fn : Nat} {p : Packet} {s : State} {o : Host.Outcome State Fault Refusal} (h : runObj fn p s = some o) :
    ∃ e, o = .next { s with eng := e } := by
  unfold runObj at h
  split at h <;> first | (cases h; exact ⟨_, rfl⟩) | cases h

theorem runSeq_next {fn : Nat} {p : Packet} {s : State} {o : Host.Outcome State Fault Refusal} (h : runSeq fn p s = some o) :
    ∃ e, o = .next { s with eng := e } := by
  unfold runSeq at h
  split at h <;> first | (cases h; exact ⟨_, rfl⟩) | cases h

theorem runMnu_next {fn : Nat} {p : Packet} {s : State} {o : Host.Outcome State Fault Refusal} (h : runMnu fn p s = some o) :
    ∃ e, o = .next { s with eng := e } := by
  unfold runMnu at h
  split at h <;> first | (cases h; exact ⟨_, rfl⟩) | cases h

theorem runBel_next {fn : Nat} {p : Packet} {s : State} {o : Host.Outcome State Fault Refusal} (h : runBel fn p s = some o) :
    ∃ e, o = .next { s with eng := e } := by
  unfold runBel at h
  split at h <;> first | (cases h; exact ⟨_, rfl⟩) | cases h

theorem runSpr_next {fn : Nat} {p : Packet} {s : State} {o : Host.Outcome State Fault Refusal} (h : runSpr fn p s = some o) :
    ∃ e, o = .next { s with eng := e } := by
  unfold runSpr at h
  split at h <;> first | (cases h; exact ⟨_, rfl⟩) | cases h

theorem runUla_next {fn : Nat} {p : Packet} {s : State} {o : Host.Outcome State Fault Refusal} (h : runUla fn p s = some o) :
    ∃ e, o = .next { s with eng := e } := by
  unfold runUla at h
  split at h <;> first | (cases h; exact ⟨_, rfl⟩) | cases h

theorem runEvt_next {fn : Nat} {p : Packet} {s : State} {o : Host.Outcome State Fault Refusal} (h : runEvt fn p s = some o) :
    ∃ e, o = .next { s with eng := e } := by
  unfold runEvt at h
  split at h <;> first | (cases h; exact ⟨_, rfl⟩) | cases h

theorem runIrq_next {fn : Nat} {p : Packet} {s : State} {o : Host.Outcome State Fault Refusal} (h : runIrq fn p s = some o) :
    ∃ e, o = .next { s with eng := e } := by
  unfold runIrq at h
  split at h <;> first | (cases h; exact ⟨_, rfl⟩) | cases h

theorem runCnt_next {fn : Nat} {p : Packet} {s : State} {o : Host.Outcome State Fault Refusal} (h : runCnt fn p s = some o) :
    ∃ e, o = .next { s with eng := e } := by
  unfold runCnt at h
  split at h <;> first | (cases h; exact ⟨_, rfl⟩) | cases h

theorem runMem_next {fn : Nat} {p : Packet} {s : State} {o : Host.Outcome State Fault Refusal} (h : runMem fn p s = some o) :
    ∃ e, o = .next { s with eng := e } := by
  unfold runMem at h
  split at h <;> first | (cases h; exact ⟨_, rfl⟩) | cases h

theorem runDma_next {fn : Nat} {p : Packet} {s : State} {o : Host.Outcome State Fault Refusal} (h : runDma fn p s = some o) :
    ∃ e, o = .next { s with eng := e } := by
  unfold runDma at h
  split at h <;> first | (cases h; exact ⟨_, rfl⟩) | cases h

theorem runBlt_next {fn : Nat} {p : Packet} {s : State} {o : Host.Outcome State Fault Refusal} (h : runBlt fn p s = some o) :
    ∃ e, o = .next { s with eng := e } := by
  unfold runBlt at h
  split at h <;> first | (cases h; exact ⟨_, rfl⟩) | cases h

theorem runSec_next {fn : Nat} {p : Packet} {s : State} {o : Host.Outcome State Fault Refusal} (h : runSec fn p s = some o) :
    ∃ e, o = .next { s with eng := e } := by
  unfold runSec at h
  split at h <;> first | (cases h; exact ⟨_, rfl⟩) | cases h

theorem runTdm_next {fn : Nat} {p : Packet} {s : State} {o : Host.Outcome State Fault Refusal} (h : runTdm fn p s = some o) :
    ∃ e, o = .next { s with eng := e } := by
  unfold runTdm at h
  split at h <;> first | (cases h; exact ⟨_, rfl⟩) | cases h

theorem runPwr_next {fn : Nat} {p : Packet} {s : State} {o : Host.Outcome State Fault Refusal} (h : runPwr fn p s = some o) :
    ∃ e, o = .next { s with eng := e } := by
  unfold runPwr at h
  split at h <;> first | (cases h; exact ⟨_, rfl⟩) | cases h

theorem runOut_next {fn : Nat} {p : Packet} {s : State} {o : Host.Outcome State Fault Refusal} (h : runOut fn p s = some o) :
    ∃ e, o = .next { s with eng := e } := by
  unfold runOut at h
  split at h <;> first | (cases h; exact ⟨_, rfl⟩) | cases h

theorem runFunction_next {blk fn : Nat} {p : Packet} {s : State} {o : Host.Outcome State Fault Refusal} (h : runFunction blk fn p s = some o) :
    ∃ e, o = .next { s with eng := e } := by
  unfold runFunction at h
  split at h
  · exact runHst_next h
  · exact runTim_next h
  · exact runLnk_next h
  · exact runMap_next h
  · exact runDom_next h
  · exact runKeep_next h
  · exact runObj_next h
  · exact runSeq_next h
  · exact runMnu_next h
  · exact runBel_next h
  · exact runSpr_next h
  · exact runUla_next h
  · exact runEvt_next h
  · exact runIrq_next h
  · exact runCnt_next h
  · exact runMem_next h
  · exact runDma_next h
  · exact runBlt_next h
  · exact runSec_next h
  · exact runTdm_next h
  · exact runPwr_next h
  · exact runOut_next h
  · cases h

/-- Every command that a ring brings completes, and leaves the queue as it is. -/
theorem runCommand_next (op : Nat) (p : Packet) (s : State) : ∃ e, runCommand op p s = .next { s with eng := e } := by
  unfold runCommand
  dsimp only
  split
  · exact ⟨_, rfl⟩
  split
  · exact ⟨_, rfl⟩
  split
  · exact ⟨_, rfl⟩
  split
  · exact ⟨_, rfl⟩
  split
  · exact runFunction_next (by assumption)
  · split
    · exact ⟨_, rfl⟩
    · exact ⟨_, rfl⟩

end Sys2Proof.Machine
end

