-- ==== Sys2Proof/Laws/Events.lean ====
section
/-! SUPPORT. Raising an event changes nothing outside the event fabric and the interrupt and counter registers (R314 to R318, R327, R329). -/

namespace Sys2Proof.Machine

theorem EventsOnly.refl (e : Engine) : EventsOnly e e := ⟨rfl, fun h => ⟨h, fun _ _ => rfl⟩⟩

theorem EventsOnly.trans {e f g : Engine} (a : EventsOnly e f) (b : EventsOnly f g) : EventsOnly e g := by
  refine ⟨?_, fun h => ⟨(b.2 (a.2 h).1).1, fun x hx => ((b.2 (a.2 h).1).2 x hx).trans ((a.2 h).2 x hx)⟩⟩
  rw [b.1]
  rw [a.1]

/-- A change of the fabric's own state. -/
theorem eventsOnly_evt (e : Engine) (v : EvtSt) : EventsOnly e { e with evt := v } := ⟨rfl, fun h => ⟨h, fun _ _ => rfl⟩⟩

/-- A register from EVT on takes a value. -/
theorem eventsOnly_setReg (e : Engine) (f : Fld) (v : Nat) (hf : 32 * 0xE00000 ≤ f.key) : EventsOnly e (e.setReg f v) :=
  ⟨rfl, fun h => ⟨Tab.wf_put h f v, fun g hg => Tab.fld_put_ne h (by omega) v⟩⟩

theorem eventsOnly_bump (e : Engine) (f : Fld) (hf : 32 * 0xE00000 ≤ f.key) : EventsOnly e (e.bump f) := eventsOnly_setReg e f _ hf

theorem eventsOnly_foldl {α : Type} (f : Engine → α → Engine) (hf : ∀ e a, EventsOnly e (f e a)) :
    ∀ (l : List α) (e : Engine), EventsOnly e (l.foldl f e)
  | [], e => EventsOnly.refl e
  | a :: l, e => (hf e a).trans (eventsOnly_foldl f hf l (f e a))

theorem arrive_events (e : Engine) (c : Nat) : EventsOnly e (e.arrive c) := eventsOnly_evt e _

theorem arm_events (e : Engine) (c : Nat) : EventsOnly e (e.arm c) := eventsOnly_evt e _

theorem notifyHost_events (e : Engine) (s d : Nat) : EventsOnly e (e.notifyHost s d) := by
  unfold Engine.notifyHost
  split
  · split <;> exact eventsOnly_evt e _
  · exact EventsOnly.refl e

theorem irqPulse_events (e : Engine) (s : Nat) : EventsOnly e (e.irqPulse s) := by
  unfold Engine.irqPulse
  split
  · exact eventsOnly_evt e _
  · exact EventsOnly.refl e

theorem fire_events (e : Engine) (k : Nat) : EventsOnly e (e.fire k) := by
  unfold Engine.fire
  exact (((eventsOnly_bump e _ (by simp only; omega)).trans (eventsOnly_evt _ _)).trans (eventsOnly_foldl _ arrive_events _ _)).trans
    (eventsOnly_foldl _ arm_events _ _)

/-- The steps of a raise after its channel's request is counted. -/
theorem raiseRest_events (fuel : Nat) (ih : ∀ (e : Engine) (s d : Nat), EventsOnly e (Engine.raiseFuel fuel e s d)) {e : Engine} (e6 : Engine)
    (k n : Nat) (h6 : EventsOnly e e6) :
    EventsOnly e (if e6.reg (Reg.EVT_KSTAT_STOP k) = 1 then e6
      else if e6.reg Reg.EVT_GUARD_COUNT ≠ 0 ∧ e6.reg Reg.EVT_GUARD_COUNT < n then
        let e7 := e6.raiseBit (Reg.EVT_KSTAT_STOP k)
        let e8 := if e7.reg Reg.EVT_LOOP_FLAG = 0 then (e7.setReg Reg.EVT_LOOP_CH k).raiseBit Reg.EVT_LOOP_FLAG else e7
        Engine.raiseFuel fuel (e8.bump Reg.EVT_LOOPCNT_COUNT) Src.loop k
      else if e6.evt.hold.get k = 0 then e6.fire k
      else { e6 with evt := { e6.evt with hold := e6.evt.hold.set k 2 } }) := by
  split
  · exact h6
  · split
    · dsimp only
      refine (h6.trans (EventsOnly.trans ?_ (eventsOnly_bump _ _ (by decide)))).trans (ih _ _ _)
      have h7 : EventsOnly e6 (e6.raiseBit (Reg.EVT_KSTAT_STOP k)) := eventsOnly_setReg e6 _ 1 (by simp only; omega)
      generalize e6.raiseBit (Reg.EVT_KSTAT_STOP k) = e7 at h7
      split
      · exact (h7.trans (eventsOnly_setReg _ _ _ (by decide))).trans (eventsOnly_setReg _ _ _ (by decide))
      · exact h7
    · split
      · exact h6.trans (fire_events _ _)
      · exact h6.trans (eventsOnly_evt _ _)

theorem raiseFuel_events : ∀ (fuel : Nat) (e : Engine) (s d : Nat), EventsOnly e (Engine.raiseFuel fuel e s d)
  | 0, e, _, _ => EventsOnly.refl e
  | fuel + 1, e, s, d => by
    unfold Engine.raiseFuel
    dsimp only
    have h4 : EventsOnly e
        (if sourceLevel s = true then (((e.bump (Reg.EVT_SCNT_COUNT s)).joined (s / 128) (s % 128)).foldl (fun a c => a.arrive c)
            (e.bump (Reg.EVT_SCNT_COUNT s))).notifyHost s d
          else ((((e.bump (Reg.EVT_SCNT_COUNT s)).joined (s / 128) (s % 128)).foldl (fun a c => a.arrive c)
            (e.bump (Reg.EVT_SCNT_COUNT s))).notifyHost s d).irqPulse s) := by
      have h3 := ((eventsOnly_bump e (Reg.EVT_SCNT_COUNT s) (by simp only; omega)).trans
        (eventsOnly_foldl (fun a c => Engine.arrive a c) arrive_events ((e.bump (Reg.EVT_SCNT_COUNT s)).joined (s / 128) (s % 128)) _)).trans
        (notifyHost_events _ s d)
      split
      · exact h3
      · exact h3.trans (irqPulse_events _ s)
    generalize (if sourceLevel s = true then _ else _) = e4 at h4
    split
    · have h5 := h4.trans (eventsOnly_bump e4 (Reg.EVT_KREQ_COUNT (e4.reg (Reg.EVT_SPUB_CH s))) (by simp only; omega))
      generalize e4.bump (Reg.EVT_KREQ_COUNT (e4.reg (Reg.EVT_SPUB_CH s))) = e5 at h5
      generalize e4.reg (Reg.EVT_SPUB_CH s) = k
      have h6 := h5.trans (eventsOnly_evt e5 { e5.evt with window := e5.evt.window.set k (e5.evt.window.get k + 1) })
      exact raiseRest_events fuel (raiseFuel_events fuel) _ _ _ h6
    · exact h4

/-- Raising a source reaches the event fabric alone (R317, R318, R327, R329). -/
theorem raise_events (e : Engine) (s d : Nat) : EventsOnly e (e.raise s d) := by
  unfold Engine.raise
  split
  · exact raiseFuel_events _ _ _ _
  · exact EventsOnly.refl e

/-- A register below EVT reads after a source is raised as before. -/
theorem raise_reg (e : Engine) (s d : Nat) (h : e.regs.wf = true) (g : Fld) (hg : g.key < 32 * 0xE00000) : (e.raise s d).reg g = e.reg g :=
  ((raise_events e s d).2 h).2 g hg

end Sys2Proof.Machine
end

