-- ==== Sys2Proof/Laws/Memory.lean ====
section
/-! SUPPORT. Laws of the byte-addressed engine memory: every memory operation keeps the canonical form, a read after a store gives the
byte stored, every other byte keeps its value, and canonical memories with equal bytes are equal. -/

namespace Sys2Proof.Machine

theorem memWfFrom_mono {b c : Nat} : ∀ {m : List Host.Cell}, memWfFrom c m = true → b ≤ c → memWfFrom b m = true
  | [], _, _ => rfl
  | (k, v) :: t, h, hb => by
    simp only [memWfFrom, Bool.and_eq_true, decide_eq_true_eq] at h ⊢
    exact ⟨⟨by omega, h.1.2⟩, h.2⟩

theorem memGet_below {b a : Nat} : ∀ {m : List Host.Cell}, memWfFrom b m = true → a < b → memGet m a = 0
  | [], _, _ => rfl
  | (k, v) :: t, h, ha => by
    simp only [memWfFrom, Bool.and_eq_true, decide_eq_true_eq] at h
    simp [memGet, show a ≠ k by omega, show a < k by omega]

theorem memWfFrom_memSet {b a : Nat} {v : Byte} (ha : b ≤ a) :
    ∀ {m : List Host.Cell}, memWfFrom b m = true → memWfFrom b (memSet m a v) = true
  | [], _ => by by_cases hv : v = 0#8 <;> simp [memSet, memWfFrom, hv, ha]
  | (k, w) :: t, h => by
    simp only [memWfFrom, Bool.and_eq_true, decide_eq_true_eq] at h
    by_cases hk : a = k
    · by_cases hv : v = 0#8
      · simpa [memSet, hk, hv] using memWfFrom_mono h.2 (by omega)
      · simpa [memSet, hk, hv, memWfFrom] using ⟨h.1.1, h.2⟩
    · by_cases hlt : a < k
      · by_cases hv : v = 0#8
        · simpa [memSet, hk, hlt, hv, memWfFrom] using h
        · have e : memSet ((k, w) :: t) a v = (a, v) :: (k, w) :: t := by simp [memSet, hk, hlt, hv]
          simp only [e, memWfFrom, Bool.and_eq_true, decide_eq_true_eq]
          exact ⟨⟨ha, hv⟩, ⟨by omega, h.1.2⟩, h.2⟩
      · have := memWfFrom_memSet (b := k + 1) (a := a) (v := v) (by omega) h.2
        simpa [memSet, hk, hlt, memWfFrom] using ⟨h.1, this⟩

/-- Storing a byte keeps the canonical form. -/
theorem memWf_memSet {m : List Host.Cell} (h : memWf m = true) (a : Nat) (v : Byte) : memWf (memSet m a v) = true :=
  memWfFrom_memSet (Nat.zero_le a) h

/-- Storing bytes keeps the canonical form. -/
theorem memWf_memWrite : ∀ (bs : List Byte) {m : List Host.Cell} (a : Nat), memWf m = true → memWf (memWrite m a bs) = true
  | [], _, _, h => h
  | b :: bs, _, a, h => memWf_memWrite bs (a + 1) (memWf_memSet h a b)

theorem memWfFrom_filter (q : Host.Cell → Bool) : ∀ {b : Nat} {m : List Host.Cell}, memWfFrom b m = true → memWfFrom b (m.filter q) = true
  | _, [], _ => rfl
  | b, (k, v) :: t, h => by
    simp only [memWfFrom, Bool.and_eq_true, decide_eq_true_eq] at h
    have ih := memWfFrom_filter q h.2
    by_cases hq : q (k, v) = true
    · simpa [List.filter, hq, memWfFrom] using ⟨h.1, ih⟩
    · simpa [List.filter, hq] using memWfFrom_mono ih (by omega)

/-- Keeping some of the bytes keeps the canonical form (a reset keeps capture memory, R439). -/
theorem memWf_filter {m : List Host.Cell} (h : memWf m = true) (q : Host.Cell → Bool) : memWf (m.filter q) = true := memWfFrom_filter q h

/-- Clearing bytes keeps the canonical form. -/
theorem memWf_memClear {m : List Host.Cell} (h : memWf m = true) (a n : Nat) : memWf (memClear m a n) = true := memWf_filter h _

theorem memGet_memSet_same_from {a : Nat} {v : Byte} : ∀ {b : Nat} {m : List Host.Cell}, memWfFrom b m = true → memGet (memSet m a v) a = v
  | _, [], _ => by by_cases hv : v = 0#8 <;> simp [memSet, memGet, hv]
  | b, (k, w) :: t, h => by
    simp only [memWfFrom, Bool.and_eq_true, decide_eq_true_eq] at h
    by_cases hk : a = k
    · by_cases hv : v = 0#8
      · simpa [memSet, hk, hv] using memGet_below h.2 (by omega)
      · simp [memSet, memGet, hk, hv]
    · by_cases hlt : a < k
      · by_cases hv : v = 0#8 <;> simp [memSet, memGet, hk, hlt, hv]
      · simpa [memSet, memGet, hk, hlt] using memGet_memSet_same_from h.2

/-- A read after a store gives the byte stored. -/
theorem memGet_memSet_same {m : List Host.Cell} (h : memWf m = true) (a : Nat) (v : Byte) : memGet (memSet m a v) a = v :=
  memGet_memSet_same_from h

theorem memGet_memSet_ne_from {a x : Nat} {v : Byte} (hx : x ≠ a) :
    ∀ {b : Nat} {m : List Host.Cell}, memWfFrom b m = true → memGet (memSet m a v) x = memGet m x
  | _, [], _ => by by_cases hv : v = 0#8 <;> simp [memSet, memGet, hv, hx]
  | b, (k, w) :: t, h => by
    simp only [memWfFrom, Bool.and_eq_true, decide_eq_true_eq] at h
    by_cases hk : a = k
    · by_cases hv : v = 0#8
      · by_cases hy : x < k
        · simp [memSet, memGet, hk, hv, hy, show x ≠ k by omega, memGet_below h.2 (show x < k + 1 by omega)]
        · simp [memSet, memGet, hk, hv, hy, show x ≠ k by omega]
      · simp [memSet, memGet, hk, hv, show x ≠ k by omega]
    · by_cases hlt : a < k
      · by_cases hv : v = 0#8
        · simp [memSet, memGet, hk, hlt, hv]
        · by_cases hy : x < a
          · simp [memSet, memGet, hk, hlt, hv, hx, hy, show x ≠ k by omega, show x < k by omega]
          · simp [memSet, memGet, hk, hlt, hv, hx, hy]
      · have := memGet_memSet_ne_from (v := v) hx h.2
        simp [memSet, memGet, hk, hlt, this]

/-- A store leaves every other byte alone. -/
theorem memGet_memSet_ne {m : List Host.Cell} (h : memWf m = true) {a x : Nat} (hx : x ≠ a) (v : Byte) :
    memGet (memSet m a v) x = memGet m x := memGet_memSet_ne_from hx h

/-- A store of several bytes leaves every byte outside them alone. -/
theorem memGet_memWrite_outside {x : Nat} : ∀ (bs : List Byte) {m : List Host.Cell} {a : Nat}, memWf m = true →
    x < a ∨ a + bs.length ≤ x → memGet (memWrite m a bs) x = memGet m x
  | [], _, _, _, _ => rfl
  | b :: bs, m, a, h, hx => by
    rw [memWrite, memGet_memWrite_outside bs (memWf_memSet h a b) (by simp at hx; omega), memGet_memSet_ne h (by simp at hx; omega)]

/-- The bytes stored are read back. -/
theorem memGet_memWrite_inside : ∀ (bs : List Byte) {m : List Host.Cell} {a i : Nat}, memWf m = true → (hi : i < bs.length) →
    memGet (memWrite m a bs) (a + i) = bs[i]
  | b :: bs, m, a, 0, h, _ => by
    rw [memWrite, memGet_memWrite_outside bs (memWf_memSet h a b) (by omega)]
    exact memGet_memSet_same h a b
  | b :: bs, m, a, i + 1, h, hi => by
    have := memGet_memWrite_inside bs (a := a + 1) (i := i) (memWf_memSet h a b) (by simpa using hi)
    simpa [memWrite, Nat.add_assoc, Nat.add_comm 1 i] using this

theorem mem_ext_from : ∀ {b : Nat} {m n : List Host.Cell}, memWfFrom b m = true → memWfFrom b n = true →
    (∀ a, memGet m a = memGet n a) → m = n
  | _, [], [], _, _, _ => rfl
  | b, [], (k, v) :: u, _, hu, h => by
    simp only [memWfFrom, Bool.and_eq_true, decide_eq_true_eq] at hu
    have := h k
    simp only [memGet, if_true] at this
    exact absurd this.symm hu.1.2
  | b, (k, v) :: t, [], ht, _, h => by
    simp only [memWfFrom, Bool.and_eq_true, decide_eq_true_eq] at ht
    have := h k
    simp only [memGet, if_true] at this
    exact absurd this ht.1.2
  | b, (k, v) :: t, (l, w) :: u, ht, hu, h => by
    simp only [memWfFrom, Bool.and_eq_true, decide_eq_true_eq] at ht hu
    have hk := h k
    have hl := h l
    simp only [memGet] at hk hl
    have e : k = l := by
      rcases Nat.lt_trichotomy k l with c | c | c
      · simp only [if_true, show k ≠ l by omega, c, if_false] at hk
        exact absurd hk ht.1.2
      · exact c
      · simp only [if_true, show l ≠ k by omega, c, if_false] at hl
        exact absurd hl.symm hu.1.2
    subst e
    simp only [if_true] at hk
    subst hk
    have : t = u := mem_ext_from ht.2 hu.2 (fun x => by
      have hx := h x
      by_cases c : x < k + 1
      · rw [memGet_below ht.2 c, memGet_below hu.2 c]
      · simpa [memGet, show x ≠ k by omega, show ¬ x < k by omega] using hx)
    rw [this]

/-- Canonical memories with equal bytes are equal. -/
theorem mem_ext {m n : List Host.Cell} (hm : memWf m = true) (hn : memWf n = true) (h : ∀ a, memGet m a = memGet n a) : m = n :=
  mem_ext_from hm hn h

/-- Storing bytes in engine memory keeps the canonical form. -/
theorem storeBytes_memWf (e : Engine) (a : Nat) (bs : List Byte) (h : memWf e.mem.cells = true) :
    memWf (e.storeBytes a bs).mem.cells = true := by
  unfold Engine.storeBytes
  dsimp only
  split <;> exact memWf_memWrite bs a h

/-- Clearing engine memory keeps its canonical form. -/
theorem zeroBytes_memWf (e : Engine) (a n : Nat) (h : memWf e.mem.cells = true) : memWf (e.zeroBytes a n).mem.cells = true :=
  memWf_memClear h a n

end Sys2Proof.Machine
end

