-- ==== Sys2Proof/Laws/Spire.lean ====
section
/-! SUPPORT. What issuing an instruction on a Spire core does: the core goes on, transfers control, or takes an exception. -/

namespace Sys2Proof.Machine

/-- The word at the program counter of a core that is ready holds no error. -/
theorem coreCheck_clean (e : Engine) (k : Nat) (f : Fld) (h : e.spr.ecc.get f.key = 0) : coreCheck e k f = (e, false) := by
  unfold coreCheck
  simp [h]

/-- A core that is ready issues: what its instruction does, or the exception that its effect raises. -/
theorem issue_ready {k w : Nat} {control : Bool} {act : Engine → SpireCore → Issued} {s : State} (h : ReadyFor k w control s) :
    issue k w control act s.eng = match act (issuing k s) ((issuing k s).core k) with
      | .next e2 c2 => e2.putCore k c2
      | .exc cause epc eaddr => (issuing k s).except k cause epc eaddr := by
  obtain ⟨hk, hst, hw, hpc, hmem, hctl⟩ := h
  unfold issue
  rw [if_neg (by simp [hst]; omega)]
  dsimp only
  have hs : s.eng.settle k = issuing k s := rfl
  rw [hs]
  cases hsv : isService k with
  | true =>
    simp only [Bool.not_true, Bool.false_and, Bool.false_or, hpc, bne_self_eq_false, Bool.false_eq_true, if_true, if_false, hw, ne_eq,
      not_true]
    exact (if_neg (by rintro ⟨a, b⟩; exact b (hctl a))).trans rfl
  | false =>
    obtain ⟨h1, h2, h3⟩ := hmem hsv
    have h4 : ¬65536 ≤ ((issuing k s).core k).pc := by omega
    simp only [Bool.false_eq_true, if_false, coreCheck_clean _ _ _ h2, hpc, h4, decide_false, Bool.and_false, bne_self_eq_false, Bool.or_false,
      h3, hw, ne_eq, not_true]
    exact (if_neg (by rintro ⟨a, b⟩; exact b (hctl a))).trans rfl

/-- An instruction that is ready and whose effect is a next core issues. -/
theorem issue_next {k w : Nat} {control : Bool} {act : Engine → SpireCore → Issued} {s : State} {e' : Engine} {c' : SpireCore}
    (h : ReadyFor k w control s) (ha : act (issuing k s) ((issuing k s).core k) = .next e' c') :
    issue k w control act s.eng = e'.putCore k c' := by rw [issue_ready h, ha]

/-- An instruction that is ready and raises an exception by its effect takes it. -/
theorem issue_exc {k w : Nat} {control : Bool} {act : Engine → SpireCore → Issued} {s : State} {cause epc eaddr : Nat}
    (h : ReadyFor k w control s) (ha : act (issuing k s) ((issuing k s).core k) = .exc cause epc eaddr) :
    issue k w control act s.eng = (issuing k s).except k cause epc eaddr := by rw [issue_ready h, ha]

/-- The same, as a next state. -/
theorem issues_next {k w : Nat} {control : Bool} {act : Engine → SpireCore → Issued} {s : State} {e' : Engine} {c' : SpireCore}
    {q : SpireCore → SpireCore → Prop} (h : ReadyFor k w control s)
    (ha : act (issuing k s) ((issuing k s).core k) = .next e' c') (hq : q ((issuing k s).core k) c') :
    IssuesIn e' k s (.next { s with eng := issue k w control act s.eng }) q :=
  ⟨c', congrArg (fun x => Host.Outcome.next { s with eng := x }) (issue_next h ha), hq⟩

theorem advance_stepped (c : SpireCore) : c.stepped c.advance := by
  unfold SpireCore.stepped SpireCore.advance
  refine ⟨?_, fun h => ?_, fun h => ?_, fun h => ?_⟩
  · split <;> [rfl; split <;> rfl]
  · simp [h]
  · simp [h]
  · simp [h]

/-- An instruction that does nothing else passes. -/
theorem advance_passed (c : SpireCore) : c.passed c.advance := by
  refine ⟨advance_stepped c, ?_⟩
  unfold SpireCore.advance
  split <;> [rfl; split <;> rfl]

/-- A result on its way does not disturb the sequence. -/
theorem result_gives (c : SpireCore) (rd : BitVec 5) (v d : Nat) (hv : v < 2 ^ 32) : c.gives rd v d (c.result rd.toNat v d).advance := by
  refine ⟨?_, ?_⟩
  · have h := advance_stepped (c.result rd.toNat v d)
    exact h
  · have hr : (rd.toNat = 0) = (rd = 0) := by
      apply propext; exact ⟨fun h => BitVec.eq_of_toNat_eq h, fun h => by rw [h]; rfl⟩
    unfold SpireCore.advance SpireCore.result
    simp only [Nat.mod_eq_of_lt hv, hr]
    split <;> [rfl; split <;> rfl]

/-- A transfer of control has two delay slots. -/
theorem jump_transfers (c : SpireCore) (h : c.slot = 0) (tgt : Option Nat) : c.transfers (tgt.map (· % 2 ^ 32)) (c.jump tgt) := by
  unfold SpireCore.transfers SpireCore.jump SpireCore.advance
  simp [h]

theorem records_eq (c : SpireCore) (cause x y : Nat) :
    (if (if c.slotTgt.isSome = true then c.slot else 0) = 0 then (c.setCw 4 x).setCw 6 y
      else ((c.setCw 4 x).setCw 6 y).setCw 7 (c.slotTgt.getD 0)).setCw 5 (cause + 16 * (if c.slotTgt.isSome = true then c.slot else 0))
    = c.records cause x y := by
  unfold SpireCore.records SpireCore.dslot
  generalize (if c.slotTgt.isSome = true then c.slot else 0) = d
  by_cases hd : d = 0 <;> simp only [hd, if_true, if_false] <;> rfl

theorem records_cwv8 (c : SpireCore) (x y : Nat) (h : c.cw.wf = true) :
    (if (if c.slotTgt.isSome = true then c.slot else 0) = 0 then (c.setCw 4 x).setCw 6 y
      else ((c.setCw 4 x).setCw 6 y).setCw 7 (c.slotTgt.getD 0)).cwv 8 = c.cwv 8 := by
  have key : ∀ (c : SpireCore) (n v : Nat), c.cw.wf = true → n ≠ 8 → (c.setCw n v).cwv 8 = c.cwv 8 := fun c n v h hn =>
    Tab.fld_put_ne h (fun he => hn he.symm) v
  have wf : ∀ (c : SpireCore) (n v : Nat), c.cw.wf = true → (c.setCw n v).cw.wf = true := fun c n v h => Tab.wf_put h _ _
  generalize (if c.slotTgt.isSome = true then c.slot else 0) = d
  by_cases hd : d = 0 <;> simp only [hd, if_true, if_false]
  · rw [key _ _ _ (wf _ _ _ h) (by decide), key _ _ _ h (by decide)]
  · rw [key _ _ _ (wf _ _ _ (wf _ _ _ h)) (by decide), key _ _ _ (wf _ _ _ h) (by decide), key _ _ _ h (by decide)]

/-- An exception is taken, or is a double fault. -/
theorem except_traps {k cause : Nat} {epc eaddr : SpireCore → Nat} {s : State} {e' : Engine}
    (h : e' = (issuing k s).except k cause (epc ((issuing k s).core k)) (eaddr ((issuing k s).core k))) :
    Traps k s (.next { s with eng := e' }) cause epc eaddr := by
  subst h
  unfold Traps
  dsimp only
  generalize hx : epc ((issuing k s).core k) = x
  generalize hy : eaddr ((issuing k s).core k) = y
  refine ⟨fun hx hw => ?_, fun hx => ⟨_, rfl, ?_⟩⟩
  · simp only [Engine.except, hx, Bool.false_eq_true, if_false, records_eq, records_cwv8 _ x y hw]
    exact ⟨_, rfl, rfl⟩
  · simp only [Engine.except, hx, if_true, records_eq]
    unfold SpireCore.doubleFault
    cases isService k <;> rfl

end Sys2Proof.Machine
end

