-- ==== Sys2Proof/Laws/State.lean ====
section
/-! SUPPORT. One lemma per field and named update: what each update of the engine leaves as it is, and what it writes. -/

namespace Sys2Proof.Machine

/-! ### setReg -/

@[simp] theorem setReg_active (e : Engine) (f : Fld) (v : Nat) : (e.setReg f v).active = e.active := rfl
@[simp] theorem setReg_staged (e : Engine) (f : Fld) (v : Nat) : (e.setReg f v).staged = e.staged := rfl
@[simp] theorem setReg_r9 (e : Engine) (f : Fld) (v : Nat) : (e.setReg f v).r9 = e.r9 := rfl
@[simp] theorem setReg_free (e : Engine) (f : Fld) (v : Nat) : (e.setReg f v).free = e.free := rfl
@[simp] theorem setReg_host (e : Engine) (f : Fld) (v : Nat) : (e.setReg f v).host = e.host := rfl
@[simp] theorem setReg_tim (e : Engine) (f : Fld) (v : Nat) : (e.setReg f v).tim = e.tim := rfl
@[simp] theorem setReg_lnk (e : Engine) (f : Fld) (v : Nat) : (e.setReg f v).lnk = e.lnk := rfl
@[simp] theorem setReg_map (e : Engine) (f : Fld) (v : Nat) : (e.setReg f v).map = e.map := rfl
@[simp] theorem setReg_dom (e : Engine) (f : Fld) (v : Nat) : (e.setReg f v).dom = e.dom := rfl
@[simp] theorem setReg_keep (e : Engine) (f : Fld) (v : Nat) : (e.setReg f v).keep = e.keep := rfl
@[simp] theorem setReg_out (e : Engine) (f : Fld) (v : Nat) : (e.setReg f v).out = e.out := rfl
@[simp] theorem setReg_fin (e : Engine) (f : Fld) (v : Nat) : (e.setReg f v).fin = e.fin := rfl
@[simp] theorem setReg_bel (e : Engine) (f : Fld) (v : Nat) : (e.setReg f v).bel = e.bel := rfl
@[simp] theorem setReg_mem (e : Engine) (f : Fld) (v : Nat) : (e.setReg f v).mem = e.mem := rfl
@[simp] theorem setReg_frames (e : Engine) (f : Fld) (v : Nat) : (e.setReg f v).frames = e.frames := rfl
@[simp] theorem setReg_spr (e : Engine) (f : Fld) (v : Nat) : (e.setReg f v).spr = e.spr := rfl
@[simp] theorem setReg_mov (e : Engine) (f : Fld) (v : Nat) : (e.setReg f v).mov = e.mov := rfl
@[simp] theorem setReg_evt (e : Engine) (f : Fld) (v : Nat) : (e.setReg f v).evt = e.evt := rfl
@[simp] theorem setReg_cnt (e : Engine) (f : Fld) (v : Nat) : (e.setReg f v).cnt = e.cnt := rfl
@[simp] theorem setReg_pwr (e : Engine) (f : Fld) (v : Nat) : (e.setReg f v).pwr = e.pwr := rfl
@[simp] theorem setReg_sec (e : Engine) (f : Fld) (v : Nat) : (e.setReg f v).sec = e.sec := rfl
@[simp] theorem setReg_tdm (e : Engine) (f : Fld) (v : Nat) : (e.setReg f v).tdm = e.tdm := rfl
@[simp] theorem setReg_act (e : Engine) (f : Fld) (v : Nat) (x : Fld) : (e.setReg f v).act x = e.act x := rfl
@[simp] theorem setReg_stg (e : Engine) (f : Fld) (v : Nat) (x : Fld) : (e.setReg f v).stg x = e.stg x := rfl

/-! ### bumpBy -/

@[simp] theorem bumpBy_active (e : Engine) (f : Fld) (n : Nat) : (e.bumpBy f n).active = e.active := rfl
@[simp] theorem bumpBy_staged (e : Engine) (f : Fld) (n : Nat) : (e.bumpBy f n).staged = e.staged := rfl
@[simp] theorem bumpBy_r9 (e : Engine) (f : Fld) (n : Nat) : (e.bumpBy f n).r9 = e.r9 := rfl
@[simp] theorem bumpBy_free (e : Engine) (f : Fld) (n : Nat) : (e.bumpBy f n).free = e.free := rfl
@[simp] theorem bumpBy_host (e : Engine) (f : Fld) (n : Nat) : (e.bumpBy f n).host = e.host := rfl
@[simp] theorem bumpBy_tim (e : Engine) (f : Fld) (n : Nat) : (e.bumpBy f n).tim = e.tim := rfl
@[simp] theorem bumpBy_lnk (e : Engine) (f : Fld) (n : Nat) : (e.bumpBy f n).lnk = e.lnk := rfl
@[simp] theorem bumpBy_map (e : Engine) (f : Fld) (n : Nat) : (e.bumpBy f n).map = e.map := rfl
@[simp] theorem bumpBy_dom (e : Engine) (f : Fld) (n : Nat) : (e.bumpBy f n).dom = e.dom := rfl
@[simp] theorem bumpBy_keep (e : Engine) (f : Fld) (n : Nat) : (e.bumpBy f n).keep = e.keep := rfl
@[simp] theorem bumpBy_out (e : Engine) (f : Fld) (n : Nat) : (e.bumpBy f n).out = e.out := rfl
@[simp] theorem bumpBy_fin (e : Engine) (f : Fld) (n : Nat) : (e.bumpBy f n).fin = e.fin := rfl
@[simp] theorem bumpBy_bel (e : Engine) (f : Fld) (n : Nat) : (e.bumpBy f n).bel = e.bel := rfl
@[simp] theorem bumpBy_mem (e : Engine) (f : Fld) (n : Nat) : (e.bumpBy f n).mem = e.mem := rfl
@[simp] theorem bumpBy_frames (e : Engine) (f : Fld) (n : Nat) : (e.bumpBy f n).frames = e.frames := rfl
@[simp] theorem bumpBy_spr (e : Engine) (f : Fld) (n : Nat) : (e.bumpBy f n).spr = e.spr := rfl
@[simp] theorem bumpBy_mov (e : Engine) (f : Fld) (n : Nat) : (e.bumpBy f n).mov = e.mov := rfl
@[simp] theorem bumpBy_evt (e : Engine) (f : Fld) (n : Nat) : (e.bumpBy f n).evt = e.evt := rfl
@[simp] theorem bumpBy_cnt (e : Engine) (f : Fld) (n : Nat) : (e.bumpBy f n).cnt = e.cnt := rfl
@[simp] theorem bumpBy_pwr (e : Engine) (f : Fld) (n : Nat) : (e.bumpBy f n).pwr = e.pwr := rfl
@[simp] theorem bumpBy_sec (e : Engine) (f : Fld) (n : Nat) : (e.bumpBy f n).sec = e.sec := rfl
@[simp] theorem bumpBy_tdm (e : Engine) (f : Fld) (n : Nat) : (e.bumpBy f n).tdm = e.tdm := rfl
@[simp] theorem bumpBy_act (e : Engine) (f : Fld) (n : Nat) (x : Fld) : (e.bumpBy f n).act x = e.act x := rfl
@[simp] theorem bumpBy_stg (e : Engine) (f : Fld) (n : Nat) (x : Fld) : (e.bumpBy f n).stg x = e.stg x := rfl

/-! ### bump -/

@[simp] theorem bump_active (e : Engine) (f : Fld) : (e.bump f).active = e.active := rfl
@[simp] theorem bump_staged (e : Engine) (f : Fld) : (e.bump f).staged = e.staged := rfl
@[simp] theorem bump_r9 (e : Engine) (f : Fld) : (e.bump f).r9 = e.r9 := rfl
@[simp] theorem bump_free (e : Engine) (f : Fld) : (e.bump f).free = e.free := rfl
@[simp] theorem bump_host (e : Engine) (f : Fld) : (e.bump f).host = e.host := rfl
@[simp] theorem bump_tim (e : Engine) (f : Fld) : (e.bump f).tim = e.tim := rfl
@[simp] theorem bump_lnk (e : Engine) (f : Fld) : (e.bump f).lnk = e.lnk := rfl
@[simp] theorem bump_map (e : Engine) (f : Fld) : (e.bump f).map = e.map := rfl
@[simp] theorem bump_dom (e : Engine) (f : Fld) : (e.bump f).dom = e.dom := rfl
@[simp] theorem bump_keep (e : Engine) (f : Fld) : (e.bump f).keep = e.keep := rfl
@[simp] theorem bump_out (e : Engine) (f : Fld) : (e.bump f).out = e.out := rfl
@[simp] theorem bump_fin (e : Engine) (f : Fld) : (e.bump f).fin = e.fin := rfl
@[simp] theorem bump_bel (e : Engine) (f : Fld) : (e.bump f).bel = e.bel := rfl
@[simp] theorem bump_mem (e : Engine) (f : Fld) : (e.bump f).mem = e.mem := rfl
@[simp] theorem bump_frames (e : Engine) (f : Fld) : (e.bump f).frames = e.frames := rfl
@[simp] theorem bump_spr (e : Engine) (f : Fld) : (e.bump f).spr = e.spr := rfl
@[simp] theorem bump_mov (e : Engine) (f : Fld) : (e.bump f).mov = e.mov := rfl
@[simp] theorem bump_evt (e : Engine) (f : Fld) : (e.bump f).evt = e.evt := rfl
@[simp] theorem bump_cnt (e : Engine) (f : Fld) : (e.bump f).cnt = e.cnt := rfl
@[simp] theorem bump_pwr (e : Engine) (f : Fld) : (e.bump f).pwr = e.pwr := rfl
@[simp] theorem bump_sec (e : Engine) (f : Fld) : (e.bump f).sec = e.sec := rfl
@[simp] theorem bump_tdm (e : Engine) (f : Fld) : (e.bump f).tdm = e.tdm := rfl
@[simp] theorem bump_act (e : Engine) (f : Fld) (x : Fld) : (e.bump f).act x = e.act x := rfl
@[simp] theorem bump_stg (e : Engine) (f : Fld) (x : Fld) : (e.bump f).stg x = e.stg x := rfl

/-! ### raiseBit -/

@[simp] theorem raiseBit_active (e : Engine) (f : Fld) : (e.raiseBit f).active = e.active := rfl
@[simp] theorem raiseBit_staged (e : Engine) (f : Fld) : (e.raiseBit f).staged = e.staged := rfl
@[simp] theorem raiseBit_r9 (e : Engine) (f : Fld) : (e.raiseBit f).r9 = e.r9 := rfl
@[simp] theorem raiseBit_free (e : Engine) (f : Fld) : (e.raiseBit f).free = e.free := rfl
@[simp] theorem raiseBit_host (e : Engine) (f : Fld) : (e.raiseBit f).host = e.host := rfl
@[simp] theorem raiseBit_tim (e : Engine) (f : Fld) : (e.raiseBit f).tim = e.tim := rfl
@[simp] theorem raiseBit_lnk (e : Engine) (f : Fld) : (e.raiseBit f).lnk = e.lnk := rfl
@[simp] theorem raiseBit_map (e : Engine) (f : Fld) : (e.raiseBit f).map = e.map := rfl
@[simp] theorem raiseBit_dom (e : Engine) (f : Fld) : (e.raiseBit f).dom = e.dom := rfl
@[simp] theorem raiseBit_keep (e : Engine) (f : Fld) : (e.raiseBit f).keep = e.keep := rfl
@[simp] theorem raiseBit_out (e : Engine) (f : Fld) : (e.raiseBit f).out = e.out := rfl
@[simp] theorem raiseBit_fin (e : Engine) (f : Fld) : (e.raiseBit f).fin = e.fin := rfl
@[simp] theorem raiseBit_bel (e : Engine) (f : Fld) : (e.raiseBit f).bel = e.bel := rfl
@[simp] theorem raiseBit_mem (e : Engine) (f : Fld) : (e.raiseBit f).mem = e.mem := rfl
@[simp] theorem raiseBit_frames (e : Engine) (f : Fld) : (e.raiseBit f).frames = e.frames := rfl
@[simp] theorem raiseBit_spr (e : Engine) (f : Fld) : (e.raiseBit f).spr = e.spr := rfl
@[simp] theorem raiseBit_mov (e : Engine) (f : Fld) : (e.raiseBit f).mov = e.mov := rfl
@[simp] theorem raiseBit_evt (e : Engine) (f : Fld) : (e.raiseBit f).evt = e.evt := rfl
@[simp] theorem raiseBit_cnt (e : Engine) (f : Fld) : (e.raiseBit f).cnt = e.cnt := rfl
@[simp] theorem raiseBit_pwr (e : Engine) (f : Fld) : (e.raiseBit f).pwr = e.pwr := rfl
@[simp] theorem raiseBit_sec (e : Engine) (f : Fld) : (e.raiseBit f).sec = e.sec := rfl
@[simp] theorem raiseBit_tdm (e : Engine) (f : Fld) : (e.raiseBit f).tdm = e.tdm := rfl
@[simp] theorem raiseBit_act (e : Engine) (f : Fld) (x : Fld) : (e.raiseBit f).act x = e.act x := rfl
@[simp] theorem raiseBit_stg (e : Engine) (f : Fld) (x : Fld) : (e.raiseBit f).stg x = e.stg x := rfl

/-! ### post -/

@[simp] theorem post_active (e : Engine) (a : Nat) (bs : List Byte) : (e.post a bs).active = e.active := by unfold Engine.post Engine.postAs; dsimp only; split <;> rfl
@[simp] theorem post_staged (e : Engine) (a : Nat) (bs : List Byte) : (e.post a bs).staged = e.staged := by unfold Engine.post Engine.postAs; dsimp only; split <;> rfl
@[simp] theorem post_regs (e : Engine) (a : Nat) (bs : List Byte) : (e.post a bs).regs = e.regs := by unfold Engine.post Engine.postAs; dsimp only; split <;> rfl
@[simp] theorem post_r9 (e : Engine) (a : Nat) (bs : List Byte) : (e.post a bs).r9 = e.r9 := by unfold Engine.post Engine.postAs; dsimp only; split <;> rfl
@[simp] theorem post_free (e : Engine) (a : Nat) (bs : List Byte) : (e.post a bs).free = e.free := by unfold Engine.post Engine.postAs; dsimp only; split <;> rfl
@[simp] theorem post_tim (e : Engine) (a : Nat) (bs : List Byte) : (e.post a bs).tim = e.tim := by unfold Engine.post Engine.postAs; dsimp only; split <;> rfl
@[simp] theorem post_lnk (e : Engine) (a : Nat) (bs : List Byte) : (e.post a bs).lnk = e.lnk := by unfold Engine.post Engine.postAs; dsimp only; split <;> rfl
@[simp] theorem post_map (e : Engine) (a : Nat) (bs : List Byte) : (e.post a bs).map = e.map := by unfold Engine.post Engine.postAs; dsimp only; split <;> rfl
@[simp] theorem post_dom (e : Engine) (a : Nat) (bs : List Byte) : (e.post a bs).dom = e.dom := by unfold Engine.post Engine.postAs; dsimp only; split <;> rfl
@[simp] theorem post_keep (e : Engine) (a : Nat) (bs : List Byte) : (e.post a bs).keep = e.keep := by unfold Engine.post Engine.postAs; dsimp only; split <;> rfl
@[simp] theorem post_out (e : Engine) (a : Nat) (bs : List Byte) : (e.post a bs).out = e.out := by unfold Engine.post Engine.postAs; dsimp only; split <;> rfl
@[simp] theorem post_fin (e : Engine) (a : Nat) (bs : List Byte) : (e.post a bs).fin = e.fin := by unfold Engine.post Engine.postAs; dsimp only; split <;> rfl
@[simp] theorem post_bel (e : Engine) (a : Nat) (bs : List Byte) : (e.post a bs).bel = e.bel := by unfold Engine.post Engine.postAs; dsimp only; split <;> rfl
@[simp] theorem post_mem (e : Engine) (a : Nat) (bs : List Byte) : (e.post a bs).mem = e.mem := by unfold Engine.post Engine.postAs; dsimp only; split <;> rfl
@[simp] theorem post_frames (e : Engine) (a : Nat) (bs : List Byte) : (e.post a bs).frames = e.frames := by unfold Engine.post Engine.postAs; dsimp only; split <;> rfl
@[simp] theorem post_spr (e : Engine) (a : Nat) (bs : List Byte) : (e.post a bs).spr = e.spr := by unfold Engine.post Engine.postAs; dsimp only; split <;> rfl
@[simp] theorem post_mov (e : Engine) (a : Nat) (bs : List Byte) : (e.post a bs).mov = e.mov := by unfold Engine.post Engine.postAs; dsimp only; split <;> rfl
@[simp] theorem post_evt (e : Engine) (a : Nat) (bs : List Byte) : (e.post a bs).evt = e.evt := by unfold Engine.post Engine.postAs; dsimp only; split <;> rfl
@[simp] theorem post_cnt (e : Engine) (a : Nat) (bs : List Byte) : (e.post a bs).cnt = e.cnt := by unfold Engine.post Engine.postAs; dsimp only; split <;> rfl
@[simp] theorem post_pwr (e : Engine) (a : Nat) (bs : List Byte) : (e.post a bs).pwr = e.pwr := by unfold Engine.post Engine.postAs; dsimp only; split <;> rfl
@[simp] theorem post_sec (e : Engine) (a : Nat) (bs : List Byte) : (e.post a bs).sec = e.sec := by unfold Engine.post Engine.postAs; dsimp only; split <;> rfl
@[simp] theorem post_tdm (e : Engine) (a : Nat) (bs : List Byte) : (e.post a bs).tdm = e.tdm := by unfold Engine.post Engine.postAs; dsimp only; split <;> rfl
@[simp] theorem post_reg (e : Engine) (a : Nat) (bs : List Byte) (y : Fld) : (e.post a bs).reg y = e.reg y := by unfold Engine.post Engine.postAs; dsimp only; split <;> rfl

/-! ### putRing -/

@[simp] theorem putRing_active (e : Engine) (r : Ring) : (e.putRing r).active = e.active := rfl
@[simp] theorem putRing_staged (e : Engine) (r : Ring) : (e.putRing r).staged = e.staged := rfl
@[simp] theorem putRing_regs (e : Engine) (r : Ring) : (e.putRing r).regs = e.regs := rfl
@[simp] theorem putRing_r9 (e : Engine) (r : Ring) : (e.putRing r).r9 = e.r9 := rfl
@[simp] theorem putRing_free (e : Engine) (r : Ring) : (e.putRing r).free = e.free := rfl
@[simp] theorem putRing_tim (e : Engine) (r : Ring) : (e.putRing r).tim = e.tim := rfl
@[simp] theorem putRing_lnk (e : Engine) (r : Ring) : (e.putRing r).lnk = e.lnk := rfl
@[simp] theorem putRing_map (e : Engine) (r : Ring) : (e.putRing r).map = e.map := rfl
@[simp] theorem putRing_dom (e : Engine) (r : Ring) : (e.putRing r).dom = e.dom := rfl
@[simp] theorem putRing_keep (e : Engine) (r : Ring) : (e.putRing r).keep = e.keep := rfl
@[simp] theorem putRing_out (e : Engine) (r : Ring) : (e.putRing r).out = e.out := rfl
@[simp] theorem putRing_fin (e : Engine) (r : Ring) : (e.putRing r).fin = e.fin := rfl
@[simp] theorem putRing_bel (e : Engine) (r : Ring) : (e.putRing r).bel = e.bel := rfl
@[simp] theorem putRing_mem (e : Engine) (r : Ring) : (e.putRing r).mem = e.mem := rfl
@[simp] theorem putRing_frames (e : Engine) (r : Ring) : (e.putRing r).frames = e.frames := rfl
@[simp] theorem putRing_spr (e : Engine) (r : Ring) : (e.putRing r).spr = e.spr := rfl
@[simp] theorem putRing_mov (e : Engine) (r : Ring) : (e.putRing r).mov = e.mov := rfl
@[simp] theorem putRing_evt (e : Engine) (r : Ring) : (e.putRing r).evt = e.evt := rfl
@[simp] theorem putRing_cnt (e : Engine) (r : Ring) : (e.putRing r).cnt = e.cnt := rfl
@[simp] theorem putRing_pwr (e : Engine) (r : Ring) : (e.putRing r).pwr = e.pwr := rfl
@[simp] theorem putRing_sec (e : Engine) (r : Ring) : (e.putRing r).sec = e.sec := rfl
@[simp] theorem putRing_tdm (e : Engine) (r : Ring) : (e.putRing r).tdm = e.tdm := rfl
@[simp] theorem putRing_reg (e : Engine) (r : Ring) (y : Fld) : (e.putRing r).reg y = e.reg y := rfl

/-! ### takeLock -/

@[simp] theorem takeLock_active (e : Engine) (blk c : Nat) : (e.takeLock blk c).active = e.active := by unfold Engine.takeLock; split <;> rfl
@[simp] theorem takeLock_staged (e : Engine) (blk c : Nat) : (e.takeLock blk c).staged = e.staged := by unfold Engine.takeLock; split <;> rfl
@[simp] theorem takeLock_regs (e : Engine) (blk c : Nat) : (e.takeLock blk c).regs = e.regs := by unfold Engine.takeLock; split <;> rfl
@[simp] theorem takeLock_r9 (e : Engine) (blk c : Nat) : (e.takeLock blk c).r9 = e.r9 := by unfold Engine.takeLock; split <;> rfl
@[simp] theorem takeLock_free (e : Engine) (blk c : Nat) : (e.takeLock blk c).free = e.free := by unfold Engine.takeLock; split <;> rfl
@[simp] theorem takeLock_tim (e : Engine) (blk c : Nat) : (e.takeLock blk c).tim = e.tim := by unfold Engine.takeLock; split <;> rfl
@[simp] theorem takeLock_lnk (e : Engine) (blk c : Nat) : (e.takeLock blk c).lnk = e.lnk := by unfold Engine.takeLock; split <;> rfl
@[simp] theorem takeLock_map (e : Engine) (blk c : Nat) : (e.takeLock blk c).map = e.map := by unfold Engine.takeLock; split <;> rfl
@[simp] theorem takeLock_dom (e : Engine) (blk c : Nat) : (e.takeLock blk c).dom = e.dom := by unfold Engine.takeLock; split <;> rfl
@[simp] theorem takeLock_keep (e : Engine) (blk c : Nat) : (e.takeLock blk c).keep = e.keep := by unfold Engine.takeLock; split <;> rfl
@[simp] theorem takeLock_out (e : Engine) (blk c : Nat) : (e.takeLock blk c).out = e.out := by unfold Engine.takeLock; split <;> rfl
@[simp] theorem takeLock_fin (e : Engine) (blk c : Nat) : (e.takeLock blk c).fin = e.fin := by unfold Engine.takeLock; split <;> rfl
@[simp] theorem takeLock_bel (e : Engine) (blk c : Nat) : (e.takeLock blk c).bel = e.bel := by unfold Engine.takeLock; split <;> rfl
@[simp] theorem takeLock_mem (e : Engine) (blk c : Nat) : (e.takeLock blk c).mem = e.mem := by unfold Engine.takeLock; split <;> rfl
@[simp] theorem takeLock_frames (e : Engine) (blk c : Nat) : (e.takeLock blk c).frames = e.frames := by unfold Engine.takeLock; split <;> rfl
@[simp] theorem takeLock_spr (e : Engine) (blk c : Nat) : (e.takeLock blk c).spr = e.spr := by unfold Engine.takeLock; split <;> rfl
@[simp] theorem takeLock_mov (e : Engine) (blk c : Nat) : (e.takeLock blk c).mov = e.mov := by unfold Engine.takeLock; split <;> rfl
@[simp] theorem takeLock_evt (e : Engine) (blk c : Nat) : (e.takeLock blk c).evt = e.evt := by unfold Engine.takeLock; split <;> rfl
@[simp] theorem takeLock_cnt (e : Engine) (blk c : Nat) : (e.takeLock blk c).cnt = e.cnt := by unfold Engine.takeLock; split <;> rfl
@[simp] theorem takeLock_pwr (e : Engine) (blk c : Nat) : (e.takeLock blk c).pwr = e.pwr := by unfold Engine.takeLock; split <;> rfl
@[simp] theorem takeLock_sec (e : Engine) (blk c : Nat) : (e.takeLock blk c).sec = e.sec := by unfold Engine.takeLock; split <;> rfl
@[simp] theorem takeLock_tdm (e : Engine) (blk c : Nat) : (e.takeLock blk c).tdm = e.tdm := by unfold Engine.takeLock; split <;> rfl
@[simp] theorem takeLock_reg (e : Engine) (blk c : Nat) (y : Fld) : (e.takeLock blk c).reg y = e.reg y := by unfold Engine.takeLock; split <;> rfl

/-! ### dropLock -/

@[simp] theorem dropLock_active (e : Engine) (blk : Nat) : (e.dropLock blk).active = e.active := rfl
@[simp] theorem dropLock_staged (e : Engine) (blk : Nat) : (e.dropLock blk).staged = e.staged := rfl
@[simp] theorem dropLock_regs (e : Engine) (blk : Nat) : (e.dropLock blk).regs = e.regs := rfl
@[simp] theorem dropLock_r9 (e : Engine) (blk : Nat) : (e.dropLock blk).r9 = e.r9 := rfl
@[simp] theorem dropLock_free (e : Engine) (blk : Nat) : (e.dropLock blk).free = e.free := rfl
@[simp] theorem dropLock_tim (e : Engine) (blk : Nat) : (e.dropLock blk).tim = e.tim := rfl
@[simp] theorem dropLock_lnk (e : Engine) (blk : Nat) : (e.dropLock blk).lnk = e.lnk := rfl
@[simp] theorem dropLock_map (e : Engine) (blk : Nat) : (e.dropLock blk).map = e.map := rfl
@[simp] theorem dropLock_dom (e : Engine) (blk : Nat) : (e.dropLock blk).dom = e.dom := rfl
@[simp] theorem dropLock_keep (e : Engine) (blk : Nat) : (e.dropLock blk).keep = e.keep := rfl
@[simp] theorem dropLock_out (e : Engine) (blk : Nat) : (e.dropLock blk).out = e.out := rfl
@[simp] theorem dropLock_fin (e : Engine) (blk : Nat) : (e.dropLock blk).fin = e.fin := rfl
@[simp] theorem dropLock_bel (e : Engine) (blk : Nat) : (e.dropLock blk).bel = e.bel := rfl
@[simp] theorem dropLock_mem (e : Engine) (blk : Nat) : (e.dropLock blk).mem = e.mem := rfl
@[simp] theorem dropLock_frames (e : Engine) (blk : Nat) : (e.dropLock blk).frames = e.frames := rfl
@[simp] theorem dropLock_spr (e : Engine) (blk : Nat) : (e.dropLock blk).spr = e.spr := rfl
@[simp] theorem dropLock_mov (e : Engine) (blk : Nat) : (e.dropLock blk).mov = e.mov := rfl
@[simp] theorem dropLock_evt (e : Engine) (blk : Nat) : (e.dropLock blk).evt = e.evt := rfl
@[simp] theorem dropLock_cnt (e : Engine) (blk : Nat) : (e.dropLock blk).cnt = e.cnt := rfl
@[simp] theorem dropLock_pwr (e : Engine) (blk : Nat) : (e.dropLock blk).pwr = e.pwr := rfl
@[simp] theorem dropLock_sec (e : Engine) (blk : Nat) : (e.dropLock blk).sec = e.sec := rfl
@[simp] theorem dropLock_tdm (e : Engine) (blk : Nat) : (e.dropLock blk).tdm = e.tdm := rfl
@[simp] theorem dropLock_reg (e : Engine) (blk : Nat) (y : Fld) : (e.dropLock blk).reg y = e.reg y := rfl

/-! ### dropOn -/

@[simp] theorem dropOn_active (e : Engine) (r : Ring) : (e.dropOn r).active = e.active := rfl
@[simp] theorem dropOn_staged (e : Engine) (r : Ring) : (e.dropOn r).staged = e.staged := rfl
@[simp] theorem dropOn_regs (e : Engine) (r : Ring) : (e.dropOn r).regs = e.regs := rfl
@[simp] theorem dropOn_r9 (e : Engine) (r : Ring) : (e.dropOn r).r9 = e.r9 := rfl
@[simp] theorem dropOn_free (e : Engine) (r : Ring) : (e.dropOn r).free = e.free := rfl
@[simp] theorem dropOn_tim (e : Engine) (r : Ring) : (e.dropOn r).tim = e.tim := rfl
@[simp] theorem dropOn_lnk (e : Engine) (r : Ring) : (e.dropOn r).lnk = e.lnk := rfl
@[simp] theorem dropOn_map (e : Engine) (r : Ring) : (e.dropOn r).map = e.map := rfl
@[simp] theorem dropOn_dom (e : Engine) (r : Ring) : (e.dropOn r).dom = e.dom := rfl
@[simp] theorem dropOn_keep (e : Engine) (r : Ring) : (e.dropOn r).keep = e.keep := rfl
@[simp] theorem dropOn_out (e : Engine) (r : Ring) : (e.dropOn r).out = e.out := rfl
@[simp] theorem dropOn_fin (e : Engine) (r : Ring) : (e.dropOn r).fin = e.fin := rfl
@[simp] theorem dropOn_bel (e : Engine) (r : Ring) : (e.dropOn r).bel = e.bel := rfl
@[simp] theorem dropOn_mem (e : Engine) (r : Ring) : (e.dropOn r).mem = e.mem := rfl
@[simp] theorem dropOn_frames (e : Engine) (r : Ring) : (e.dropOn r).frames = e.frames := rfl
@[simp] theorem dropOn_spr (e : Engine) (r : Ring) : (e.dropOn r).spr = e.spr := rfl
@[simp] theorem dropOn_mov (e : Engine) (r : Ring) : (e.dropOn r).mov = e.mov := rfl
@[simp] theorem dropOn_evt (e : Engine) (r : Ring) : (e.dropOn r).evt = e.evt := rfl
@[simp] theorem dropOn_cnt (e : Engine) (r : Ring) : (e.dropOn r).cnt = e.cnt := rfl
@[simp] theorem dropOn_pwr (e : Engine) (r : Ring) : (e.dropOn r).pwr = e.pwr := rfl
@[simp] theorem dropOn_sec (e : Engine) (r : Ring) : (e.dropOn r).sec = e.sec := rfl
@[simp] theorem dropOn_tdm (e : Engine) (r : Ring) : (e.dropOn r).tdm = e.tdm := rfl
@[simp] theorem dropOn_reg (e : Engine) (r : Ring) (y : Fld) : (e.dropOn r).reg y = e.reg y := rfl

/-! ### later -/

@[simp] theorem later_active (e : Engine) (g : Fld) (v : Nat) : (e.later g v).active = e.active := rfl
@[simp] theorem later_staged (e : Engine) (g : Fld) (v : Nat) : (e.later g v).staged = e.staged := rfl
@[simp] theorem later_regs (e : Engine) (g : Fld) (v : Nat) : (e.later g v).regs = e.regs := rfl
@[simp] theorem later_free (e : Engine) (g : Fld) (v : Nat) : (e.later g v).free = e.free := rfl
@[simp] theorem later_host (e : Engine) (g : Fld) (v : Nat) : (e.later g v).host = e.host := rfl
@[simp] theorem later_tim (e : Engine) (g : Fld) (v : Nat) : (e.later g v).tim = e.tim := rfl
@[simp] theorem later_lnk (e : Engine) (g : Fld) (v : Nat) : (e.later g v).lnk = e.lnk := rfl
@[simp] theorem later_map (e : Engine) (g : Fld) (v : Nat) : (e.later g v).map = e.map := rfl
@[simp] theorem later_dom (e : Engine) (g : Fld) (v : Nat) : (e.later g v).dom = e.dom := rfl
@[simp] theorem later_keep (e : Engine) (g : Fld) (v : Nat) : (e.later g v).keep = e.keep := rfl
@[simp] theorem later_out (e : Engine) (g : Fld) (v : Nat) : (e.later g v).out = e.out := rfl
@[simp] theorem later_fin (e : Engine) (g : Fld) (v : Nat) : (e.later g v).fin = e.fin := rfl
@[simp] theorem later_bel (e : Engine) (g : Fld) (v : Nat) : (e.later g v).bel = e.bel := rfl
@[simp] theorem later_mem (e : Engine) (g : Fld) (v : Nat) : (e.later g v).mem = e.mem := rfl
@[simp] theorem later_frames (e : Engine) (g : Fld) (v : Nat) : (e.later g v).frames = e.frames := rfl
@[simp] theorem later_spr (e : Engine) (g : Fld) (v : Nat) : (e.later g v).spr = e.spr := rfl
@[simp] theorem later_mov (e : Engine) (g : Fld) (v : Nat) : (e.later g v).mov = e.mov := rfl
@[simp] theorem later_evt (e : Engine) (g : Fld) (v : Nat) : (e.later g v).evt = e.evt := rfl
@[simp] theorem later_cnt (e : Engine) (g : Fld) (v : Nat) : (e.later g v).cnt = e.cnt := rfl
@[simp] theorem later_pwr (e : Engine) (g : Fld) (v : Nat) : (e.later g v).pwr = e.pwr := rfl
@[simp] theorem later_sec (e : Engine) (g : Fld) (v : Nat) : (e.later g v).sec = e.sec := rfl
@[simp] theorem later_tdm (e : Engine) (g : Fld) (v : Nat) : (e.later g v).tdm = e.tdm := rfl
@[simp] theorem later_reg (e : Engine) (g : Fld) (v : Nat) (y : Fld) : (e.later g v).reg y = e.reg y := rfl

/-! ### laterAll -/

@[simp] theorem laterAll_active (e : Engine) (fs : List (Fld × Nat)) : (e.laterAll fs).active = e.active := rfl
@[simp] theorem laterAll_staged (e : Engine) (fs : List (Fld × Nat)) : (e.laterAll fs).staged = e.staged := rfl
@[simp] theorem laterAll_regs (e : Engine) (fs : List (Fld × Nat)) : (e.laterAll fs).regs = e.regs := rfl
@[simp] theorem laterAll_free (e : Engine) (fs : List (Fld × Nat)) : (e.laterAll fs).free = e.free := rfl
@[simp] theorem laterAll_host (e : Engine) (fs : List (Fld × Nat)) : (e.laterAll fs).host = e.host := rfl
@[simp] theorem laterAll_tim (e : Engine) (fs : List (Fld × Nat)) : (e.laterAll fs).tim = e.tim := rfl
@[simp] theorem laterAll_lnk (e : Engine) (fs : List (Fld × Nat)) : (e.laterAll fs).lnk = e.lnk := rfl
@[simp] theorem laterAll_map (e : Engine) (fs : List (Fld × Nat)) : (e.laterAll fs).map = e.map := rfl
@[simp] theorem laterAll_dom (e : Engine) (fs : List (Fld × Nat)) : (e.laterAll fs).dom = e.dom := rfl
@[simp] theorem laterAll_keep (e : Engine) (fs : List (Fld × Nat)) : (e.laterAll fs).keep = e.keep := rfl
@[simp] theorem laterAll_out (e : Engine) (fs : List (Fld × Nat)) : (e.laterAll fs).out = e.out := rfl
@[simp] theorem laterAll_fin (e : Engine) (fs : List (Fld × Nat)) : (e.laterAll fs).fin = e.fin := rfl
@[simp] theorem laterAll_bel (e : Engine) (fs : List (Fld × Nat)) : (e.laterAll fs).bel = e.bel := rfl
@[simp] theorem laterAll_mem (e : Engine) (fs : List (Fld × Nat)) : (e.laterAll fs).mem = e.mem := rfl
@[simp] theorem laterAll_frames (e : Engine) (fs : List (Fld × Nat)) : (e.laterAll fs).frames = e.frames := rfl
@[simp] theorem laterAll_spr (e : Engine) (fs : List (Fld × Nat)) : (e.laterAll fs).spr = e.spr := rfl
@[simp] theorem laterAll_mov (e : Engine) (fs : List (Fld × Nat)) : (e.laterAll fs).mov = e.mov := rfl
@[simp] theorem laterAll_evt (e : Engine) (fs : List (Fld × Nat)) : (e.laterAll fs).evt = e.evt := rfl
@[simp] theorem laterAll_cnt (e : Engine) (fs : List (Fld × Nat)) : (e.laterAll fs).cnt = e.cnt := rfl
@[simp] theorem laterAll_pwr (e : Engine) (fs : List (Fld × Nat)) : (e.laterAll fs).pwr = e.pwr := rfl
@[simp] theorem laterAll_sec (e : Engine) (fs : List (Fld × Nat)) : (e.laterAll fs).sec = e.sec := rfl
@[simp] theorem laterAll_tdm (e : Engine) (fs : List (Fld × Nat)) : (e.laterAll fs).tdm = e.tdm := rfl
@[simp] theorem laterAll_reg (e : Engine) (fs : List (Fld × Nat)) (y : Fld) : (e.laterAll fs).reg y = e.reg y := rfl

/-! ### storeBytes -/

@[simp] theorem storeBytes_active (e : Engine) (a : Nat) (bs : List Byte) : (e.storeBytes a bs).active = e.active := by unfold Engine.storeBytes; dsimp only; split <;> rfl
@[simp] theorem storeBytes_staged (e : Engine) (a : Nat) (bs : List Byte) : (e.storeBytes a bs).staged = e.staged := by unfold Engine.storeBytes; dsimp only; split <;> rfl
@[simp] theorem storeBytes_regs (e : Engine) (a : Nat) (bs : List Byte) : (e.storeBytes a bs).regs = e.regs := by unfold Engine.storeBytes; dsimp only; split <;> rfl
@[simp] theorem storeBytes_r9 (e : Engine) (a : Nat) (bs : List Byte) : (e.storeBytes a bs).r9 = e.r9 := by unfold Engine.storeBytes; dsimp only; split <;> rfl
@[simp] theorem storeBytes_free (e : Engine) (a : Nat) (bs : List Byte) : (e.storeBytes a bs).free = e.free := by unfold Engine.storeBytes; dsimp only; split <;> rfl
@[simp] theorem storeBytes_host (e : Engine) (a : Nat) (bs : List Byte) : (e.storeBytes a bs).host = e.host := by unfold Engine.storeBytes; dsimp only; split <;> rfl
@[simp] theorem storeBytes_tim (e : Engine) (a : Nat) (bs : List Byte) : (e.storeBytes a bs).tim = e.tim := by unfold Engine.storeBytes; dsimp only; split <;> rfl
@[simp] theorem storeBytes_lnk (e : Engine) (a : Nat) (bs : List Byte) : (e.storeBytes a bs).lnk = e.lnk := by unfold Engine.storeBytes; dsimp only; split <;> rfl
@[simp] theorem storeBytes_map (e : Engine) (a : Nat) (bs : List Byte) : (e.storeBytes a bs).map = e.map := by unfold Engine.storeBytes; dsimp only; split <;> rfl
@[simp] theorem storeBytes_dom (e : Engine) (a : Nat) (bs : List Byte) : (e.storeBytes a bs).dom = e.dom := by unfold Engine.storeBytes; dsimp only; split <;> rfl
@[simp] theorem storeBytes_keep (e : Engine) (a : Nat) (bs : List Byte) : (e.storeBytes a bs).keep = e.keep := by unfold Engine.storeBytes; dsimp only; split <;> rfl
@[simp] theorem storeBytes_out (e : Engine) (a : Nat) (bs : List Byte) : (e.storeBytes a bs).out = e.out := by unfold Engine.storeBytes; dsimp only; split <;> rfl
@[simp] theorem storeBytes_fin (e : Engine) (a : Nat) (bs : List Byte) : (e.storeBytes a bs).fin = e.fin := by unfold Engine.storeBytes; dsimp only; split <;> rfl
@[simp] theorem storeBytes_bel (e : Engine) (a : Nat) (bs : List Byte) : (e.storeBytes a bs).bel = e.bel := by unfold Engine.storeBytes; dsimp only; split <;> rfl
@[simp] theorem storeBytes_frames (e : Engine) (a : Nat) (bs : List Byte) : (e.storeBytes a bs).frames = e.frames := by unfold Engine.storeBytes; dsimp only; split <;> rfl
@[simp] theorem storeBytes_spr (e : Engine) (a : Nat) (bs : List Byte) : (e.storeBytes a bs).spr = e.spr := by unfold Engine.storeBytes; dsimp only; split <;> rfl
@[simp] theorem storeBytes_mov (e : Engine) (a : Nat) (bs : List Byte) : (e.storeBytes a bs).mov = e.mov := by unfold Engine.storeBytes; dsimp only; split <;> rfl
@[simp] theorem storeBytes_evt (e : Engine) (a : Nat) (bs : List Byte) : (e.storeBytes a bs).evt = e.evt := by unfold Engine.storeBytes; dsimp only; split <;> rfl
@[simp] theorem storeBytes_cnt (e : Engine) (a : Nat) (bs : List Byte) : (e.storeBytes a bs).cnt = e.cnt := by unfold Engine.storeBytes; dsimp only; split <;> rfl
@[simp] theorem storeBytes_pwr (e : Engine) (a : Nat) (bs : List Byte) : (e.storeBytes a bs).pwr = e.pwr := by unfold Engine.storeBytes; dsimp only; split <;> rfl
@[simp] theorem storeBytes_sec (e : Engine) (a : Nat) (bs : List Byte) : (e.storeBytes a bs).sec = e.sec := by unfold Engine.storeBytes; dsimp only; split <;> rfl
@[simp] theorem storeBytes_tdm (e : Engine) (a : Nat) (bs : List Byte) : (e.storeBytes a bs).tdm = e.tdm := by unfold Engine.storeBytes; dsimp only; split <;> rfl
@[simp] theorem storeBytes_reg (e : Engine) (a : Nat) (bs : List Byte) (y : Fld) : (e.storeBytes a bs).reg y = e.reg y := by unfold Engine.storeBytes; dsimp only; split <;> rfl

/-! ### putCore -/

@[simp] theorem putCore_active (e : Engine) (k : Nat) (c : SpireCore) : (e.putCore k c).active = e.active := by unfold Engine.putCore; split <;> rfl
@[simp] theorem putCore_staged (e : Engine) (k : Nat) (c : SpireCore) : (e.putCore k c).staged = e.staged := by unfold Engine.putCore; split <;> rfl
@[simp] theorem putCore_r9 (e : Engine) (k : Nat) (c : SpireCore) : (e.putCore k c).r9 = e.r9 := by unfold Engine.putCore; split <;> rfl
@[simp] theorem putCore_free (e : Engine) (k : Nat) (c : SpireCore) : (e.putCore k c).free = e.free := by unfold Engine.putCore; split <;> rfl
@[simp] theorem putCore_host (e : Engine) (k : Nat) (c : SpireCore) : (e.putCore k c).host = e.host := by unfold Engine.putCore; split <;> rfl
@[simp] theorem putCore_tim (e : Engine) (k : Nat) (c : SpireCore) : (e.putCore k c).tim = e.tim := by unfold Engine.putCore; split <;> rfl
@[simp] theorem putCore_lnk (e : Engine) (k : Nat) (c : SpireCore) : (e.putCore k c).lnk = e.lnk := by unfold Engine.putCore; split <;> rfl
@[simp] theorem putCore_map (e : Engine) (k : Nat) (c : SpireCore) : (e.putCore k c).map = e.map := by unfold Engine.putCore; split <;> rfl
@[simp] theorem putCore_dom (e : Engine) (k : Nat) (c : SpireCore) : (e.putCore k c).dom = e.dom := by unfold Engine.putCore; split <;> rfl
@[simp] theorem putCore_keep (e : Engine) (k : Nat) (c : SpireCore) : (e.putCore k c).keep = e.keep := by unfold Engine.putCore; split <;> rfl
@[simp] theorem putCore_out (e : Engine) (k : Nat) (c : SpireCore) : (e.putCore k c).out = e.out := by unfold Engine.putCore; split <;> rfl
@[simp] theorem putCore_fin (e : Engine) (k : Nat) (c : SpireCore) : (e.putCore k c).fin = e.fin := by unfold Engine.putCore; split <;> rfl
@[simp] theorem putCore_bel (e : Engine) (k : Nat) (c : SpireCore) : (e.putCore k c).bel = e.bel := by unfold Engine.putCore; split <;> rfl
@[simp] theorem putCore_mem (e : Engine) (k : Nat) (c : SpireCore) : (e.putCore k c).mem = e.mem := by unfold Engine.putCore; split <;> rfl
@[simp] theorem putCore_frames (e : Engine) (k : Nat) (c : SpireCore) : (e.putCore k c).frames = e.frames := by unfold Engine.putCore; split <;> rfl
@[simp] theorem putCore_mov (e : Engine) (k : Nat) (c : SpireCore) : (e.putCore k c).mov = e.mov := by unfold Engine.putCore; split <;> rfl
@[simp] theorem putCore_evt (e : Engine) (k : Nat) (c : SpireCore) : (e.putCore k c).evt = e.evt := by unfold Engine.putCore; split <;> rfl
@[simp] theorem putCore_cnt (e : Engine) (k : Nat) (c : SpireCore) : (e.putCore k c).cnt = e.cnt := by unfold Engine.putCore; split <;> rfl
@[simp] theorem putCore_pwr (e : Engine) (k : Nat) (c : SpireCore) : (e.putCore k c).pwr = e.pwr := by unfold Engine.putCore; split <;> rfl
@[simp] theorem putCore_sec (e : Engine) (k : Nat) (c : SpireCore) : (e.putCore k c).sec = e.sec := by unfold Engine.putCore; split <;> rfl
@[simp] theorem putCore_tdm (e : Engine) (k : Nat) (c : SpireCore) : (e.putCore k c).tdm = e.tdm := by unfold Engine.putCore; split <;> rfl

/-! ### putChan -/

@[simp] theorem putChan_active (e : Engine) (n : Nat) (c : Chan) : (e.putChan n c).active = e.active := rfl
@[simp] theorem putChan_staged (e : Engine) (n : Nat) (c : Chan) : (e.putChan n c).staged = e.staged := rfl
@[simp] theorem putChan_regs (e : Engine) (n : Nat) (c : Chan) : (e.putChan n c).regs = e.regs := rfl
@[simp] theorem putChan_r9 (e : Engine) (n : Nat) (c : Chan) : (e.putChan n c).r9 = e.r9 := rfl
@[simp] theorem putChan_free (e : Engine) (n : Nat) (c : Chan) : (e.putChan n c).free = e.free := rfl
@[simp] theorem putChan_host (e : Engine) (n : Nat) (c : Chan) : (e.putChan n c).host = e.host := rfl
@[simp] theorem putChan_tim (e : Engine) (n : Nat) (c : Chan) : (e.putChan n c).tim = e.tim := rfl
@[simp] theorem putChan_lnk (e : Engine) (n : Nat) (c : Chan) : (e.putChan n c).lnk = e.lnk := rfl
@[simp] theorem putChan_map (e : Engine) (n : Nat) (c : Chan) : (e.putChan n c).map = e.map := rfl
@[simp] theorem putChan_dom (e : Engine) (n : Nat) (c : Chan) : (e.putChan n c).dom = e.dom := rfl
@[simp] theorem putChan_keep (e : Engine) (n : Nat) (c : Chan) : (e.putChan n c).keep = e.keep := rfl
@[simp] theorem putChan_out (e : Engine) (n : Nat) (c : Chan) : (e.putChan n c).out = e.out := rfl
@[simp] theorem putChan_fin (e : Engine) (n : Nat) (c : Chan) : (e.putChan n c).fin = e.fin := rfl
@[simp] theorem putChan_bel (e : Engine) (n : Nat) (c : Chan) : (e.putChan n c).bel = e.bel := rfl
@[simp] theorem putChan_mem (e : Engine) (n : Nat) (c : Chan) : (e.putChan n c).mem = e.mem := rfl
@[simp] theorem putChan_frames (e : Engine) (n : Nat) (c : Chan) : (e.putChan n c).frames = e.frames := rfl
@[simp] theorem putChan_spr (e : Engine) (n : Nat) (c : Chan) : (e.putChan n c).spr = e.spr := rfl
@[simp] theorem putChan_evt (e : Engine) (n : Nat) (c : Chan) : (e.putChan n c).evt = e.evt := rfl
@[simp] theorem putChan_cnt (e : Engine) (n : Nat) (c : Chan) : (e.putChan n c).cnt = e.cnt := rfl
@[simp] theorem putChan_pwr (e : Engine) (n : Nat) (c : Chan) : (e.putChan n c).pwr = e.pwr := rfl
@[simp] theorem putChan_sec (e : Engine) (n : Nat) (c : Chan) : (e.putChan n c).sec = e.sec := rfl
@[simp] theorem putChan_tdm (e : Engine) (n : Nat) (c : Chan) : (e.putChan n c).tdm = e.tdm := rfl
@[simp] theorem putChan_reg (e : Engine) (n : Nat) (c : Chan) (y : Fld) : (e.putChan n c).reg y = e.reg y := rfl

/-! ### putBlt -/

@[simp] theorem putBlt_active (e : Engine) (b : Nat) (x : Blt) : (e.putBlt b x).active = e.active := rfl
@[simp] theorem putBlt_staged (e : Engine) (b : Nat) (x : Blt) : (e.putBlt b x).staged = e.staged := rfl
@[simp] theorem putBlt_regs (e : Engine) (b : Nat) (x : Blt) : (e.putBlt b x).regs = e.regs := rfl
@[simp] theorem putBlt_r9 (e : Engine) (b : Nat) (x : Blt) : (e.putBlt b x).r9 = e.r9 := rfl
@[simp] theorem putBlt_free (e : Engine) (b : Nat) (x : Blt) : (e.putBlt b x).free = e.free := rfl
@[simp] theorem putBlt_host (e : Engine) (b : Nat) (x : Blt) : (e.putBlt b x).host = e.host := rfl
@[simp] theorem putBlt_tim (e : Engine) (b : Nat) (x : Blt) : (e.putBlt b x).tim = e.tim := rfl
@[simp] theorem putBlt_lnk (e : Engine) (b : Nat) (x : Blt) : (e.putBlt b x).lnk = e.lnk := rfl
@[simp] theorem putBlt_map (e : Engine) (b : Nat) (x : Blt) : (e.putBlt b x).map = e.map := rfl
@[simp] theorem putBlt_dom (e : Engine) (b : Nat) (x : Blt) : (e.putBlt b x).dom = e.dom := rfl
@[simp] theorem putBlt_keep (e : Engine) (b : Nat) (x : Blt) : (e.putBlt b x).keep = e.keep := rfl
@[simp] theorem putBlt_out (e : Engine) (b : Nat) (x : Blt) : (e.putBlt b x).out = e.out := rfl
@[simp] theorem putBlt_fin (e : Engine) (b : Nat) (x : Blt) : (e.putBlt b x).fin = e.fin := rfl
@[simp] theorem putBlt_bel (e : Engine) (b : Nat) (x : Blt) : (e.putBlt b x).bel = e.bel := rfl
@[simp] theorem putBlt_mem (e : Engine) (b : Nat) (x : Blt) : (e.putBlt b x).mem = e.mem := rfl
@[simp] theorem putBlt_frames (e : Engine) (b : Nat) (x : Blt) : (e.putBlt b x).frames = e.frames := rfl
@[simp] theorem putBlt_spr (e : Engine) (b : Nat) (x : Blt) : (e.putBlt b x).spr = e.spr := rfl
@[simp] theorem putBlt_evt (e : Engine) (b : Nat) (x : Blt) : (e.putBlt b x).evt = e.evt := rfl
@[simp] theorem putBlt_cnt (e : Engine) (b : Nat) (x : Blt) : (e.putBlt b x).cnt = e.cnt := rfl
@[simp] theorem putBlt_pwr (e : Engine) (b : Nat) (x : Blt) : (e.putBlt b x).pwr = e.pwr := rfl
@[simp] theorem putBlt_sec (e : Engine) (b : Nat) (x : Blt) : (e.putBlt b x).sec = e.sec := rfl
@[simp] theorem putBlt_tdm (e : Engine) (b : Nat) (x : Blt) : (e.putBlt b x).tdm = e.tdm := rfl
@[simp] theorem putBlt_reg (e : Engine) (b : Nat) (x : Blt) (y : Fld) : (e.putBlt b x).reg y = e.reg y := rfl

/-! ### arrive -/

@[simp] theorem arrive_active (e : Engine) (c : Nat) : (e.arrive c).active = e.active := rfl
@[simp] theorem arrive_staged (e : Engine) (c : Nat) : (e.arrive c).staged = e.staged := rfl
@[simp] theorem arrive_regs (e : Engine) (c : Nat) : (e.arrive c).regs = e.regs := rfl
@[simp] theorem arrive_r9 (e : Engine) (c : Nat) : (e.arrive c).r9 = e.r9 := rfl
@[simp] theorem arrive_free (e : Engine) (c : Nat) : (e.arrive c).free = e.free := rfl
@[simp] theorem arrive_host (e : Engine) (c : Nat) : (e.arrive c).host = e.host := rfl
@[simp] theorem arrive_tim (e : Engine) (c : Nat) : (e.arrive c).tim = e.tim := rfl
@[simp] theorem arrive_lnk (e : Engine) (c : Nat) : (e.arrive c).lnk = e.lnk := rfl
@[simp] theorem arrive_map (e : Engine) (c : Nat) : (e.arrive c).map = e.map := rfl
@[simp] theorem arrive_dom (e : Engine) (c : Nat) : (e.arrive c).dom = e.dom := rfl
@[simp] theorem arrive_keep (e : Engine) (c : Nat) : (e.arrive c).keep = e.keep := rfl
@[simp] theorem arrive_out (e : Engine) (c : Nat) : (e.arrive c).out = e.out := rfl
@[simp] theorem arrive_fin (e : Engine) (c : Nat) : (e.arrive c).fin = e.fin := rfl
@[simp] theorem arrive_bel (e : Engine) (c : Nat) : (e.arrive c).bel = e.bel := rfl
@[simp] theorem arrive_mem (e : Engine) (c : Nat) : (e.arrive c).mem = e.mem := rfl
@[simp] theorem arrive_frames (e : Engine) (c : Nat) : (e.arrive c).frames = e.frames := rfl
@[simp] theorem arrive_spr (e : Engine) (c : Nat) : (e.arrive c).spr = e.spr := rfl
@[simp] theorem arrive_mov (e : Engine) (c : Nat) : (e.arrive c).mov = e.mov := rfl
@[simp] theorem arrive_cnt (e : Engine) (c : Nat) : (e.arrive c).cnt = e.cnt := rfl
@[simp] theorem arrive_pwr (e : Engine) (c : Nat) : (e.arrive c).pwr = e.pwr := rfl
@[simp] theorem arrive_sec (e : Engine) (c : Nat) : (e.arrive c).sec = e.sec := rfl
@[simp] theorem arrive_tdm (e : Engine) (c : Nat) : (e.arrive c).tdm = e.tdm := rfl
@[simp] theorem arrive_reg (e : Engine) (c : Nat) (y : Fld) : (e.arrive c).reg y = e.reg y := rfl

/-! ### dmemSet -/

@[simp] theorem dmemSet_active (e : Engine) (k a n v : Nat) : (e.dmemSet k a n v).active = e.active := rfl
@[simp] theorem dmemSet_staged (e : Engine) (k a n v : Nat) : (e.dmemSet k a n v).staged = e.staged := rfl
@[simp] theorem dmemSet_r9 (e : Engine) (k a n v : Nat) : (e.dmemSet k a n v).r9 = e.r9 := rfl
@[simp] theorem dmemSet_free (e : Engine) (k a n v : Nat) : (e.dmemSet k a n v).free = e.free := rfl
@[simp] theorem dmemSet_host (e : Engine) (k a n v : Nat) : (e.dmemSet k a n v).host = e.host := rfl
@[simp] theorem dmemSet_tim (e : Engine) (k a n v : Nat) : (e.dmemSet k a n v).tim = e.tim := rfl
@[simp] theorem dmemSet_lnk (e : Engine) (k a n v : Nat) : (e.dmemSet k a n v).lnk = e.lnk := rfl
@[simp] theorem dmemSet_map (e : Engine) (k a n v : Nat) : (e.dmemSet k a n v).map = e.map := rfl
@[simp] theorem dmemSet_dom (e : Engine) (k a n v : Nat) : (e.dmemSet k a n v).dom = e.dom := rfl
@[simp] theorem dmemSet_keep (e : Engine) (k a n v : Nat) : (e.dmemSet k a n v).keep = e.keep := rfl
@[simp] theorem dmemSet_out (e : Engine) (k a n v : Nat) : (e.dmemSet k a n v).out = e.out := rfl
@[simp] theorem dmemSet_fin (e : Engine) (k a n v : Nat) : (e.dmemSet k a n v).fin = e.fin := rfl
@[simp] theorem dmemSet_bel (e : Engine) (k a n v : Nat) : (e.dmemSet k a n v).bel = e.bel := rfl
@[simp] theorem dmemSet_mem (e : Engine) (k a n v : Nat) : (e.dmemSet k a n v).mem = e.mem := rfl
@[simp] theorem dmemSet_frames (e : Engine) (k a n v : Nat) : (e.dmemSet k a n v).frames = e.frames := rfl
@[simp] theorem dmemSet_spr (e : Engine) (k a n v : Nat) : (e.dmemSet k a n v).spr = e.spr := rfl
@[simp] theorem dmemSet_mov (e : Engine) (k a n v : Nat) : (e.dmemSet k a n v).mov = e.mov := rfl
@[simp] theorem dmemSet_evt (e : Engine) (k a n v : Nat) : (e.dmemSet k a n v).evt = e.evt := rfl
@[simp] theorem dmemSet_cnt (e : Engine) (k a n v : Nat) : (e.dmemSet k a n v).cnt = e.cnt := rfl
@[simp] theorem dmemSet_pwr (e : Engine) (k a n v : Nat) : (e.dmemSet k a n v).pwr = e.pwr := rfl
@[simp] theorem dmemSet_sec (e : Engine) (k a n v : Nat) : (e.dmemSet k a n v).sec = e.sec := rfl
@[simp] theorem dmemSet_tdm (e : Engine) (k a n v : Nat) : (e.dmemSet k a n v).tdm = e.tdm := rfl
@[simp] theorem dmemSet_act (e : Engine) (k a n v : Nat) (x : Fld) : (e.dmemSet k a n v).act x = e.act x := rfl
@[simp] theorem dmemSet_stg (e : Engine) (k a n v : Nat) (x : Fld) : (e.dmemSet k a n v).stg x = e.stg x := rfl

/-! ### postAs -/

@[simp] theorem postAs_active (e : Engine) (x : Posted) : (e.postAs x).active = e.active := by unfold Engine.postAs; dsimp only; split <;> rfl
@[simp] theorem postAs_staged (e : Engine) (x : Posted) : (e.postAs x).staged = e.staged := by unfold Engine.postAs; dsimp only; split <;> rfl
@[simp] theorem postAs_regs (e : Engine) (x : Posted) : (e.postAs x).regs = e.regs := by unfold Engine.postAs; dsimp only; split <;> rfl
@[simp] theorem postAs_r9 (e : Engine) (x : Posted) : (e.postAs x).r9 = e.r9 := by unfold Engine.postAs; dsimp only; split <;> rfl
@[simp] theorem postAs_free (e : Engine) (x : Posted) : (e.postAs x).free = e.free := by unfold Engine.postAs; dsimp only; split <;> rfl
@[simp] theorem postAs_tim (e : Engine) (x : Posted) : (e.postAs x).tim = e.tim := by unfold Engine.postAs; dsimp only; split <;> rfl
@[simp] theorem postAs_lnk (e : Engine) (x : Posted) : (e.postAs x).lnk = e.lnk := by unfold Engine.postAs; dsimp only; split <;> rfl
@[simp] theorem postAs_map (e : Engine) (x : Posted) : (e.postAs x).map = e.map := by unfold Engine.postAs; dsimp only; split <;> rfl
@[simp] theorem postAs_dom (e : Engine) (x : Posted) : (e.postAs x).dom = e.dom := by unfold Engine.postAs; dsimp only; split <;> rfl
@[simp] theorem postAs_keep (e : Engine) (x : Posted) : (e.postAs x).keep = e.keep := by unfold Engine.postAs; dsimp only; split <;> rfl
@[simp] theorem postAs_out (e : Engine) (x : Posted) : (e.postAs x).out = e.out := by unfold Engine.postAs; dsimp only; split <;> rfl
@[simp] theorem postAs_fin (e : Engine) (x : Posted) : (e.postAs x).fin = e.fin := by unfold Engine.postAs; dsimp only; split <;> rfl
@[simp] theorem postAs_bel (e : Engine) (x : Posted) : (e.postAs x).bel = e.bel := by unfold Engine.postAs; dsimp only; split <;> rfl
@[simp] theorem postAs_mem (e : Engine) (x : Posted) : (e.postAs x).mem = e.mem := by unfold Engine.postAs; dsimp only; split <;> rfl
@[simp] theorem postAs_frames (e : Engine) (x : Posted) : (e.postAs x).frames = e.frames := by unfold Engine.postAs; dsimp only; split <;> rfl
@[simp] theorem postAs_spr (e : Engine) (x : Posted) : (e.postAs x).spr = e.spr := by unfold Engine.postAs; dsimp only; split <;> rfl
@[simp] theorem postAs_mov (e : Engine) (x : Posted) : (e.postAs x).mov = e.mov := by unfold Engine.postAs; dsimp only; split <;> rfl
@[simp] theorem postAs_evt (e : Engine) (x : Posted) : (e.postAs x).evt = e.evt := by unfold Engine.postAs; dsimp only; split <;> rfl
@[simp] theorem postAs_cnt (e : Engine) (x : Posted) : (e.postAs x).cnt = e.cnt := by unfold Engine.postAs; dsimp only; split <;> rfl
@[simp] theorem postAs_pwr (e : Engine) (x : Posted) : (e.postAs x).pwr = e.pwr := by unfold Engine.postAs; dsimp only; split <;> rfl
@[simp] theorem postAs_sec (e : Engine) (x : Posted) : (e.postAs x).sec = e.sec := by unfold Engine.postAs; dsimp only; split <;> rfl
@[simp] theorem postAs_tdm (e : Engine) (x : Posted) : (e.postAs x).tdm = e.tdm := by unfold Engine.postAs; dsimp only; split <;> rfl
@[simp] theorem postAs_reg (e : Engine) (x : Posted) (y : Fld) : (e.postAs x).reg y = e.reg y := by unfold Engine.postAs; dsimp only; split <;> rfl

/-! ### clearErrs -/

@[simp] theorem clearErrs_active (e : Engine) (a n : Nat) : (e.clearErrs a n).active = e.active := rfl
@[simp] theorem clearErrs_staged (e : Engine) (a n : Nat) : (e.clearErrs a n).staged = e.staged := rfl
@[simp] theorem clearErrs_regs (e : Engine) (a n : Nat) : (e.clearErrs a n).regs = e.regs := rfl
@[simp] theorem clearErrs_r9 (e : Engine) (a n : Nat) : (e.clearErrs a n).r9 = e.r9 := rfl
@[simp] theorem clearErrs_free (e : Engine) (a n : Nat) : (e.clearErrs a n).free = e.free := rfl
@[simp] theorem clearErrs_host (e : Engine) (a n : Nat) : (e.clearErrs a n).host = e.host := rfl
@[simp] theorem clearErrs_tim (e : Engine) (a n : Nat) : (e.clearErrs a n).tim = e.tim := rfl
@[simp] theorem clearErrs_lnk (e : Engine) (a n : Nat) : (e.clearErrs a n).lnk = e.lnk := rfl
@[simp] theorem clearErrs_map (e : Engine) (a n : Nat) : (e.clearErrs a n).map = e.map := rfl
@[simp] theorem clearErrs_dom (e : Engine) (a n : Nat) : (e.clearErrs a n).dom = e.dom := rfl
@[simp] theorem clearErrs_keep (e : Engine) (a n : Nat) : (e.clearErrs a n).keep = e.keep := rfl
@[simp] theorem clearErrs_out (e : Engine) (a n : Nat) : (e.clearErrs a n).out = e.out := rfl
@[simp] theorem clearErrs_fin (e : Engine) (a n : Nat) : (e.clearErrs a n).fin = e.fin := rfl
@[simp] theorem clearErrs_bel (e : Engine) (a n : Nat) : (e.clearErrs a n).bel = e.bel := rfl
@[simp] theorem clearErrs_frames (e : Engine) (a n : Nat) : (e.clearErrs a n).frames = e.frames := rfl
@[simp] theorem clearErrs_spr (e : Engine) (a n : Nat) : (e.clearErrs a n).spr = e.spr := rfl
@[simp] theorem clearErrs_mov (e : Engine) (a n : Nat) : (e.clearErrs a n).mov = e.mov := rfl
@[simp] theorem clearErrs_evt (e : Engine) (a n : Nat) : (e.clearErrs a n).evt = e.evt := rfl
@[simp] theorem clearErrs_cnt (e : Engine) (a n : Nat) : (e.clearErrs a n).cnt = e.cnt := rfl
@[simp] theorem clearErrs_pwr (e : Engine) (a n : Nat) : (e.clearErrs a n).pwr = e.pwr := rfl
@[simp] theorem clearErrs_sec (e : Engine) (a n : Nat) : (e.clearErrs a n).sec = e.sec := rfl
@[simp] theorem clearErrs_tdm (e : Engine) (a n : Nat) : (e.clearErrs a n).tdm = e.tdm := rfl
@[simp] theorem clearErrs_reg (e : Engine) (a n : Nat) (y : Fld) : (e.clearErrs a n).reg y = e.reg y := rfl

/-! ### zeroBytes -/

@[simp] theorem zeroBytes_active (e : Engine) (a n : Nat) : (e.zeroBytes a n).active = e.active := rfl
@[simp] theorem zeroBytes_staged (e : Engine) (a n : Nat) : (e.zeroBytes a n).staged = e.staged := rfl
@[simp] theorem zeroBytes_regs (e : Engine) (a n : Nat) : (e.zeroBytes a n).regs = e.regs := rfl
@[simp] theorem zeroBytes_r9 (e : Engine) (a n : Nat) : (e.zeroBytes a n).r9 = e.r9 := rfl
@[simp] theorem zeroBytes_free (e : Engine) (a n : Nat) : (e.zeroBytes a n).free = e.free := rfl
@[simp] theorem zeroBytes_host (e : Engine) (a n : Nat) : (e.zeroBytes a n).host = e.host := rfl
@[simp] theorem zeroBytes_tim (e : Engine) (a n : Nat) : (e.zeroBytes a n).tim = e.tim := rfl
@[simp] theorem zeroBytes_lnk (e : Engine) (a n : Nat) : (e.zeroBytes a n).lnk = e.lnk := rfl
@[simp] theorem zeroBytes_map (e : Engine) (a n : Nat) : (e.zeroBytes a n).map = e.map := rfl
@[simp] theorem zeroBytes_dom (e : Engine) (a n : Nat) : (e.zeroBytes a n).dom = e.dom := rfl
@[simp] theorem zeroBytes_keep (e : Engine) (a n : Nat) : (e.zeroBytes a n).keep = e.keep := rfl
@[simp] theorem zeroBytes_out (e : Engine) (a n : Nat) : (e.zeroBytes a n).out = e.out := rfl
@[simp] theorem zeroBytes_fin (e : Engine) (a n : Nat) : (e.zeroBytes a n).fin = e.fin := rfl
@[simp] theorem zeroBytes_bel (e : Engine) (a n : Nat) : (e.zeroBytes a n).bel = e.bel := rfl
@[simp] theorem zeroBytes_frames (e : Engine) (a n : Nat) : (e.zeroBytes a n).frames = e.frames := rfl
@[simp] theorem zeroBytes_spr (e : Engine) (a n : Nat) : (e.zeroBytes a n).spr = e.spr := rfl
@[simp] theorem zeroBytes_mov (e : Engine) (a n : Nat) : (e.zeroBytes a n).mov = e.mov := rfl
@[simp] theorem zeroBytes_evt (e : Engine) (a n : Nat) : (e.zeroBytes a n).evt = e.evt := rfl
@[simp] theorem zeroBytes_cnt (e : Engine) (a n : Nat) : (e.zeroBytes a n).cnt = e.cnt := rfl
@[simp] theorem zeroBytes_pwr (e : Engine) (a n : Nat) : (e.zeroBytes a n).pwr = e.pwr := rfl
@[simp] theorem zeroBytes_sec (e : Engine) (a n : Nat) : (e.zeroBytes a n).sec = e.sec := rfl
@[simp] theorem zeroBytes_tdm (e : Engine) (a n : Nat) : (e.zeroBytes a n).tdm = e.tdm := rfl
@[simp] theorem zeroBytes_reg (e : Engine) (a n : Nat) (y : Fld) : (e.zeroBytes a n).reg y = e.reg y := rfl

/-! ### awaitBack -/

@[simp] theorem awaitBack_active (e : Engine) (k : Nat) : (awaitBack e k).active = e.active := by unfold awaitBack; split <;> rfl
@[simp] theorem awaitBack_staged (e : Engine) (k : Nat) : (awaitBack e k).staged = e.staged := by unfold awaitBack; split <;> rfl
@[simp] theorem awaitBack_regs (e : Engine) (k : Nat) : (awaitBack e k).regs = e.regs := by unfold awaitBack; split <;> rfl
@[simp] theorem awaitBack_r9 (e : Engine) (k : Nat) : (awaitBack e k).r9 = e.r9 := by unfold awaitBack; split <;> rfl
@[simp] theorem awaitBack_free (e : Engine) (k : Nat) : (awaitBack e k).free = e.free := by unfold awaitBack; split <;> rfl
@[simp] theorem awaitBack_host (e : Engine) (k : Nat) : (awaitBack e k).host = e.host := by unfold awaitBack; split <;> rfl
@[simp] theorem awaitBack_tim (e : Engine) (k : Nat) : (awaitBack e k).tim = e.tim := by unfold awaitBack; split <;> rfl
@[simp] theorem awaitBack_lnk (e : Engine) (k : Nat) : (awaitBack e k).lnk = e.lnk := by unfold awaitBack; split <;> rfl
@[simp] theorem awaitBack_map (e : Engine) (k : Nat) : (awaitBack e k).map = e.map := by unfold awaitBack; split <;> rfl
@[simp] theorem awaitBack_dom (e : Engine) (k : Nat) : (awaitBack e k).dom = e.dom := by unfold awaitBack; split <;> rfl
@[simp] theorem awaitBack_keep (e : Engine) (k : Nat) : (awaitBack e k).keep = e.keep := by unfold awaitBack; split <;> rfl
@[simp] theorem awaitBack_out (e : Engine) (k : Nat) : (awaitBack e k).out = e.out := by unfold awaitBack; split <;> rfl
@[simp] theorem awaitBack_fin (e : Engine) (k : Nat) : (awaitBack e k).fin = e.fin := by unfold awaitBack; split <;> rfl
@[simp] theorem awaitBack_bel (e : Engine) (k : Nat) : (awaitBack e k).bel = e.bel := by unfold awaitBack; split <;> rfl
@[simp] theorem awaitBack_frames (e : Engine) (k : Nat) : (awaitBack e k).frames = e.frames := by unfold awaitBack; split <;> rfl
@[simp] theorem awaitBack_spr (e : Engine) (k : Nat) : (awaitBack e k).spr = e.spr := by unfold awaitBack; split <;> rfl
@[simp] theorem awaitBack_mov (e : Engine) (k : Nat) : (awaitBack e k).mov = e.mov := by unfold awaitBack; split <;> rfl
@[simp] theorem awaitBack_evt (e : Engine) (k : Nat) : (awaitBack e k).evt = e.evt := by unfold awaitBack; split <;> rfl
@[simp] theorem awaitBack_cnt (e : Engine) (k : Nat) : (awaitBack e k).cnt = e.cnt := by unfold awaitBack; split <;> rfl
@[simp] theorem awaitBack_pwr (e : Engine) (k : Nat) : (awaitBack e k).pwr = e.pwr := by unfold awaitBack; split <;> rfl
@[simp] theorem awaitBack_sec (e : Engine) (k : Nat) : (awaitBack e k).sec = e.sec := by unfold awaitBack; split <;> rfl
@[simp] theorem awaitBack_tdm (e : Engine) (k : Nat) : (awaitBack e k).tdm = e.tdm := by unfold awaitBack; split <;> rfl
@[simp] theorem awaitBack_reg (e : Engine) (k : Nat) (y : Fld) : (awaitBack e k).reg y = e.reg y := by unfold awaitBack; split <;> rfl

/-! ### wordBack -/

@[simp] theorem wordBack_active (e : Engine) (k : Nat) : (wordBack e k).active = e.active := rfl
@[simp] theorem wordBack_staged (e : Engine) (k : Nat) : (wordBack e k).staged = e.staged := rfl
@[simp] theorem wordBack_regs (e : Engine) (k : Nat) : (wordBack e k).regs = e.regs := rfl
@[simp] theorem wordBack_r9 (e : Engine) (k : Nat) : (wordBack e k).r9 = e.r9 := rfl
@[simp] theorem wordBack_free (e : Engine) (k : Nat) : (wordBack e k).free = e.free := rfl
@[simp] theorem wordBack_host (e : Engine) (k : Nat) : (wordBack e k).host = e.host := rfl
@[simp] theorem wordBack_tim (e : Engine) (k : Nat) : (wordBack e k).tim = e.tim := rfl
@[simp] theorem wordBack_lnk (e : Engine) (k : Nat) : (wordBack e k).lnk = e.lnk := rfl
@[simp] theorem wordBack_map (e : Engine) (k : Nat) : (wordBack e k).map = e.map := rfl
@[simp] theorem wordBack_dom (e : Engine) (k : Nat) : (wordBack e k).dom = e.dom := rfl
@[simp] theorem wordBack_keep (e : Engine) (k : Nat) : (wordBack e k).keep = e.keep := rfl
@[simp] theorem wordBack_out (e : Engine) (k : Nat) : (wordBack e k).out = e.out := rfl
@[simp] theorem wordBack_fin (e : Engine) (k : Nat) : (wordBack e k).fin = e.fin := rfl
@[simp] theorem wordBack_bel (e : Engine) (k : Nat) : (wordBack e k).bel = e.bel := rfl
@[simp] theorem wordBack_frames (e : Engine) (k : Nat) : (wordBack e k).frames = e.frames := rfl
@[simp] theorem wordBack_spr (e : Engine) (k : Nat) : (wordBack e k).spr = e.spr := rfl
@[simp] theorem wordBack_mov (e : Engine) (k : Nat) : (wordBack e k).mov = e.mov := rfl
@[simp] theorem wordBack_evt (e : Engine) (k : Nat) : (wordBack e k).evt = e.evt := rfl
@[simp] theorem wordBack_cnt (e : Engine) (k : Nat) : (wordBack e k).cnt = e.cnt := rfl
@[simp] theorem wordBack_pwr (e : Engine) (k : Nat) : (wordBack e k).pwr = e.pwr := rfl
@[simp] theorem wordBack_sec (e : Engine) (k : Nat) : (wordBack e k).sec = e.sec := rfl
@[simp] theorem wordBack_tdm (e : Engine) (k : Nat) : (wordBack e k).tdm = e.tdm := rfl
@[simp] theorem wordBack_reg (e : Engine) (k : Nat) (y : Fld) : (wordBack e k).reg y = e.reg y := rfl

/-! ### holdCommit -/

@[simp] theorem holdCommit_active (e : Engine) (u : Unrecorded) : (holdCommit e u).active = e.active := rfl
@[simp] theorem holdCommit_staged (e : Engine) (u : Unrecorded) : (holdCommit e u).staged = e.staged := rfl
@[simp] theorem holdCommit_regs (e : Engine) (u : Unrecorded) : (holdCommit e u).regs = e.regs := rfl
@[simp] theorem holdCommit_r9 (e : Engine) (u : Unrecorded) : (holdCommit e u).r9 = e.r9 := rfl
@[simp] theorem holdCommit_free (e : Engine) (u : Unrecorded) : (holdCommit e u).free = e.free := rfl
@[simp] theorem holdCommit_host (e : Engine) (u : Unrecorded) : (holdCommit e u).host = e.host := rfl
@[simp] theorem holdCommit_tim (e : Engine) (u : Unrecorded) : (holdCommit e u).tim = e.tim := rfl
@[simp] theorem holdCommit_lnk (e : Engine) (u : Unrecorded) : (holdCommit e u).lnk = e.lnk := rfl
@[simp] theorem holdCommit_map (e : Engine) (u : Unrecorded) : (holdCommit e u).map = e.map := rfl
@[simp] theorem holdCommit_dom (e : Engine) (u : Unrecorded) : (holdCommit e u).dom = e.dom := rfl
@[simp] theorem holdCommit_keep (e : Engine) (u : Unrecorded) : (holdCommit e u).keep = e.keep := rfl
@[simp] theorem holdCommit_out (e : Engine) (u : Unrecorded) : (holdCommit e u).out = e.out := rfl
@[simp] theorem holdCommit_fin (e : Engine) (u : Unrecorded) : (holdCommit e u).fin = e.fin := rfl
@[simp] theorem holdCommit_bel (e : Engine) (u : Unrecorded) : (holdCommit e u).bel = e.bel := rfl
@[simp] theorem holdCommit_mem (e : Engine) (u : Unrecorded) : (holdCommit e u).mem = e.mem := rfl
@[simp] theorem holdCommit_frames (e : Engine) (u : Unrecorded) : (holdCommit e u).frames = e.frames := rfl
@[simp] theorem holdCommit_spr (e : Engine) (u : Unrecorded) : (holdCommit e u).spr = e.spr := rfl
@[simp] theorem holdCommit_mov (e : Engine) (u : Unrecorded) : (holdCommit e u).mov = e.mov := rfl
@[simp] theorem holdCommit_evt (e : Engine) (u : Unrecorded) : (holdCommit e u).evt = e.evt := rfl
@[simp] theorem holdCommit_cnt (e : Engine) (u : Unrecorded) : (holdCommit e u).cnt = e.cnt := rfl
@[simp] theorem holdCommit_sec (e : Engine) (u : Unrecorded) : (holdCommit e u).sec = e.sec := rfl
@[simp] theorem holdCommit_tdm (e : Engine) (u : Unrecorded) : (holdCommit e u).tdm = e.tdm := rfl
@[simp] theorem holdCommit_reg (e : Engine) (u : Unrecorded) (y : Fld) : (holdCommit e u).reg y = e.reg y := rfl

/-! ### Free values -/

@[simp] theorem freeVal_fst (e : Engine) : e.freeVal.1 = Config.freeValue e.free := rfl
@[simp] theorem freeVal_snd (e : Engine) : e.freeVal.2 = { e with free := e.free + 1 } := rfl

/-! ### What the updates write -/

theorem setReg_regs (e : Engine) (f : Fld) (v : Nat) : (e.setReg f v).regs = e.regs.put f v := rfl
theorem later_r9 (e : Engine) (f : Fld) (v : Nat) : (e.later f v).r9 = e.r9 ++ [(f, v)] := rfl
theorem laterAll_r9 (e : Engine) (fs : List (Fld × Nat)) : (e.laterAll fs).r9 = e.r9 ++ fs := rfl
@[simp] theorem storeBytes_cells (e : Engine) (a : Nat) (bs : List Byte) : (e.storeBytes a bs).mem.cells = memWrite e.mem.cells a bs := by
  unfold Engine.storeBytes; dsimp only; split <;> rfl
@[simp] theorem zeroBytes_cells (e : Engine) (a n : Nat) : (e.zeroBytes a n).mem.cells = memClear e.mem.cells a n := rfl
@[simp] theorem clearErrs_cells (e : Engine) (a n : Nat) : (e.clearErrs a n).mem.cells = e.mem.cells := rfl
@[simp] theorem wordBack_cells (e : Engine) (k : Nat) : (wordBack e k).mem.cells = e.mem.cells := rfl
@[simp] theorem awaitBack_cells (e : Engine) (k : Nat) : (awaitBack e k).mem.cells = e.mem.cells := by unfold awaitBack; split <;> rfl
theorem putCore_cores (e : Engine) (k : Nat) (c : SpireCore) : (e.putCore k c).spr.cores = e.spr.cores.set k c := by
  unfold Engine.putCore; split <;> rfl
theorem post_eq (e : Engine) (a : Nat) (bs : List Byte) : e.post a bs = e.postAs ⟨a, bs, false, false⟩ := rfl
/-- A write enters the outbound queue where its buffer has a place (R66). -/
theorem postAs_admitted (e : Engine) (x : Posted) (h : e.admits x.ctl x.bytes.length = true) :
    (e.postAs x).host.out = e.host.out ++ [x] ∧ (e.postAs x).host.wait = e.host.wait := by
  unfold Engine.postAs; dsimp only; rw [if_pos h]; exact ⟨rfl, rfl⟩
/-- A write waits where the buffer has none. -/
theorem postAs_waits (e : Engine) (x : Posted) (h : e.admits x.ctl x.bytes.length = false) :
    (e.postAs x).host.out = e.host.out ∧ (e.postAs x).host.wait = e.host.wait ++ [x] := by
  unfold Engine.postAs; dsimp only; rw [if_neg (by simp [h])]; exact ⟨rfl, rfl⟩

end Sys2Proof.Machine
end

