-- ==== Sys2Proof/Tests/Slice0.lean ====
section
/-! SUPPORT. Tests: ill-formed commands that the checks refuse, single steps with values worked out by hand from the spec, and for every
obligation with hypotheses a concrete state and operands that meet them (`witness_…`), each clause at a boundary of its range. -/

namespace Sys2Proof.Tests

open Sys2Proof Machine

set_option Elab.async false

/-! ### States and packets that the tests start from -/

/-- A packet of ring 0, tag 7 and context 0, of the given flags, target, arguments and payload. -/
def pk (flags target : Nat) (args : List Nat) (payload : List Byte) : Packet :=
  { ring := 0, flags := flags, length := payload.length, tag := 7, ctx := 0, reserved := 0, applyAt := 0, target := target,
    args := args ++ List.replicate (8 - args.length) 0, payload := payload }

/-- The plainest well-formed packet. -/
def pk0 : Packet := pk 0 0 [] []

/-- A quiet crossing on the Timing port. -/
def quiet : Timing := ⟨.k286, 0, 0, 0, false, false⟩

/-- A crossing with nothing on the NIM inputs and no datum at a boundary. -/
def plainTick : TickIn := ⟨quiet, List.replicate 8 0, []⟩

/-! ### Spire cores -/

/-- The state after reset with registers `ws`, in which core `k` runs from address 0, changed by `f`. -/
def onCore (k : Nat) (ws : List (Fld × Nat)) (f : SpireCore → SpireCore) : State :=
  { State.reset with eng := Engine.putCore { Engine.reset with regs := Engine.reset.regs.puts ws } k (f { SpireCore.reset with st := 1 }) }

/-- Core 0 runs with word `w` at address 0, and `f` says the rest of the core. -/
def withWord (w : Nat) (f : SpireCore → SpireCore) : State := onCore 0 [(imemFld 0 0, w)] f

/-- g1 holds `a` and g2 holds `b`. -/
def g12 (a b : Nat) (c : SpireCore) : SpireCore := { c with regs := Tab.setAll [] [(1, a), (2, b)] }

/-- The results on their way in core 0 after a command: register, value, cycle. -/
def results (o : Host.Outcome State Fault Refusal) : List (Nat × Nat × Nat) := match o with
  | .next t => (t.eng.core 0).flight.map (fun x => (x.dst, x.val, x.due))
  | _ => []

/-- The result of a format A instruction with rd = 3, ra = 1, rb = 2 on g1 = `a`, g2 = `b`. -/
def opOn (i : Nat → BitVec 5 → BitVec 5 → BitVec 5 → Instr) (op func a b : Nat) : List (Nat × Nat × Nat) :=
  results (exec (i 0 3 1 2) (withWord (wordA op 3 1 2 func) (g12 a b)))

/-- The result of a format K instruction with rd = 3, ra = 1 on g1 = `a`. -/
def opImm (i : Nat → BitVec 5 → BitVec 5 → BitVec 16 → Instr) (op : Nat) (imm : BitVec 16) (a : Nat) : List (Nat × Nat × Nat) :=
  results (exec (i 0 3 1 imm) (withWord (wordK op 3 1 imm) (g12 a 0)))

/-- The core after a command. -/
def coreAfter (k : Nat) (o : Host.Outcome State Fault Refusal) : SpireCore := match o with
  | .next t => t.eng.core k
  | _ => SpireCore.reset

/-- `ReadyFor` as a computation. -/
def readyB (k w : Nat) (control : Bool) (s : State) : Bool :=
  let c := (issuing k s).core k
  decide (k < 34) && decide ((s.eng.core k).st = 1) && decide (wordCause w = 0)
    && decide (c.pc % 4 = 0)
    && (isService k || (decide (c.pc < 65536) && decide ((issuing k s).spr.ecc.get (imemFld k (c.pc / 4)).key = 0)
      && decide ((issuing k s).reg (imemFld k (c.pc / 4)) = w)))
    && (!control || decide (c.slot = 0))

theorem readyFor_iff (k w : Nat) (control : Bool) (s : State) : ReadyFor k w control s ↔ readyB k w control s = true := by
  unfold ReadyFor readyB
  cases control <;> cases isService k <;> simp [and_assoc]
/-- The frame of crossing `n`, born at BC `b`, under the configuration after reset, with empty pictures composed. -/
def fr (n b : Nat) : Frame :=
  { n := n, born := b, st := stSafe, cfg := [], beam := true, dead := false, invalid := false, stale := false, spr := false, cells := [],
    bad := [], pathMiss := false, fs := false, req := false, keepsum := 0, abort := false
    pic := { outs := [[], []], dsum := [0, 0], rsum := List.replicate 32 0, objs := [[], []], nseed := [0, 0], ovf := [false, false],
             rtr := [false, false] }
    byp := [], flt := [], mon := []
    dec := { core := 255, res := 0, resOk := false, covr := false, taken := false, acc := 0, lraw := 0, pass := [], supp := 0, inputs := 0,
             deadT := false, decided := false, driven := false, accnum := 0, digest := 0 } }

/-- An object of class 1 at cell (3, 4). -/
def ob : Obj := ⟨3, 4, 100, false, 0, 60, 1, 0, false⟩

/-- `s` with the BC count `b`, the frames `fs` and registers `ws`. -/
def seeing (b : Nat) (fs : List Frame) (ws : List (Fld × Nat)) (s : State) : State :=
  { s with eng := { s.eng with regs := s.eng.regs.puts ws, tim := { s.eng.tim with bc := b }, frames := fs } }

/-- A decision core that has taken frame 9, whose Turret A kept one object, with frames 8 and 9 in the stage buffers. -/
def takenState (w a b : Nat) : State :=
  let f : Frame := { fr 9 9 with pic := { (fr 9 9).pic with objs := [[ob], []] } }
  seeing 20 [f, fr 8 8] [] (onCore 31 [(imemFld 31 0, w)] (fun c => { g12 a b c with frame := some f, endAt := 24 }))

/-! ### Commands of the host: where each is accepted, and where it is refused -/

/-- The state after reset but SAFE, with registers `ws`, and `cs` in the active and staged copies. -/
def safe (ws cs : List (Fld × Nat)) : State :=
  { State.reset with eng := { Engine.reset with
      regs := Engine.reset.regs.puts ((Reg.PWR_STAT_STATE, stSafe) :: ws), active := Tab.puts [] cs, staged := Tab.puts [] cs } }

/-- `s` with a commit pending on every block with staged fields. -/
def busy (s : State) : State :=
  let q : Pend := { uid := 0, ring := 0, tag := 9, ctx := 0, notify := false, blocks := stagedBlocks, set := [], named := none, relock := false,
                    clock := false, masks := [], object := 0, waiting := false, follow := [] }
  { s with eng := { s.eng with host := { s.eng.host with pends := [q] } } }

/-- A ring of 16 slots, of context 0, bound to completion ring 1. -/
def ring (id typ kind : Nat) : Ring := ⟨id, typ, 4, 4096, 0, 1, 8, kind, false, 0, 0, false, 0, false, false, true, false, 0⟩

/-- `s` with the rings `rs`. -/
def withRings (rs : List Ring) (s : State) : State := { s with eng := { s.eng with host := { s.eng.host with rings := rs } } }

/-- `s` with context 1 open. -/
def open1 (s : State) : State := { s with eng := { s.eng with host := { s.eng.host with ctxs := [(1, 1)] } } }

/-- A state in which this unit, ARMED, holds the permit and its partner is ARMED on a link that is UP. -/
def holder : State :=
  let s := safe [(Reg.PWR_STAT_STATE, stArmed), (Reg.TDM_STAT_LINK, 2)] [(Reg.TDM_CFG_ROLE, 1)]
  { s with eng := { s.eng with tdm := { s.eng.tdm with permits := [(0, true)], partners := [⟨0, true, 0, 64⟩] } } }

/-- `s` with the engine changed by `f`. -/
def onEng (f : Engine → Engine) (s : State) : State := { s with eng := f s.eng }

/-- The next state of an outcome; the state after reset where it is a stop. -/
def nextOf : Host.Outcome State Fault Refusal → State
  | .next t => t
  | .fault _ => State.reset
  | .refused _ => State.reset

/-! ### Ill-formed commands: one refused term for each check of `Instr.wf` -/

theorem test_wellformed_packet : pk0.wf = true ∧ (pk 31 5 [1, 2] [3, 4]).wf = true := by decide

theorem test_illformed_packet :
    Instr.wf (.setSource { pk0 with ring := 2 ^ 18 }) = false ∧ Instr.wf (.setSource { pk0 with flags := 2 ^ 16 }) = false
    ∧ Instr.wf (.setSource { pk0 with length := 65537 }) = false ∧ Instr.wf (.setSource { pk0 with tag := 2 ^ 64 }) = false
    ∧ Instr.wf (.setSource { pk0 with ctx := 2 ^ 16 }) = false ∧ Instr.wf (.setSource { pk0 with reserved := 2 ^ 16 }) = false
    ∧ Instr.wf (.setSource { pk0 with applyAt := 2 ^ 64 }) = false ∧ Instr.wf (.setSource { pk0 with target := 2 ^ 32 }) = false
    ∧ Instr.wf (.setSource { pk0 with args := [0] }) = false
    ∧ Instr.wf (.setSource { pk0 with args := [2 ^ 32, 0, 0, 0, 0, 0, 0, 0] }) = false
    ∧ Instr.wf (.setSource { pk0 with payload := [0] }) = false := by decide

theorem test_illformed_common : Instr.wf (.query 256 pk0) = false ∧ Instr.wf (.query 2 { pk0 with args := [] }) = false := by decide

theorem test_illformed_tick :
    Instr.wf (.crossingTick { plainTick with timing := { quiet with cmd := 256 } }) = false
    ∧ Instr.wf (.crossingTick { plainTick with timing := { quiet with word := 2 ^ 16 } }) = false
    ∧ Instr.wf (.crossingTick { plainTick with nim := [] }) = false
    ∧ Instr.wf (.crossingTick { plainTick with nim := List.replicate 8 (2 ^ 16) }) = false
    ∧ Instr.wf (.crossingTick { plainTick with arrivals := [⟨0, 512, 0, false⟩] }) = false
    ∧ Instr.wf (.acquisitionCrossing { quiet with cmd := 256 }) = false
    ∧ Instr.wf (.crossingTick { plainTick with arrivals := [⟨0, 511, 0, false⟩] }) = true := by decide

theorem test_illformed_host_access :
    Instr.wf (.registerWrite 1 0 4 0) = false ∧ Instr.wf (.registerWrite 0 0 3 0) = false
    ∧ Instr.wf (.registerWrite 0 (2 ^ 25) 4 0) = false ∧ Instr.wf (.registerWrite 0 0 1 256) = false
    ∧ Instr.wf (.readClear 6 0 4) = false ∧ Instr.wf (.readClear 0 0 0) = false ∧ Instr.wf (.readClear 0 (2 ^ 25) 4) = false
    ∧ Instr.wf (.loWordFreezeRead (2 ^ 25)) = false ∧ Instr.wf (.loWordFreezeRead 2) = false
    ∧ Instr.wf (.doorbellWrite (2 ^ 21) 4 0) = false ∧ Instr.wf (.doorbellWrite 0 2 0) = false
    ∧ Instr.wf (.doorbellWrite 0 4 (2 ^ 32)) = false := by decide

theorem test_illformed_rings :
    Instr.wf (.commandFetch (2 ^ 18) []) = false ∧ Instr.wf (.commandFetch 0 [0]) = false
    ∧ Instr.wf (.commandTimeout (2 ^ 18) 0) = false ∧ Instr.wf (.commandTimeout 0 (2 ^ 64)) = false
    ∧ Instr.wf (.hstStopCtx 1024) = false ∧ Instr.wf (.hstResumeCtx 1024) = false
    ∧ Instr.wf (.ptmExchange true (2 ^ 64)) = false ∧ Instr.wf (.linkTrain true true 0) = false
    ∧ Instr.wf (.linkTrain true true 5) = false := by decide

theorem test_illformed_links_and_outputs :
    Instr.wf (.freqWindowEnd (2 ^ 17)) = false ∧ Instr.wf (.laneSignalChange 144 ⟨true, false⟩) = false
    ∧ Instr.wf (.laneFrameReceive 144 0 [] 0 0) = false ∧ Instr.wf (.laneFrameReceive 0 0 [⟨2, 65, 0, false⟩] 0 0) = false
    ∧ Instr.wf (.laneFrameReceive 0 0 [⟨4, 64, 0, false⟩] 0 0) = false ∧ Instr.wf (.laneFrameReceive 0 0 [⟨2, 1, 2, false⟩] 0 0) = false ∧ Instr.wf (.eqHoldStart 144) = false
    ∧ Instr.wf (.relaySenseTimeout 2 true) = false ∧ Instr.wf (.relayCountJournal 2) = false
    ∧ Instr.wf (.dlTxFault 8) = false ∧ Instr.wf (.rlywarnLimitWrite (2 ^ 32)) = false
    ∧ Instr.wf (.tandemFrameReceive [none] 0) = false := by decide

theorem test_illformed_core_numbers :
    Instr.wf (.add 34 1 2 3) = false ∧ Instr.wf (.jmp 34 0) = false ∧ Instr.wf (.addk 34 1 2 3) = false
    ∧ Instr.wf (.stw 34 1 2 3) = false ∧ Instr.wf (.beq 34 1 2 3) = false ∧ Instr.wf (.sys 34 1 2 3) = false
    ∧ Instr.wf (.wff 34 1 2 3 0) = false ∧ Instr.wf (.wffComplete 34) = false ∧ Instr.wf (.eret 34 0) = false
    ∧ Instr.wf (.lanternPortRequest 34 4 1 2 3 0) = false ∧ Instr.wf (.lanternPortRequest 0 3 1 2 3 0) = false
    ∧ Instr.wf (.lanternPortRequest 0 8 1 2 3 0) = false ∧ Instr.wf (.add 33 31 31 31) = true := by decide

theorem test_illformed_events :
    Instr.wf (.eventRaise 4096 0) = false ∧ Instr.wf (.eventRaise 0 (2 ^ 32)) = false ∧ Instr.wf (.holdoffEnd 1024) = false
    ∧ Instr.wf (.evtKstatStopWrite 1024) = false ∧ Instr.wf (.consumerActivation 4096) = false
    ∧ Instr.wf (.notificationWrite 4096) = false ∧ Instr.wf (.msixSend 4096) = false ∧ Instr.wf (.irqPendWrite 4096) = false
    ∧ Instr.wf (.irqFilterPass 4096 true) = false ∧ Instr.wf (.evtSwpubWrite 128) = false
    ∧ Instr.wf (.counterMatch 64) = false ∧ Instr.wf (.cntLoadWrite 64 0) = false ∧ Instr.wf (.cntLoadWrite 0 (2 ^ 32)) = false := by decide

theorem test_illformed_memory_and_movers :
    Instr.wf (.sramAccess ⟨0, some ⟨.read, 0, []⟩⟩ []) = false ∧ Instr.wf (.sramAccess ⟨0, none⟩ [(.hst, ⟨.write, 7, [1, 2]⟩)]) = false
    ∧ Instr.wf (.sramAccess ⟨383, some ⟨.write, 6, [1, 2]⟩⟩ []) = true ∧ Instr.wf (.sramAccess ⟨384, none⟩ []) = false
    ∧ Instr.wf (.dmaCtlGo 64) = false ∧ Instr.wf (.dmaNextLoWrite 64 0) = false ∧ Instr.wf (.dmaNextLoWrite 0 (2 ^ 32)) = false
    ∧ Instr.wf (.dmaBurst 64 none) = false ∧ Instr.wf (.descriptorEnd 64 false) = false ∧ Instr.wf (.bltCtlGo 2) = false
    ∧ Instr.wf (.transferTimeout (2 ^ 16)) = false ∧ Instr.wf (.attestReportDone (2 ^ 16)) = false := by decide

theorem test_illformed_power :
    Instr.wf (.standbyWake 0) = false ∧ Instr.wf (.standbyWake 4) = false
    ∧ Instr.wf (.consoleCommand (.firmware 2 pk0)) = false ∧ Instr.wf (.consoleCommand (.firmware 0 { pk0 with args := [] })) = false
    ∧ Instr.wf (.consoleCommand (.reqState 7)) = false ∧ Instr.wf (.supplyDcLoss 2 ⟨true, true, false, 0, 0⟩) = false
    ∧ Instr.wf (.supplyDcGood 0 ⟨true, true, false, 2 ^ 16, 0⟩) = false ∧ Instr.wf (.supplyDcGood 0 ⟨true, true, false, 0, 256⟩) = false
    ∧ Instr.wf (.acReturn 2) = false ∧ Instr.wf (.avsUpdate []) = false ∧ Instr.wf (.railFault 24) = false
    ∧ Instr.wf (.fanFail 6 0) = false ∧ Instr.wf (.thermalWarn ⟨256, 0, 0⟩) = false ∧ Instr.wf (.thermalWarn ⟨0, 256, 0⟩) = false
    ∧ Instr.wf (.thermalFault ⟨0, 0, 256⟩) = false ∧ Instr.wf (.moduleInsert (.dl 8)) = false ∧ Instr.wf (.moduleRemove (.dl 8)) = false := by
  decide

/-! ### Spire cores -/

theorem test_add_wraps : opOn .add 0 1 0xFFFFFFFF 2 = [(3, 1, 1)] := by decide +kernel
theorem test_sub_borrows : opOn .sub 0 2 0 1 = [(3, 0xFFFFFFFF, 1)] := by decide +kernel
theorem test_logic : opOn .and 0 3 0xF0F0 0xFF = [(3, 0xF0, 1)] ∧ opOn .or 0 4 0xF000 0xF = [(3, 0xF00F, 1)]
    ∧ opOn .xor 0 5 0xFF 0xF = [(3, 0xF0, 1)] ∧ opOn .nor 0 6 0xFFFFFFF0 3 = [(3, 0xC, 1)] := by decide +kernel
theorem test_set_less : opOn .slt 0 7 0xFFFFFFFF 0 = [(3, 1, 1)] ∧ opOn .sltu 0 8 0xFFFFFFFF 0 = [(3, 0, 1)] := by decide +kernel
theorem test_shifts_take_five_bits : opOn .shl 0 9 1 33 = [(3, 2, 1)] ∧ opOn .shr 0 10 0x80000000 31 = [(3, 1, 1)]
    ∧ opOn .shra 0 11 0x80000000 31 = [(3, 0xFFFFFFFF, 1)] := by decide +kernel
theorem test_min_max : opOn .min 0 12 0xFFFFFFFF 1 = [(3, 0xFFFFFFFF, 1)] ∧ opOn .max 0 13 0xFFFFFFFF 1 = [(3, 1, 1)]
    ∧ opOn .minu 0 14 0xFFFFFFFF 1 = [(3, 1, 1)] ∧ opOn .maxu 0 15 0xFFFFFFFF 1 = [(3, 0xFFFFFFFF, 1)] := by decide +kernel
theorem test_clz : results (exec (.clz 0 3 1 0) (withWord (wordA 0 3 1 0 16) (g12 0 0))) = [(3, 32, 1)]
    ∧ results (exec (.clz 0 3 1 0) (withWord (wordA 0 3 1 0 16) (g12 0x00010000 0))) = [(3, 15, 1)] := by decide +kernel
theorem test_multiply : opOn .mul 1 0 0xFFFFFFFF 2 = [(3, 0xFFFFFFFE, 3)] ∧ opOn .mulh 1 1 0xFFFFFFFF 2 = [(3, 0xFFFFFFFF, 3)]
    ∧ opOn .mulhu 1 2 0xFFFFFFFF 2 = [(3, 1, 3)] := by decide +kernel
theorem test_divide_by_zero : opOn .div 1 3 7 0 = [(3, 0xFFFFFFFF, 18)] ∧ opOn .divu 1 4 7 0 = [(3, 0xFFFFFFFF, 18)]
    ∧ opOn .rem 1 5 7 0 = [(3, 7, 18)] ∧ opOn .remu 1 6 7 0 = [(3, 7, 18)] := by decide +kernel
theorem test_divide_truncates : opOn .div 1 3 0xFFFFFFF9 2 = [(3, 0xFFFFFFFD, 18)] ∧ opOn .rem 1 5 0xFFFFFFF9 2 = [(3, 0xFFFFFFFF, 18)]
    ∧ opOn .div 1 3 0x80000000 0xFFFFFFFF = [(3, 0x80000000, 18)] ∧ opOn .divu 1 4 7 2 = [(3, 3, 18)] ∧ opOn .remu 1 6 7 2 = [(3, 1, 18)] := by
  decide +kernel
theorem test_immediates : opImm .addk 8 0xFFFF 5 = [(3, 4, 1)] ∧ opImm .andk 9 0xFFFF 0xFFFFFFFF = [(3, 0xFFFF, 1)]
    ∧ opImm .ork 10 0x8000 1 = [(3, 0x8001, 1)] ∧ opImm .xork 11 0xFFFF 0 = [(3, 0xFFFF, 1)]
    ∧ opImm .sltk 12 0xFFFF 0 = [(3, 0, 1)] ∧ opImm .sltuk 13 0xFFFF 0 = [(3, 1, 1)] := by decide +kernel
theorem test_immediate_shifts : opImm .shlk 14 31 1 = [(3, 0x80000000, 1)] ∧ opImm .shrk 15 4 0x80000000 = [(3, 0x08000000, 1)]
    ∧ opImm .shrak 16 4 0x80000000 = [(3, 0xF8000000, 1)]
    ∧ results (exec (.movh 0 3 0 0xABCD) (withWord (wordK 17 3 0 0xABCD) id)) = [(3, 0xABCD0000, 1)] := by decide +kernel

theorem test_loads_extend :
    let s := onCore 0 [(imemFld 0 0, wordK 0x18 3 1 0xFFFF), (imemFld 0 1, wordK 0x1B 3 1 2), (dmemFld 0 0, 0x8081F0FE)] (g12 4 0)
    results (exec (.ldb 0 3 1 0xFFFF) s) = [(3, 0xFFFFFF80, 3)]
    ∧ results (exec (.ldhu 0 3 1 2) (onCore 0 [(imemFld 0 0, wordK 0x1B 3 1 2), (dmemFld 0 0, 0x8081F0FE)] (g12 0 0))) = [(3, 0x8081, 3)] := by
  decide +kernel
theorem test_store_is_little_endian : ∃ t, exec (.sth 0 2 1 2) (withWord (wordK 0x1E 2 1 2) (g12 0 0xABCD1234)) = .next t
    ∧ t.eng.reg (dmemFld 0 0) = 0x12340000 ∧ t.eng.dmemGet 0 2 1 = 0x34 ∧ t.eng.dmemGet 0 3 1 = 0x12 := by
  refine ⟨_, rfl, ?_⟩; decide +kernel
theorem test_branch_has_two_slots :
    let c := coreAfter 0 (exec (.beq 0 1 2 0xFFFF) (withWord (wordK 0x20 1 2 0xFFFF) (g12 5 5)))
    c.pc = 4 ∧ c.slot = 1 ∧ c.slotTgt = some 0xFFFFFFFC := by decide +kernel
theorem test_jal_links :
    let c := coreAfter 0 (exec (.jal 0 2) (withWord (wordJ 5 2) id))
    c.slotTgt = some 8 ∧ c.flight.map (fun x => (x.dst, x.val, x.due)) = [(31, 12, 1)] := by decide +kernel
theorem test_trap_enters :
    let c := coreAfter 0 (exec (.trap 0 0 0 9) (withWord (wordK 0x34 0 0 9) (fun c => c.setCw 8 0x100)))
    c.pc = 0x100 ∧ c.cwv 4 = 4 ∧ c.cwv 5 = 5 ∧ c.cwv 6 = 9 ∧ c.inx = true := by decide +kernel
theorem test_misaligned_load_traps :
    let c := coreAfter 0 (exec (.ldw 0 3 1 2) (withWord (wordK 0x1C 3 1 2) (g12 0 0)))
    c.cwv 5 = 3 ∧ c.cwv 4 = 0 ∧ c.cwv 6 = 2 ∧ c.flight = [] := by decide +kernel

theorem witness_SpireArithmetic :
    (∀ func ∈ (List.range 16).map (· + 1), ReadyFor 0 (wordA 0 31 1 0 func) false (withWord (wordA 0 31 1 0 func) (g12 0 0)))
    ∧ ReadyFor 33 (wordA 0 31 1 2 1) false (onCore 33 [] id)
    ∧ (∀ x ∈ [(0, 0xFFFFFFFF), (1, 0x40000000), (31, 1), (32, 0)],
        let a := ((issuing 0 (withWord (wordA 0 3 1 0 16) (g12 x.2 0))).core 0).word 1
        a.toNat < 2 ^ (32 - x.1) ∧ (x.1 < 32 → 2 ^ (31 - x.1) ≤ a.toNat)) := by
  simp only [readyFor_iff]; decide +kernel

theorem witness_SpireMultiplyDivide :
    ∀ func ∈ List.range 7, ReadyFor 0 (wordA 1 31 1 2 func) false (withWord (wordA 1 31 1 2 func) (g12 0x80000000 0xFFFFFFFF)) := by
  simp only [readyFor_iff]; decide +kernel

theorem witness_SpireImmediates :
    (∀ op ∈ [8, 9, 10, 11, 12, 13, 14, 15, 16], ReadyFor 0 (wordK op 31 1 31) false (withWord (wordK op 31 1 31) id))
    ∧ ReadyFor 0 (wordK 0x11 31 0 0xFFFF) false (withWord (wordK 0x11 31 0 0xFFFF) id) := by
  simp only [readyFor_iff]; decide +kernel

/-- `withWord`, with the bits of mask `m` inverted in core `k`'s word of key `w`. -/
def badWord (k w m x : Nat) (f : SpireCore → SpireCore) : State :=
  let s := onCore k [(imemFld k 0, x)] f
  { s with eng := { s.eng with spr := { s.eng.spr with ecc := [(w, m)] } } }

/-- Each load and store at the last address it can reach, one past it, and, of a half-word or word, at an odd one; a byte in a word with one inverted bit, at each end, and with two. -/
theorem witness_SpireLoadsStores :
    (∀ x ∈ [(0x18, 1), (0x19, 1), (0x1A, 2), (0x1B, 2), (0x1C, 4), (0x1D, 1), (0x1E, 2), (0x1F, 4)],
      let s := fun (a : Nat) => withWord (wordK x.1 3 1 0) (g12 a 0)
      let reach := fun (a : Nat) => (((issuing 0 (s a)).core 0).word 1 + BitVec.ofInt 32 (0 : BitVec 16).toInt).toNat
      (∀ a ∈ [65536 - x.2, 65536, 65535], ReadyFor 0 (wordK x.1 3 1 0) false (s a))
      ∧ (reach (65536 - x.2) % x.2 = 0 ∧ reach (65536 - x.2) < 65536) ∧ (reach 65536 % x.2 = 0 ∧ 65536 ≤ reach 65536)
      ∧ (x.2 = 1 ∨ reach 65535 % x.2 ≠ 0))
    ∧ (∀ m ∈ [1, 2 ^ 38, 3], let s := badWord 0 (dmemFld 0 16383).key m (wordK 0x1D 3 1 0) (g12 65535 0)
      ReadyFor 0 (wordK 0x1D 3 1 0) false s ∧ (issuing 0 s).spr.ecc.get (dmemFld 0 (65535 / 4)).key = m
        ∧ popCount 39 m = if m = 3 then 2 else 1)
    ∧ (Engine.reset.canonical = true ∧ 33 < 34 ∧ 65532 < 65536 ∧ 65532 % 4 = 0 ∧ (0 ≠ 33 ∨ 65535 < 65532)) := by
  simp only [readyFor_iff]; decide +kernel

theorem witness_SpireTransfers :
    (∀ op ∈ [0x20, 0x21, 0x22, 0x23, 0x24, 0x25], ∀ a ∈ [0x80000000, 0, 0x7FFFFFFF], ∀ b ∈ [0, 0x80000000],
      ReadyFor 0 (wordK op 1 2 0x8000) true (withWord (wordK op 1 2 0x8000) (g12 a b)))
    ∧ ReadyFor 0 (wordA 2 0 1 0 0) true (withWord (wordA 2 0 1 0 0) id) ∧ ReadyFor 0 (wordA 2 31 1 0 1) true (withWord (wordA 2 31 1 0 1) id)
    ∧ ReadyFor 0 (wordJ 4 0x2000000) true (withWord (wordJ 4 0x2000000) id) ∧ ReadyFor 0 (wordJ 5 0x1FFFFFF) true (withWord (wordJ 5 0x1FFFFFF) id)
    ∧ ReadyFor 33 (wordJ 5 0) true (onCore 33 [] id) := by
  simp only [readyFor_iff]; decide +kernel

/-- SYS at the numbers where its clauses meet, as a read (`low < 32768`) and as a write; a core and a value for the writes. -/
theorem witness_SpireControlWords :
    (∀ n ∈ [0, 1, 2, 3, 4, 14, 15, 16, 0x3F, 0x40, 0x47, 0x48, 0x4F, 0x50, 0xFF, 0x100, 0x101, 0x102, 0x103, 0x104, 0x105, 0x106, 0xFFF],
      ∀ w ∈ [0, 32768],
        ReadyFor 0 (wordK 0x30 3 1 (BitVec.ofNat 16 (w + n))) false (withWord (wordK 0x30 3 1 (BitVec.ofNat 16 (w + n))) id))
    ∧ ReadyFor 33 (wordK 0x30 3 1 1) false (onCore 33 [] id)
    ∧ (let c : SpireCore := { SpireCore.reset with regs := [(24, 5), (32, 6)], cw := [(0, 31), (5, 63), (8, 0xFFFFFFFC)] }
       c.cw.wf = true ∧ c.regs.wf = true ∧ c.cwv 0 < 32 ∧ c.cwv 5 < 64 ∧ c.cwv 8 % 4 = 0 ∧ c.cwv 10 % 4 = 0 ∧ c.cwv 13 % 4 = 0
       ∧ (∀ n ∈ [1, 2, 3, 6, 11, 14, 15, 0x100, 0x102], c.cwv n < 2 ^ 32) ∧ c.cwv 0x103 < 4 ∧ c.cwv 0x104 < 2 ^ 13 ∧ c.cwv 0x105 < 2 ^ 14) := by
  simp only [readyFor_iff]; decide +kernel

theorem witness_SpireExceptions :
    (let s := fun (pc : Nat) => withWord 0 (fun c => { c with pc := pc })
     spireWord (.add 0 3 1 2) = some (0, wordA 0 3 1 2 1, false) ∧ ((s 65536).eng.core 0).st = 1
     ∧ 65536 ≤ ((issuing 0 (s 65536)).core 0).pc ∧ ((issuing 0 (s 2)).core 0).pc % 4 ≠ 0 ∧ ((s 2).eng.core 0).inx = false)
    ∧ (let s := withWord (0x3F000000 + 2 ^ 26 - 1) id
       let x := (issuing 0 s).reg (imemFld 0 (((issuing 0 s).core 0).pc / 4))
       ((issuing 0 s).core 0).pc < 65536 ∧ ((issuing 0 s).core 0).pc % 4 = 0 ∧ x = 0x3F000000 + 2 ^ 26 - 1)
    ∧ wordCause 0 = 1 ∧ wordCause (wordA 0x38 0 0 0 3) = 6 ∧ wordCause (wordA 0x3B 0 0 0 5) = 6
    ∧ (let s := withWord (wordJ 4 0) (fun c => { c with pc := 65532, slot := 1, slotTgt := some 8 })
       let s' : State := { s with eng := s.eng.setReg (imemFld 0 16383) (wordJ 4 0) }
       spireWord (.jmp 0 0) = some (0, wordJ 4 0, true) ∧ (s'.eng.core 0).st = 1 ∧ ((issuing 0 s').core 0).pc < 65536
       ∧ wordCause (wordJ 4 0) = 0 ∧ (issuing 0 s').reg (imemFld 0 (((issuing 0 s').core 0).pc / 4)) = wordJ 4 0 ∧ ((issuing 0 s').core 0).slot ≠ 0)
    ∧ (let s := badWord 0 (imemFld 0 0).key 3 (wordA 0 3 1 2 1) id
       (s.eng.core 0).st = 1 ∧ ((issuing 0 s).core 0).pc = 0
         ∧ popCount 39 ((issuing 0 s).spr.ecc.get (imemFld 0 (((issuing 0 s).core 0).pc / 4)).key) = 2)
    ∧ (let s := onCore 33 [] (fun c => { c with pc := 65536, slot := 2 })
       spireWord (.jmp 33 0) = some (33, wordJ 4 0, true) ∧ isService 33 = true ∧ (s.eng.core 33).st = 1 ∧ ((issuing 33 s).core 33).pc % 4 = 0
         ∧ ((issuing 33 s).core 33).slot ≠ 0)
    ∧ ReadyFor 0 (wordK 0x34 0 0 0xFFFF) true (withWord (wordK 0x34 0 0 0xFFFF) id)
    ∧ ((withWord (wordK 0x34 0 0 0xFFFF) (fun c => c.setStat 4 true)).eng.core 0).inx = true
    ∧ (State.reset.eng.core 0).st ≠ 1 := by
  simp only [readyFor_iff]; decide +kernel

/-- ERET in a handler entered outside delay slots and in each slot, from a normal interrupt, and from nothing; FERET from a fast interrupt,
from nothing and inside a handler; WFF before the first frame, on a service core, after RES, past the budget and in its last cycle. -/
theorem witness_SpireReturnsAndWait :
    (∀ d ∈ [0, 1, 2], let s := withWord (wordJ 0x32 0) (fun c => (c.setStat 4 true).setCw 5 (16 * d))
      let c := (issuing 0 s).core 0
      ReadyFor 0 (wordJ 0x32 0) true s ∧ c.inx = true ∧ c.cwv 5 / 16 % 4 = d)
    ∧ (let s := withWord (wordJ 0x32 0) (fun c => c.setStat 2 true)
       ReadyFor 0 (wordJ 0x32 0) true s ∧ ((issuing 0 s).core 0).inx = false ∧ ((issuing 0 s).core 0).inn = true)
    ∧ (let s := withWord (wordJ 0x32 0) id
       ReadyFor 0 (wordJ 0x32 0) true s ∧ ((issuing 0 s).core 0).inx = false ∧ ((issuing 0 s).core 0).inn = false)
    ∧ (let s := withWord (wordJ 0x33 0) (fun c => c.setStat 3 true)
       ReadyFor 0 (wordJ 0x33 0) true s ∧ ((issuing 0 s).core 0).inf = true ∧ ((issuing 0 s).core 0).inx = false)
    ∧ (let s := withWord (wordJ 0x33 0) (fun c => (c.setStat 3 true).setStat 4 true)
       ReadyFor 0 (wordJ 0x33 0) true s ∧ ((issuing 0 s).core 0).inx = true)
    ∧ ReadyFor 33 (wordA 0x31 31 0 0 0) true (onCore 33 [] id) ∧ isService 33 = true
    ∧ (∀ x ∈ [(true, 0, 1), (false, 5, 5), (false, 4, 5)],
       let s := withWord (wordA 0x31 31 1 0 0) (fun c => { c with frame := some (fr 7 0), done := x.1, cyc := x.2.1, endAt := x.2.2 })
       ReadyFor 0 (wordA 0x31 31 1 0 0) true s ∧ ((issuing 0 s).core 0).frame = some (fr 7 0)
         ∧ ((issuing 0 s).core 0).done = x.1 ∧ ((issuing 0 s).core 0).cyc = x.2.1 ∧ ((issuing 0 s).core 0).endAt = x.2.2)
    ∧ ReadyFor 0 (wordA 0x31 0 0 0 0) true (withWord (wordA 0x31 0 0 0 0) id)
    ∧ ((issuing 0 (withWord (wordA 0x31 0 0 0 0) id)).core 0).frame = none := by
  simp only [readyFor_iff]; decide +kernel

theorem witness_SpireResultsArrive :
    (let c := (onCore 33 [] (fun c => { c with cyc := 4, flight := [⟨39, 9, 4⟩, ⟨0, 1, 5⟩] })).eng.core 33
     c.flight = ⟨39, 9, 4⟩ :: [⟨0, 1, 5⟩] ∧ c.gather = [] ∧ c.st = 1 ∧ 4 ≤ c.cyc ∧ ∀ y ∈ [(⟨0, 1, 5⟩ : Flight)], c.cyc < y.due)
    ∧ (let s := onCore 0 [] (fun c => { c with st := 3, cyc := 4, flight := [⟨0, 9, 21⟩, ⟨5, 1, 22⟩] })
       let c := s.eng.core 0
       c.flight = ⟨0, 9, 21⟩ :: [⟨5, 1, 22⟩] ∧ c.gather = [] ∧ c.st ≠ 1 ∧ s.eng.spr.cores.length = 34
         ∧ ∀ y ∈ [(⟨5, 1, 22⟩ : Flight)], max c.cyc 21 < y.due) := by decide +kernel

/-- A presented normal and fast interrupt at a running core and at one in WFF; a service core that takes either; a decision core whose frame
is in the last cycle of its budget. -/
theorem witness_SpireInterruptsAndWakes :
    (let s := onCore 33 [(Reg.IRQ_TPRES_NVALID 33, 1), (Reg.IRQ_TPRES_NSRC 33, 4095)] (fun c => { (c.setCw 0 1) with cyc := 7 })
     let c := s.eng.core 33
     (c.st = 1 ∧ c.slot = 0 ∧ c.inx = false ∧ c.lastDue ≤ c.cyc ∧ c.presN ≤ c.cyc ∧ 7 = c.cyc) ∧ s.eng.reg (Reg.IRQ_TPRES_NVALID 33) = 1
       ∧ 4095 = s.eng.reg (Reg.IRQ_TPRES_NSRC 33) ∧ c.ie = true ∧ c.inn = false ∧ c.inf = false ∧ c.fie = false)
    ∧ (let s := onCore 0 [(Reg.IRQ_TPRES_FVALID 0, 1), (Reg.IRQ_TPRES_FSRC 0, 3)]
         (fun c => { (c.setCw 0 2) with st := 3, cyc := 7, flight := [⟨3, 1, 9⟩], presF := 10 })
       let c := s.eng.core 0
       (c.st = 3 ∧ isService 0 = false ∧ c.slot = 0 ∧ c.inx = false ∧ 10 = max (max c.cyc c.lastDue) c.presF) ∧ s.eng.reg (Reg.IRQ_TPRES_FVALID 0) = 1
         ∧ 3 = s.eng.reg (Reg.IRQ_TPRES_FSRC 0) ∧ c.fie = true ∧ c.inf = false)
    ∧ (let s := onCore 32 [(Reg.IRQ_TPRES_FVALID 32, 1), (Reg.IRQ_TPRES_FSRC 32, 3)] (fun c => { c with st := 3 })
       (s.eng.core 32).st = 3 ∧ s.eng.reg (Reg.IRQ_TPRES_FVALID 32) = 1 ∧ 3 = s.eng.reg (Reg.IRQ_TPRES_FSRC 32))
    ∧ (let s := onCore 33 [(Reg.IRQ_TPRES_NVALID 33, 1)] (fun c => { c with st := 3 })
       (s.eng.core 33).st = 3 ∧ s.eng.reg (Reg.IRQ_TPRES_FVALID 33) ≠ 1 ∧ s.eng.reg (Reg.IRQ_TPRES_NVALID 33) = 1
         ∧ 0 = s.eng.reg (Reg.IRQ_TPRES_NSRC 33))
    ∧ (let s := seeing (availAge []) [fr 0 0] [(Reg.TIM_STAT_LOCK, 1)] (onCore 0 [] (fun c => { c with st := 3 }))
       let c := s.eng.core 0
       c.st = 3 ∧ s.eng.locked = true ∧ c.frame = none
         ∧ (framesOf s.eng 0).find? (fun f => decide (max c.cyc c.lastDue < budgetEnd s.eng f)) = some (fr 0 0)) := by decide +kernel

theorem witness_SpireFrameReads :
    (∀ x ∈ [(0, 1), (0, 2), (1, 1), (3, 3), (3, 4)], let w := wordA (0x38 + x.1) 31 1 (if x.1 = 0 ∧ x.2 = 1 then 0 else 2) x.2
      ReadyFor 31 w false (onCore 31 [(imemFld 31 0, w)] id) ∧ ((issuing 31 (onCore 31 [(imemFld 31 0, w)] id)).core 31).frame = none
      ∧ ReadyFor 31 w false (takenState w 0 1))
    ∧ (let c := (issuing 31 (takenState (wordA 0x38 3 1 2 2) 0 3)).core 31
       ∃ f, c.frame = some f ∧ (f.pic.objs.getD 0 [])[0]? = some ob ∧ (f.pic.objs.getD 1 []).length ≤ 0 ∧ (f.pic.objs.getD 0 []).length ≤ 1)
    ∧ (let e := issuing 31 (takenState (wordA 0x39 3 1 2 1) 0 1)
       heldFrame e (e.core 31) 1 = some (fr 8 8) ∧ heldFrame e (e.core 31) 2 = none ∧ heldFrame e (e.core 31) 63 = none)
    ∧ (let c := SpireCore.reset
       (∀ a ∈ [0, 15, 0x100, 0x1000, 0x2000, 0x210F, 0x3000, 0x301F, 0x4000, 0x401F, 0x5000], (frameQuantity c a).isSome = true)
       ∧ ∀ a ∈ [16, 0x1001, 0x2010, 0x3100, 0x4100, 0x5001, 0x6000, 0xF000], frameQuantity c a = none) := by
  refine ⟨?_, ⟨_, rfl, ?_⟩, ?_⟩
  · simp only [readyFor_iff]; decide +kernel
  all_goals decide +kernel

/-- GATHER of a 2 × 1 window: at an odd address, at the last two cells of data memory, and one cell past them. -/
theorem witness_SpireGather :
    ∀ b ∈ [1, 65532, 65534], let s := withWord (wordA 0x39 3 1 2 2) (fun c => (g12 0 b c).setCw 0x105 1)
      let c := (issuing 0 s).core 0
      ReadyFor 0 (wordA 0x39 3 1 2 2) false s ∧ c.get 2 = b ∧ c.cwv 0x105 % 16 + 1 = 2 ∧ c.cwv 0x105 / 16 % 16 + 1 = 1
        ∧ (b % 2 ≠ 0 ∨ b + 4 ≤ 65536 ∨ 65536 < b + 4) := by
  simp only [readyFor_iff]; decide +kernel

theorem witness_SpireBinsResultFetch :
    (∀ x ∈ [(2, 1), (2, 2), (2, 3), (2, 4), (3, 1), (3, 2)], ∀ rd ∈ [0, 31], let w := wordA (0x38 + x.1) rd 1 2 x.2
      ReadyFor 31 w false (onCore 31 [(imemFld 31 0, w)] id))
    ∧ (∀ x ∈ [(0, 1), (1, 1), (2, 1), (2, 4), (3, 1)], ReadyFor 33 (wordA (0x38 + x.1) 0 1 0 x.2) false (onCore 33 [] id))
    ∧ (let c := fun (k a b len : Nat) (busy : Bool) =>
         (issuing k (onCore k [(imemFld k 0, wordA 0x3A 0 1 2 4)] (fun c => ((g12 a b c).setCw 0x104 len).setCw 0x103 (2 * b2n busy)))).core k
       let fits := fun (k a b len : Nat) (busy : Bool) => (c k a b len busy).get 1 = a ∧ (c k a b len busy).get 2 = b
         ∧ (c k a b len busy).cwv 0x104 = len ∧ tbit ((c k a b len busy).cwv 0x103) 1 = busy
       fits 0 (2 ^ 21 - 8) (65536 - 8) 8 false ∧ fits 32 (96 * 2 ^ 20 - 8) 0 8 true ∧ fits 0 4 0 8 false ∧ fits 0 8 4 8 false ∧ fits 0 8 8 4 false) := by
  simp only [readyFor_iff]; decide +kernel

/-- A port request of core 31 at distance 255, of a core without the port, and without a distance; a finished fetch; an overrun in the
first BC after the budget. -/
theorem witness_CoreEvents :
    (let x : Fetch := ⟨0, 65528, 8, 0⟩
     ((onCore 33 [] (fun c => { c with fetch := some x })).eng.core 33).fetch = some x)
    ∧ (∀ cp ∈ [4, 7], ReadyFor 31 (wordA (0x38 + cp) 31 1 2 2047) false (onCore 31 [(imemFld 31 0, wordA (0x38 + cp) 31 1 2 2047)] id))
    ∧ (let e := issuing 31 (seeing 0 [] [(Reg.ULA_PDIST_DIST, 0xFF000000)] (onCore 31 [] id))
       let f : Engine := { e with active := e.active.puts [(Reg.ULA_PMAP_CP7, 31)] }
       portCore f 7 = 31 ∧ f.reg Reg.ULA_PDIST_DIST / 2 ^ (8 * (7 - 4)) % 256 ≠ 0 ∧ f.reg Reg.ULA_PDIST_DIST / 2 ^ (8 * (4 - 4)) % 256 = 0
         ∧ portCore f 4 ≠ 31)
    ∧ (let f := fr 0 0
       let s := seeing (availAge [] + interleave []) [f] [] State.reset
       f.n % interleave f.cfg = 0 ∧ f.dec.resOk = false ∧ f.dec.covr = false ∧ f.dead = false
         ∧ availAge f.cfg + interleave f.cfg ≤ s.eng.age f ∧ framesOf s.eng 0 = [f]) := by
  simp only [readyFor_iff]; decide +kernel

theorem test_finished_frame_keeps_its_result :
    let s := seeing 20 [fr 9 9] [] (withWord (wordA 0x31 3 0 0 0) (fun c => { c with frame := some (fr 9 9), done := false, cyc := 4, endAt := 5, resw := 77 }))
    ∃ t, exec (.wff 0 3 0 0 0) s = .next t ∧ t.eng.reg (Reg.SPR_CRES_RES 0) = 77 ∧ t.eng.frames.map (fun f => (f.dec.resOk, f.dec.res)) = [(true, 77)] := by
  refine ⟨_, rfl, ?_⟩; decide +kernel

theorem test_budget_overrun_of_a_frame_not_taken :
    let s := seeing (availAge [] + interleave []) [fr 0 0] [] State.reset
    ∃ t, exec (.budgetOverrun 0) s = .next t ∧ t.eng.reg (Reg.SPR_CSKIP_COUNT 0) = 1 ∧ t.eng.reg (Reg.SPR_COVR_COUNT 0) = 0
      ∧ t.eng.reg Reg.SPR_OVRSEEN_MASK = 1 := by
  refine ⟨_, rfl, ?_⟩; decide +kernel

theorem test_histogram_bin_wraps :
    (coreAfter 0 (exec (.hadd 0 0 1 2) (withWord (wordA 0x3A 0 1 2 1) (fun c => { g12 511 2 c with bins := [(255, 0xFFFFFFFF)] })))).bins = [(255, 1)] := by
  decide +kernel

theorem test_fetch_while_busy_raises_cp :
    (coreAfter 0 (exec (.fetch 0 0 1 2) (withWord (wordA 0x3A 0 1 2 4) (fun c => (g12 0 0 c).setCw 0x103 2)))).cwv 5 = 6 := by decide +kernel

/-! ### Commands of the host: where each is accepted, and where it is refused -/

/-- The cases of a basic command all occur: accepted with its commit accepted, accepted with its commit refused, and refused. -/
def BasicMet (f : Fn) (extra : Engine → Packet → Option Status) (stage : Engine → Packet → Engine) (object : Nat) : Prop :=
  (∃ (p : Packet) (s : State), refuse f [f.block] extra s.eng p = none
    ∧ (acceptCommit (stagedFor f.block stage p s.eng) p [f.block] object).isRight = true)
  ∧ (∃ (p : Packet) (s : State) (st : Status), refuse f [f.block] extra s.eng p = none
    ∧ acceptCommit (stagedFor f.block stage p s.eng) p [f.block] object = .inl st)
  ∧ ∃ (p : Packet) (s : State) (st : Status), refuse f [f.block] extra s.eng p = some st

/-- The cases of an expert function: accepted without COMMIT, accepted with it, refused. -/
def ExpertMet (f : Fn) (extra : Engine → Packet → Option Status) : Prop :=
  (∃ (p : Packet) (s : State), refuse f [f.block] extra s.eng p = none ∧ p.commit = false)
  ∧ (∃ (p : Packet) (s : State), refuse f [f.block] extra s.eng p = none ∧ p.commit = true)
  ∧ ∃ (p : Packet) (s : State) (st : Status), refuse f [f.block] extra s.eng p = some st

/-- The cases of a command that acts at once or answers later: accepted, refused. -/
def ActsMet (f : Fn) (extra : Engine → Packet → Option Status) : Prop :=
  (∃ (p : Packet) (s : State), refuse f (f.locks p) extra s.eng p = none) ∧ ∃ (p : Packet) (s : State) (st : Status), refuse f (f.locks p) extra s.eng p = some st

/-- A packet with an undefined flag is refused by every function. -/
theorem undefined_flag_refused (f : Fn) (locks : List Nat) (extra : Engine → Packet → Option Status) (e : Engine) :
    refuse f locks extra e { pk0 with flags := 32 } = some .badop := rfl

/-- What `basicMet_of` asks of a packet and a state, as a computation. -/
def basicOk (f : Fn) (extra : Engine → Packet → Option Status) (p : Packet) (s : State) : Bool :=
  (refuse f [f.block] extra s.eng p).isNone && (refuse f [f.block] extra (busy s).eng p).isNone && s.eng.st == stSafe && !s.eng.locked
    && s.eng.host.pends.isEmpty && p.applyAt == 0 && p.ctx == 0 && stagedBlocks.contains f.block

/-- A packet that is accepted in a SAFE, unlocked engine without a pending commit, and while commits are pending. The staging step changes
neither registers nor the pending commits. -/
theorem basicMet_of {f : Fn} {extra : Engine → Packet → Option Status} {stage : Engine → Packet → Engine} {object : Nat} (p : Packet) (s : State)
    (h : basicOk f extra p s = true) (hs : ∀ e, (stage e p).host = e.host ∧ (stage e p).regs = e.regs) : BasicMet f extra stage object := by
  simp only [basicOk, Bool.and_eq_true, Option.isNone_iff_eq_none, beq_iff_eq, Bool.not_eq_true', List.isEmpty_iff] at h
  obtain ⟨⟨⟨⟨⟨⟨⟨h1, h2⟩, hst⟩, hl⟩, hp⟩, ha⟩, hc⟩, hb⟩ := h
  have regs : ∀ e, (stagedFor f.block stage p e).regs = e.regs := by
    intro e; unfold stagedFor Engine.takeLock; split <;> exact (hs e).2
  have pends : ∀ e, (stagedFor f.block stage p e).host.pends = e.host.pends := by
    intro e; unfold stagedFor Engine.takeLock; split <;> simp [(hs e).1]
  refine ⟨⟨p, s, h1, ?_⟩, ⟨p, busy s, .busy f.block, h2, ?_⟩, { pk0 with flags := 32 }, s, .badop, undefined_flag_refused ..⟩
  · have e1 : (stagedFor f.block stage p s.eng).st = stSafe := by unfold Engine.st Engine.reg; rw [regs]; exact hst
    have e2 : (stagedFor f.block stage p s.eng).locked = false := by unfold Engine.locked Engine.reg; rw [regs]; exact hl
    have e3 : [f.block].find? (fun b => (stagedFor f.block stage p s.eng).pendingOn b) = none := by
      simp [Engine.pendingOn, pends, hp]
    unfold acceptCommit
    rw [e3]
    simp [nameCrossing, stagedOwner, e1, e2, ha, hc]
  · have e3 : [f.block].find? (fun b => (stagedFor f.block stage p (busy s).eng).pendingOn b) = some f.block := by
      simp only [Engine.pendingOn, pends, busy]
      simp only [List.any_cons, List.any_nil, Bool.or_false, List.find?_cons, hb]
    unfold acceptCommit
    rw [e3]

/-- The staging step that writes fields. -/
theorem writing_keeps (ws : Engine → Packet → List (Fld × Nat)) (p : Packet) (e : Engine) :
    (writing ws e p).host = e.host ∧ (writing ws e p).regs = e.regs := ⟨rfl, rfl⟩

/-- `basicMet_of` for a command that writes fields. -/
theorem basicMet_writing {f : Fn} {extra : Engine → Packet → Option Status} {object : Nat} (ws : Engine → Packet → List (Fld × Nat)) (p : Packet)
    (s : State) (h : basicOk f extra p s = true) : BasicMet f extra (writing ws) object :=
  basicMet_of p s h (writing_keeps ws p)

/-- An expert packet that is accepted with STAGE and EXPERT, and with COMMIT too. -/
theorem expertMet_of {f : Fn} {extra : Engine → Packet → Option Status} (p : Packet) (s : State)
    (h : ∀ v ∈ [9, 11], refuse f [f.block] extra s.eng { p with flags := v } = none) : ExpertMet f extra :=
  ⟨⟨_, s, h 9 (by simp), show tbit 9 1 = false by decide⟩, ⟨_, s, h 11 (by simp), show tbit 11 1 = true by decide⟩, { pk0 with flags := 32 }, s, .badop, undefined_flag_refused ..⟩

theorem actsMet_of {f : Fn} {extra : Engine → Packet → Option Status} (p : Packet) (s : State) (h : refuse f (f.locks p) extra s.eng p = none) :
    ActsMet f extra := ⟨⟨p, s, h⟩, { pk0 with flags := 32 }, s, .badop, undefined_flag_refused ..⟩

/-! #### Payloads of zeros too long to be computed with -/

/-- A range check that passes can be left out. -/
theorem refuse_of_range {f : Fn} {locks : List Nat} {extra : Engine → Packet → Option Status} {e : Engine} {p : Packet} (hr : f.range e p = none) :
    refuse f locks extra e p = refuse { f with range := fun _ _ => none } locks extra e p := by
  unfold refuse checkHeader checkState
  simp only [hr]
  rfl

/-- A payload of zeros gives zero words. -/
theorem word_of_zeros (p : Packet) (n i : Nat) (hp : p.payload = List.replicate n 0) : p.word i = 0 := by
  unfold Packet.word leAt
  rw [hp, List.drop_replicate, List.take_replicate]
  generalize min 4 (n - 4 * i) = k
  induction k with
  | zero => rfl
  | succ k ih => have h : leVal (List.replicate (k + 1) 0) = 0 + 256 * leVal (List.replicate k 0) := rfl
                 rw [h, ih]

theorem wordsBad_of_zeros (p : Packet) (n : Nat) (hp : p.payload = List.replicate n 0) (ok : Nat → Nat → Bool) (h : ∀ i, ok i 0 = true) :
    wordsBad p ok = none := by
  unfold wordsBad
  simp [word_of_zeros p n _ hp, h]

/-- A packet with `n` bytes of payload, all zero. -/
def zeros (n target : Nat) (args : List Nat) : Packet := { pk 0 target args [] with length := n, payload := List.replicate n 0 }

theorem zeros_payload (n target v : Nat) (args : List Nat) : ({ zeros n target args with flags := v } : Packet).payload = List.replicate n 0 := rfl

theorem zeros_length (n target : Nat) (args : List Nat) : (zeros n target args).payload.length = (zeros n target args).length := by
  simp [zeros]

theorem rawLut_zeros (e : Engine) (p : Packet) (hp : p.payload = List.replicate 16384 0) (ht : p.target = 63) : fnRawLut.range e p = none := by
  have h := wordsBad_of_zeros p 16384 hp (fun _ v => decide (v ≤ full18)) (fun _ => rfl)
  simp [fnRawLut, firstBad, ht, h]

theorem rawIlut_zeros (e : Engine) (p : Packet) (hp : p.payload = List.replicate 4096 0) (ht : p.target = 1) (ha : p.arg 0 = 7) :
    fnRawIlut.range e p = none := by
  have h := wordsBad_of_zeros p 4096 hp (fun _ v => decide (v ≤ full18)) (fun _ => rfl)
  simp [fnRawIlut, firstBad, domeTarget, ht, ha, h]

theorem rawOlut_zeros (e : Engine) (p : Packet) (hp : p.payload = List.replicate 16384 0) (ht : p.target = 1) : fnRawOlut.range e p = none := by
  have h := wordsBad_of_zeros p 16384 hp (fun _ v => decide (v ≤ 65535)) (fun _ => rfl)
  simp [fnRawOlut, firstBad, domeTarget, ht, h]

theorem rawMatrix_zeros (e : Engine) (p : Packet) (hp : p.payload = List.replicate 2048 0) (ht : p.target = 31) : fnEvtRawMatrix.range e p = none := by
  have h := wordsBad_of_zeros p 2048 hp (fun i v => (matrixPairs p.target i v).all (fun sc => sourceListed sc.1 && consumerListed sc.2))
    (fun i => by simp [matrixPairs, tbit, bit])
  rw [ht] at h
  simp only [fnEvtRawMatrix, firstBad, ht]
  simpa using h

theorem loadSprite_ok : basicOk fnLoadSprite noExtra (zeros 1024 63 []) (safe [] []) = true := by
  have hr : ∀ e, fnLoadSprite.range e (zeros 1024 63 []) = none := by
    intro e
    have h := wordsBad_of_zeros (zeros 1024 63 []) 1024 rfl (fun _ v => spriteEntryOk v) (fun _ => rfl)
    have ht : (zeros 1024 63 []).target = 63 := rfl
    simp [fnLoadSprite, firstBad, ht, h]
  unfold basicOk
  rw [refuse_of_range (hr _), refuse_of_range (hr _)]
  decide +kernel

theorem witness_TimingLinkFields (ws : Engine → Packet → List (Fld × Nat)) :
    BasicMet fnSetSource noExtra (writing ws) 0 ∧ BasicMet fnSetOrbit noExtra (writing ws) 0 ∧ BasicMet fnSetMult noExtra (writing ws) 0
    ∧ BasicMet fnSetAlign noExtra (writing ws) 0 ∧ ExpertMet fnRawRelease noExtra ∧ BasicMet fnLaneMode (lnkExtra wLaneMode) (writing ws) 0
    ∧ BasicMet fnSetSources (lnkExtra wSetSources) (writing ws) 0 ∧ BasicMet fnEqMode (lnkExtra wEqMode) (writing ws) 0
    ∧ BasicMet fnSetTrx noExtra (writing ws) 0 ∧ ExpertMet fnRawLanes (lnkExtra wRawLanes) ∧ ExpertMet fnRawSources (lnkExtra wRawSources) :=
  ⟨basicMet_writing ws (pk 0 0 [1, 80000] []) (safe [] []) (by decide +kernel),
   basicMet_writing ws (pk 0 0 [16384] []) (safe [] []) (by decide +kernel),
   basicMet_writing ws (pk 0 0 [3] []) (safe [] []) (by decide +kernel),
   basicMet_writing ws (pk 0 0 [64, 4095] []) (safe [] []) (by decide +kernel),
   expertMet_of (pk 0 0 [511] [255, 15, 0, 0]) (safe [] []) (by decide +kernel),
   basicMet_writing ws (pk 0 143 [2] []) (safe [] []) (by decide +kernel),
   basicMet_writing ws (pk 0 143 [] (List.replicate 32 7)) (safe [] []) (by decide +kernel),
   basicMet_writing ws (pk 0 0 [2] []) (safe [] []) (by decide +kernel),
   basicMet_writing ws (pk 0 0 [1] []) (safe [] []) (by decide +kernel),
   expertMet_of (pk 0 143 [] [0x33, 1, 0, 0]) (safe [] []) (by decide +kernel),
   expertMet_of (pk 0 1151 [] [255, 255, 255, 7]) (safe [] []) (by decide +kernel)⟩

theorem witness_CellMapFields (ws : Engine → Packet → List (Fld × Nat)) :
    BasicMet fnSetGeom noExtra (writing ws) 0 ∧ BasicMet fnDefineSource extraDefine (writing ws) 0
    ∧ BasicMet fnPlace (mapExtra wPlace) (writing ws) 0 ∧ BasicMet fnPlaceSrc extraPlaceSrc (writing ws) 0
    ∧ BasicMet fnSetConv (mapExtra wSetConv) (writing ws) 0
    ∧ BasicMet fnMaskCells (fun e p => maskPerm e (cellsWrite p)) (fun e p => stageMask (cellsWrite p) e) 0
    ∧ BasicMet fnUnplace (mapExtra wUnplace) (writing ws) 0 ∧ ExpertMet fnRawTmap (mapExtra wRawTmap)
    ∧ ExpertMet fnRawConv (mapExtra wRawConv) ∧ ExpertMet fnRawLut noExtra := by
  let defined : List (Fld × Nat) := [(Reg.DOM_LSRC_SRC 0 0, 1), (Reg.MAP_SDEF_KIND 1, 1), (Reg.MAP_SDEF_W 1, 256), (Reg.MAP_SDEF_H 1, 128),
    (Reg.MAP_GEOM_COLS, 256), (Reg.MAP_GEOM_ROWS, 128)]
  refine ⟨basicMet_writing ws (pk 0 0 [256, 128] []) (safe [] []) (by decide +kernel),
    basicMet_writing ws (pk 0 30 [2, 256, 128, 1, 2 ^ 18 - 1, 2 ^ 18 - 1] []) (safe [] []) (by decide +kernel),
    basicMet_writing ws (pk 0 1151 [0, 255, 127, 2046, 1, 256] []) (safe [] defined) (by decide +kernel),
    basicMet_writing ws (pk 0 1151 [1, 255, 127, 2046, 1, 256, 0] []) (safe [] defined) (by decide +kernel),
    basicMet_writing ws (pk 0 1151 [1, 65535, 15, 65535, 63, 1, 36863] []) (safe [] []) (by decide +kernel),
    basicMet_of (pk 0 30 [1, 1] [255, 0, 127, 0]) (safe [] []) (by decide +kernel) (fun _ => ⟨rfl, rfl⟩),
    basicMet_writing ws (pk 0 1151 [2046, 1] []) (safe [] []) (by decide +kernel),
    expertMet_of (pk 0 36863 [] [0, 248, 255, 131]) (safe [] []) (by decide +kernel),
    expertMet_of (pk 0 1151 [] (List.replicate 16 0)) (safe [] []) (by decide +kernel),
    expertMet_of (zeros 16384 63 []) (safe [] []) ?_⟩
  intro v hv
  rw [refuse_of_range (rawLut_zeros _ _ (zeros_payload ..) rfl)]
  revert v; decide +kernel

theorem witness_DomeFields (ws : Engine → Packet → List (Fld × Nat)) :
    BasicMet fnSetLayer noExtra (writing ws) 0 ∧ BasicMet fnSetBlend noExtra (writing ws) 0 ∧ BasicMet fnSetFormat noExtra (writing ws) 0
    ∧ BasicMet fnSetPolicy noExtra (writing ws) 0 ∧ BasicMet fnSetDome noExtra (writing ws) 0 ∧ BasicMet fnSetRegion noExtra (writing ws) 0
    ∧ ExpertMet fnRawLayers noExtra ∧ ExpertMet fnRawIlut noExtra ∧ ExpertMet fnRawOlut noExtra ∧ ExpertMet fnRawAlpha noExtra := by
  refine ⟨basicMet_writing ws (pk 0 1 [7, 63, 1, 0x37F, 255, 2 ^ 32 - 512, 256, 512] []) (safe [] []) (by decide +kernel),
    basicMet_writing ws (pk 0 1 [7, 2, 1, 256, 2 ^ 32 - 1] []) (safe [] []) (by decide +kernel),
    basicMet_writing ws (pk 0 1 [7, 1, 8] []) (safe [] []) (by decide +kernel),
    basicMet_writing ws (pk 0 1 [7, 2, 65535] []) (safe [] []) (by decide +kernel),
    basicMet_writing ws (pk 0 1 [8, 2 ^ 18 - 1] []) (safe [] []) (by decide +kernel),
    basicMet_writing ws (pk 0 1 [15, 255, 256, 127, 128] []) (safe [] []) (by decide +kernel),
    expertMet_of (pk 0 1 [7] (List.replicate 32 0)) (safe [] []) (by decide +kernel),
    expertMet_of (zeros 4096 1 [7]) (safe [] []) ?_, expertMet_of (zeros 16384 1 []) (safe [] []) ?_,
    expertMet_of (pk 0 15 [32767] [0, 1]) (safe [] []) (by decide +kernel)⟩
  · intro v hv
    rw [refuse_of_range (rawIlut_zeros _ _ (zeros_payload ..) rfl rfl)]
    revert v; decide +kernel
  · intro v hv
    rw [refuse_of_range (rawOlut_zeros _ _ (zeros_payload ..) rfl)]
    revert v; decide +kernel

theorem witness_DisplayStreamFields (ws : Engine → Packet → List (Fld × Nat)) :
    BasicMet fnSetOculus noExtra (writing ws) 0 ∧ BasicMet fnSetCapture noExtra (writing ws) 0 ∧ BasicMet fnSetHistory noExtra (writing ws) 0
    ∧ BasicMet fnFreezeHistory noExtra (writing ws) 4 ∧ BasicMet fnReleaseHistory extraRelease (writing ws) 5
    ∧ BasicMet fnSetOculusSparse noExtra (writing ws) 0 ∧ BasicMet fnSetCapstream noExtra (writing ws) 0
    ∧ BasicMet fnSetLogsize noExtra (writing ws) 0 ∧ BasicMet fnSetLogstream noExtra (writing ws) 0
    ∧ BasicMet fnSetObjstream noExtra (writing ws) 0 :=
  ⟨basicMet_writing ws (pk 0 5 [3, 16777216, 9, 255, 1, 127, 1, 2] []) (withRings [ring 5 2 1] (safe [] [(Reg.MAP_GEOM_COLS, 256), (Reg.MAP_GEOM_ROWS, 128)]))
     (by decide +kernel),
   basicMet_writing ws (pk 0 0 [0x33] []) (safe [] []) (by decide +kernel),
   basicMet_writing ws (pk 0 0 [1024, 1024, 2 ^ 24 - 1, 1023, 0x83FF0003] []) (safe [] []) (by decide +kernel),
   basicMet_writing ws (pk 0 0 [] []) (safe [] []) (by decide +kernel),
   basicMet_writing ws (pk 0 0 [] []) (safe [] []) (by decide +kernel),
   basicMet_writing ws (pk 0 5 [16384] []) (withRings [ring 5 2 1] (safe [] [(setupFld tOcul 5 0, 4)])) (by decide +kernel),
   basicMet_writing ws (pk 0 5 [1] []) (withRings [ring 5 2 2] (safe [] [])) (by decide +kernel),
   basicMet_writing ws (pk 0 0 [120] []) (safe [] []) (by decide +kernel),
   basicMet_writing ws (pk 0 5 [16777216, 0, 1, 63] []) (withRings [ring 5 2 4] (safe [] [])) (by decide +kernel),
   basicMet_writing ws (pk 0 5 [3, 16777216, 0, 256, 65535] []) (withRings [ring 5 2 3] (safe [] [])) (by decide +kernel)⟩

theorem witness_TurretFields (ws : Engine → Packet → List (Fld × Nat)) :
    BasicMet fnSetSeed noExtra (writing ws) 0 ∧ BasicMet fnSetFootprint noExtra (writing ws) 0 ∧ BasicMet fnSetLimits noExtra (writing ws) 0
    ∧ BasicMet fnSetClass noExtra (writing ws) 0 ∧ BasicMet fnSetSprite noExtra (writing ws) 0 ∧ BasicMet fnSpriteWindow noExtra (writing ws) 0
    ∧ BasicMet fnSpriteEnable noExtra (writing ws) 0 ∧ BasicMet fnLoadSprite noExtra (writing ws) 0 ∧ BasicMet fnSpriteArmed noExtra (writing ws) 0
    ∧ ExpertMet fnRawTurret noExtra ∧ ExpertMet fnRawClasses noExtra ∧ ExpertMet fnRawSprites noExtra ∧ ExpertMet fnRawSprmem noExtra :=
  ⟨basicMet_writing ws (pk 0 1 [65535, 1] []) (safe [] []) (by decide +kernel),
   basicMet_writing ws (pk 0 1 [9, 1] []) (safe [] []) (by decide +kernel),
   basicMet_writing ws (pk 0 1 [12, 256] []) (safe [] []) (by decide +kernel),
   basicMet_writing ws (pk 0 1 [15, 1, 2 ^ 22 - 1, 2 ^ 22 - 1, 255, 127, 127] []) (safe [] []) (by decide +kernel),
   basicMet_writing ws (pk 0 63 [1, 16, 16, 4095, 2 ^ 32 - 4096, 127, 2 ^ 32 - 128, 0] []) (safe [] []) (by decide +kernel),
   basicMet_writing ws (pk 0 63 [16383, 16383] []) (safe [] []) (by decide +kernel),
   basicMet_writing ws (pk 0 0 [1, 2 ^ 31, 1] []) (safe [] []) (by decide +kernel),
   basicMet_writing ws (zeros 1024 63 []) (safe [] []) loadSprite_ok,
   basicMet_writing ws (pk 0 0 [1] []) (safe [] []) (by decide +kernel),
   expertMet_of (pk 0 1 [] [255, 255, 1, 0, 15, 15, 0, 0, 15, 0, 255, 1]) (safe [] []) (by decide +kernel),
   expertMet_of (pk 0 1 [15] (List.replicate 16 0)) (safe [] []) (by decide +kernel),
   expertMet_of (pk 0 63 [] (List.replicate 32 0)) (safe [] []) (by decide +kernel),
   expertMet_of (pk 0 16383 [] [255, 255, 3, 128]) (safe [] []) (by decide +kernel)⟩

theorem witness_FinialFields (ws : Engine → Packet → List (Fld × Nat)) :
    BasicMet fnLoadList noExtra (writing ws) 0 ∧ BasicMet fnEnableList noExtra (writing ws) 0 ∧ ExpertMet fnRawList noExtra
    ∧ BasicMet fnSetCond noExtra (writing ws) 0 ∧ BasicMet fnSetLine noExtra (writing ws) 0 ∧ BasicMet fnSetDeadtime noExtra (writing ws) 0
    ∧ BasicMet fnSetPsmode noExtra (writing ws) 0 ∧ BasicMet fnSetInput noExtra (writing ws) 0 ∧ ExpertMet fnRawConds noExtra
    ∧ ExpertMet fnRawLines noExtra ∧ BasicMet fnSetNimout noExtra (writing ws) 0 ∧ BasicMet fnSetDlane noExtra (writing ws) 0
    ∧ ExpertMet fnRawOuts noExtra :=
  ⟨basicMet_writing ws (pk 0 1 [1] (List.replicate 16 0)) (safe [] []) (by decide +kernel),
   basicMet_writing ws (pk 0 (2 ^ 32 - 1) [1] []) (safe [] []) (by decide +kernel),
   expertMet_of (pk 0 1 [4095] (List.replicate 16 0)) (safe [] []) (by decide +kernel),
   basicMet_writing ws (pk 0 511 [1, 1, 2 ^ 24 - 1, 2 ^ 24 - 1] (List.replicate 32 0)) (safe [] []) (by decide +kernel),
   basicMet_writing ws (pk 0 63 [1, 65535] []) (safe [] []) (by decide +kernel),
   basicMet_writing ws (pk 0 0 [255, 15, 4095] []) (safe [] []) (by decide +kernel),
   basicMet_writing ws (pk 0 0 [1] []) (safe [] []) (by decide +kernel),
   basicMet_writing ws (pk 0 15 [1, 1, 1, 7, 63] []) (safe [] []) (by decide +kernel),
   expertMet_of (pk 0 511 [] (List.replicate 64 0)) (safe [] []) (by decide +kernel),
   expertMet_of (pk 0 63 [] [1, 0, 255, 255]) (safe [] []) (by decide +kernel),
   basicMet_writing ws (pk 0 15 [5, 511, 1, 1, 7, 1] []) (safe [] []) (by decide +kernel),
   basicMet_writing ws (pk 0 7 [1, 1, 1, 1] []) (safe [] []) (by decide +kernel),
   expertMet_of (pk 0 15 [] [0xF7, 0x1F, 0x73, 1]) (safe [] []) (by decide +kernel)⟩

theorem witness_BelfryFields (ws : Engine → Packet → List (Fld × Nat)) :
    BasicMet fnBelSetInput noExtra (writing ws) 0 ∧ BasicMet fnSetTmo noExtra (writing ws) 0 ∧ BasicMet fnSetGains noExtra (writing ws) 0
    ∧ BasicMet fnSetFir noExtra (writing ws) 0 ∧ BasicMet fnSetBusmap noExtra (writing ws) 0 ∧ BasicMet fnSetMonitor noExtra (writing ws) 0
    ∧ ExpertMet fnBelRawMatrix noExtra ∧ ExpertMet fnRawFir noExtra ∧ ExpertMet fnRawInputs noExtra :=
  ⟨basicMet_writing ws (pk 0 63 [2, 31, 16383, 16383, 255, 1, 16383, 65535] []) (safe [] []) (by decide +kernel),
   basicMet_writing ws (pk 0 63 [4096] []) (safe [] []) (by decide +kernel),
   basicMet_writing ws (pk 0 0 [] [63, 31, 255, 255]) (safe [] []) (by decide +kernel),
   basicMet_writing ws (pk 0 31 [48] (List.replicate 192 0)) (safe [] []) (by decide +kernel),
   basicMet_writing ws (pk 0 31 [1, 30, 255, 127, 1, 15] []) (safe [] []) (by decide +kernel),
   basicMet_writing ws (pk 0 7 [3, 63, 24] []) (safe [] []) (by decide +kernel),
   expertMet_of (zeros 4096 0 []) (safe [] []) (by decide +kernel),
   expertMet_of (pk 0 31 [] (List.replicate 192 0)) (safe [] []) (by decide +kernel),
   expertMet_of (pk 0 63 [] (List.replicate 16 0)) (safe [] []) (by decide +kernel)⟩

theorem witness_CoreAndTandemFields (ws : Engine → Packet → List (Fld × Nat)) :
    BasicMet fnLoadProgram noExtra (writing ws) 0 ∧ BasicMet fnSetInterleave noExtra (writing ws) 0 ∧ BasicMet fnRun noExtra (writing ws) 0
    ∧ BasicMet fnCoreEntry noExtra (writing ws) 0 ∧ BasicMet fnLoadTable noExtra (writing ws) 0 ∧ BasicMet fnSetPortmap noExtra (writing ws) 0
    ∧ BasicMet fnSetRole noExtra (writing ws) 0 :=
  ⟨basicMet_writing ws (pk 0 31 [1, 65472] (List.replicate 64 0)) (safe [] []) (by decide +kernel),
   basicMet_writing ws (pk 0 0 [32] []) (safe [] []) (by decide +kernel),
   basicMet_writing ws (pk 0 0 [2 ^ 32 - 1, 1] []) (safe [] []) (by decide +kernel),
   basicMet_writing ws (pk 0 31 [65532] []) (safe [] []) (by decide +kernel),
   basicMet_writing ws (pk 0 0 [2 ^ 21 - 64] (List.replicate 64 0)) (safe [] []) (by decide +kernel),
   basicMet_writing ws (pk 0 0 [31, 63, 0, 63] []) (safe [] []) (by decide +kernel),
   basicMet_writing ws (pk 0 0 [2, 2, 32, 64, 65535] []) (safe [] []) (by decide +kernel)⟩

theorem witness_ContextFunctions :
    ActsMet fnOpenCtx noExtra ∧ ActsMet fnCloseCtx noExtra ∧ ActsMet fnGrant noExtra ∧ ActsMet fnRevoke noExtra ∧ ActsMet fnAssign assignCascade
    ∧ ActsMet fnCreateRing noExtra ∧ ActsMet fnDestroyRing noExtra ∧ ActsMet fnStopStreams noExtra ∧ ActsMet fnResumeStreams noExtra
    ∧ ActsMet fnPtmSample noExtra :=
  ⟨actsMet_of (pk 0 1023 [] []) (safe [] []) (by decide +kernel),
   actsMet_of (pk 0 1 [] []) (open1 (safe [] [])) (by decide +kernel),
   actsMet_of (pk 0 1 [4] []) (open1 (safe [] [])) (by decide +kernel),
   actsMet_of (pk 0 1 [1] []) (open1 (safe [] [])) (by decide +kernel),
   actsMet_of (pk 0 1 [7, 1023] []) (open1 (safe [] [])) (by decide +kernel),
   actsMet_of (pk 0 1 [0x011002FF, 4096, 0, 2047, 0, 0, 0, 4] []) (open1 (safe [] [])) (by decide +kernel),
   actsMet_of (pk 0 5 [] []) (withRings [ring 5 2 1] (safe [] [])) (by decide +kernel),
   actsMet_of (pk 0 1023 [] []) (safe [] []) (by decide +kernel),
   actsMet_of (pk 0 (2 ^ 32 - 1) [] []) (safe [] []) (by decide +kernel),
   actsMet_of (pk 0 0 [8] []) (safe [] []) (by decide +kernel)⟩

theorem witness_ReadFunctions :
    ActsMet fnPreviewLatency noExtra ∧ ActsMet fnReadRelease noExtra ∧ ActsMet fnEqRead noExtra ∧ ActsMet fnRawReadmem noExtra
    ∧ ActsMet fnReadMem noExtra ∧ ActsMet fnGetCert noExtra :=
  ⟨actsMet_of (pk 0 0 [8] []) (safe [] []) (by decide +kernel),
   actsMet_of (pk 8 0 [8] []) (safe [] []) (by decide +kernel),
   actsMet_of (pk 8 143 [8] []) (safe [] []) (by decide +kernel),
   actsMet_of (pk 8 0 [1, 65532, 4, 8] []) (safe [] []) (by decide +kernel),
   actsMet_of (pk 0 0 [2 ^ 22, 0, 65536, 8] []) (safe [] []) (by decide +kernel),
   actsMet_of (pk 0 0 [8] []) (safe [] []) (by decide +kernel)⟩

theorem witness_EventFunctions :
    ActsMet fnPublish (fun e p => permIf (p.arg 0 == 1 && pubRefused e p.target (p.arg 1)))
    ∧ ActsMet fnSubscribe (fun e p => permIf (p.arg 0 == 1 && subRefused e p.target (p.arg 1)))
    ∧ ActsMet fnSetGate (fun e p => permIf (p.arg 0 == 2 && subRefused e p.target (p.arg 1)))
    ∧ ActsMet fnSetMatrix noExtra ∧ ActsMet fnSetNotify noExtra
    ∧ ActsMet fnSetChannel (fun e p => if p.arg 0 = 1 ∧ insecureOn e p.target then some (.busy 13) else none)
    ∧ ActsMet fnResumeChannel noExtra ∧ ActsMet fnSetGuard noExtra ∧ ActsMet fnRaise noExtra ∧ ActsMet fnEvtRawMatrix noExtra
    ∧ ActsMet fnRawRoutes (fun e p => permIf ((rawRoutes p).any (fun (s, w0, _) => tbit w0 15 && pubRefused e s (w0 % 1024))))
    ∧ ActsMet fnRawConsumers (fun e p => permIf ((rawConsumers p).any (fun (c, w0, w1) =>
        (tbit w0 15 && subRefused e c (w0 % 1024)) || (w1 % 4 == 2 && subRefused e c (bits w1 13 4))))) := by
  refine ⟨actsMet_of (pk 0 0 [1, 1023] []) (safe [] []) (by decide +kernel),
    actsMet_of (pk 0 256 [1, 1023] []) (safe [] []) (by decide +kernel),
    actsMet_of (pk 0 256 [1, 15, 1] []) (safe [] []) (by decide +kernel),
    actsMet_of (pk 0 256 [0, 1] []) (safe [] []) (by decide +kernel),
    actsMet_of (pk 0 0 [1, 5] []) (withRings [ring 5 3 0] (safe [] [])) (by decide +kernel),
    actsMet_of (pk 0 1023 [0] []) (safe [] []) (by decide +kernel),
    actsMet_of (pk 0 1023 [] []) (safe [] []) (by decide +kernel),
    actsMet_of (pk 0 0 [65535, 65535] []) (safe [] []) (by decide +kernel),
    actsMet_of (pk 0 127 [2 ^ 32 - 1] []) (safe [] []) (by decide +kernel),
    actsMet_of (s := safe [] []) { zeros 2048 31 [] with flags := 9 } ?_,
    actsMet_of (pk 9 0 [] [255, 131, 0, 0, 5, 0, 0, 128]) (withRings [ring 5 3 0] (safe [] [])) (by decide +kernel),
    actsMet_of (pk 9 256 [] [255, 131, 0, 0, 0, 0, 0, 0]) (safe [] []) (by decide +kernel)⟩
  rw [refuse_of_range (rawMatrix_zeros _ _ (zeros_payload ..) rfl)]
  decide +kernel

theorem witness_InterruptFunctions :
    ActsMet fnRoute noExtra ∧ ActsMet fnSetFilter noExtra ∧ ActsMet fnMaskTarget noExtra ∧ ActsMet fnClearPending noExtra
    ∧ ActsMet fnIrqRawSources noExtra :=
  ⟨actsMet_of (pk 0 0 [1, 1, 7, 1, 2047] []) (safe [] []) (by decide +kernel),
   actsMet_of (pk 0 0 [255] []) (safe [] []) (by decide +kernel),
   actsMet_of (pk 0 33 [1, 1] []) (safe [] []) (by decide +kernel),
   actsMet_of (pk 0 0 [] []) (safe [] []) (by decide +kernel),
   actsMet_of (pk 9 0 [] [1, 1, 255, 7, 255, 0, 0, 0]) (safe [] []) (by decide +kernel)⟩

theorem witness_CounterMemoryFunctions :
    ActsMet fnSetCounter noExtra ∧ ActsMet fnLoad noExtra ∧ ActsMet fnSetCompare noExtra ∧ ActsMet fnSnap noExtra ∧ ActsMet fnRawCounters noExtra
    ∧ ActsMet fnSetWindow noExtra ∧ ActsMet fnRunBist safeOnly ∧ ActsMet fnReleaseFreeze noExtra ∧ ActsMet fnWriteMem noExtra
    ∧ ActsMet fnInjectError safeOnly ∧ ActsMet fnSetRlywarn noExtra :=
  ⟨actsMet_of (pk 0 63 [4, 1, 1] []) (safe [] []) (by decide +kernel),
   actsMet_of (pk 0 63 [2 ^ 32 - 1] []) (safe [] []) (by decide +kernel),
   actsMet_of (pk 0 63 [2 ^ 32 - 1] []) (safe [] []) (by decide +kernel),
   actsMet_of (pk 0 0 [8] []) (safe [] []) (by decide +kernel),
   actsMet_of (pk 9 63 [] [4, 3, 0, 0, 255, 255, 255, 255]) (safe [] []) (by decide +kernel),
   actsMet_of (pk 0 15 [351, 1, 1023] []) (safe [] []) (by decide +kernel),
   actsMet_of (pk 0 0 [383, 1] []) (safe [] []) (by decide +kernel),
   actsMet_of (pk 0 7 [] []) (safe [] []) (by decide +kernel),
   actsMet_of (pk 0 0 [2 ^ 22] (List.replicate 8 1)) (safe [] []) (by decide +kernel),
   actsMet_of (pk 9 0 [96 * 2 ^ 20 - 8, 1, 0, 255] []) (safe [] []) (by decide +kernel),
   actsMet_of (pk 0 0 [1000000] []) (safe [] []) (by decide +kernel)⟩

theorem witness_MoverFunctions :
    ActsMet fnStart startBusy ∧ ActsMet fnSetNext noExtra ∧ ActsMet fnDmaAbort noExtra ∧ ActsMet fnDmaSetChannel noExtra ∧ ActsMet fnSetArb noExtra
    ∧ ActsMet fnRawChannels noExtra ∧ ActsMet fnBlit blitBad ∧ ActsMet fnSetGap noExtra ∧ ActsMet fnBltAbort noExtra :=
  ⟨actsMet_of (pk 0 63 [0x20, 255] []) (safe [] []) (by decide +kernel),
   actsMet_of (pk 0 63 [0xFFFFFFE5, 0] []) (safe [] []) (by decide +kernel),
   actsMet_of (pk 0 63 [] []) (safe [] []) (by decide +kernel),
   actsMet_of (pk 0 63 [7] []) (safe [] []) (by decide +kernel),
   actsMet_of (pk 0 0 [1] []) (safe [] []) (by decide +kernel),
   actsMet_of (pk 9 63 [] (List.replicate 16 0)) (safe [] []) (by decide +kernel),
   actsMet_of (pk 0 1 [2] (List.replicate 320 0)) (safe [] []) (by decide +kernel),
   actsMet_of (pk 0 1 [1023] []) (safe [] []) (by decide +kernel),
   actsMet_of (pk 0 1 [] []) (safe [] []) (by decide +kernel)⟩

theorem witness_SecurityTandemPowerFunctions :
    ActsMet fnAttest noExtra ∧ ActsMet fnFwActivate noExtra ∧ ActsMet fnFwConfirm confirmState ∧ ActsMet fnRaiseFloor floorState
    ∧ ActsMet fnSwitchPermit switchState ∧ ActsMet fnClearDemote noExtra ∧ ActsMet fnRawLink noExtra ∧ ActsMet fnReqState noExtra
    ∧ ActsMet fnSetAvs noExtra ∧ ActsMet fnReset noExtra ∧ ActsMet fnSetWake noExtra ∧ ActsMet fnSetFillcmd noExtra ∧ ActsMet fnSetTlim noExtra
    ∧ ActsMet fnRawDomains noExtra :=
  ⟨actsMet_of (pk 0 0 [8] (List.replicate 32 1)) (safe [] []) (by decide +kernel),
   actsMet_of (pk 0 1 [] []) (safe [(Reg.SEC_FW_VALID, 3)] []) (by decide +kernel),
   actsMet_of (pk 0 0 [] []) (safe [] []) (by decide +kernel),
   actsMet_of (pk 0 0 [] []) (safe [(Reg.SEC_SVN_A, 1)] []) (by decide +kernel),
   actsMet_of (pk 0 0 [] []) holder (by decide +kernel),
   actsMet_of (pk 0 0 [] []) (safe [] []) (by decide +kernel),
   actsMet_of (pk 9 0 [] (List.replicate 16 0)) (safe [] []) (by decide +kernel),
   actsMet_of (pk 0 0 [5] []) (safe [] []) (by decide +kernel),
   actsMet_of (pk 0 23 [650, 850, 20] []) (safe [] []) (by decide +kernel),
   actsMet_of (pk 0 0 [1, 0x5AFE] []) (safe [] []) (by decide +kernel),
   actsMet_of (pk 0 0 [3] []) (safe [] []) (by decide +kernel),
   actsMet_of (pk 0 0 [1] []) (safe [] []) (by decide +kernel),
   actsMet_of (pk 0 0 [100] []) (safe [] []) (by decide +kernel),
   actsMet_of (pk 9 23 [] [255, 3, 255, 3, 31, 0, 0, 0]) (safe [] []) (by decide +kernel)⟩

/-- A write through an alias to an SRAM word with two inverted bits meets an uncorrectable error, a plain one does not. -/
theorem witness_write_mem_uncorrectable :
    let s := onEng (fun e => { e with mem := { e.mem with ecc := [(2 ^ 19, 3)] } }) (safe [] [])
    ∀ x ∈ [(2 ^ 22, false), (2 ^ 27 + 2 ^ 22, true)], let p := pk 0 0 [x.1] (List.replicate 8 1)
      refuse fnWriteMem (fnWriteMem.locks p) noExtra s.eng p = none ∧ (engWrite s.eng (p.arg64 0) p.payload).2 = x.2 := by
  decide +kernel

/-- RAW_MASK at its last word: staged, staged and committed, unstaged, refused. -/
theorem witness_RawMask :
    (∀ v ∈ [9, 11, 8], let p := pk v 30 [1, 1023] [1, 0, 0, 0]
      refuse fnRawMask (if p.stage then [4] else []) (fun e p => maskPerm e (rawMaskWrite p)) (safe [] []).eng p = none
        ∧ p.stage = (v != 8) ∧ p.commit = (v == 11))
    ∧ refuse fnRawMask [4] (fun e p => maskPerm e (rawMaskWrite p)) State.reset.eng (pk 9 32 [0, 0] [1, 0, 0, 0]) = some (.range 7) := by
  decide +kernel

theorem witness_CommonFunctions :
    (∀ blk ∈ [1, 5, 7, 22], 1 ≤ blk ∧ blk ≤ 22 ∧ blk ≠ 6 ∧ ActsMet (fnCommon blk 0 hostBuf) noExtra ∧ ActsMet (fnCommon blk 1 (fun _ => none)) noExtra
      ∧ ActsMet (fnCommon blk 2 (fun _ => none)) noExtra ∧ ActsMet (fnCommon blk 3 hostBuf) noExtra)
    ∧ ((0 = 0 ∨ 22 < 0) ∧ (23 = 0 ∨ 22 < 23) ∧ Instr.query 6 (pk 2 0 [] []) ∈ [Instr.query 6 (pk 2 0 [] []), .commit 6 (pk 2 0 [] [])])
    ∧ (let p := pk 2 0 [] []
       p.flags < 32 ∧ p.reserved = 0 ∧ p.ctx = p.ring / 256 ∧ p.ctx = 0 ∧ p.length ≤ 65536 ∧ p.applyAt = 0 ∧ p.expert = false ∧ p.commit = true) := by
  refine ⟨fun blk h => ?_, by decide, by decide⟩
  have ok : ∀ b ∈ [1, 5, 7, 22], refuse (fnCommon b 0 hostBuf) [] noExtra (safe [] []).eng (pk 0 0 [8] []) = none
      ∧ refuse (fnCommon b 1 (fun _ => none)) [] noExtra (safe [] []).eng (pk 2 0 [] []) = none
      ∧ refuse (fnCommon b 2 (fun _ => none)) [] noExtra (safe [] []).eng (pk 0 0 [] []) = none
      ∧ refuse (fnCommon b 3 hostBuf) [] noExtra (safe [] []).eng (pk 0 0 [8] []) = none := by decide +kernel
  have b3 : ∀ b ∈ [1, 5, 7, 22], 1 ≤ b ∧ b ≤ 22 ∧ b ≠ 6 := by decide
  obtain ⟨o1, o2, o3, o4⟩ := ok blk h
  obtain ⟨c1, c2, c3⟩ := b3 blk h
  exact ⟨c1, c2, c3, actsMet_of _ _ o1, actsMet_of _ _ o2, actsMet_of _ _ o3, actsMet_of _ _ o4⟩

theorem witness_ObjectTransfers :
    ActsMet (fnXfer 0x0610 1) (xferExtra 0x0610 bundleState) ∧ ActsMet (fnXfer 0x0C10 1) (xferExtra 0x0C10 bitsState)
    ∧ ActsMet (fnXfer 0x1012 1) (xferExtra 0x1012 safeOnly) ∧ ActsMet (fnXfer 0x1312 2) (xferExtra 0x1312 fwState)
    ∧ ActsMet { fnXfer 0x1316 1 with owner := zeroOnly } (xferExtra 0x1316 claimState)
    ∧ ActsMet (fnXfer 0x1317 1) (xferExtra 0x1317 upState)
    ∧ ActsMet { fnXfer 0x1318 1 with owner := zeroOnly } (xferExtra 0x1318 safeOnly) :=
  ⟨actsMet_of (pk 0 0 [0, 3, 1] [0]) (safe [] []) (by decide +kernel),
   actsMet_of (pk 0 0 [0, 3, 1] [0]) (safe [] []) (by decide +kernel),
   actsMet_of (pk 0 0 [0, 3, 1] [0]) (safe [] []) (by decide +kernel),
   actsMet_of (pk 0 1 [0, 3, 1] [0]) (safe [] []) (by decide +kernel),
   actsMet_of (pk 0 0 [0, 3, 1] [0]) (safe [] []) (by decide +kernel),
   actsMet_of (pk 0 0 [0, 3, 1] [0]) (safe [] []) (by decide +kernel),
   actsMet_of (pk 0 0 [0, 3, 1] [0]) (safe [] []) (by decide +kernel)⟩

/-! #### Transfers: FIRST, a middle packet, the last one, one out of order, one whose total does not fit -/

/-- An open firmware transfer of `n` bytes in all that has `seq` packets behind it. -/
def midXfer (seq n : Nat) (data : List Byte) : State :=
  let s := safe [] []
  { s with eng := { s.eng with sec := { s.eng.sec with xfers := [⟨0x1312, 0, 0, 1, n, seq, data⟩] } } }

theorem test_transfer_last_packet_queues_the_object :
    ∃ t, exec (.fwUpdate (pk 0 1 [1, 2, 3] [7])) (midXfer 1 3 [1, 2]) = .next t ∧ t.eng.sec.xfers = []
      ∧ t.eng.sec.verifs.map (fun v => (v.op, v.obj)) = [(0x1312, [1, 2, 7])] := by
  refine ⟨_, rfl, ?_⟩; decide +kernel

theorem test_transfer_out_of_order_ends :
    ∃ t, exec (.fwUpdate (pk 0 1 [2, 2, 3] [7])) (midXfer 1 3 [1, 2]) = .next t ∧ t.eng.sec.xfers = [] ∧ t.eng.sec.verifs = [] := by
  refine ⟨_, rfl, ?_⟩; decide +kernel

theorem test_set_orbit_commits :
    ∃ t, exec (.setOrbit (pk 0 0 [3564] [])) (safe [] []) = .next t ∧ t.eng.stg Reg.TIM_ORBIT_LEN = 3564
      ∧ t.eng.host.pends.map (fun q => (q.tag, q.blocks)) = [(7, [2])] ∧ t.eng.lockOf 2 = 0 := by
  refine ⟨_, rfl, ?_⟩; decide +kernel

theorem test_expert_function_stages :
    ∃ t, exec (.rawLines (pk 9 63 [] [1, 0, 0, 128])) (safe [] []) = .next t ∧ t.eng.stg (Reg.MNU_LCTL_EN 63) = 1
      ∧ t.eng.stg (Reg.MNU_LCTL_VETO 63) = 0x8000 ∧ t.eng.lockOf 9 = 1 ∧ t.eng.host.pends = [] := by
  refine ⟨_, rfl, ?_⟩; decide +kernel

theorem test_create_ring :
    ∃ t, exec (.createRing (pk 0 1 [0x00040205, 4096, 0, 9, 0, 0, 0, 1] [])) (open1 (safe [] [])) = .next t
      ∧ t.eng.host.rings.map (fun r => (r.id, r.typ, r.k, r.base, r.vec, r.kind)) = [(261, 2, 4, 4096, 9, 1)] := by
  refine ⟨_, rfl, ?_⟩; decide +kernel

/-! ### Host interface: accesses, doorbells, the scheduler, commits, PCIe -/

/-- `s` with the frozen words `ws`. -/
def frozen (ws : List (Nat × Nat)) (s : State) : State :=
  onEng (fun e => { e with host := { e.host with frozen := Tab.puts [] (ws.map (fun w => (⟨w.1, 33, 0⟩, w.2))) } }) s

/-- A read of the first and the last word of BAR0; another size, and another alignment, at the first and the last byte; every word that
freezes others, free and held; a write of a staged field, of one that waits, with the host interface enabled, and of both words of a pair
that has neither. -/
theorem witness_HostAccess :
    (∀ off ∈ [0, 2 ^ 25 - 4], State.reset.eng.st ≠ stOff ∧ off < 2 ^ 25 ∧ off % 4 = 0 ∧ State.reset.eng.host.frozen.get off = 0
      ∧ ∀ g ∈ freezers, g.1 ≠ off ∧ g.2.2 ≠ off)
    ∧ (∀ x ∈ [(0, 1), (2 ^ 25 - 1, 4), (4, 8)], x.1 < 2 ^ 25 ∧ ((x.2 ≠ 4 ∧ x.2 ≠ 8) ∨ x.1 % x.2 ≠ 0))
    ∧ (∀ g ∈ freezers, State.reset.eng.host.frozen.get g.1 = 0 ∧ State.reset.eng.host.frozen.wf = true)
    ∧ (∀ g ∈ freezers, (frozen [(g.2.2, 1)] State.reset).eng.host.frozen.get g.2.2 ≠ 0 ∧ (frozen [(g.2.2, 1)] State.reset).eng.st ≠ stOff
      ∧ (frozen [(g.2.2, 1)] State.reset).eng.host.frozen.wf = true)
    ∧ (∀ h ∈ [0x68, 0x6C, 0x70, 0x100030], State.reset.eng.host.frozen.get h = 0)
    ∧ (∀ off ∈ [Reg.TIM_ORBIT_LEN.key / 32, Reg.EVT_GUARD_COUNT.key / 32, 0, 2 ^ 25 - 4], ∀ en ∈ [0, 1],
        let s := safe [(Reg.HST_CTL_EN, en)] []
        s.eng.st ≠ stOff ∧ s.eng.st ≠ stStandby ∧ off < 2 ^ 25 ∧ off % 4 = 0 ∧ off ≠ 0xE21020
          ∧ (s.eng.reg Reg.HST_CTL_EN = 0 ∨ ctrlWord off = false) ∧ (actsAtOnce off).isNone = true ∧ blockOfAddr off ∉ [8, 17, 18])
    ∧ (((fieldsAt (Reg.TIM_ORBIT_LEN.key / 32)).filter (fun fa => fa.2 == .st)).length = 1
        ∧ ((fieldsAt (Reg.EVT_GUARD_COUNT.key / 32)).any (fun fa => fa.2 == .rw)) = true) := by
  decide +kernel

theorem test_bad_access_reads_ones :
    ∃ t, exec (.readClear 0 2 4) State.reset = .next t ∧ t.eng.host.lastRead = 0xFFFFFFFF ∧ t.eng.reg Reg.HST_ERRSTAT_BADACC = 1
      ∧ t.eng.reg Reg.HST_ERRADDR_ADDR = 2 := by refine ⟨_, rfl, ?_⟩; decide +kernel

theorem test_register_write_stages_and_locks :
    ∃ t, exec (.registerWrite 0 (Reg.TIM_ORBIT_LEN.key / 32) 4 3564) (safe [] []) = .next t ∧ t.eng.stg Reg.TIM_ORBIT_LEN = 3564
      ∧ t.eng.act Reg.TIM_ORBIT_LEN = Reg.TIM_ORBIT_LEN.reset ∧ t.eng.lockOf 2 = 1 := by refine ⟨_, rfl, ?_⟩; decide +kernel

/-- A CMD ring with 16 slots: its doorbell at the least and the greatest values it admits and at those just outside; a completion ring with
one entry used likewise; a ring in FAULT; no ring, at both ends of the numbers. -/
theorem witness_DoorbellsAndStops :
    (∀ id ∈ [256, 2 ^ 18 - 1], let r := ring id 0 0
      let s := withRings [r] (safe [] [])
      s.eng.st ≠ stOff ∧ id < 2 ^ 18 ∧ s.eng.ring? id = some r ∧ r.fault = false ∧ r.typ = 0
        ∧ (∀ v ∈ [0, 16], v < 2 ^ 32 ∧ (v + 2 ^ 32 - r.prod) % 2 ^ 32 < 2 ^ 31 ∧ (v + 2 ^ 32 - r.cons) % 2 ^ 32 ≤ 2 ^ r.k)
        ∧ (∀ v ∈ [17, 2 ^ 31, 2 ^ 32 - 1], v < 2 ^ 32
          ∧ (2 ^ 31 ≤ (v + 2 ^ 32 - r.prod) % 2 ^ 32 ∨ 2 ^ r.k < (v + 2 ^ 32 - r.cons) % 2 ^ 32)))
    ∧ (let r := { ring 1 1 0 with prod := 1 }
      let s := withRings [r] (safe [] [])
      s.eng.ring? 1 = some r ∧ r.typ ≠ 0 ∧ r.fault = false ∧ (∀ v ∈ [0, 1], (v + 2 ^ 32 - r.cons) % 2 ^ 32 ≤ r.used)
        ∧ (∀ v ∈ [2, 2 ^ 32 - 1], r.used < (v + 2 ^ 32 - r.cons) % 2 ^ 32))
    ∧ (let r := { ring 1 1 0 with fault := true }
      (withRings [r] (safe [] [])).eng.ring? 1 = some r ∧ r.fault = true)
    ∧ (∀ id ∈ [0, 2 ^ 18 - 1], (safe [] []).eng.st ≠ stOff ∧ id < 2 ^ 18 ∧ (safe [] []).eng.ring? id = none)
    ∧ (onEng (fun e => { e with host := { e.host with draining := true } }) (safe [] [])).eng.host.draining = true := by decide +kernel

theorem test_doorbell_past_the_ring_faults :
    ∃ t, exec (.doorbellWrite 2048 4 17) (withRings [ring 256 0 0] (safe [] [])) = .next t ∧ t.eng.host.rings.map (·.fault) = [true]
      ∧ t.eng.reg Reg.HST_ERRSTAT_RINGFAULT = 1 ∧ t.eng.reg Reg.HST_FAULTRING_ID = 256 := by refine ⟨_, rfl, ?_⟩; decide +kernel

/-- An enabled host interface whose CMD ring 256 has 16 slots, `n` of them used, and its completion ring; `busy`: a command of the ring runs. -/
def queued (n : Nat) (busy : Bool) : State :=
  let s := withRings [{ ring 1 1 0 with id := 1 }, { ring 256 0 0 with prod := n }] (safe [(Reg.HST_CTL_EN, 1)] [])
  onEng (fun e => { e with host := { e.host with started := if busy then [⟨256, 7, 0x0211, true, 1⟩] else [] } }) s

/-- The slots of a command with opcode `op`, flags `fl` and `len` bytes of payload, all zero. -/
def slotsOf (op fl len : Nat) : List Byte :=
  leBytes 2 op ++ leBytes 2 fl ++ leBytes 4 len ++ leBytes 8 7 ++ leBytes 4 1 ++ List.replicate (44 + 64 * ceilDiv len 64) 0

/-- The command at the front of ring 256: too long for the ring by one slot; filling the ring to its last slot; held by FENCE, free of it in
an idle ring and without it; and the function it runs. -/
theorem witness_CommandsAndCommits_fetch :
    (∀ x ∈ [(16, false), (1, true), (1, false)],
      ∃ r, nextRing (queued x.1 x.2).eng = some r ∧ r.id = 256 ∧ r.k = 4 ∧ r.used = x.1)
    ∧ (let p := (decodePacket 256 ((slotsOf 0x0211 0 961).take 64)).2
      64 ≤ ((slotsOf 0x0211 0 961).take 64).length ∧ 2 ^ 4 < 1 + ceilDiv p.length 64)
    ∧ (∀ x ∈ [(0, 960, 16), (4, 0, 1), (0, 0, 1)],
      let slots := slotsOf 0x0211 x.1 x.2.1
      let op := leAt slots 0 2
      let len := leAt slots 4 4
      let n := 1 + ceilDiv len 64
      n = x.2.2 ∧ n ≤ 2 ^ 4 ∧ slots.length = 64 * n ∧ op = 0x0211 ∧ (decodePacket 256 slots).1 = op ∧ (decodePacket 256 slots).2.fence = (x.1 == 4)
        ∧ (n = 16 → 1 < n))
    ∧ (let d := decodePacket 256 (slotsOf 0xFF10 0 0)
       d.1 / 256 ≠ 6 ∧ 4 ≤ d.1 % 256 ∧ (runFunction (d.1 / 256) (d.1 % 256) d.2 (queued 1 false)).isNone = true)
    ∧ (nextRing State.reset.eng).isNone = true := by
  refine ⟨?_, by decide +kernel, by decide +kernel, by decide +kernel, by decide +kernel⟩
  intro x hx
  have ok : ∀ y ∈ [(16, false), (1, true), (1, false)],
      ((nextRing (queued y.1 y.2).eng).map (fun r => (r.id, r.k, r.used))) = some (256, 4, y.1) := by decide +kernel
  have h := ok x hx
  cases hr : nextRing (queued x.1 x.2).eng with
  | none => simp [hr] at h
  | some r => simp [hr] at h; exact ⟨r, rfl, h⟩

theorem test_command_fetch_starts_and_completes :
    ∃ t, exec (.commandFetch 256 (slotsOf 0xFF10 2 0)) (queued 1 false) = .next t ∧ t.eng.host.started = []
      ∧ t.eng.host.rings.map (fun r => (r.id, r.prod, r.cons)) = [(1, 1, 0), (256, 1, 1)]
      ∧ t.eng.host.out.head? = some ⟨8, leBytes 4 1 ++ leBytes 4 0, false, false⟩ := by refine ⟨_, rfl, ?_⟩; decide +kernel

/-- A command of ring 256 that has not completed, and no pending commit of its tag. -/
theorem witness_CommandsAndCommits_timeout :
    (∀ q ∈ (queued 1 true).eng.host.pends, ¬(q.ring = 256 ∧ q.tag = 7))
    ∧ (waiters (queued 1 true).eng).filter (fun w => w.1 == 256 && w.2.1 == 7) = [(256, 7, true)] := by decide +kernel

/-- A commit of block MEM, whose captured log size is `v`, with the named crossing `n`. -/
def memPend (v : Nat) (n : Option Nat) : Pend :=
  { uid := 0, ring := 256, tag := 7, ctx := 1, notify := true, blocks := [16], set := Tab.puts [] [(Reg.MEM_CAPCFG_LOGSZ, v)], named := n
    relock := false, clock := false, masks := [], object := 0, waiting := false, follow := [] }

/-- `s` with that commit pending. -/
def pending1 (v : Nat) (n : Option Nat) (s : State) : State :=
  onEng (fun e => { e with host := { e.host with pends := [memPend v n] } }) s

/-- `s` locked, in orbit `o`. -/
def lockedAt (o : Nat) (s : State) : State :=
  onEng (fun e => { (e.setReg Reg.TIM_STAT_LOCK 1) with tim := { e.tim with orbit := o } }) s

/-- The commits that are due in an engine, as COMMIT_ACTIVATE finds them. -/
def dueIn (e : Engine) : List Pend :=
  e.host.pends.filter (fun p => !p.waiting && (!e.locked || (!p.relock && p.named.all (fun n => decide (n + createDelay e.active ≤ e.counted)))))

/-- Commits that the checker takes at the ends of a range and refuses outside it, unlocked, and locked with no named crossing and with one
that is created now; one that names the next crossing is not due. -/
theorem witness_CommandsAndCommits_commits :
    (let locked := lockedAt 3 (safe [] [])
     let now := locked.eng.counted - createDelay locked.eng.active
     locked.eng.locked = true ∧ (safe [] []).eng.locked = false ∧ createDelay locked.eng.active ≤ locked.eng.counted
     ∧ (∀ x ∈ [(8, none), (120, none), (7, some 16), (121, some 16)], ∀ c ∈ [(safe [] [], none), (locked, none), (locked, some now)],
        let e := (pending1 x.1 c.2 c.1).eng
        let q := memPend x.1 c.2
        dueIn e = [q] ∧ q.object = 0 ∧ 10 ∉ q.blocks ∧ checkIn e (withPend e e.active q) q = x.2
          ∧ (refusals e 1 [q]).map (fun y => y.2) = x.2.toList)
     ∧ dueIn (pending1 8 (some (now + 1)) locked).eng = []) := by decide +kernel

/-- Where the PCIe rows act: out of OFF, with and without Retry Status, in and out of D3hot, PTM enabled. -/
theorem witness_PcieEvents :
    (safe [] []).eng.st ≠ stOff ∧ (safe [] []).eng.regs.wf = true ∧ (safe [] []).eng.host.crs = true
    ∧ (onEng (fun e => { e with host := { e.host with crs := false } }) (safe [] [])).eng.host.crs = false
    ∧ (safe [] []).eng.host.d3hot = false ∧ (safe [(Reg.HST_PTM_CTL_EN, 1)] []).eng.reg Reg.HST_PTM_CTL_EN = 1 := by decide +kernel

theorem test_link_train :
    ∃ t, exec (.linkTrain true true 5) (onEng (fun e => { e with host := { e.host with crs := false } }) (safe [] [])) = .next t
      ∧ t.eng.reg Reg.HST_STATUS_WIDTH = 16 ∧ t.eng.reg Reg.HST_STATUS_GEN = 4 ∧ t.eng.reg Reg.HST_STATUS_LINKUP = 1 := by
  refine ⟨_, rfl, ?_⟩; decide +kernel

theorem test_function_level_reset_removes_rings :
    ∃ t, exec .functionLevelReset (withRings [ring 5 2 1] (safe [] [])) = .next t ∧ t.eng.host.rings = [] := by
  refine ⟨_, rfl, ?_⟩; decide +kernel

/-! ### Beam timing and links -/

/-- `s` with beam timing changed by `f`. -/
def onTim (f : TimSt → TimSt) (s : State) : State := onEng (fun e => { e with tim := f e.tim }) s

/-- Unlocked, SAFE, at acquisition step `ph` (0: all passed), with registers and active fields. -/
def acquiring (ph : Nat) (cs : List (Fld × Nat)) (f : TimSt → TimSt) : State := onTim f (safe [(Reg.TIM_STAT_PHASE, ph)] cs)

/-- The crossing of a good character with orbit marker, of a filler, of a disturbed one, and of none. -/
def markIn : Timing := { quiet with char0 := .k281 }
def absentIn : Timing := { quiet with char0 := .absent }

/-- The first seven words of an orbit record: orbit `orb`, length `n` + 1. -/
def recordWords (orb n : Nat) : List Nat := [orb % 2 ^ 16, orb / 2 ^ 16 % 2 ^ 16, orb / 2 ^ 32 % 2 ^ 16, orb / 2 ^ 48, n, 0, 0]

/-- Every step of acquisition with its least, greatest and failing inputs, on the Timing port and on the SMA inputs. -/
theorem witness_AcquisitionSteps :
    (∀ ph ∈ [0, 1, 2, 3, 4, 5], let s := acquiring ph [] id
      s.eng.locked = false ∧ s.eng.timing = true ∧ s.eng.tim.acqReady = false ∧ s.eng.regs.wf = true ∧ s.eng.reg Reg.TIM_STAT_PHASE = ph
        ∧ signalIn s.eng quiet = true ∧ signalIn s.eng absentIn = false ∧ markerIn s.eng markIn = true ∧ markerIn s.eng quiet = false)
    ∧ (∀ pll ∈ [true, false], (acquiring 1 [] (fun t => { t with freqOk := true, pll := pll })).eng.tim.freqOk = true)
    ∧ ((quiet.codeErrs = 0 ∧ (quiet.char0 = .k281 ∨ quiet.char0 = .k285 ∨ quiet.char0 = .k286))
        ∧ ¬({ quiet with codeErrs := 1 }.codeErrs = 0 ∧ (quiet.char0 = .k281 ∨ quiet.char0 = .k285 ∨ quiet.char0 = .k286))
        ∧ 15 ≤ (acquiring 3 [] (fun t => { t with goodChars := 15 })).eng.tim.goodChars
        ∧ (acquiring 3 [] (fun t => { t with goodChars := 14 })).eng.tim.goodChars < 15)
    ∧ ((acquiring 4 [] id).eng.tim.marks = 0
        ∧ (∀ n ∈ [1023, 1022, 1024], let s := acquiring 4 [] (fun t => { t with marks := 1, sinceMark := n })
            s.eng.tim.marks ≠ 0 ∧ (s.eng.tim.sinceMark + 1 = orbitLen s.eng.active ↔ n = 1023)))
    ∧ (∀ n ∈ [1023, 1022], let ws := recordWords (2 ^ 50 - 1) n
        let s := acquiring 5 [] (fun t => { t with sinceMark := 6, acqWords := ws })
        s.eng.tim.sinceMark + 1 = 7 ∧ s.eng.tim.acqWords.length = 7
          ∧ recordOf (s.eng.tim.acqWords ++ [{ quiet with word := crcOrbit ws }.word]) = some (2 ^ 50 - 1, n)
          ∧ (n = orbitLen s.eng.active - 1 ↔ n = 1023)
          ∧ recordOf (s.eng.tim.acqWords ++ [{ quiet with word := crcOrbit ws + 1 }.word]) = none)
    ∧ (let s := acquiring 0 [(Reg.TIM_CTL_SRC, 1)] (fun t => { t with sinceMark := 1023 })
       let x : Timing := { quiet with bcEdge := true, orbitIn := true }
       s.eng.sma = true ∧ signalIn s.eng x = true ∧ markerIn s.eng x = true ∧ s.eng.tim.sinceMark + 1 = orbitLen s.eng.active)
    ∧ (∀ khz ∈ [39992, 40008], freqNear ((safe [] []).eng.act Reg.TIM_FNOM_KHZ) khz = true)
    ∧ (∀ khz ∈ [39991, 40009], freqNear ((safe [] []).eng.act Reg.TIM_FNOM_KHZ) khz = false) := by decide +kernel

/-- R76 by hand: the last of the 16 characters of step 3 passes it. -/
theorem test_acquisition_step3_passes :
    ∃ t, exec (.acquisitionCrossing quiet) (acquiring 3 [] (fun t => { t with goodChars := 15 })) = .next t
      ∧ t.eng.reg Reg.TIM_STAT_PHASE = 4 := by refine ⟨_, rfl, ?_⟩; decide +kernel

/-- R78 by hand: ±200 ppm of 40,000 kHz is 8 kHz. -/
theorem test_frequency_window :
    let t := nextOf (exec (.freqWindowEnd 40009) (safe [(Reg.TIM_STAT_PHASE, 4)] []))
    t.eng.reg Reg.TIM_MEAS_KHZ = 40009 ∧ t.eng.reg Reg.TIM_STAT_PHASE = 1 := by decide +kernel

/-- A locked engine in the last slot of its orbit, and in the slot before it, whose crossing brings a marker or none; one with a signal
absent for three crossings; the ends of the frequency window; no lock, out of OFF; a boundary whose tracking restarts. -/
theorem witness_LockAndCrossings :
    (let s := acquiring 0 [] (fun t => { t with acqReady := true })
     s.eng.locked = false ∧ s.eng.timing = true ∧ s.eng.tim.acqReady = true ∧ s.eng.host.pends = [])
    ∧ (∀ slot ∈ [0, 1022, 1023], let s := onTim (fun t => { t with slot := slot }) (lockedAt 5 (safe [] []))
       let next := if slot + 1 < orbitLen s.eng.active then slot + 1 else 0
       s.eng.locked = true ∧ s.eng.timing = true ∧ s.eng.tim.cmdDue = none ∧ s.eng.regs.wf = true ∧ s.eng.host.pends = [] ∧ (next = 0 ↔ slot = 1023)
         ∧ ∀ x ∈ [quiet, markIn, absentIn, { quiet with codeErrs := 5 }], (timingInput x next 5 s.eng).2 =
             (if (x = markIn) = (next = 0) then 0 else 8) + (if x = absentIn ∧ next = 0 then 1 else 0) + (if x.codeErrs = 5 then 16 else 0))
    ∧ 3 ≤ (onTim (fun t => { t with absent := 3 }) (lockedAt 5 (safe [] []))).eng.tim.absent
    ∧ (State.reset.eng.locked = false ∧ State.reset.eng.st ≠ stOff)
    ∧ (let s := onTim (fun t => { t with rpWorst := Tab.setAll [] [(511, 9)] }) (safe [(Reg.TIM_RPIDX_ID, 511)] [])
       s.eng.regs.wf = true ∧ s.eng.tim.rpWorst.wf = true ∧ s.eng.reg Reg.TIM_RPIDX_ID = 511) := by decide +kernel

theorem test_rpworst_clr :
    ∃ t, exec .timRpworstClr (onTim (fun t => { t with rpWorst := Tab.setAll [] [(510, 4), (511, 9)] }) (safe [(Reg.TIM_RPIDX_ID, 511)]
        [(relFld 511, 1)])) = .next t ∧ t.eng.tim.rpWorst.get 511 = 0 ∧ t.eng.tim.rpWorst.get 510 = 4 := by
  refine ⟨_, rfl, ?_⟩; decide +kernel

/-- Bytes that act, that have acted, with and without another crossing between, and that are new; no character; every code at the ends of its
range, due in a locked engine, with and without leave. -/
theorem witness_TimingCommands :
    (∀ c ∈ [0, 1, 255], ∀ acted ∈ [0, 256], let e := (onTim (fun t => { t with prevCmd := c + 1, acted := acted }) (safe [] [])).eng
      let x : Timing := { quiet with cmd := c }
      e.sma = false ∧ x.char0 ≠ .absent ∧ x.cmd < 256 ∧ e.tim.prevCmd = x.cmd + 1 ∧ (e.tim.acted = x.cmd + 1 ↔ (c = 255 ∧ acted = 256)))
    ∧ (let e := (onTim (fun t => { t with prevCmd := 2, acted := 2 }) (safe [] [])).eng
       e.tim.prevCmd ≠ quiet.cmd + 1 ∧ e.tim.acted ≠ quiet.cmd + 1 ∧ absentIn.char0 = .absent)
    ∧ (∀ c ∈ [0, 1, 2, 3, 4, 5, 0x3F, 0x40, 0x7F, 0x80, 255], let s := onTim (fun t => { t with cmdDue := some c }) (lockedAt 5 (safe [] []))
       s.eng.locked = true ∧ s.eng.tim.cmdDue = some c)
    ∧ (∀ c ∈ [0, 5, 0x3F, 0x80, 255], c = 0 ∨ (4 < c ∧ c < 0x40) ∨ 0x7F < c)
    ∧ (safe [] []).eng.locked = false := by decide +kernel

theorem test_user_command_acts :
    ∃ t, exec .tcUser (onTim (fun t => { t with cmdDue := some 0x7F }) (lockedAt 5 (safe [] []))) = .next t ∧ t.eng.reg Reg.TIM_CMD_LAST = 0x7F
      ∧ t.eng.reg (Reg.EVT_SCNT_COUNT Src.cmd) = 1 ∧ t.eng.tim.cmdDue = none := by refine ⟨_, rfl, ?_⟩; decide +kernel

theorem test_undefined_command_is_counted :
    ∃ t, exec .tcUndefined (onTim (fun t => { t with cmdDue := some 0x80 }) (lockedAt 5 (safe [] []))) = .next t
      ∧ t.eng.reg Reg.TIM_CMDBAD_COUNT = 1 ∧ t.eng.reg Reg.TIM_CMD_LAST = 0 := by refine ⟨_, rfl, ?_⟩; decide +kernel

/-- Lanes 0 and 143 in each state; UP with a millisecond of adaptation behind it; the end of an epoch. -/
theorem witness_LaneStates :
    (∀ lane ∈ [0, 143], ∀ st ∈ [0, 1, 2, 3], ∀ eqf ∈ [0, 1],
      let s := safe [(Reg.LNK_LSTAT_STATE lane, st), (Reg.LNK_LSTAT_EQF lane, eqf)] []
      lane < 144 ∧ s.eng.regs.wf = true ∧ s.eng.lnk.good.wf = true ∧ s.eng.lnk.bad.wf = true ∧ s.eng.lnk.adapting.wf = true
        ∧ s.eng.laneState lane = st ∧ s.eng.reg (Reg.LNK_LSTAT_EQF lane) = eqf ∧ s.eng.lnk.coefs.wf = true
        ∧ true ≠ (s.eng.act (Reg.LNK_LCFG_INV lane) == 1))
    ∧ (∀ eq ∈ [(0, false), (1, true)], (safe [] [(Reg.LNK_LCFG_EQ 143, eq.1)]).eng.holdMode 143 = eq.2)
    ∧ 128 ≤ (onTim (fun t => { t with orbits := 128 }) (lockedAt 5 (safe [] []))).eng.tim.orbits := by decide +kernel

theorem test_lane_lost_from_up :
    ∃ t, exec (.laneSignalChange 143 ⟨false, false⟩) (safe [(Reg.LNK_LSTAT_STATE 143, 3), (upFld 143, 2 ^ 15)] []) = .next t
      ∧ t.eng.laneState 143 = 1 ∧ t.eng.reg (Reg.LNK_SYNCLOSS_COUNT 143) = 1 ∧ t.eng.reg (upFld 143) = 0 := by
  refine ⟨_, rfl, ?_⟩; decide +kernel

/-- A Shevo frame of 625 bits (25 Gb/s at 40 MHz): header with TAG and PRES, lane check, payload. -/
def shevo (tag pres payload : Nat) : Nat :=
  let hdr := 0b1011 * 2 ^ 22 + tag * 2 ^ 8 + pres
  (hdr * 2 ^ 8 + laneCheck hdr) * 2 ^ 591 + payload

/-- The payload of one slot with one 8-bit word `v`. -/
def onePayload (tag v : Nat) : Nat := (v * 2 ^ 16 + segCrc tag (msbBits 8 v)) * 2 ^ (591 - 24)

/-- The `n` bits of `d`, most significant first, after the scrambler x^58 + x^39 + 1 from a history of zeros. -/
def scrambled (n d : Nat) : List Bool :=
  ((msbBits n d).foldl (fun h b => (b != (h.getD 38 false != h.getD 57 false)) :: h) []).reverse

/-- Those bits in blocks of N25, as the line carries them at either polarity. -/
def onLine (inv : Bool) (n d : Nat) : List LineBlock :=
  (List.range (ceilDiv n 64)).map (fun i =>
    let bs := ((scrambled n d).drop (64 * i)).take 64
    ⟨if inv then 2 else 1, bs.length, (bs.map (fun b => b2n (b != inv))).foldl (fun a b => 2 * a + b) 0, bs.length == 64⟩)

/-- A Tandem frame of zeros with its CRC changed by `x`. -/
def tandemFrame (x : Nat) : Nat :=
  let body := 0b1001 * 2 ^ 148
  body * 2 ^ 16 + Nat.xor (crcBits 16 0x8BB7 0xFFFF (msbBits 152 body)) x

/-- Valid and invalid headers at every count of good and bad ones that decides; a TAG at and below S; a segment that is disabled, absent, in
error, unlocked and sent on; Tandem lanes that deliver nothing, a frame in error and a good one. -/
theorem witness_LaneFrames :
    (∀ lane ∈ [0, 143], ∀ st ∈ [1, 2, 3], ∀ n ∈ [0, 2, 3],
      let s := onEng (fun e => { e with lnk := { e.lnk with good := Tab.setAll [] [(lane, n)], bad := Tab.setAll [] [(lane, n)] } })
        (safe [(Reg.LNK_LSTAT_STATE lane, st)] [])
      s.eng.regs.wf = true ∧ s.eng.lnk.good.wf = true ∧ s.eng.lnk.bad.wf = true ∧ s.eng.laneState lane = st
        ∧ s.eng.lnk.good.get lane = n ∧ s.eng.lnk.bad.get lane = n ∧ frameBits s.eng.active lane = 625)
    ∧ (∀ x ∈ [(0, 625, false), (16, 641, true)], let data := lineBits true x.2.2 0 (onLine x.2.2 x.2.1 (shevo 1023 1 0))
        data.1 = shevo 1023 1 0 ∧ data.2.1 = x.1 + 625 ∧ data.2.2.2 = 0)
    ∧ (let data := lineBits true false 0 [⟨2, 64, 5, true⟩, ⟨2, 1, 1, false⟩]
       data.1 = 0 ∧ data.2.1 = 65 ∧ data.2.2.2 = 1)
    ∧ (let t : Tab := Tab.puts [] [(Reg.LNK_LCFG_MODE 143, 2)]
       laneMode t 143 = 2 ∧ frameBits t 143 = 1250 ∧ (lineBits false true 0 [⟨0, 64, 5, false⟩]).1 = 5)
    ∧ headerOk (shevo 1023 1 0) 625 = true ∧ headerOk (shevo 1023 1 0 + 2 ^ 600) 625 = false
    ∧ (∀ tag ∈ [1023, 1024, 2 ^ 14 - 1], frameField (shevo tag 0 0) (frameBits [] 143) 4 14 = tag ∧ (orbitLen [] ≤ tag ↔ tag ≠ 1023))
    ∧ (∀ q ∈ [0, 1151], let bank : Tab := Tab.puts [] [(Reg.LNK_SCFG_EN q, 1), (Reg.LNK_SCFG_WSIZE q, 0), (Reg.LNK_SCFG_COUNT q, 1)]
        let w := slotOf bank q
        w.en = true ∧ (slotOf [] q).en = false ∧ w.size = 8 ∧ tbit 128 7 = true ∧ tbit 127 7 = false
          ∧ segCrc 9 (msbBits w.size (frameField (shevo 9 255 (onePayload 9 0xA5)) 625 34 w.size))
              = frameField (shevo 9 255 (onePayload 9 0xA5)) 625 (34 + w.size) 16
          ∧ segCrc 9 (msbBits w.size (frameField (shevo 9 255 0) 625 34 w.size)) ≠ frameField (shevo 9 255 0) 625 (34 + w.size) 16)
    ∧ (safe [] []).eng.locked = false ∧ (lockedAt 5 (safe [] [])).eng.locked = true
    ∧ (let s := safe [(tdmLaneFld 3 0, 1)] [(Reg.TDM_CFG_ROLE, 1)]
       let fs := fun (w : Option Nat) => ((List.range 4).map (laneRx s.eng [none, none, none, w])).filterMap id
       s.eng.linked = true ∧ fs none = [] ∧ fs (some 0) = []
         ∧ fs (some (tandemFrame 1)) ≠ [] ∧ (fs (some (tandemFrame 1))).find? tandemOk = none
         ∧ (fs (some (tandemFrame 0))).find? tandemOk = some (tandemFrame 0)) := by decide +kernel

/-- R108 by hand: the fourth valid header in a row brings the lane to UP. -/
theorem test_fourth_valid_header_brings_up :
    ∃ t, exec (.laneFrameReceive 0 15 (onLine false 640 (shevo 1024 0 0)) 0 0)
        (onEng (fun e => { e with lnk := { e.lnk with good := Tab.setAll [] [(0, 3)] } }) (safe [(Reg.LNK_LSTAT_STATE 0, 2)] [])) = .next t
      ∧ t.eng.laneState 0 = 3 ∧ t.eng.reg (Reg.LNK_TAGERR_COUNT 0) = 1 := by refine ⟨_, rfl, ?_⟩; decide +kernel

theorem test_absent_segment_is_counted :
    ∃ t, exec (.laneFrameReceive 0 15 (onLine false 640 (shevo 9 0 0)) 0 0)
        (safe [(Reg.LNK_LSTAT_STATE 0, 3)] [(Reg.LNK_SCFG_EN 0, 1), (Reg.LNK_SCFG_COUNT 0, 1), (Reg.LNK_LCFG_MODE 0, 1)]) = .next t
      ∧ t.eng.reg (Reg.LNK_SABSENT_COUNT 0) = 1 ∧ t.eng.laneState 0 = 3 := by refine ⟨_, rfl, ?_⟩; decide +kernel

/-! ### Outputs, events, interrupts, counters -/

/-- `s` with the event fabric changed by `f`. -/
def onEvt (f : EvtSt → EvtSt) (s : State) : State := onEng (fun e => { e with evt := f e.evt }) s

/-- Both relays, the outer lanes, and a limit at, below and above a relay's count. -/
theorem witness_OutputEvents :
    (let s := safe [(Reg.OUT_RLYCNT_A_COUNT, 2 ^ 32 - 1), (Reg.OUT_RLYCNT_B_COUNT, 5)] []
     s.eng.regs.wf = true ∧ (∀ v ∈ [0, 5, 2 ^ 32 - 1], v < 2 ^ 32 ∧ v ≤ s.eng.reg Reg.OUT_RLYCNT_A_COUNT)
       ∧ 5 ≤ s.eng.reg Reg.OUT_RLYCNT_B_COUNT ∧ ¬6 ≤ s.eng.reg Reg.OUT_RLYCNT_B_COUNT ∧ tbit (s.eng.reg Reg.OUT_RLYSTAT_WEAR) 0 = false
       ∧ tbit (s.eng.reg Reg.OUT_RLYSTAT_WEAR) 1 = false)
    ∧ (∀ lane ∈ [0, 7], lane ≤ 7)
    ∧ (∀ relay ∈ [0, 1], ∀ coil ∈ [0, 3], relay ≤ 1 ∧
        tbit ((safe [(Reg.OUT_KSTAT_COIL, coil)] []).eng.reg Reg.OUT_KSTAT_COIL) relay ≠ (coil == 0)) := by decide +kernel

theorem test_wear_limit_rises :
    ∃ t, exec (.rlywarnLimitWrite 5) (safe [(Reg.OUT_RLYCNT_B_COUNT, 5)] []) = .next t ∧ t.eng.reg Reg.OUT_RLYSTAT_WEAR = 2
      ∧ t.eng.reg (Reg.EVT_SCNT_COUNT Src.rlyWear) = 1 := by refine ⟨_, rfl, ?_⟩; decide +kernel

theorem test_relay_disagreement_is_a_cause :
    ∃ t, exec (.relaySenseTimeout 1 true) (safe [] []) = .next t ∧ t.eng.reg Reg.OUT_KSTAT_SENSE = 2 ∧ tbit (t.eng.reg Reg.OUT_KCAUSE_CAUSE) 6 = true := by
  refine ⟨_, rfl, ?_⟩; decide +kernel

/-- Sources at the ends of each range, listed and reserved; the Lantern loaded, being configured and with an unused line; a publication that
is off, stopped, free, in hold-off, at the guard's count and above it; an input that listens and one that does not. -/
theorem witness_EventFabric :
    (∀ s ∈ [6, 231, 319, 336, 383, 448, 896, 4095], sourceListed s = false)
    ∧ (∀ s ∈ [0, 304, 895], sourceListed s = true ∧ (s < 320 ∨ 447 < s))
    ∧ (∀ l ∈ [0, 63], let s := safe [(Reg.ULA_STAT_LOADED, 1), (Reg.ULA_EUSED_MASK (l / 32), 2 ^ (l % 32))] []
       384 ≤ 384 + l ∧ 384 + l ≤ 447 ∧ s.eng.reg Reg.ULA_STAT_LOADED ≠ 0 ∧ s.eng.reg Reg.ULA_STAT_CONFIG ≠ 1
         ∧ tbit (s.eng.reg (Reg.ULA_EUSED_MASK ((384 + l - 384) / 32))) ((384 + l - 384) % 32) = true)
    ∧ (safe [] []).eng.reg Reg.ULA_STAT_LOADED = 0
    ∧ (∀ src ∈ [0, 320, 895], ∀ k ∈ [0, 1023], ∀ x ∈ [(0, 0, 0, 1000), (1, 1, 0, 1000), (1, 0, 999, 1000), (1, 0, 1000, 1000), (1, 0, 5000, 0)],
       let s := onEvt (fun v => { v with window := Tab.setAll [] [(k, x.2.2.1)] })
         (safe [(Reg.EVT_SPUB_EN src, x.1), (Reg.EVT_SPUB_CH src, k), (Reg.EVT_KSTAT_STOP k, x.2.1), (Reg.EVT_GUARD_COUNT, x.2.2.2)] [])
       let n := s.eng.evt.window.get k + 1
       let guard := s.eng.reg Reg.EVT_GUARD_COUNT
       sourceListed src = true ∧ s.eng.regs.wf = true ∧ k < 1024 ∧ s.eng.reg (Reg.EVT_SNOTE_EN src) = 0 ∧ s.eng.reg (Reg.EVT_SPUB_CH src) = k
         ∧ s.eng.reg (Reg.EVT_SPUB_EN src) = x.1 ∧ s.eng.reg (Reg.EVT_KSTAT_STOP k) = x.2.1
         ∧ ((guard = 0 ∨ n ≤ guard) ↔ x ≠ (1, 0, 1000, 1000)))
    ∧ (∀ c ∈ [256, 703], ∀ k ∈ [0, 1023], let e := (safe [(Reg.EVT_CSUB_EN c, 1), (Reg.EVT_CSUB_CH c, k)] []).eng
       k < 1024 ∧ consumerListed c = true ∧ e.regs.wf = true ∧ e.evt.inbox.wf = true ∧ e.evt.hold.wf = true ∧ e.subscription c = some k)
    ∧ (∀ h ∈ [0, 1, 2], (onEvt (fun v => { v with hold := Tab.setAll [] [(1023, h)] }) (safe [] [])).eng.evt.hold.get 1023 = h) := by
  decide +kernel

/-- Sources at the ends of the secure ranges; an input whose owner lacks SECURE; requests that wait under routes changed since. -/
theorem witness_EventFabric_banks :
    (∀ src ∈ [63, 64, 96, 895], let e := (safe [(Reg.EVT_SPUB_EN src, 1), (Reg.EVT_SPUB_CH src, 5), (Reg.EVT_KOWN_SEC 5, 1)] []).eng
       e.reg (Reg.EVT_SPUB_EN src) = 1 ∧ e.reg (Reg.EVT_KOWN_SEC 5) = 1 ∧ (sourceSecure src = true ↔ src = 63 ∨ src = 96))
    ∧ (∀ c ∈ [256, 703], subInsecure (safe [(Reg.EVT_KOWN_SEC 5, 1)] []).eng c 5 = false
       ∧ subInsecure (onEng (fun e => { e with host := { e.host with owners := Tab.setAll [] [(resKey 4 63, 1)] } })
           (safe [(Reg.EVT_KOWN_SEC 5, 1)] [])).eng c 5 = (c == 703))
    ∧ (let s := onEvt (fun v => { v with oldHold := [⟨1023, [(256, ⟨0, 0, 0⟩)], []⟩] }) (safe [] [])
       (∃ x ∈ s.eng.evt.oldHold, x.ch = 1023) ∧ (∀ x ∈ s.eng.evt.oldHold, x.ch ≠ 1022) ∧ s.eng.reg (Reg.EVT_KSTAT_STOP 1023) = 0) := by
  decide +kernel

/-- No matrix bit joins anything to a source of wards 0 and 6. -/
theorem witness_EventFabric_joined : ∀ src ∈ [0, 895], (safe [] []).eng.joined (src / 128) (src % 128) = [] := by decide +kernel

/-- R318 by hand: a request of an idle channel fires it, and the subscribed input holds the event. -/
theorem test_raise_reaches_a_subscriber :
    ∃ t, exec (.evtSwpubWrite 0) (safe [(Reg.EVT_SPUB_EN 768, 1), (Reg.EVT_SPUB_CH 768, 9), (Reg.EVT_CSUB_EN 257, 1), (Reg.EVT_CSUB_CH 257, 9)] [])
        = .next t ∧ t.eng.evt.inbox.get 257 = 1 ∧ t.eng.reg (Reg.EVT_KFIRE_COUNT 9) = 1 ∧ t.eng.evt.hold.get 9 = 1
      ∧ t.eng.evt.lines.get 768 ≠ 0 := by refine ⟨_, rfl, ?_⟩; decide +kernel

theorem test_reserved_source_raises_nothing : exec (.eventRaise 6 0) (safe [] []) = .next (safe [] []) := by rfl

/-- A notification that waits for its EVN ring with one entry free and with none; inputs at the ends of Table 15.2 with 0, 1 and 2 events
under each kind of gate, open and closed; their tasks idle, running and out of power. -/
theorem witness_EventConsumers :
    (∀ n ∈ [15, 16], let r := { ring 300 3 0 with prod := n }
      let s := onEvt (fun v => { v with notes := [⟨895, 300, 5, 0, 1⟩] }) (withRings [r] (safe [(Reg.HST_CTL_EN, 1)] []))
      s.eng.evt.notes.find? (fun m => m.src == 895) = some ⟨895, 300, 5, 0, 1⟩ ∧ s.eng.ring? 300 = some r ∧ r.fault = false ∧ r.typ = 3
        ∧ s.eng.serving = true ∧ (0 < r.space ↔ n = 15) ∧ (r.space = 0 ↔ n = 16))
    ∧ (∀ c ∈ [256, 703], ∀ n ∈ [0, 1, 2], ∀ kind ∈ [0, 1, 2], ∀ o ∈ [0, 1],
      let s := onEvt (fun v => { v with inbox := Tab.setAll [] [(c, n)] }) (safe [(Reg.EVT_CGATE_KIND c, kind), (Reg.EVT_CSTAT_OPEN c, o)] [])
      consumerListed c = true ∧ s.eng.evt.inbox.get c = n ∧ s.eng.reg (Reg.EVT_CGATE_KIND c) = kind ∧ s.eng.reg (Reg.EVT_CSTAT_OPEN c) = o
        ∧ ∀ x ∈ s.eng.evt.oldbox, x.c ≠ c)
    ∧ (∀ o ∈ [0, 1], let s := onEvt (fun v => { v with oldbox := [⟨703, 2, ⟨2, 15, 0⟩, o == 1⟩], armbox := Tab.setAll [] [(703, o)] }) (safe [] [])
      s.eng.evt.oldbox.filter (fun x => x.c == 703) ≠ [] ∧ s.eng.evt.armbox.get 703 = o
        ∧ s.eng.passing ⟨2, 15, 0⟩ 2 (o == 1) = o ∧ ∀ x ∈ s.eng.evt.oldbox, x.c ≠ 256)
    ∧ (safe [(Reg.PWR_STAT_STATE, stOff)] []).eng.st = stOff
    ∧ (let e := (safe [(Reg.PWR_STAT_STATE, stStandby)] []).eng
       e.st ≠ stOff ∧ ¬(258 = 256 ∧ e.st ≠ stStandby) ∧ inputDown e 258 = true ∧ inputDown e 259 = true ∧ inputDown e 257 = false)
    ∧ (∀ c ∈ [257, 265, 512, 703], ¬(c = 256 ∧ (safe [] []).eng.st ≠ stStandby) ∧ inputDown (safe [] []).eng c = false
      ∧ inputBusy (safe [] []).eng c = false)
    ∧ inputBusy (safe [(Reg.DMA_STAT_STATE 63, 1)] []).eng 703 = true ∧ inputDown (safe [(Reg.PWR_STAT_STATE, stOff)] []).eng 257 = true := by
  decide +kernel

theorem test_notification_write :
    ∃ t, exec (.notificationWrite 768) (onEvt (fun v => { v with notes := [⟨768, 300, 5, 2, 9⟩] })
        (withRings [ring 300 3 0] (safe [(Reg.HST_CTL_EN, 1)] []))) = .next t ∧ t.eng.evt.notes = []
      ∧ t.eng.host.out = [⟨4096, leBytes 8 5 ++ leBytes 2 768 ++ [2, 128] ++ leBytes 4 9, false, false⟩]
      ∧ t.eng.host.rings.map (fun r => r.prod) = [1] := by refine ⟨_, rfl, ?_⟩; decide +kernel

theorem test_busy_activation_is_counted :
    ∃ t, exec (.consumerActivation 703) (onEvt (fun v => { v with inbox := Tab.setAll [] [(703, 1)] }) (safe [(Reg.DMA_STAT_STATE 63, 1)] []))
        = .next t ∧ t.eng.reg Reg.EVT_BUSY_COUNT = 1 ∧ t.eng.reg Reg.EVT_LAST_BUSY = 703 := by refine ⟨_, rfl, ?_⟩; decide +kernel

/-- A pulse source whose line holds an edge, pending and not; the line of one that is quiet; a source routed to the last vector, whose
message is sent and is masked; a link that is down. -/
theorem witness_InterruptController :
    (∀ src ∈ [0, 895], ∀ p ∈ [0, 1], let s := onEvt (fun v => { v with lines := Tab.setAll [] [(src, 1)] }) (safe [(Reg.IRQ_SSTAT_PEND src, p)] [])
      sourceListed src = true ∧ sourceLevel src = false ∧ s.eng.evt.lines.get src ≠ 0 ∧ s.eng.regs.wf = true
        ∧ s.eng.reg (Reg.IRQ_SSTAT_PEND src) = p ∧ (safe [] []).eng.evt.lines.get src = 0)
    ∧ (∀ m ∈ [true, false],
      let s := onEng (fun e => { e with host := { e.host with fnMask := m, msix := Tab.puts [] [(msixFld 2047 3, 0)] } })
        (safe [(Reg.IRQ_SSTAT_PEND 895, 1), (Reg.IRQ_SCFG_EN 895, 1), (Reg.IRQ_SCFG_HOST 895, 1), (Reg.IRQ_SCFG_TGT 895, 2047),
          (Reg.HST_CTL_EN, 1), (Reg.HST_STATUS_LINKUP, 1)] [])
      s.eng.reg (Reg.IRQ_SSTAT_PEND 895) = 1 ∧ s.eng.reg (Reg.IRQ_SCFG_EN 895) = 1 ∧ s.eng.reg (Reg.IRQ_SCFG_HOST 895) = 1
        ∧ s.eng.reg (Reg.IRQ_SCFG_TGT 895) = 2047 ∧ s.eng.serving = true ∧ s.eng.reg Reg.HST_STATUS_LINKUP = 1 ∧ s.eng.regs.wf = true
        ∧ (s.eng.host.fnMask || tbit (s.eng.host.msix.fld (msixFld 2047 3)) 0) = m ∧ s.eng.host.pba.wf = true
        ∧ s.eng.evt.msgs.any (fun x => x.src == 895 && x.masked) = false
        ∧ (onEvt (fun v => { v with msgs := [⟨895, 2047, true⟩] }) s).eng.evt.msgs.any (fun x => x.src == 895 && x.masked) = true)
    ∧ (safe [] []).eng.serving = false := by decide +kernel

theorem test_edge_makes_pending :
    ∃ t, exec (.irqFilterPass 768 true) (onEvt (fun v => { v with lines := Tab.setAll [] [(768, 1)] }) (safe [] [])) = .next t
      ∧ t.eng.reg (Reg.IRQ_SSTAT_PEND 768) = 1 ∧ t.eng.evt.lines.get 768 = 0 := by refine ⟨_, rfl, ?_⟩; decide +kernel

theorem test_msix_send :
    ∃ t, exec (.msixSend 768) (onEng (fun e => { e with host := { e.host with
          msix := Tab.puts [] [(msixFld 3 0, 0xFEE00000), (msixFld 3 1, 1), (msixFld 3 2, 0x4003), (msixFld 3 3, 0)] } })
        (safe [(Reg.IRQ_SSTAT_PEND 768, 1), (Reg.IRQ_SCFG_EN 768, 1), (Reg.IRQ_SCFG_HOST 768, 1), (Reg.IRQ_SCFG_TGT 768, 3),
          (Reg.HST_CTL_EN, 1), (Reg.HST_STATUS_LINKUP, 1)] [])) = .next t
      ∧ t.eng.host.out = [⟨0x1FEE00000, leBytes 4 0x4003, false, false⟩] ∧ t.eng.reg (Reg.IRQ_SSTAT_PEND 768) = 0 := by
  refine ⟨_, rfl, ?_⟩; decide +kernel

/-- The outer counters, at a plain value, at a match and in their last count, with and without a CASCADE counter above; each source; each
kind of write, before and after a boundary; a snapshot that is asked for and one with a command waiting. -/
theorem witness_CascadeCounters :
    (∀ n ∈ [0, 63], ∀ src ∈ [0, 1, 2], ∀ v ∈ [0, 8, 9, 2 ^ 32 - 1],
      let s := safe [(Reg.CNT_CFG_SRC n, src), (Reg.CNT_VAL_COUNT n, v), (Reg.CNT_CMP_VAL n, 10)] []
      n < 64 ∧ s.eng.regs.wf = true ∧ s.eng.st ≠ stOff ∧ s.eng.reg (Reg.CNT_CFG_SRC n) ≤ 2 ∧ s.eng.cnt.snapping = false
        ∧ ((s.eng.reg (Reg.CNT_VAL_COUNT n) + 1) % 2 ^ 32 = s.eng.reg (Reg.CNT_CMP_VAL n) ↔ v = 9)
        ∧ ((s.eng.reg (Reg.CNT_VAL_COUNT n) + 1) % 2 ^ 32 = 0 ↔ v = 2 ^ 32 - 1) ∧ s.eng.reg (Reg.CNT_CMP_VAL n) ≠ 0
        ∧ s.eng.cascades (n + 1) = false)
    ∧ (let s := safe [(Reg.CNT_VAL_COUNT 62, 2 ^ 32 - 1), (Reg.CNT_CMP_VAL 62, 1), (Reg.CNT_CFG_SRC 63, 4), (Reg.CNT_VAL_COUNT 63, 7)] []
       s.eng.cascades 63 = true ∧ s.eng.reg (Reg.CNT_CFG_EVO 62) = 0 ∧ (s.eng.reg (Reg.CNT_VAL_COUNT 63) + 1) % 2 ^ 32 = 8
         ∧ 8 ≠ s.eng.reg (Reg.CNT_CMP_VAL 63))
    ∧ (∀ a ∈ [0, 1], let s := onEng (fun e => { e with cnt := { e.cnt with acts := Tab.setAll [] [(63, a)] } }) (safe [(Reg.CNT_CFG_SRC 63, 3)] [])
       s.eng.reg (Reg.CNT_CFG_SRC 63) = 3 ∧ s.eng.cnt.acts.get 63 = a)
    ∧ (∀ src ∈ [4, 7], 4 ≤ (safe [(Reg.CNT_CFG_SRC 63, src)] []).eng.reg (Reg.CNT_CFG_SRC 63))
    ∧ (∀ kind ∈ [0, 1, 2], ∀ armed ∈ [true, false],
       let s := onEng (fun e => { e with cnt := { e.cnt with writes := [⟨63, kind, 2 ^ 32 - 1, armed⟩] } }) (safe [] [])
       (63 < 64) ∧ 2 ^ 32 - 1 < 2 ^ 32 ∧ s.eng.regs.wf = true ∧ s.eng.cnt.writes = [⟨63, kind, 2 ^ 32 - 1, armed⟩])
    ∧ (∀ snaps ∈ [[], [(256, 7, true, 8)]], let s := onEng (fun e => { e with cnt := { e.cnt with snapping := true, snaps := snaps } }) (safe [] [])
       s.eng.cnt.snapping = true ∧ s.eng.cnt.snaps = snaps ∧ s.eng.regs.wf = true) := by decide +kernel

/-- A counter of each source while a snapshot waits for its chain and after it has latched; a unit in OFF. -/
theorem witness_CascadeCounters_latching :
    (∀ src ∈ [0, 1, 2], ∀ ns ∈ [[], [63]],
       let s := onEng (fun e => { e with cnt := { e.cnt with snapping := true, latched := ns } }) (safe [(Reg.CNT_CFG_SRC 63, src)] [])
       s.eng.st ≠ stOff ∧ s.eng.cnt.snapping = true ∧ (s.eng.cnt.latched.contains 63 = false ↔ ns = []) ∧ s.eng.reg (Reg.CNT_CFG_SRC 63) = src)
    ∧ (safe [(Reg.PWR_STAT_STATE, stOff)] []).eng.st = stOff ∧ (safe [] []).eng.cnt.snapping = false := by decide +kernel

theorem test_counter_carries_into_cascade :
    ∃ t, exec (.counterOverflow 62) (safe [(Reg.CNT_VAL_COUNT 62, 2 ^ 32 - 1), (Reg.CNT_CMP_VAL 62, 1), (Reg.CNT_CFG_SRC 63, 4),
        (Reg.CNT_VAL_COUNT 63, 7)] []) = .next t ∧ t.eng.reg (Reg.CNT_VAL_COUNT 62) = 0 ∧ t.eng.reg (Reg.CNT_VAL_COUNT 63) = 8
      ∧ t.eng.reg (Reg.CNT_STAT_OVF 62) = 1 := by refine ⟨_, rfl, ?_⟩; decide +kernel

theorem test_counter_load_applies :
    ∃ t, exec (.counterWriteApply 5) (onEng (fun e => { e with cnt := { e.cnt with writes := [⟨5, 0, 77, true⟩] } }) (safe [] [])) = .next t
      ∧ t.eng.reg (Reg.CNT_VAL_COUNT 5) = 77 ∧ t.eng.cnt.writes = [] := by refine ⟨_, rfl, ?_⟩; decide +kernel

/-! ### Memories, movers, blitters -/

/-- `s` with the memories changed by `f`. -/
def onMem (f : MemSt → MemSt) (s : State) : State := onEng (fun e => { e with mem := f e.mem }) s

/-- Accesses at the ends of a bank's port 1: nobody waits; the requester that comes after the last served, and one that only comes round; a
corrected word that waits for the port. -/
theorem witness_MemoryEvents_ports :
    (let order := fun (k : Nat) => requesters.drop k ++ requesters.take k
     let w : List (Requester × PortAccess) := [(.hst, ⟨.read, 262144, [0]⟩), (.dma, ⟨.read, 2 * 262144 - 1, [0]⟩)]
     (∀ x ∈ w, inBank 1 x.2 = true ∧ inBank 0 x.2 = false ∧ inBank 2 x.2 = false)
     ∧ (order 1 = [] ++ Requester.dma :: [.blt0, .blt1, .sc0, .sc1, .copier, .hst]
         ∧ (w.find? (fun x => x.1 == .dma && inBank 1 x.2)).isSome = true)
     ∧ (order 2 = [.blt0, .blt1, .sc0, .sc1, .copier] ++ Requester.hst :: [.dma]
         ∧ (∀ x ∈ w, x.1 ∉ [Requester.blt0, .blt1, .sc0, .sc1, .copier]) ∧ (w.find? (fun x => x.1 == .hst && inBank 1 x.2)).isSome = true))
    ∧ (∀ back ∈ [[], [32768]], let e := (onMem (fun m => { m with wback := back }) (safe [] [])).eng
       (∀ x ∈ e.mem.waiting, inBank 1 x.2 = false)
         ∧ (bankCycle none none e).mem.wback.find? (fun k => 8 * k / 262144 == 1) = (if back = [] then none else some 32768))
    ∧ (∀ a ∈ [0, sramSize - 8], ∀ b ∈ [0, sramSize - 8], a < sramSize ∧ b < sramSize ∧ (safe [] []).eng.mem.ecc = [] ∧ (a / 8 = b / 8 ↔ a = b)) := by
  decide +kernel

/-- `s` with the captures `cs`. -/
def capturing (cs : List Cap) (s : State) : State := onEng (fun e => { e with out := { e.out with caps := cs } }) s

/-- Errors of no, one and two bits; a scrubber that is on and off; compaction; captures with and without their frame, with room for them, the
staging buffer filled to the last byte, and one byte past it; freezes with a free slot, with none but one that a FAULT may take, and with none. -/
theorem witness_MemoryEvents :
    (2 ^ 22 ≤ 2 ^ 22 ∧ memWf (safe [] []).eng.mem.cells = true ∧ 0 < ([7] : List Byte).length)
    ∧ (∀ x ∈ [(0, 0), (2 ^ 71, 1), (2 ^ 71 + 1, 2)], let e := (onMem (fun m => { m with ecc := Tab.setAll [] [(5, x.1)] }) (safe [] [])).eng
        e.mem.ecc.wf = true ∧ popCount 72 (e.mem.ecc.get 5) = x.2 ∧ (e.mem.ecc.get 5 = 0 ↔ x.2 = 0))
    ∧ (safe [(Reg.MEM_SCRUB_EN, 1)] []).eng.reg Reg.MEM_SCRUB_EN ≠ 0 ∧ (safe [(Reg.MEM_JSTAT_COMPACT, 1)] []).eng.reg Reg.MEM_JSTAT_COMPACT = 1
    ∧ (∀ n ∈ [9, 8], let s := capturing [⟨n, 5, false⟩] (seeing 20 [fr 9 9] [] (safe [] []))
        s.eng.out.caps = ⟨n, 5, false⟩ :: [] ∧ s.eng.running = true
          ∧ (stageFrames s.eng).find? (fun f => f.n == n) = (if n = 9 then some (fr 9 9) else none) ∧ setups (fr 9 9).cfg tCaps = [])
    ∧ (∀ x ∈ [(0, false), (1, true)], stagingSize < (stagingSize - (captureRecord (fr 9 9) 5).length + x.1) + (captureRecord (fr 9 9) 5).length
        ↔ x.2 = true)
    ∧ (safe [(Reg.PWR_STAT_STATE, stStandby)] []).eng.running = false
    ∧ (∀ x ∈ [(127, 0, 1), (255, 127, 1), (255, 255, 1), (255, 127, 2)],
       let s := onMem (fun m => { m with held := [3, 7] })
         (onEng (fun e => { e with out := { e.out with freezes := [x.2.2] } }) (safe [(Reg.MEM_FZSTAT_HELD, x.1), (Reg.MEM_FZSTAT_FAULT, x.2.1)] []))
       s.eng.out.freezes = x.2.2 :: []
         ∧ (List.range 8).find? (fun k => !tbit (s.eng.reg Reg.MEM_FZSTAT_HELD) k) = (if x.1 = 127 then some 7 else none)
         ∧ (x.1 = 255 → s.eng.mem.held.find? (fun k => !tbit (s.eng.reg Reg.MEM_FZSTAT_FAULT) k) = (if x.2.1 = 127 then some 7 else none))) := by
  decide +kernel

theorem test_two_port_writes_collide :
    ∃ t, exec (.sramAccess ⟨16, some ⟨.write, 2 ^ 22, [1]⟩⟩ [(.hst, ⟨.write, 2 ^ 22 + 4, [2]⟩)]) (safe [] []) = .next t
      ∧ t.eng.mem.cells = [(2 ^ 22, 1)] ∧ t.eng.reg Reg.MEM_WWCOL_COUNT = 1 ∧ t.eng.reg Reg.MEM_WWADDR_ADDR = 2 ^ 22 + 4 := by
  refine ⟨_, rfl, ?_⟩; decide +kernel

/-- R357 by hand: after blitter 1, of the host and the copier the copier is next. -/
theorem test_port_1_takes_turns :
    ∃ t, exec (.sramAccess ⟨16, none⟩ [(.hst, ⟨.write, 2 ^ 22, [1]⟩), (.copier, ⟨.write, 2 ^ 22 + 8, [2]⟩)])
        (onMem (fun m => { m with served := Tab.setAll [] [(16, 4)] }) (safe [] [])) = .next t
      ∧ t.eng.mem.cells = [(2 ^ 22 + 8, 2)] ∧ t.eng.mem.waiting.map (·.1) = [.hst] ∧ t.eng.mem.served.get 16 = 7 := by
  refine ⟨_, rfl, ?_⟩; decide +kernel

theorem test_full_staging_buffer_stalls_once :
    let s := capturing [⟨9, 5, false⟩] (onMem (fun m => { m with stageUsed := stagingSize }) (seeing 20 [fr 9 9] [] (safe [] [])))
    let t := nextOf (exec .captureCopy (nextOf (exec .captureCopy s)))
    t.eng.reg Reg.MEM_CSTALL_COUNT = 1 ∧ t.eng.out.caps = [⟨9, 5, true⟩] := by decide +kernel

theorem test_alias_sets_and_clears_bits :
    let e := (sramWrite Engine.reset (2 ^ 22) [0x0F]).1
    (aliasWrite true e (2 ^ 22) [0x30]).1.mem.cells = [(2 ^ 22, 0x3F)] ∧ (aliasWrite false e (2 ^ 22) [0x03]).1.mem.cells = [(2 ^ 22, 0x0C)] := by
  decide +kernel

/-- A descriptor (Table 18.1). -/
def descr (src dst len ctl next : Nat) : List Byte := leBytes 8 src ++ leBytes 8 dst ++ leBytes 4 len ++ leBytes 4 ctl ++ leBytes 8 next

/-- A running channel `n` with contents `c`, whose descriptor lies at `a` of space `sp`, with registers `ws`. -/
def mover (n : Nat) (c : Chan) (sp a : Nat) (ws : List (Fld × Nat)) : State :=
  onEng (fun e => e.putChan n c) (safe ([(Reg.DMA_STAT_STATE n, 1), (Reg.DMA_CUR_LO_SP n, sp), (Reg.DMA_CUR_LO_ADDR n, a / 32),
    (Reg.DMA_CUR_HI_ADDR n, a / 2 ^ 32)] ++ ws) [])

/-- The host interface is open to the movers. -/
def hostUp : List (Fld × Nat) := [(Reg.HST_CTL_EN, 1), (Reg.HST_STATUS_LINKUP, 1)]

/-- The first and the last channel: idle with the least and greatest DMA_HEAD, with and without a held word; reading a descriptor from the
first and the last place of capture memory and from host memory, where it arrives whole, in part, as one that fails a check, or not at all;
ending one by DMA_NEXT, by NEXT and by END; after a difference; aborted with and without a descriptor. -/
theorem witness_MoverChains :
    (∀ n ∈ [0, 63], ∀ x ∈ [(0, 0, 0), (1, 2 ^ 27 - 1, 2 ^ 32 - 1)], ∀ h ∈ [none, some (2 ^ 32 - 1)],
      let s := onEng (fun e => e.putChan n { Chan.reset with nextHi := h })
        (safe [(Reg.DMA_HEAD_LO_SP n, x.1), (Reg.DMA_HEAD_LO_ADDR n, x.2.1), (Reg.DMA_HEAD_HI_ADDR n, x.2.2)] [])
      n < 64 ∧ s.eng.regs.wf = true ∧ s.eng.mov.chans.length = 64 ∧ s.eng.reg (Reg.DMA_STAT_STATE n) ≠ 1
        ∧ s.eng.reg (Reg.DMA_HEAD_LO_SP n) < 2 ∧ s.eng.reg (Reg.DMA_HEAD_LO_ADDR n) < 2 ^ 27 ∧ s.eng.reg (Reg.DMA_HEAD_HI_ADDR n) < 2 ^ 32
        ∧ (s.eng.chan n).nextHi = h)
    ∧ (∀ n ∈ [0, 63], ∀ a ∈ [2 ^ 37, 2 ^ 38 - 32], let s := mover n Chan.reset 0 a []
       s.eng.reg (Reg.DMA_STAT_STATE n) = 1 ∧ (s.eng.chan n).desc = [] ∧ s.eng.curSpace n = 0 ∧ s.eng.curAddr n = a ∧ a < 2 ^ 40 ∧ 2 ^ 37 ≤ a
         ∧ dmaBad s.eng n 0 a 32 false = none ∧ descBad (s.eng.bytes a 32) = none)
    ∧ (∀ got ∈ [0, 31, 32], let s := mover 63 { Chan.reset with buf := List.replicate got 0 } 1 0 hostUp
       s.eng.curSpace 63 = 1 ∧ (s.eng.chan 63).desc = [] ∧ (s.eng.chan 63).failed = false ∧ dmaBad s.eng 63 1 0 32 false = none
         ∧ ((s.eng.chan 63).buf.length < 32 ↔ got ≠ 32))
    ∧ (descr 0 0 0 0 0).length = 32 ∧ descBad (descr 0 0 0 0 0) = none ∧ descBad (descr 1 0 0 0 0) = some (.align 0, 1)
    ∧ (∀ next ∈ [2, 0x40, 0x41], ∀ v ∈ [0, 1],
       let c : Chan := { Chan.reset with desc := descr (2 ^ 22) (2 ^ 22 + 8) 8 0 next, pos := 8 }
       let s := mover 63 c 0 (2 ^ 22) [(Reg.DMA_NEXT_LO_V 63, v), (Reg.DMA_NEXT_LO_SP 63, 1), (Reg.DMA_NEXT_LO_ADDR 63, 2 ^ 27 - 1)]
       s.eng.reg (Reg.DMA_STAT_STATE 63) = 1 ∧ s.eng.chan 63 = c ∧ c.desc ≠ [] ∧ c.mism = false ∧ dLen c.desc ≤ c.pos
         ∧ tbit (dCtl c.desc) 6 = false ∧ tbit (dCtl c.desc) 7 = false ∧ s.eng.reg (Reg.DMA_NEXT_LO_V 63) = v
         ∧ (tbit (dNext c.desc) 1 = true ↔ next = 2) ∧ s.eng.reg (Reg.DMA_NEXT_LO_SP 63) < 2
         ∧ s.eng.reg (Reg.DMA_NEXT_LO_ADDR 63) < 2 ^ 27 ∧ s.eng.reg (Reg.DMA_NEXT_HI_ADDR 63) < 2 ^ 32)
    ∧ (mover 63 Chan.reset 0 0 []).eng.mov.holder ≠ some 63 := by decide +kernel

/-- A difference found whose write-back passes, meets an uncorrectable word through an alias, and is not permitted; an abort outside a burst,
with and without a write-back, and within one that waits for host data. -/
theorem witness_MoverChains_ends :
    (∀ x ∈ [(2 ^ 22, [], none, false), (2 ^ 27 + 2 ^ 22, [(2 ^ 19 + 2, 3)], none, true), (0, [], some (.range 0), false)],
       let c : Chan := { Chan.reset with desc := descr (2 ^ 22) (2 ^ 22 + 8) 8 2 2, pos := 3, mism := true }
       let s := onMem (fun m => { m with ecc := x.2.1 }) (mover 63 c 0 x.1 [])
       s.eng.regs.wf = true ∧ s.eng.reg (Reg.DMA_STAT_STATE 63) = 1 ∧ c.desc ≠ [] ∧ c.mism = true ∧ s.eng.chan 63 = c
         ∧ s.eng.mov.holder ≠ some 63 ∧ s.eng.curAddr 63 = x.1 ∧ dmaBad s.eng 63 0 (x.1 + 16) 8 true = x.2.2.1
         ∧ (dmaWrite s.eng 0 (x.1 + 16) (List.replicate 8 0)).2 = x.2.2.2)
    ∧ (∀ shut ∈ [true, false], let c : Chan := { Chan.reset with desc := descr 0 (2 ^ 22) 128 4 2, burst := 128 }
       let s := onEng (fun e => { e with mov := { e.mov with holder := some 63 } }) (mover 63 c 0 (2 ^ 22) (if shut then [] else hostUp))
       s.eng.reg (Reg.DMA_STAT_STATE 63) = 1 ∧ s.eng.mov.holder = some 63 ∧ c.pos < c.burst ∧ s.eng.ready 63 = shut) := by decide +kernel

theorem test_descriptor_hands_over_to_next :
    ∃ t, exec (.descriptorEnd 63 false) (mover 63 { Chan.reset with desc := descr (2 ^ 22) (2 ^ 22 + 8) 8 0 0x41, pos := 8 } 0 (2 ^ 22) [])
        = .next t ∧ t.eng.curAddr 63 = 0x40 ∧ t.eng.curSpace 63 = 1 ∧ t.eng.reg (Reg.DMA_DESC_COUNT 63) = 1 := by
  refine ⟨_, rfl, ?_⟩; decide +kernel

/-- Host memory's answer for a channel that wants it, that has all it needs, whose host is shut, and whose read has failed; a channel at the
start and in the last beat of its burst, for COPY, FILL and COMPARE with equal and unequal bytes, with host data and with an abort that
waits; a burst that is not permitted, one whose host has shut, one whose read has failed; none ready. -/
theorem witness_MoverBeats :
    (∀ x ∈ [(0, true, false), (128, true, false), (0, false, false), (0, true, true)],
      let c : Chan := { Chan.reset with desc := descr 0 (2 ^ 22) 128 4 2, buf := List.replicate x.1 7, failed := x.2.2 }
      let s := mover 63 c 0 (2 ^ 23) (if x.2.1 then hostUp else [])
      s.eng.regs.wf = true ∧ s.eng.mov.chans.length = 64 ∧ s.eng.mem.ecc = [] ∧ s.eng.mem.lecc = [] ∧ s.eng.hostLeft 63 = 128 - x.1
        ∧ s.eng.hostOpen 63 = x.2.1 ∧ (s.eng.chan 63).failed = x.2.2
        ∧ moverPick s.eng (readyChans s.eng) = (if x = (0, true, false) then none else some 63)
        ∧ (hostShut s.eng 63 c.desc = none ↔ x.2.1 = true) ∧ (x.2.2 = true → c.buf.length < beatLen c.desc c.pos (burstOf c)))
    ∧ (∀ ctl ∈ [0, 1, 2, 4], ∀ x ∈ [(0, 0, false), (64, 128, false), (64, 128, true)],
      let c : Chan := { Chan.reset with desc := descr (2 ^ 22) (2 ^ 22 + 1024) 128 ctl 2, pos := x.1, burst := x.2.1, aborting := x.2.2,
                                        buf := if ctl = 4 then List.replicate 64 7 else [] }
      let s := mover 63 c 0 (2 ^ 23) hostUp
      let e := hostData s.eng 0 none
      e.chan 63 = c ∧ e.chanRun 63 = true ∧ c.desc ≠ [] ∧ s.eng.hostLeft 0 = 0
        ∧ ¬(e.reg (Reg.DMA_STAT_STATE 0) = 1 ∧ (e.chan 0).desc = []) ∧ moverPick e (readyChans e) = some 63
        ∧ (if c.pos < c.burst then hostShut e 63 c.desc else burstBad e 63 c (burstOf c - c.pos)) = none
        ∧ hostNeed c ≤ c.buf.length ∧ (dOp c.desc = 2 ↔ ctl = 2) ∧ burstOf c = 128 ∧ beatLen c.desc c.pos (burstOf c) = 64)
    ∧ firstDiff [1, 2] [1, 2] = none ∧ firstDiff [1, 2] [1, 3] = some 1
    ∧ (let c : Chan := { Chan.reset with desc := descr (2 ^ 22) 0 128 0 2 }
       let s := mover 63 c 0 (2 ^ 23) []
       moverPick s.eng (readyChans s.eng) = some 63 ∧ burstBad s.eng 63 c 128 = some (.range 0, 2))
    ∧ moverPick (safe [] []).eng (readyChans (safe [] []).eng) = none := by decide +kernel

theorem test_fill_beat :
    ∃ t, exec (.dmaBurst 63 none) (mover 63 { Chan.reset with desc := descr 0xA1 (2 ^ 22) 8 1 2 } 0 (2 ^ 23) []) = .next t
      ∧ t.eng.mem.cells = [(2 ^ 22, 0xA1)] ∧ (t.eng.chan 63).pos = 8 ∧ t.eng.reg (Reg.DMA_BYTES_COUNT 63) = 8 := by
  refine ⟨_, rfl, ?_⟩; decide +kernel

/-- R380 by hand: of two channels that are ready the one of the higher priority moves, whichever the answer of host memory was for. -/
theorem test_priority_decides :
    let c : Chan := { Chan.reset with desc := descr 0xA1 (2 ^ 22) 8 1 2 }
    let s := onEng (fun e => e.putChan 2 { c with desc := descr 0xA2 (2 ^ 22) 8 1 2 })
      (mover 63 c 0 (2 ^ 23) [(Reg.DMA_STAT_STATE 2, 1), (Reg.DMA_CFG_PRIO 2, 1)])
    (nextOf (exec (.dmaBurst 63 none) s)).eng.mem.cells = [(2 ^ 22, 0xA2)] := by decide +kernel

/-- A FILL of `w` × 2 bytes at `base`, pitch `pitch`. -/
def fillImage (w base pitch : Nat) : List Nat := [0, 0, 1, 0xAB, 0, 0, 0, 0, 0, base, 0, pitch, (w - 1) + 2 ^ 16, 0, (w - 1) + 2 ^ 16, 0]

/-- Blitter 1 with the operation `g` in its registers, and, where it runs, at row `row` and column `col`. -/
def blitter (g : List Nat) (run : Nat) (row col : Nat) : State :=
  onEng (fun e => e.putBlt 1 ⟨g, [], row, col, none⟩) (safe ((Reg.BLT_STAT_STATE 1, run) :: bltWrites 1 g) [])

/-- A start that is permitted and one that is not; a burst that is refused, one in the middle of a row, one that ends a row, and the last
one; a running operation that no command waits for. -/
theorem witness_BlitterOperations :
    (∀ p ∈ [8, 4], let s := blitter (fillImage 4 (2 ^ 22) p) 0 0 0
      s.eng.regs.wf = true ∧ s.eng.mov.blts.length = 2 ∧ s.eng.reg (Reg.BLT_STAT_STATE 1) ≠ 1
        ∧ bltBad s.eng 1 (bltImage s.eng 1) = (if p = 8 then none else some (.align 27)))
    ∧ (∀ x ∈ [(2 ^ 22, 0, 0, 8, true), (2 ^ 22 + 1016, 0, 0, 16, true), (2 ^ 22 + 1016, 1, 8, 16, true), (0, 0, 0, 8, false)],
      let g := fillImage x.2.2.2.1 x.1 1024
      let s := blitter g 1 x.2.1 x.2.2.1
      let y := x.2.1
      let cols := burstCols g (s.eng.reg (Reg.BLT_STAT_XDIR 1) == 1) x.2.2.1 y
      s.eng.reg (Reg.BLT_STAT_STATE 1) = 1 ∧ (s.eng.blt 1).cmd = none ∧ s.eng.mem.ecc = [] ∧ s.eng.mem.lecc = [] ∧ s.eng.reg (Reg.BLT_STAT_YDIR 1) ≠ 1
        ∧ cols.length = 8 ∧ (burstStop s.eng 1 g cols y = none ↔ x.2.2.2.2 = true)
        ∧ (x.2.2.1 + cols.length < bltW g ↔ x = (2 ^ 22 + 1016, 0, 0, 16, true)) ∧ bltH g = 2) := by decide +kernel

theorem test_fill_burst_of_last_row :
    ∃ t, exec (.bltBurst 1) (blitter (fillImage 2 (2 ^ 22) 1024) 1 1 0) = .next t
      ∧ t.eng.mem.cells = [(2 ^ 22 + 1024, 0xAB), (2 ^ 22 + 1025, 0xAB)] ∧ t.eng.reg (Reg.BLT_STAT_STATE 1) = 0
      ∧ t.eng.reg (Reg.BLT_ROWS_COUNT 1) = 2 ∧ t.eng.reg (Reg.BLT_OPS_COUNT 1) = 1 := by refine ⟨_, rfl, ?_⟩; decide +kernel

/-! ### Security, power, supplies -/

/-- The 32 bytes before KEYID of an object (Table 19.2). -/
def objHead (typ len ver svn signer serial : Nat) : List Byte :=
  [0x41, 0x51, 0x53, 0x4F] ++ leBytes 2 typ ++ leBytes 2 1 ++ leBytes 4 len ++ leBytes 4 ver ++ leBytes 4 svn ++ leBytes 4 signer ++ leBytes 8 serial

/-- An object of that head, with the reserved bytes `z`, signed with `sig` for the key `key`. -/
def signed (head key z sig body : List Byte) : List Byte := head ++ (digest64 key ++ (z ++ (sig ++ body)))

theorem digest64_length (bs : List Byte) : (digest64 bs).length = 64 := by simp [digest64, fixLen]

theorem leVal_leBytes : ∀ (n v : Nat), leVal (leBytes n v) = v % 256 ^ n
  | 0, v => by simp [leBytes, leVal, Nat.mod_one]
  | n + 1, v => by
    simp only [leBytes, leVal, leVal_leBytes n, BitVec.toNat_ofNat, Nat.pow_succ, Nat.mul_comm _ 256]
    exact (Nat.mod_mul (x := v) (a := 256) (b := 256 ^ n)).symm

theorem leAt_front (a b : List Byte) (i n : Nat) (h : i + n ≤ a.length) : leAt (a ++ b) i n = leAt a i n := by
  unfold leAt
  rw [List.drop_append_of_le_length (by omega), List.take_append_of_le_length (by simp; omega)]

/-- The parts of a signed object past its KEYID. -/
theorem signed_parts (h key z sig body : List Byte) (hl : h.length = 32) (hz : z.length = 160) (hsig : sig.length = 29792) :
    (signed h key z sig body).drop 96 = z ++ (sig ++ body) ∧ (signed h key z sig body).drop 256 = sig ++ body
      ∧ objBody (signed h key z sig body) = body := by
  have tail : (signed h key z sig body).drop 96 = z ++ (sig ++ body) := by
    have l : (h ++ digest64 key).length = 96 := by simp [hl, digest64_length]
    show (h ++ (digest64 key ++ (z ++ (sig ++ body)))).drop 96 = _
    rw [← List.append_assoc, ← l, List.drop_left]
  have d256 : (signed h key z sig body).drop 256 = sig ++ body := by
    have : (signed h key z sig body).drop 256 = ((signed h key z sig body).drop 96).drop 160 := by rw [List.drop_drop]
    rw [this, tail]; exact List.drop_left' hz
  refine ⟨tail, d256, ?_⟩
  have : (signed h key z sig body).drop 30048 = ((signed h key z sig body).drop 256).drop 29792 := by rw [List.drop_drop]
  show (signed h key z sig body).drop 30048 = body
  rw [this, d256]; exact List.drop_left' hsig

/-- An object that is laid out as Table 19.2 says, for a key in force and of a version that the unit admits, passes exactly where its
signatures do, of which the source gives no computation (assumption 5). -/
theorem objFail_signed (e : Engine) (typ : Nat) (h key z sig body : List Byte) (hl : h.length = 32) (hz : z.length = 160)
    (h0 : z.all (· == 0) = true) (hsig : sig.length = 29792)
    (h1 : h.take 4 = [0x41, 0x51, 0x53, 0x4F]) (h2 : leAt h 4 2 = typ) (h3 : leAt h 6 2 = 1) (h4 : leAt h 8 4 = body.length)
    (h5 : bodyLenOk typ body.length = true) (h6 : leAt h 20 4 = signerOf typ) (h7 : leAt h 24 8 = serialNo)
    (hk : key = if typ = 5 then body.take 64 else if signerOf typ = 1 then noerdalPub else e.sec.ownerKey)
    (ho : signerOf typ = 2 → typ ≠ 5 → e.reg Reg.SEC_STAT_OWNER = 1) (hf : typ = 1 → e.reg Reg.SEC_FLOOR_FLOOR ≤ leAt h 16 4)
    (hv : typ = 2 → e.reg Reg.SEC_KEEPVER_VER < leAt h 12 4) :
    let o := signed h key z sig body
    let second := objVerify (body.take 64) (leBytes 8 serialNo ++ digest64 e.sec.ownerKey) (body.drop 64)
    objFail e typ false o = 0 ↔ objVerify key (h ++ (digest64 key ++ (z ++ body))) sig = true ∧ (typ = 6 → second = true) := by
  intro o second
  have hd := digest64_length key
  have front : ∀ i n, i + n ≤ 32 → leAt o i n = leAt h i n := fun i n hin => leAt_front h _ i n (by omega)
  have t4 : o.take 4 = [0x41, 0x51, 0x53, 0x4F] := by rw [← h1]; exact List.take_append_of_le_length (by omega)
  have key1 : objKeyid o = digest64 key := by
    show ((h ++ (digest64 key ++ (z ++ (sig ++ body)))).drop 32).take 64 = _
    rw [← hl, List.drop_left, ← hd, List.take_left]
  obtain ⟨tail, d256, body1⟩ := signed_parts h key z sig body hl hz hsig
  have zeros160 : (o.drop 96).take 160 = z := by
    rw [tail]; exact List.take_left' hz
  have sig1 : objSig o = sig := by
    show (o.drop 256).take 29792 = sig
    rw [d256]; exact List.take_left' hsig
  have t256 : o.take 256 = h ++ (digest64 key ++ z) := by
    have : o = (h ++ (digest64 key ++ z)) ++ (sig ++ body) := by simp [o, signed]
    rw [this]; exact List.take_left' (by simp [hl, hd, hz])
  have msg1 : objMsg o = h ++ (digest64 key ++ (z ++ body)) := by
    show o.take 256 ++ objBody o = _
    rw [t256, body1]; simp
  have len1 : o.length = 30048 + body.length := by simp [o, signed, hl, hd, hz, hsig]; omega
  have f2 : objType o = typ := (front 4 2 (by omega)).trans h2
  have f3 : leAt o 6 2 = 1 := (front 6 2 (by omega)).trans h3
  have f4 : objBodyLen o = body.length := (front 8 4 (by omega)).trans h4
  have f6 : objSigner o = signerOf typ := (front 20 4 (by omega)).trans h6
  have f7 : objSerial o = serialNo := (front 24 8 (by omega)).trans h7
  have f5 : objSvn o = leAt h 16 4 := front 16 4 (by omega)
  have fv : objVer o = leAt h 12 4 := front 12 4 (by omega)
  have key2 : (if typ = 5 then (objBody o).take 64 else if signerOf typ = 1 then noerdalPub else e.sec.ownerKey) = key := by rw [body1, hk]
  have c3 : ¬((signerOf typ = 2 ∧ typ ≠ 5 ∧ e.reg Reg.SEC_STAT_OWNER ≠ 1)) := fun ⟨a, b, c⟩ => c (ho a b)
  have c6 : ¬(typ = 1 ∧ leAt h 16 4 < e.reg Reg.SEC_FLOOR_FLOOR) := fun ⟨a, b⟩ => by have := hf a; omega
  have c7 : ¬(typ = 2 ∧ leAt h 12 4 ≤ e.reg Reg.SEC_KEEPVER_VER) := fun ⟨a, b⟩ => by have := hv a; omega
  have n1 : ¬(o.take 4 ≠ [0x41, 0x51, 0x53, 0x4F] ∨ objType o ≠ typ ∨ leAt o 6 2 ≠ 1 ∨ (!((o.drop 96).take 160).all (· == 0)) = true
      ∨ o.length ≠ 30048 + objBodyLen o ∨ (!bodyLenOk typ (objBodyLen o)) = true) := by
    rw [t4, f2, f3, zeros160, len1, f4, h5, h0]; simp
  have n3 : ¬((signerOf typ = 2 ∧ typ ≠ 5 ∧ e.reg Reg.SEC_STAT_OWNER ≠ 1) ∨ objKeyid o ≠ digest64 key) := by
    rintro (c | c)
    exacts [c3 c, c key1]
  unfold objFail
  simp only []
  rw [key2, if_neg n1, if_neg (not_not_intro f6), if_neg n3, if_neg (fun c => c.1 f7), msg1, sig1, body1, f5, fv]
  by_cases a : objVerify key (h ++ (digest64 key ++ (z ++ body))) sig = true
  · by_cases b : typ = 6 ∧ second = false
    · rw [if_pos (.inr ⟨b.1, by simpa [second] using b.2⟩)]
      exact ⟨fun c => absurd c (by decide), fun c => absurd (c.2 b.1) (by simp [b.2])⟩
    · rw [if_neg (by rintro (c | c); exacts [by simp [a] at c, b ⟨c.1, by simpa [second] using c.2⟩]), if_neg c6, if_neg]
      · exact ⟨fun _ => ⟨a, fun c => by by_contra d; exact b ⟨c, by simpa using d⟩⟩, fun _ => rfl⟩
      · simpa using c7
  · rw [if_pos (.inl (by simpa using a))]
    exact ⟨fun c => absurd c (by decide), fun c => absurd c.1 a⟩

theorem objHead_serial (typ len ver svn signer : Nat) : leAt (objHead typ len ver svn signer serialNo) 24 8 = serialNo := by
  show leVal (leBytes 8 serialNo) = serialNo
  rw [leVal_leBytes]
  exact Nat.mod_eq_of_lt (by unfold serialNo; omega)

/-- A body, the key in force and the object, of each function that delivers one; repair data for bank 5, column 3. -/
def bodyOf (op : Nat) : List Byte :=
  if op = 0x1316 then List.replicate 64 1 else if op = 0x1317 then List.replicate 29856 1 else if op = 0x1012 then leBytes 4 5 ++ leBytes 4 3 else []
def bodyLenOf (op : Nat) : Nat := if op = 0x1316 then 64 else if op = 0x1317 then 29856 else if op = 0x1012 then 8 else 0
theorem bodyOf_length (op : Nat) : (bodyOf op).length = bodyLenOf op := by
  unfold bodyOf bodyLenOf
  split
  · exact List.length_replicate ..
  · split
    · exact List.length_replicate ..
    · split <;> rfl

def keyOf (e : Engine) (op : Nat) : List Byte :=
  if typeOf op = 5 then (bodyOf op).take 64 else if signerOf (typeOf op) = 1 then noerdalPub else e.sec.ownerKey
def objOf (e : Engine) (op : Nat) (sig : List Byte) : List Byte :=
  signed (objHead (typeOf op) (bodyLenOf op) 1 0 (signerOf (typeOf op)) serialNo) (keyOf e op) (List.replicate 160 0) sig (bodyOf op)

/-- The premise that a verification passes is met, for every function and in every state the statement names, by an object whose signature
the owner's or Noerdal's key takes. -/
theorem witness_SecurityEvents_signed (e : Engine) (sig : List Byte) (hs : sig.length = 29792) (ho : e.reg Reg.SEC_STAT_OWNER = 1)
    (hf : e.reg Reg.SEC_FLOOR_FLOOR = 0) (hv : e.reg Reg.SEC_KEEPVER_VER = 0) :
    ∀ op ∈ [0x1312, 0x0610, 0x0C10, 0x1012, 0x1317, 0x1318], objFail e (typeOf op) false (objOf e op sig) = 0 ↔
      objVerify (keyOf e op) (objHead (typeOf op) (bodyLenOf op) 1 0 (signerOf (typeOf op)) serialNo
          ++ (digest64 (keyOf e op) ++ (List.replicate 160 0 ++ bodyOf op))) sig = true
        ∧ (typeOf op = 6 →
            objVerify ((bodyOf op).take 64) (leBytes 8 serialNo ++ digest64 e.sec.ownerKey) ((bodyOf op).drop 64) = true) := by
  intro op hop
  simp only [List.mem_cons, List.not_mem_nil, or_false] at hop
  rcases hop with rfl | rfl | rfl | rfl | rfl | rfl
  all_goals
    exact objFail_signed e _ _ _ _ sig _ rfl (List.length_replicate ..) (by decide +kernel) hs rfl rfl rfl
      (by rw [bodyOf_length]; rfl) (by rw [bodyOf_length]; rfl) rfl (objHead_serial ..) rfl (fun _ _ => ho) (fun _ => by omega)
      (fun h => by first | (exact absurd h (by decide)) | (rw [hv]; decide))

/-- The same for an owner claim, which a unit without an owner takes. -/
theorem witness_SecurityEvents_claim (e : Engine) (sig : List Byte) (hs : sig.length = 29792) :
    objFail e 5 false (objOf e 0x1316 sig) = 0 ↔
      objVerify (List.replicate 64 1) (objHead 5 64 1 0 2 serialNo ++ (digest64 (List.replicate 64 1) ++ (List.replicate 160 0 ++ List.replicate 64 1)))
        sig = true := by
  rw [show (objVerify _ _ sig = true ↔ _) from (and_iff_left (fun h : (5 : Nat) = 6 => absurd h (by decide))).symm]
  exact objFail_signed e 5 _ _ _ sig _ rfl (List.length_replicate ..) (by decide +kernel) hs rfl rfl rfl
      (by rw [bodyOf_length]; rfl) (by rw [bodyOf_length]; rfl) rfl (objHead_serial ..) rfl (fun _ h => absurd rfl h) (fun h => absurd h (by decide))
    (fun h => absurd h (by decide))

/-- An owner claim (OWNED), a verification of function `op` with object `obj`, an ATTEST report that is made: each at the front of its queue. -/
def verifying (op : Nat) (obj : List Byte) (ws : List (Fld × Nat)) : State :=
  onEng (fun e => { e with sec := { e.sec with verifs := [⟨op, pk 0 0 [] [], obj⟩] } }) (safe ws [])

/-- Where a verification fails; and the states in which a claim is taken and turned away, in which an owner is removed and kept, and in which
repair data fit a bank with and without a spare, or fit none. -/
theorem witness_SecurityEvents :
    (objFail (verifying 0x1312 [] []).eng 1 false [] ≠ 0 ∧ (verifying 0x1312 [] []).eng.regs.wf = true ∧ (verifying 0x1312 [] []).eng.sec.slots.length = 2)
    ∧ ((verifying 0x1316 [] []).eng.st = stSafe ∧ (verifying 0x1316 [] []).eng.reg Reg.SEC_STAT_OWNER = 0)
    ∧ ((verifying 0x1316 [] [(Reg.SEC_STAT_OWNER, 1)]).eng.reg Reg.SEC_STAT_OWNER ≠ 0 ∧ (verifying 0x1318 [] [(Reg.PWR_STAT_STATE, stArmed)]).eng.st ≠ stSafe)
    ∧ (let ws : List (Fld × Nat) := [(Reg.MEM_BANK_BISTV 5, 1), (Reg.MEM_BANK_FCOL 5, 3)]
       let fits := fun (s : State) (b c : Nat) => b < 384 ∧ s.eng.reg (Reg.MEM_BANK_BISTV b) ≠ 0 ∧ s.eng.reg (Reg.MEM_BANK_FCOL b) = c
       leAt (bodyOf 0x1012) 0 4 = 5 ∧ leAt (bodyOf 0x1012) 4 4 = 3
       ∧ ¬fits (verifying 0x1012 [] []) 5 3 ∧ ¬fits (verifying 0x1012 [] ws) 384 3
       ∧ fits (verifying 0x1012 [] ws) 5 3 ∧ (verifying 0x1012 [] ((Reg.MEM_BANK_SPARE 5, 0) :: ws)).eng.reg (Reg.MEM_BANK_SPARE 5) = 0
       ∧ (verifying 0x1012 [] ((Reg.MEM_BANK_SPARE 5, 1) :: ws)).eng.reg (Reg.MEM_BANK_SPARE 5) ≠ 0
       ∧ fits (verifying 0x1012 [] ((Reg.MEM_BANK_SPARE 5, 0) :: ws)) 5 3 ∧ fits (verifying 0x1012 [] ((Reg.MEM_BANK_SPARE 5, 1) :: ws)) 5 3)
    ∧ State.reset.eng.sec.verifs = [] ∧ State.reset.eng.sec.reports = [] ∧ State.reset.eng.sec.claim = none
    ∧ (bodyOf 0x1317).take 64 ≠ []
    ∧ (let s := onEng (fun e => { e with sec := { e.sec with
          xfers := [⟨0x1312, 0, 0, 0, 9, 1, [0]⟩], reports := [⟨0, 7, true, 4096, [], [1]⟩], claim := some ⟨0, 7, true, [1]⟩ } }) (safe [] [])
       (∃ x ∈ s.eng.sec.xfers, x.op = 0x1312) ∧ (∀ x ∈ s.eng.sec.xfers, x.op ≠ 0x0610) ∧ s.eng.sec.reports ≠ [] ∧ s.eng.sec.claim ≠ none
         ∧ s.eng.regs.wf = true) := by decide +kernel

/-! #### A start-up that finds a firmware slot -/

/-- An engine whose slot A holds `o` and whose slot B is empty, with no trial and no failure shown. -/
def SlotA (o : List Byte) (e : Engine) : Prop :=
  e.regs.wf = true ∧ e.sec.slots = [o, []] ∧ e.reg Reg.SEC_FLOOR_FLOOR = 0 ∧ e.reg Reg.SEC_FW_FAIL = 0 ∧ e.reg Reg.SEC_FW_NEXT = 0
    ∧ e.reg Reg.SEC_FW_TRIAL = 0

theorem slotA_setReg {o : List Byte} {e : Engine} (h : SlotA o e) (f : Fld) (v : Nat)
    (hf : f.key ∉ [Reg.SEC_FLOOR_FLOOR.key, Reg.SEC_FW_FAIL.key, Reg.SEC_FW_NEXT.key, Reg.SEC_FW_TRIAL.key]) : SlotA o (e.setReg f v) := by
  simp only [List.mem_cons, List.not_mem_nil, or_false, not_or] at hf
  have other : ∀ g : Fld, ¬f.key = g.key → (e.setReg f v).reg g = e.reg g := fun g hg => Tab.fld_put_ne h.1 (fun c => hg c.symm) v
  refine ⟨Tab.wf_put h.1 f v, h.2.1, ?_, ?_, ?_, ?_⟩
  · exact (other _ hf.1).trans h.2.2.1
  · exact (other _ hf.2.1).trans h.2.2.2.1
  · exact (other _ hf.2.2.1).trans h.2.2.2.2.1
  · exact (other _ hf.2.2.2).trans h.2.2.2.2.2

theorem slotA_showSlots {o : List Byte} {e : Engine} (h : SlotA o e) : SlotA o (showSlots e) := by
  have one : ∀ (a : Engine) (x : Nat), SlotA o a →
      SlotA o (let ok := objFail a 1 false (slotObj a x) == 0
        let a1 := maskBit a Reg.SEC_FW_VALID x ok
        if ok then showSlot a1 x else a1) := by
    intro a x ha
    have h1 : SlotA o (maskBit a Reg.SEC_FW_VALID x (objFail a 1 false (slotObj a x) == 0)) := slotA_setReg ha _ _ (by decide)
    dsimp only
    split
    · unfold showSlot
      split
      · exact slotA_setReg (slotA_setReg h1 _ _ (by decide)) _ _ (by decide)
      · exact slotA_setReg (slotA_setReg h1 _ _ (by decide)) _ _ (by decide)
    · exact h1
  exact one _ 1 (one _ 0 h)

/-- The boot ROM finds slot A where its object passes. -/
theorem bootRom_slotA {o : List Byte} {e : Engine} (h : SlotA o e) (ho : ∀ e', SlotA o e' → objFail e' 1 false o = 0) : (bootRom e).2 = true := by
  have h0 := slotA_showSlots h
  have c : cand (showSlots e) 0 = true := by
    have : slotObj (showSlots e) 0 = o := by unfold slotObj; rw [h0.2.1]; rfl
    simp [cand, this, ho _ h0, h0.2.2.2.1, tbit, bit]
  unfold bootRom
  simp [h0.2.2.2.2.2, h0.2.2.2.2.1, c]

/-- It finds none where both slots are empty. -/
theorem bootRom_empty {e : Engine} (h : SlotA [] e) : (bootRom e).2 = false := by
  have h0 := slotA_showSlots h
  have none' : ∀ x, x < 2 → cand (showSlots e) x = false := by
    intro x hx
    have : slotObj (showSlots e) x = [] := by unfold slotObj; rw [h0.2.1]; interval_cases x <;> rfl
    have f : objFail (showSlots e) 1 false [] = 1 := by unfold objFail; exact if_pos (.inl (by decide))
    simp [cand, this, f]
  unfold bootRom
  simp [h0.2.2.2.2.2, h0.2.2.2.2.1, none' 0 (by omega), none' 1 (by omega)]

/-- The engine after reset, with other slots. -/
theorem slotA_reset (o : List Byte) : SlotA o { Engine.reset with sec := { Engine.reset.sec with slots := [o, []] } } :=
  ⟨(by decide +kernel : Engine.reset.regs.wf = true), rfl, (by decide +kernel : Engine.reset.reg Reg.SEC_FLOOR_FLOOR = 0),
    (by decide +kernel : Engine.reset.reg Reg.SEC_FW_FAIL = 0), (by decide +kernel : Engine.reset.reg Reg.SEC_FW_NEXT = 0),
    (by decide +kernel : Engine.reset.reg Reg.SEC_FW_TRIAL = 0)⟩

/-- A firmware image of version 1 and security version 0, with an empty body. -/
def firmware (sig : List Byte) : List Byte := signed (objHead 1 0 1 0 1 serialNo) noerdalPub (List.replicate 160 0) sig []

/-- Both starts occur: with empty slots none is found; with an image whose signature Noerdal's key takes, slot A runs. -/
theorem witness_PowerAndResets_start (sig : List Byte) (hs : sig.length = 29792)
    (hv : objVerify noerdalPub (objHead 1 0 1 0 1 serialNo ++ (digest64 noerdalPub ++ (List.replicate 160 0 ++ []))) sig = true) :
    (bootRom { Engine.reset with sec := { Engine.reset.sec with slots := [firmware sig, []] } }).2 = true
    ∧ (bootRom { Engine.reset with sec := { Engine.reset.sec with slots := [[], []] } }).2 = false := by
  refine ⟨bootRom_slotA (slotA_reset _) ?_, bootRom_empty (slotA_reset [])⟩
  intro e' h
  exact (objFail_signed e' 1 _ _ _ sig [] rfl (List.length_replicate ..) (by decide +kernel) hs rfl rfl rfl rfl rfl rfl (objHead_serial ..) rfl
    (fun c => absurd c (by decide)) (fun _ => by have := h.2.2.1; omega) (fun c => absurd c (by decide))).mpr ⟨hv, fun c => absurd c (by decide)⟩

/-! ### Power, supplies and heat -/

/-- An engine in state `st`, with registers `ws` and power state changed by `f`. -/
def inState (st : Nat) (ws : List (Fld × Nat)) (f : PwrSt → PwrSt) : State :=
  onEng (fun e => { e with pwr := f e.pwr }) (safe ((Reg.PWR_STAT_STATE, st) :: ws) [])

/-- The states of the power and reset rules: OFF and BOOT, running with the relays released and closed, a trial boot spent and not, SAFE
reached; STANDBY with each wake enabled or not, and waking. -/
theorem witness_PowerAndResets :
    ((inState stOff [] id).eng.st = stOff ∧ (inState stBoot [] id).eng.st = stBoot ∧ (inState stSafe [] id).eng.st = stSafe
      ∧ (inState stSafe [] id).eng.regs.wf = true ∧ (inState stOff [] id).eng.regs.wf = true)
    ∧ (∀ v ∈ [0, 1], let s := inState stSafe [(Reg.OUT_KSTAT_COIL, v)] id
        s.eng.st ≠ stOff ∧ (s.eng.reg Reg.OUT_KSTAT_COIL = 0 ↔ v = 0))
    ∧ (∀ x ∈ [(1, 1, false), (0, 1, false), (1, 0, false), (1, 1, true)],
        let s := inState stBoot [(Reg.SEC_FW_TRIAL, x.1), (Reg.SEC_FW_TRIED, x.2.1)] (fun p => { p with reached := x.2.2 })
        (s.eng.pwr.reached = false ∧ s.eng.reg Reg.SEC_FW_TRIAL = 1 ∧ s.eng.reg Reg.SEC_FW_TRIED = 1) ↔ x = (1, 1, false))
    ∧ (∀ waking ∈ [0, 1], let s := inState stStandby [(Reg.PWR_STAT_WAKING, waking), (Reg.TIM_STAT_LOCK, 1), (Reg.PWR_WAKE_TIMCMD, 1),
          (Reg.PWR_WAKE_EVENT, 1)] id
        s.eng.st = stStandby ∧ s.eng.locked = true ∧ s.eng.reg Reg.PWR_WAKE_TIMCMD = 1 ∧ s.eng.reg Reg.PWR_WAKE_EVENT = 1
          ∧ s.eng.reg Reg.PWR_STAT_WAKING = waking) := by decide +kernel

/-- The requests of the console: codes out of range, SAFE from ARMED, STANDBY from SAFE; an image in BOOT while no transfer is under way. -/
theorem witness_PowerAndResets_console :
    ((1 : Nat) < 2 ∧ (5 : Nat) < 6)
    ∧ (let s := inState stArmed [] id
       2 ≤ stSafe ∧ stSafe ≤ 5 ∧ stSafe ≠ stStandby ∧ s.eng.st ≠ stSafe ∧ s.eng.st ≠ stStandby ∧ s.eng.st ≠ stOff ∧ requestOk s.eng stSafe = true)
    ∧ (let s := inState stSafe [] id
       s.eng.st ≠ stStandby ∧ s.eng.st ≠ stOff ∧ requestOk s.eng stStandby = true)
    ∧ (∀ slot ∈ [0, 1], (inState stBoot [] id).eng.st = stBoot
        ∧ xferBusy 0x1312 (inState stBoot [] id).eng { pk 0 0 [] [] with ring := 2 ^ 18, ctx := 0, target := slot } = none) := by decide +kernel

/-- Each supply good and lost, in OFF and out of it; AC present and lost; domains 0 and 23 with margins at and beside the limits of the loop,
after 8 and 9 low readings; a FAULT cause where the frames come and where they do not. -/
theorem witness_SuppliesAndHeat :
    (∀ m, m < 2 → ∀ v ∈ [0, 1], (inState stSafe [(Reg.PWR_SUP_DCOK m, v)] id).eng.reg (Reg.PWR_SUP_DCOK m) = v
        ∧ (inState stSafe [(Reg.PWR_SUP_DCOK m, v)] id).eng.st ≠ stOff)
    ∧ (∀ b ∈ [false, true], (inState stSafe [] (fun p => { p with acOut := b })).eng.pwr.acOut = b)
    ∧ (∀ d ∈ [0, 23], ∀ x ∈ [(895, 2, 0), (900, 3, 0), (890, 3, 0), (890, 5, 0), (890, 6, 0), (700, 6, 0), (890, 1, 8), (890, 2, 9)],
        let s := inState stSafe [(Reg.PWR_DCFG_VMAX d, 900), (Reg.PWR_DCFG_VMIN d, 700), (Reg.PWR_DSTAT_MV d, x.1), (Reg.PWR_DMARGIN_PCT d, 3)]
          (fun p => { p with lowRuns := p.lowRuns.set d x.2.2 })
        let v := s.eng.reg (Reg.PWR_DSTAT_MV d)
        let top := s.eng.reg (Reg.PWR_DCFG_VMAX d)
        let want := s.eng.reg (Reg.PWR_DMARGIN_PCT d)
        let m := x.2.1
        s.eng.regs.wf = true ∧ top ≤ 1023 ∧ v ≤ 1023 ∧ ¬(v = top ∧ m < want) ∧ (2 ≤ m ∨ s.eng.pwr.lowRuns.get d ≠ 9)
          ∧ (m < want ↔ m ≤ 2) ∧ (want + 2 < m ↔ m = 6))
    ∧ (let s := inState stFault [(Reg.TIM_STAT_LOCK, 1)] id
       s.eng.st = stFault ∧ s.eng.locked = true ∧ s.eng.regs.wf = true)
    ∧ (faultDetect 4 (inState stSafe [(Reg.TIM_STAT_LOCK, 1)] id).eng).locked = true
    ∧ ((faultDetect 4 (inState stSafe [] id).eng).locked = false ∧ (faultDetect 4 (inState stSafe [] id).eng).pwr.faultDue ≠ 0) := by
  decide +kernel

/-- A die at WARN and one degree below it, and at 5 degrees below WARN and one more; the module cages with and without a role and a source. -/
theorem witness_SuppliesAndHeat_thermal :
    (∀ x ∈ [(false, 100), (false, 99), (true, 95), (true, 96), (false, 0xD8)],
      let s := inState stSafe [(Reg.PWR_TLIM_WARN, 100), (Reg.PWR_TLIM_CRIT, 110)] (fun p => { p with hot := x.1 })
      let warn : Int := s.eng.reg Reg.PWR_TLIM_WARN
      s.eng.st ≠ stOff ∧ s.eng.pwr.hot = x.1 ∧ (warn ≤ sval 8 x.2 ↔ x.2 = 100) ∧ (sval 8 x.2 ≤ warn - 5 ↔ x.2 = 95 ∨ x.2 = 0xD8))
    ∧ (∀ src ∈ [0, 1], (safe [] [(Reg.TIM_CTL_SRC, src)]).eng.act Reg.TIM_CTL_SRC = src)
    ∧ (∀ r ∈ [0, 1], (safe [] [(Reg.TDM_CFG_ROLE, r)]).eng.role = r) := by decide +kernel

/-- R446 by hand: a die at −40 °C, read as 0xD8, is no warning. -/
theorem test_thermal_sign :
    ∃ t, exec (.thermalWarn ⟨0xD8, 20, 20⟩) (inState stSafe [] id) = .next t ∧ t.eng.pwr.hot = false ∧ t.eng.reg Reg.PWR_TEMP_DIE = 0xD8 := by
  refine ⟨_, rfl, ?_⟩; decide +kernel

/-! ### The queue, and what every step keeps -/

/-- A queue of one command, of two well-formed ones, and an empty queue while writes wait for the outbound buffer. -/
theorem witness_StepRunsFrontCommand :
    ({ State.reset with pending := [.acFail] }.pending = Instr.acFail :: [])
    ∧ State.reset.pending = []
    ∧ (let s := onEng (fun e => { e with host := { e.host with wait := [⟨8, leBytes 4 1, false, false⟩, ⟨16, leBytes 4 1, false, true⟩] } }) State.reset
       s.pending = [] ∧ s.eng.host.wait.length = 2) := by decide +kernel

theorem witness_QueueDrains :
    let s : State := { State.reset with pending := [.acFail, .eventRaise 4095 (2 ^ 32 - 1)] }
    2 ≤ s.pending.length ∧ s.queueOk = true := by decide +kernel

theorem witness_StepKeepsCanonical :
    State.reset.eng.canonical = true ∧ State.reset.eng.setsCanonical = true ∧ ∃ t, step State.reset = .next t :=
  ⟨by decide +kernel, by decide +kernel, _, rfl⟩

/-! ### Packets and commits -/

/-- The checks of a command's header, as the statement names them. -/
def known (f : Fn) (p : Packet) : Bool :=
  decide (p.flags < 32) && decide (p.reserved = 0) && (!f.expert || p.expert) && (f.kind != .stage || p.stage)
    && (f.kind != .direct || !p.commit || p.stage) && (f.op % 256 != 1 || p.commit)
def may (f : Fn) (e : Engine) (p : Packet) : Bool :=
  !(p.expert && f.block == 6) && (!(p.expert || f.op % 256 == 3) || e.hasRight p.ctx rightExpert) && e.hasRight p.ctx (f.right p)
def fits (f : Fn) (p : Packet) : Bool := decide (p.length ≤ 65536) && f.len p
def applies (f : Fn) (p : Packet) : Bool := p.applyAt == 0 || (!f.noApply && f.commits p)

/-- READ_MEM of `len` bytes of capture memory to the host address `a`, from ring 0. -/
def readMem (len a : Nat) : Packet := pk 0 0 [0, 32, len, a] []

/-- Each check of a header fails alone, where the checks before it pass; and a packet passes all. -/
theorem witness_PacketsAndCommits :
    let e := (open1 (safe [] [])).eng
    (known fnReadMem { pk0 with flags := 32 } = false ∧ known fnReadMem { pk0 with reserved := 1 } = false ∧ known fnRawLanes { pk0 with flags := 1 } = false)
    ∧ (known fnReadMem { pk0 with ring := 256 } = true ∧ { pk0 with ring := 256 }.ctx ≠ { pk0 with ring := 256 }.ring / 256)
    ∧ (let p := { pk0 with ring := 256, ctx := 1 }
       known fnAssign p = true ∧ p.ctx = p.ring / 256 ∧ fnAssign.owner e p = some 0)
    ∧ (let p := { pk 8 0 [] [] with ring := 256, ctx := 1 }
       known fnPtmSample p = true ∧ p.ctx = p.ring / 256 ∧ fnPtmSample.owner e p = none ∧ may fnPtmSample e p = false)
    ∧ (let p := { readMem 8 0 with length := 1 }
       known fnReadMem p = true ∧ p.ctx = p.ring / 256 ∧ fnReadMem.owner e p = none ∧ may fnReadMem e p = true ∧ fits fnReadMem p = false)
    ∧ (let p := { readMem 8 0 with applyAt := 1 }
       let f := { fnReadMem with noApply := true }
       known f p = true ∧ p.ctx = p.ring / 256 ∧ f.owner e p = none ∧ may f e p = true ∧ fits f p = true ∧ applies f p = false)
    ∧ (∀ x ∈ [(8, 0), (0, 0), (65544, 0), (8, 4)],
       let p := readMem x.1 x.2
       known fnReadMem p = true ∧ p.ctx = p.ring / 256 ∧ fnReadMem.owner e p = none ∧ may fnReadMem e p = true ∧ fits fnReadMem p = true
         ∧ applies fnReadMem p = true ∧ fnReadMem.range e p = (if x.1 = 8 then none else some 10)
         ∧ fnReadMem.align p = (if x.2 = 4 then some 11 else none)) := by decide +kernel

/-- A block whose lock is free, and one that another context holds; a block with a pending commit and one without; a slot list with a staged
entry that is not the committing context's. -/
theorem witness_PacketsAndCommits_locks :
    (let s := safe [] []
     let t := onEng (fun e => { e with host := { e.host with locks := [(16, 2)] } }) s
     let p := pk 0 0 [273, 1] []
     s.eng.lockOf 16 = 0 ∧ t.eng.lockOf 16 = 1 + 1 ∧ p.ctx ≠ 1 ∧ checkHeader fnSetWindow t.eng p = none ∧ checkState fnSetWindow t.eng = none
       ∧ t.eng.host.locks.wf = true)
    ∧ [16].find? (fun x => (busy (safe [] [])).eng.pendingOn x) = some 16
    ∧ [16].find? (fun x => (safe [] []).eng.pendingOn x) = none
    ∧ (let s := onEng (fun e => { e with staged := e.staged.puts [(seqFld 0 0 0, 2 ^ 31 + 0x100 * 2 ^ 16)] }) (open1 (safe [] []))
       [8].find? (fun x => s.eng.pendingOn x) = none ∧ 8 ∈ [8] ∧ (stagedOwner s.eng 1).isSome = true) := by decide +kernel

theorem witness_PacketsAndCommits_accepted :
    ∃ g, acceptCommit (safe [] []).eng pk0 [16] 0 = .inr g := ⟨_, rfl⟩

/-- The stamp of crossing number `n` in orbits of 1,024 slots. -/
def stamp1024 (n : Nat) : Nat := n / 1024 * 2 ^ 14 + n % 1024

/-- Crossings named unlocked and locked: none, the first allowed, the one before it, the last allowed, the one after it, the last slot of an
orbit and a slot past it. -/
theorem witness_PacketsAndCommits_crossings :
    (safe [] []).eng.locked = false
    ∧ (let e := (lockedAt 5 (safe [] [])).eng
       let first := max (e.counted + e.lead - createDelay e.active) (e.tim.resume.getD 0)
       let last := e.counted - createDelay e.active + 2 ^ 40
       e.locked = true ∧ orbitLen e.active = 1024 ∧ e.counted ≤ crossMod 1024 / 2
       ∧ (∀ n ∈ [first - 1, first, last, last + 1, 7 * 1024 + 1023],
           stamp1024 n ≠ 0 ∧ stamp1024 n % 2 ^ 14 < 1024 ∧ numberOf 1024 (stamp1024 n) < crossMod 1024 ∧ e.crossingNamed (stamp1024 n) = n)
       ∧ 1024 ≤ (7 * 2 ^ 14 + 1024) % 2 ^ 14) := by decide +kernel

end Sys2Proof.Tests
end

/-! ## The canonical form of the state is an invariant of `step`

`Engine.Canon` is the form as a proposition, part by part. Every operation of the model that writes one of its parts writes it through
`Tab.set`, `Tab.put`, `Tab.puts`, `Tab.replace`, `List.filter` or the memory's own writes, each of which keeps the form; so there is one
lemma per operation, `Engine.Canon.<operation>`, and a lemma about an operation cites those of the operations it is made of. -/

section
namespace Sys2Proof.Machine

/-- The host's part: the frozen copies of registers and the copies that pending commits captured. -/
structure HostSt.Canon (x : HostSt) : Prop where
  frozen : x.frozen.wf = true
  pends : ∀ p ∈ x.pends, p.set.wf = true

/-- Memory: its cells, its bit errors and the configurations in the journal. -/
structure MemSt.Canon (m : MemSt) : Prop where
  cells : memWf m.cells = true
  ecc : m.ecc.wf = true
  lecc : m.lecc.wf = true
  recs : ∀ r ∈ m.journal.recs, r.set.wf = true

/-- A Spire core: its registers and control words. -/
structure SpireCore.Canon (c : SpireCore) : Prop where
  regs : c.regs.wf = true
  cw : c.cw.wf = true

/-- The Spire: the bit errors of its memories, and every core. -/
structure SprSt.Canon (x : SprSt) : Prop where
  ecc : x.ecc.wf = true
  cores : ∀ c ∈ x.cores, c.Canon

/-- The engine in canonical form, part by part: what `Engine.canonical` and `Engine.setsCanonical` compute (`Engine.canon_iff`). -/
structure Engine.Canon (e : Engine) : Prop where
  active : e.active.wf = true
  staged : e.staged.wf = true
  regs : e.regs.wf = true
  host : e.host.Canon
  mem : e.mem.Canon
  spr : e.spr.Canon

theorem Engine.canon_iff (e : Engine) : e.Canon ↔ e.canonical = true ∧ e.setsCanonical = true := by
  constructor
  · rintro ⟨h1, h2, h3, ⟨h4, h5⟩, ⟨h6, h7, h8, h9⟩, h10, h11⟩
    simp only [Engine.canonical, Engine.setsCanonical, Bool.and_eq_true, List.all_eq_true]
    exact ⟨⟨⟨⟨⟨⟨⟨⟨⟨h1, h2⟩, h3⟩, h6⟩, h4⟩, h7⟩, h8⟩, h10⟩, fun c hc => ⟨(h11 c hc).cw, (h11 c hc).regs⟩⟩, h5, h9⟩
  · simp only [Engine.canonical, Engine.setsCanonical, Bool.and_eq_true, List.all_eq_true]
    rintro ⟨⟨⟨⟨⟨⟨⟨⟨⟨h1, h2⟩, h3⟩, h6⟩, h4⟩, h7⟩, h8⟩, h10⟩, h11⟩, h5, h9⟩
    exact ⟨h1, h2, h3, ⟨h4, h5⟩, ⟨h6, h7, h8, h9⟩, h10, fun c hc => ⟨(h11 c hc).2, (h11 c hc).1⟩⟩

/-- The outcome, where it is a next state, has its engine in canonical form. -/
def Keeps (o : Host.Outcome State Fault Refusal) : Prop := ∀ t, o = .next t → t.eng.Canon

theorem keeps_next {e : Engine} {q : List Instr} (h : e.Canon) : Keeps (.next { eng := e, pending := q }) := by
  rintro t ⟨rfl⟩
  exact h

theorem canon_ite {c : Prop} [Decidable c] {a b : Engine} (ha : a.Canon) (hb : b.Canon) : (if c then a else b).Canon := by
  split
  · exact ha
  · exact hb

theorem fst_ite {β : Type} {c : Prop} [Decidable c] {a b : Engine × β} (ha : a.1.Canon) (hb : b.1.Canon) : (if c then a else b).1.Canon :=
    by
  split
  · exact ha
  · exact hb

theorem canon_foldl {α β : Type} {f : Engine × β → α → Engine × β} {x : Engine × β} {l : List α}
    (hf : ∀ r a, r.1.Canon → (f r a).1.Canon) (h : x.1.Canon) : (l.foldl f x).1.Canon :=
  List.foldlRecOn (motive := fun r => r.1.Canon) l f h (fun r hr a _ => hf r a hr)

theorem Engine.Canon.foldl {α : Type} {e : Engine} {f : Engine → α → Engine} {l : List α} (h : e.Canon)
    (hf : ∀ e a, e.Canon → (f e a).Canon) : (l.foldl f e).Canon :=
  List.foldlRecOn l f h (fun r hr a _ => hf r a hr)

theorem core_ite {c : Prop} [Decidable c] {a b : SpireCore} (ha : a.Canon) (hb : b.Canon) : (if c then a else b).Canon := by
  split
  · exact ha
  · exact hb

/-- The same of a command that a table may not know. -/
def KeepsSome (o : Option (Host.Outcome State Fault Refusal)) : Prop := ∀ x, o = some x → Keeps x

theorem keeps_some {x : Host.Outcome State Fault Refusal} (h : Keeps x) : KeepsSome (some x) := by
  rintro y ⟨rfl⟩
  exact h

theorem keeps_none : KeepsSome none := fun _ h => nomatch h

/-- A register write that acts at once keeps the form. -/
def KeepsAct (o : Option (Nat → Engine → Engine)) : Prop := ∀ f, o = some f → ∀ {e v}, Engine.Canon e → (f v e).Canon

theorem keepsAct_some {f : Nat → Engine → Engine} (h : ∀ {v e}, Engine.Canon e → (f v e).Canon) : KeepsAct (some f) := by
  rintro g ⟨rfl⟩ e v he
  exact h he

theorem keepsAct_none : KeepsAct none := fun _ h => nomatch h

theorem keepsAct_ite {c : Prop} [Decidable c] {a b : Option (Nat → Engine → Engine)} (ha : KeepsAct a) (hb : KeepsAct b) :
    KeepsAct (if c then a else b) := by
  split
  · exact ha
  · exact hb

/-- What an instruction gives is in canonical form, unless it raises an exception. -/
def Issued.Canon : Issued → Prop
  | .next e c => e.Canon ∧ c.Canon
  | .exc _ _ _ => True

theorem Engine.Canon.foldlMem {α : Type} {e : Engine} {f : Engine → α → Engine} {l : List α} (h : e.Canon)
    (hf : ∀ e, ∀ a ∈ l, e.Canon → (f e a).Canon) : (l.foldl f e).Canon :=
  List.foldlRecOn l f h (fun r hr a ha => hf r a ha hr)

theorem Engine.Canon.withActive {e : Engine} {t : Tab} (h : e.Canon) (ht : t.wf = true) : Canon { e with active := t } :=
  { h with active := ht }

theorem Engine.Canon.withStaged {e : Engine} {t : Tab} (h : e.Canon) (ht : t.wf = true) : Canon { e with staged := t } :=
  { h with staged := ht }

theorem Engine.Canon.withTables {e : Engine} {t u : Tab} (h : e.Canon) (ht : t.wf = true) (hu : u.wf = true) :
    Canon { e with active := t, staged := u } := { h with active := ht, staged := hu }

theorem Engine.Canon.withRegs {e : Engine} {t : Tab} (h : e.Canon) (ht : t.wf = true) : Canon { e with regs := t } := { h with regs := ht }

/-- The canonical form speaks of these eleven fields only. -/
theorem Engine.Canon.agree {e f : Engine} (h : e.Canon) (active : f.active = e.active := by dsimp only)
    (staged : f.staged = e.staged := by dsimp only) (regs : f.regs = e.regs := by dsimp only)
    (frozen : f.host.frozen = e.host.frozen := by dsimp only) (pends : f.host.pends = e.host.pends := by dsimp only)
    (cells : f.mem.cells = e.mem.cells := by dsimp only) (ecc : f.mem.ecc = e.mem.ecc := by dsimp only)
    (lecc : f.mem.lecc = e.mem.lecc := by dsimp only) (journal : f.mem.journal = e.mem.journal := by dsimp only)
    (codes : f.spr.ecc = e.spr.ecc := by dsimp only) (cores : f.spr.cores = e.spr.cores := by dsimp only) : f.Canon where
  active := active ▸ h.active
  staged := staged ▸ h.staged
  regs := regs ▸ h.regs
  host := ⟨frozen ▸ h.host.frozen, pends ▸ h.host.pends⟩
  mem := ⟨cells ▸ h.mem.cells, ecc ▸ h.mem.ecc, lecc ▸ h.mem.lecc, journal ▸ h.mem.recs⟩
  spr := ⟨codes ▸ h.spr.ecc, cores ▸ h.spr.cores⟩

namespace Tab

theorem wf_nil : wf [] = true := rfl

theorem wf_foldl {α : Type} {f : Tab → α → Tab} {t : Tab} (h : t.wf = true) (hf : ∀ t a, t.wf = true → (f t a).wf = true)
    (l : List α) : (l.foldl f t).wf = true :=
  List.foldlRecOn (motive := fun t => Tab.wf t = true) l f h (fun r hr a _ => hf r a hr)

theorem wf_ite {c : Prop} [Decidable c] {t u : Tab} (ht : t.wf = true) (hu : u.wf = true) : (if c then t else u).wf = true := by
  split
  · exact ht
  · exact hu

theorem wf_swapBlocks (bs : List Nat) {t : Tab} (h : t.wf = true) (u : Tab) : (swapBlocks bs t u).wf = true := wf_replace _ h u

theorem wf_clearMasks {t : Tab} (h : t.wf = true) (m : Nat) : (clearMasks t m).wf = true := wf_filter h _

theorem wf_dropBundle {t : Tab} (h : t.wf = true) : (dropBundle t).wf = true := wf_filter h _

theorem wf_putBundle {t : Tab} (h : t.wf = true) (ss : List (Nat × List Byte)) : (putBundle t ss).wf = true :=
  wf_puts _ (wf_dropBundle h)

theorem wf_dropSetups (id : Nat) {t : Tab} (h : t.wf = true) : (dropSetups id t).wf = true := wf_filter h _

theorem wf_fullWindows {t : Tab} (h : t.wf = true) : (fullWindows t).wf = true :=
  wf_foldl h (fun _ _ ht => wf_puts _ ht) _

theorem wf_ofBlocks (bs : List Nat) {t : Tab} (h : t.wf = true) : (ofBlocks bs t).wf = true := wf_filter h _

theorem wf_follow (bs : List Nat) (old new : Tab) {t : Tab} (h : t.wf = true) : (follow bs old new t).wf = true :=
  wf_foldl h (fun a kv ha => by
    split
    · exact wf_set ha _ _
    · exact ha) _

end Tab

theorem wf_plannedSet {e : Engine} (h : e.Canon) : (plannedSet e).wf = true :=
  Tab.wf_foldl h.active (fun _ _ ht => Tab.wf_replace _ ht _) _

theorem wf_mergedSet {e : Engine} (h : e.Canon) (p : Pend) : (mergedSet e p).wf = true := by
  unfold mergedSet withPend
  split
  · cases bundleOf e.sec.bundleDue with
    | none => exact h.active
    | some ss => exact Tab.wf_putBundle h.active ss
  · split
    · exact h.active
    · exact Tab.wf_replace _ h.active _

/-- The journal's records hold their configurations in canonical form. -/
def Journal.Canon (j : Journal) : Prop := ∀ r ∈ j.recs, r.set.wf = true

theorem Journal.Canon.append {j : Journal} (h : j.Canon) (kind val : Nat) {set : Tab} (hs : set.wf = true) (data : List Byte) (size : Nat) :
    (j.append kind val set data size).Canon := by
  intro r hr
  obtain hr | hr := List.mem_append.mp hr
  · exact h r hr
  · obtain rfl := List.mem_singleton.mp hr
    exact hs

theorem Journal.Canon.newest {j : Journal} (h : j.Canon) {kind : Nat} {r : JRec} (hr : j.newest kind = some r) : r.set.wf = true :=
  h r (List.mem_reverse.mp (List.mem_of_find?_eq_some hr))

theorem Journal.Canon.cfg {j : Journal} (h : j.Canon) : j.cfg.wf = true := by
  unfold Journal.cfg
  cases hr : j.newest 0 with
  | none => rfl
  | some r => exact h.newest hr

theorem followOn_sublist (l : List JRec) : ∀ prev, (followOn prev l).1.Sublist l := by
  induction l with
  | nil => intro prev; exact List.Sublist.refl _
  | cons r rs ih =>
    intro prev
    unfold followOn
    split
    · exact (ih _).cons_cons r
    · exact (ih _).cons r

namespace HostSt.Canon

variable {x y : HostSt}

theorem mapPends (h : x.Canon) {f : Pend → Pend} (hp : y.pends = x.pends.map f) (hf : y.frozen = x.frozen) (hs : ∀ p, (f p).set = p.set) :
    y.Canon where
  frozen := hf ▸ h.frozen
  pends p hm := by
    rw [hp] at hm
    obtain ⟨q, hq, rfl⟩ := List.mem_map.mp hm
    exact (hs q).symm ▸ h.pends q hq

theorem filterPends (h : x.Canon) {q : Pend → Bool} (hp : y.pends = x.pends.filter q) (hf : y.frozen = x.frozen) : y.Canon where
  frozen := hf ▸ h.frozen
  pends p hm := h.pends p (List.mem_filter.mp (hp ▸ hm)).1

theorem addPend (h : x.Canon) {p : Pend} (hs : p.set.wf = true) (hp : y.pends = x.pends ++ [p]) (hf : y.frozen = x.frozen) : y.Canon where
  frozen := hf ▸ h.frozen
  pends r hm := by
    rw [hp] at hm
    obtain hr | hr := List.mem_append.mp hm
    · exact h.pends r hr
    · exact (List.mem_singleton.mp hr) ▸ hs

end HostSt.Canon

theorem Engine.Canon.reset : Engine.reset.Canon where
  active := rfl
  staged := rfl
  regs := Tab.wf_puts _ rfl
  host := ⟨rfl, fun _ h => nomatch h⟩
  mem := ⟨rfl, rfl, rfl, fun _ h => nomatch h⟩
  spr := ⟨rfl, fun _ hc => List.eq_of_mem_replicate hc ▸ ⟨rfl, rfl⟩⟩

/-- From `e` to `f` memory has been read and checked (R360): registers, events, free values and write-backs may have changed. -/
def MemChecked (e f : Engine) : Prop :=
  f = { e with regs := f.regs, evt := f.evt, free := f.free, mem := { e.mem with wback := f.mem.wback, ceccAt := f.mem.ceccAt } }
    ∧ (e.regs.wf = true → f.regs.wf = true)

theorem MemChecked.refl (e : Engine) : MemChecked e e := ⟨rfl, id⟩

theorem MemChecked.trans {e f g : Engine} (a : MemChecked e f) (b : MemChecked f g) : MemChecked e g := by
  refine ⟨?_, fun h => b.2 (a.2 h)⟩
  rw [b.1, a.1]

theorem MemChecked.setReg (e : Engine) (f : Fld) (v : Nat) : MemChecked e (e.setReg f v) := ⟨rfl, fun h => Tab.wf_put h _ _⟩

theorem MemChecked.raise (e : Engine) (s d : Nat) : MemChecked e (e.raise s d) := by
  obtain ⟨he, hr⟩ := raise_events e s d
  refine ⟨?_, fun h => (hr h).1⟩
  rw [he]

theorem countCecc_checked (e : Engine) : MemChecked e (countCecc e) := by
  unfold countCecc
  extract_lets e1
  have h1 : MemChecked e e1 := .setReg _ _ _
  split
  · exact (h1.trans ⟨rfl, id⟩).trans (.raise _ _ _)
  · exact h1

theorem countUecc_checked (e : Engine) (k : Nat) : MemChecked e (countUecc e k) := by
  unfold countUecc
  extract_lets e1
  have h1 : MemChecked e e1 := by
    unfold e1
    split
    · exact .setReg _ _ _
    · exact .refl _
  exact (h1.trans (.setReg _ _ _)).trans (.raise _ _ _)

theorem awaitBack_checked (e : Engine) (k : Nat) : MemChecked e (awaitBack e k) := by
  unfold awaitBack
  split
  · exact .refl _
  · exact ⟨rfl, id⟩

theorem eccRead_checked (e : Engine) (k : Nat) : MemChecked e (eccRead e k).1 := by
  unfold eccRead
  extract_lets
  split
  · exact .refl _
  split
  · exact (awaitBack_checked e k).trans (countCecc_checked _)
  split
  · exact countUecc_checked e k
  · have hf : MemChecked e e.freeVal.2 := ⟨rfl, id⟩
    dsimp only
    split
    · exact hf.trans (countUecc_checked _ _)
    · exact hf.trans (countCecc_checked _)

theorem sramRead_checked (e : Engine) (a n : Nat) : MemChecked e (sramRead e a n).1 :=
  List.foldlRecOn (motive := fun r : Engine × List Byte × Bool => MemChecked e r.1) _ _ (.refl e)
    (fun _ hr _ _ => hr.trans (eccRead_checked _ _))

theorem Engine.Canon.checked {e f : Engine} (h : e.Canon) (hf : MemChecked e f) : f.Canon := by
  rw [hf.1]
  exact { h with regs := hf.2 h.regs, mem := { h.mem with } }

/-- A read under another configuration and bank keeps the canonical form, once the engine's own two are put back. -/
theorem Engine.Canon.checkedAs {e f : Engine} {t : Tab} {b : Nat} (h : e.Canon)
    (hf : MemChecked { e with active := t, mem := { e.mem with bank := b } } f) :
    Canon { f with active := e.active, mem := { f.mem with bank := e.mem.bank } } := by
  obtain ⟨hf, hr⟩ := hf
  rw [hf]
  exact { h with regs := hr h.regs, mem := { h.mem with } }

namespace SpireCore.Canon

variable {c : SpireCore}

theorem reset : SpireCore.reset.Canon := ⟨rfl, rfl⟩
theorem setCw {n v : Nat} (h : c.Canon) : (c.setCw n v).Canon := { h with cw := Tab.wf_put h.cw _ _ }
theorem setStat {b : Nat} {v : Bool} (h : c.Canon) : (c.setStat b v).Canon := h.setCw
theorem result {r v d : Nat} (h : c.Canon) : (c.result r v d).Canon := { h with }
theorem resume {pc : Nat} (h : c.Canon) : (c.resume pc).Canon := { h with }

theorem arrive {x : Flight} (h : c.Canon) : (c.arrive x).Canon := by
  unfold SpireCore.arrive
  split
  · exact h
  · exact { h with regs := Tab.wf_set h.regs _ _ }

theorem advance (h : c.Canon) : c.advance.Canon := by
  unfold SpireCore.advance
  extract_lets
  split
  · exact { h with }
  · split
    · exact { h with }
    · exact { h with }

theorem jump {tgt : Option Nat} (h : c.Canon) : (c.jump tgt).Canon := { h.advance with }

theorem cwAfterRead {n : Nat} (h : c.Canon) : (cwAfterRead c n).Canon := by
  unfold Machine.cwAfterRead
  split
  · exact { h with }
  · split
    · exact { h with }
    · exact core_ite (h.setCw) h

theorem cwWrite {n v : Nat} (h : c.Canon) : (cwWrite c n v).Canon := by
  unfold Machine.cwWrite
  split
  · exact { h with regs := Tab.wf_set h.regs _ _ }
  · split
    · exact { h with regs := Tab.wf_set h.regs _ _ }
    · exact core_ite (core_ite (h.setCw) h) (h.setCw)

end SpireCore.Canon

end Sys2Proof.Machine
end

/-! ## The operations keep the canonical form -/

section
namespace Sys2Proof.Machine

variable {e : Engine} {s : State}

/-! ### Registers, rings, locks and writes to the host -/

theorem Engine.Canon.setReg {f : Fld} {v : Nat} (h : e.Canon) : (e.setReg f v).Canon := h.withRegs (Tab.wf_put h.regs _ _)

theorem Engine.Canon.bumpBy {f : Fld} {n : Nat} (h : e.Canon) : (e.bumpBy f n).Canon := h.setReg

theorem Engine.Canon.bump {f : Fld} (h : e.Canon) : (e.bump f).Canon := h.bumpBy

theorem Engine.Canon.raiseBit {f : Fld} (h : e.Canon) : (e.raiseBit f).Canon := h.setReg

theorem Engine.Canon.freeVal (h : e.Canon) : e.freeVal.2.Canon := { h with }

theorem Engine.Canon.postAs {x : Posted} (h : e.Canon) : (e.postAs x).Canon := by
  unfold Engine.postAs
  extract_lets
  split
  · exact { h with host := { h.host with } }
  · exact { h with host := { h.host with } }

theorem Engine.Canon.post {addr : Nat} {bs : List Byte} (h : e.Canon) : (e.post addr bs).Canon := h.postAs

theorem Engine.Canon.linkDrain (h : e.Canon) : e.linkDrain.Canon := by
  unfold Engine.linkDrain
  extract_lets _ _ e1
  have h1 : e1.Canon := { h with host := { h.host with } }
  exact h1.foldl fun _ _ ha => ha.postAs

theorem Engine.Canon.sendMsix {v : Nat} (h : e.Canon) : (e.sendMsix v).Canon := by
  unfold Engine.sendMsix
  split
  · exact { h with host := { h.host with } }
  · exact h.post

theorem Engine.Canon.flushPba (h : e.Canon) : e.flushPba.Canon :=
  h.foldl fun _ _ ha => canon_ite ha (.sendMsix { ha with host := { ha.host with } })

theorem Engine.Canon.putRing {r : Ring} (h : e.Canon) : (e.putRing r).Canon := { h with host := { h.host with } }

theorem Engine.Canon.ringIrq {r : Ring} (h : e.Canon) : (e.ringIrq r).Canon := by
  unfold Engine.ringIrq
  split
  · exact h.putRing.sendMsix
  · exact h.putRing

theorem Engine.Canon.writeCpl {c : Cpl} (h : e.Canon) : (e.writeCpl c).Canon := by
  unfold Engine.writeCpl
  split
  · exact h
  · extract_lets _ e1 _
    have h1 : e1.Canon := h.postAs
    split
    · exact h1.ringIrq
    · exact h1.putRing

theorem Engine.Canon.flushHeld (h : e.Canon) : e.flushHeld.Canon :=
  .foldl { h with host := { h.host with } } fun _ _ ha => canon_ite ha.writeCpl (canon_ite { ha with host := { ha.host with } } ha)

theorem Engine.Canon.endStarted {ring tag : Nat} (h : e.Canon) : (e.endStarted ring tag).Canon := { h with host := { h.host with } }

theorem Engine.Canon.completeAt {ring tag : Nat} {notify : Bool} {st : Status} {cx : Nat} (h : e.Canon) :
    (e.completeAt ring tag notify st cx).Canon := by
  unfold Engine.completeAt
  extract_lets e _
  have he : e.Canon := h.endStarted
  split
  · exact he
  · extract_lets
    split
    · exact he.writeCpl
    · split
      · exact { he with host := { he.host with } }
      · exact he

theorem Engine.Canon.complete {p : Packet} {st : Status} (h : e.Canon) : (e.complete p st).Canon := h.completeAt

theorem Engine.Canon.dropOn {r : Ring} (h : e.Canon) : (e.dropOn r).Canon := h.putRing

theorem Engine.Canon.strWrite {id kind stamp flags : Nat} {payload : List Byte} (h : e.Canon) :
    (e.strWrite id kind stamp flags payload).1.Canon := by
  unfold Engine.strWrite
  split
  · exact h
  · extract_lets _ _ e1 e2 _
    have h1 : e1.Canon := h.foldl fun _ _ ha => ha.postAs
    have h2 : e2.Canon := h1.post
    split
    · exact h.dropOn
    · split
      · exact h2.ringIrq
      · exact h2.putRing

theorem Engine.Canon.takeLock {blk c : Nat} (h : e.Canon) : (e.takeLock blk c).Canon := by
  unfold Engine.takeLock
  split
  · exact { h with host := { h.host with } }
  · exact h

theorem Engine.Canon.dropLock {blk : Nat} (h : e.Canon) : (e.dropLock blk).Canon := { h with host := { h.host with } }

theorem Engine.Canon.discardBlock {blk : Nat} (h : e.Canon) : (e.discardBlock blk).Canon := by
  unfold Engine.discardBlock
  extract_lets note _ _ e1
  have hn : ∀ p, (note p).set = p.set := fun p => by
    unfold note
    split <;> rfl
  have h1 : e1.Canon := { h with staged := Tab.wf_swapBlocks _ h.staged _, host := h.host.mapPends rfl rfl hn }
  exact h1.dropLock

theorem Engine.Canon.later {f : Fld} {v : Nat} (h : e.Canon) : (e.later f v).Canon := { h with }

theorem Engine.Canon.laterAll {fs : List (Fld × Nat)} (h : e.Canon) : (e.laterAll fs).Canon := { h with }

/-! ### Events -/

theorem Engine.Canon.arrive {c : Nat} (h : e.Canon) : (e.arrive c).Canon := { h with }

theorem Engine.Canon.arm {c : Nat} (h : e.Canon) : (e.arm c).Canon := { h with }

theorem Engine.Canon.fire {k : Nat} (h : e.Canon) : (e.fire k).Canon := by
  unfold Engine.fire
  extract_lets e1 _ e2
  have h1 : e1.Canon := h.bump
  have h2 : e2.Canon := { h1 with }
  exact .foldl (h2.foldl fun _ _ ha => ha.arrive) fun _ _ ha => ha.arm

theorem Engine.Canon.notifyHost {s data : Nat} (h : e.Canon) : (e.notifyHost s data).Canon := by
  unfold Engine.notifyHost
  split
  · split
    · exact { h with }
    · exact { h with }
  · exact h

theorem Engine.Canon.irqPulse {s : Nat} (h : e.Canon) : (e.irqPulse s).Canon := by
  unfold Engine.irqPulse
  split
  · exact { h with }
  · exact h

theorem Engine.Canon.raise {s data : Nat} (h : e.Canon) : (e.raise s data).Canon := by
  obtain ⟨he, hr⟩ := raise_events e s data
  rw [he]
  exact { h with regs := (hr h.regs).1 }

/-! ### The journal -/

theorem Engine.Canon.putJournal {j : Journal} (h : e.Canon) (hj : j.Canon) : (e.putJournal j).Canon :=
  .setReg (.setReg { h with mem := { h.mem with recs := hj } })

theorem Engine.Canon.journalPut {kind val : Nat} {set : Tab} {data : List Byte} (h : e.Canon) (hs : set.wf = true) :
    (journalPut e kind val set data).Canon := by
  unfold Machine.journalPut
  split
  · exact h
  · exact h.freeVal.putJournal (Journal.Canon.append h.mem.recs _ _ hs _ _)

theorem Engine.Canon.journalSync (h : e.Canon) : (journalSync e).Canon := by
  unfold Machine.journalSync
  split
  · exact h
  · extract_lets _ e1 e2 e3
    have h1 : e1.Canon := h.journalPut (wf_plannedSet h)
    have h2 : e2.Canon :=
      canon_ite (h1.journalPut Tab.wf_nil) (canon_ite h1 (h1.journalPut Tab.wf_nil))
    have h3 : e3.Canon := h2.journalPut Tab.wf_nil
    exact h3.journalPut Tab.wf_nil

theorem Engine.Canon.journalCompact (h : e.Canon) : (journalCompact e).Canon := by
  refine h.putJournal (List.foldlRecOn _ _ (fun r hr => nomatch hr) fun j hj r hr => ?_)
  obtain ⟨k, _, hk⟩ := List.mem_filterMap.mp hr
  exact hj.append _ _ (Journal.Canon.newest h.mem.recs hk) _ _

theorem Engine.Canon.journalStart (h : e.Canon) : (journalStart e).1.Canon := by
  unfold Machine.journalStart
  extract_lets
  dsimp -zeta only
  split
  · exact h
  · exact (h.putJournal fun r hr => h.mem.recs r ((followOn_sublist _ _).subset hr)).raiseBit

/-! ### Decision latency -/

theorem Engine.Canon.latencyRegs (h : e.Canon) : e.latencyRegs.Canon := h.withRegs (Tab.wf_puts _ h.regs)

theorem Engine.Canon.showRelease (h : e.Canon) : (showRelease e).Canon := h.withRegs (Tab.wf_puts _ h.regs)

/-! ### Command packets and commits -/

theorem Engine.Canon.acceptCommit {p : Packet} {blocks : List Nat} {object : Nat} {g : Engine} (h : e.Canon)
    (hg : acceptCommit e p blocks object = .inr g) : g.Canon := by
  unfold Machine.acceptCommit at hg
  split at hg
  · cases hg
  split at hg
  · cases hg
  extract_lets _ _ _ _ _ _ _ _ e0 e1 at hg
  have h0 : e0.Canon := h.foldl fun _ _ ha => ha.dropLock
  have h1 : e1.Canon := canon_ite h0.setReg h0
  split at hg
  · cases hg
  split at hg
  · cases hg
  cases hg
  exact { h1 with staged := Tab.wf_filter h1.staged _, host := h1.host.addPend (Tab.wf_ofBlocks _ h.staged) rfl rfl }

theorem Engine.Canon.holdCommit {u : Unrecorded} (h : e.Canon) : (holdCommit e u).Canon := { h with }

theorem Engine.Canon.commitOr {p : Packet} {blocks : List Nat} {object : Nat} (h : e.Canon) : (commitOr e p blocks object).Canon := by
  unfold Machine.commitOr
  split
  · exact h.complete
  · rename_i hg
    exact canon_ite h.holdCommit (h.acceptCommit hg).journalSync

theorem Engine.Canon.runStage {f : Fn} {extra : Engine → Packet → Option Status} {stage : Engine → Packet → Engine} {object : Nat}
    {p : Packet} (h : e.Canon) (hstage : ∀ e x, e.Canon → (stage e x).Canon) : (runStage f extra stage object p e).Canon := by
  unfold Machine.runStage
  split
  · exact h.complete
  · extract_lets e1
    have h1 : e1.Canon := (hstage _ _ h).takeLock
    split
    · exact h1.commitOr
    · split
      · exact h1.commitOr
      · exact h1.complete

theorem Engine.Canon.runConfig {f : Fn} {extra : Engine → Packet → Option Status} {writes : Engine → Packet → List (Fld × Nat)}
    {object : Nat} {p : Packet} (h : e.Canon) : (runConfig f extra writes object p e).Canon :=
  h.runStage fun _ _ ha => ha.withStaged (Tab.wf_puts _ ha.staged)

theorem Engine.Canon.endAction {f : Fn} {p : Packet} (h : e.Canon) : (endAction f e p).Canon := by
  unfold Machine.endAction
  split
  · exact h.commitOr
  · exact h.complete

theorem Engine.Canon.runAction {f : Fn} {extra : Engine → Packet → Option Status} {act : Engine → Packet → Engine} {p : Packet}
    (h : e.Canon) (hact : ∀ e x, e.Canon → (act e x).Canon) : (runAction f extra act p e).Canon := by
  unfold Machine.runAction
  split
  · exact h.complete
  · exact (hact _ _ h).endAction

theorem Engine.Canon.runAsync {f : Fn} {extra : Engine → Packet → Option Status} {act : Engine → Packet → Engine} {p : Packet}
    (h : e.Canon) (hact : ∀ e x, e.Canon → (act e x).Canon) : (runAsync f extra act p e).Canon := by
  unfold Machine.runAsync
  split
  · exact h.complete
  · exact hact _ _ h

/-! ### Lanes -/

theorem Engine.Canon.putBit {f : Fld} {i : Nat} {b : Bool} (h : e.Canon) : (e.putBit f i b).Canon := h.setReg

theorem Engine.Canon.eqRefresh {l : Nat} (h : e.Canon) : (e.eqRefresh l).Canon := by
  unfold Engine.eqRefresh
  extract_lets _ e1 _
  have h1 : e1.Canon := h.setReg
  split
  · exact { h1 with }
  · exact h1

theorem Engine.Canon.eqAll (h : e.Canon) : e.eqAll.Canon := h.foldl fun _ _ ha => ha.eqRefresh

theorem Engine.Canon.dropRx {l : Nat} (h : e.Canon) : (e.dropRx l).Canon := { h with }

theorem Engine.Canon.setLane {l st : Nat} (h : e.Canon) : (e.setLane l st).Canon := by
  unfold Engine.setLane
  extract_lets _ e1 _ _ _ e2 a e3
  have h1 : e1.Canon := h.setReg.putBit
  have h2 : e2.Canon := { h1 with }
  have ha : a.Canon := h2.dropRx.bump.raise
  have h3 : e3.Canon := canon_ite (canon_ite ha.raiseBit ha) (canon_ite h2.raise h2)
  exact h3.eqRefresh

theorem Engine.Canon.recordSkew {q : Nat} {sk : ℤ} (h : e.Canon) : (e.recordSkew q sk).Canon := { h with }

theorem Engine.Canon.receiveSlot {bank : Tab} {f frame tag pres : Nat} {skew : ℤ} {a : Engine × ℕ} {j q : Nat} (h : a.1.Canon) :
    (receiveSlot bank f frame tag pres skew a j q).1.Canon := by
  unfold Machine.receiveSlot
  dsimp -zeta only
  extract_lets _ _ _ _ _ _ _ _ _ e1 _
  have h1 : e1.Canon := h.recordSkew
  split
  · exact h
  · split
    · dsimp only
      exact h.bump.raise
    · split
      · dsimp only
        exact h.bump.raise
      · split
        · exact h
        · exact { h1 with }

theorem Engine.Canon.receiveValid {bankOf : Nat → Tab} {l frame : Nat} (h : e.Canon) : (receiveValid bankOf l frame e).Canon := by
  unfold Machine.receiveValid
  extract_lets _ _ _ e0 _ _ _
  have h0 : e0.Canon := h.setReg
  split
  · exact h0.bump.raise
  · exact canon_foldl (fun _ _ ha => ha.receiveSlot) h0

theorem Engine.Canon.receiveFrame {bankOf : Nat → Tab} {l gap : Nat} {line : List LineBlock} {codeErrs fecCorr : Nat} (h : e.Canon) :
    (receiveFrame bankOf l gap line codeErrs fecCorr e).Canon := by
  unfold Machine.receiveFrame
  extract_lets _ _ _ _ _ e0 e1 _ _ _ _ e2 e2' _ _
  have h0 : e0.Canon := .bumpBy { h with }
  have h1 : e1.Canon := canon_ite h0.bumpBy h0
  have h2 : e2.Canon := .setReg { h1 with }
  have h2' : e2'.Canon := h1.bump.raise
  split
  · exact h
  · split
    · split
      · exact { h1 with }
      · split
        · exact h2.setLane.receiveValid
        · exact h2
    · split
      · split
        · exact h2'.setLane
        · exact { h2' with }
      · exact .receiveValid { h1 with }

theorem Engine.Canon.alignSegment {g : Seg} (h : e.Canon) : (alignSegment e g).Canon := by
  unfold Machine.alignSegment
  extract_lets _ e1 _
  have h1 : e1.Canon := h.bump
  split
  · exact h.bump.raise
  · split
    · exact h.bump.raise
    · split
      · exact h.bump
      · exact { h1 with }

theorem Engine.Canon.alignDue {k : Nat} (h : e.Canon) : (alignDue e k).Canon := .foldl { h with } fun _ _ ha => ha.alignSegment

theorem Engine.Canon.releaseSegs {n : Nat} (h : e.Canon) : (e.releaseSegs n).Canon := { h with }

theorem Engine.Canon.lanesCommitted {old : Tab} (h : e.Canon) : (lanesCommitted old e).Canon := by
  unfold Machine.lanesCommitted
  extract_lets e1
  have h1 : e1.Canon := h.foldl fun _ _ ha => canon_ite ha (canon_ite ha ha.setLane.dropRx)
  exact h1.eqAll

theorem Engine.Canon.keepBank {old : Tab} {c : Nat} (h : e.Canon) : (keepBank old c e).Canon := by
  unfold Machine.keepBank
  split
  · exact h
  · exact { h with }

theorem Engine.Canon.lanesOff (h : e.Canon) : (lanesOff e).Canon := h.foldl fun _ _ ha => canon_ite ha ha.setLane.dropRx

theorem Engine.Canon.lanesOn (h : e.Canon) : (lanesOn e).Canon := h.foldl fun _ _ ha => canon_ite ha ha.setLane

theorem Engine.Canon.reportSkew {q : Nat} (h : e.Canon) : (e.reportSkew q).Canon := h.withRegs (Tab.wf_puts _ h.regs)

theorem Engine.Canon.skewSum (h : e.Canon) : e.skewSum.Canon := h.withRegs (Tab.wf_puts _ h.regs)

theorem Engine.Canon.skewEpochEnd (h : e.Canon) : (skewEpochEnd e).Canon := by
  unfold Machine.skewEpochEnd
  split
  · exact h
  · extract_lets _ _ _ e1
    have h1 : e1.Canon := ⟨h.active, h.staged, h.regs, h.host, h.mem, h.spr⟩
    exact .skewSum (h1.foldl fun _ _ ha => ha.reportSkew)

theorem Engine.Canon.clearSkew (h : e.Canon) : (clearSkew e).Canon := .skewSum (.foldl { h with } fun _ _ ha => ha.reportSkew)

theorem Engine.Canon.actEqRead {p : Packet} (h : e.Canon) : (actEqRead e p).Canon := by
  unfold Machine.actEqRead
  extract_lets _ _ _ e1
  have h1 : e1.Canon := canon_ite h { h with }
  exact h1.post

theorem Engine.Canon.execLaneMode {p : Packet} (h : s.eng.Canon) : Keeps (execLaneMode p s) := keeps_next h.runConfig

theorem Engine.Canon.execSetSources {p : Packet} (h : s.eng.Canon) : Keeps (execSetSources p s) := keeps_next h.runConfig

theorem Engine.Canon.execEqMode {p : Packet} (h : s.eng.Canon) : Keeps (execEqMode p s) := keeps_next h.runConfig

theorem Engine.Canon.execSetTrx {p : Packet} (h : s.eng.Canon) : Keeps (execSetTrx p s) := keeps_next h.runConfig

theorem Engine.Canon.execRawLanes {p : Packet} (h : s.eng.Canon) : Keeps (execRawLanes p s) := keeps_next h.runConfig

theorem Engine.Canon.execRawSources {p : Packet} (h : s.eng.Canon) : Keeps (execRawSources p s) := keeps_next h.runConfig

theorem Engine.Canon.execEqRead {p : Packet} (h : s.eng.Canon) : Keeps (execEqRead p s) :=
  keeps_next (h.runAction fun _ _ ha => ha.actEqRead)

theorem Engine.Canon.execLaneSignalChange {lane : Nat} {signal : LaneSignal} (h : s.eng.Canon) :
    Keeps (execLaneSignalChange lane signal s) :=
  keeps_next (canon_ite h (canon_ite (canon_ite h.setLane h) (canon_ite h h.setLane)))

theorem Engine.Canon.execSkewEpochEnd (h : s.eng.Canon) : Keeps (execSkewEpochEnd s) := keeps_next h.skewEpochEnd

theorem Engine.Canon.execEqHoldStart {lane : Nat} (h : s.eng.Canon) : Keeps (execEqHoldStart lane s) :=
  keeps_next (canon_ite h (.eqRefresh { h with }))

/-! ### The cell map -/

theorem Engine.Canon.applyMask {all : Bool} {w : MaskWrite} (h : e.Canon) : (applyMask all e w).Canon := by
  unfold Machine.applyMask
  extract_lets _ _ t' e1
  have ht : t'.wf = true := Tab.wf_foldl h.active (fun a it ha => by
    split
    · exact Tab.wf_put ha _ _
    · exact ha) _
  have h1 : e1.Canon := { h with active := ht }
  exact canon_ite h1.bump.raiseBit h1

theorem Engine.Canon.mapStatus (h : e.Canon) : (mapStatus e).Canon := h.withRegs (Tab.wf_puts _ h.regs)

theorem Engine.Canon.applyUnstaged (h : e.Canon) : (applyUnstaged e).Canon := by
  unfold Machine.applyUnstaged
  split
  · exact h
  · exact .mapStatus (.foldl { h with } fun _ _ ha => ha.applyMask)

theorem Engine.Canon.commitMasks {old : Tab} {masks : List MaskWrite} (h : e.Canon) : (commitMasks old masks e).Canon := by
  unfold Machine.commitMasks
  extract_lets _ e1 e2 e3
  have h1 : e1.Canon := { h with active := Tab.wf_foldl h.active (fun _ _ ha => Tab.wf_clearMasks ha _) _ }
  have h2 : e2.Canon := h1.foldl fun _ _ ha => ha.applyMask
  have h3 : e3.Canon := h2.foldl fun _ _ ha => ha.raiseBit.raise
  exact h3.mapStatus

theorem Engine.Canon.stageMask {w : MaskWrite} (h : e.Canon) : (stageMask w e).Canon := { h with }

theorem Engine.Canon.unstagedMask {p : Packet} (h : e.Canon) : (unstagedMask e p).Canon :=
  { h with host := h.host.mapPends rfl rfl (fun _ => rfl) }

theorem Engine.Canon.runRawMask {p : Packet} (h : e.Canon) : (runRawMask p e).Canon := by
  unfold Machine.runRawMask
  extract_lets
  split
  · exact h.runStage fun _ _ ha => ha.stageMask
  · exact h.runAction fun _ _ ha => ha.unstagedMask

theorem Engine.Canon.execSetGeom {p : Packet} (h : s.eng.Canon) : Keeps (execSetGeom p s) := keeps_next h.runConfig

theorem Engine.Canon.execDefineSource {p : Packet} (h : s.eng.Canon) : Keeps (execDefineSource p s) := keeps_next h.runConfig

theorem Engine.Canon.execPlace {p : Packet} (h : s.eng.Canon) : Keeps (execPlace p s) := keeps_next h.runConfig

theorem Engine.Canon.execPlaceSrc {p : Packet} (h : s.eng.Canon) : Keeps (execPlaceSrc p s) := keeps_next h.runConfig

theorem Engine.Canon.execSetConv {p : Packet} (h : s.eng.Canon) : Keeps (execSetConv p s) := keeps_next h.runConfig

theorem Engine.Canon.execMaskCells {p : Packet} (h : s.eng.Canon) : Keeps (execMaskCells p s) :=
  keeps_next (h.runStage fun _ _ ha => ha.stageMask)

theorem Engine.Canon.execUnplace {p : Packet} (h : s.eng.Canon) : Keeps (execUnplace p s) := keeps_next h.runConfig

theorem Engine.Canon.execRawTmap {p : Packet} (h : s.eng.Canon) : Keeps (execRawTmap p s) := keeps_next h.runConfig

theorem Engine.Canon.execRawConv {p : Packet} (h : s.eng.Canon) : Keeps (execRawConv p s) := keeps_next h.runConfig

theorem Engine.Canon.execRawLut {p : Packet} (h : s.eng.Canon) : Keeps (execRawLut p s) := keeps_next h.runConfig

theorem Engine.Canon.execRawMask {p : Packet} (h : s.eng.Canon) : Keeps (execRawMask p s) := keeps_next h.runRawMask

/-! ### Domes -/

theorem Engine.Canon.dropImages {t : Tab} (h : e.Canon) : (dropImages e t).Canon := { h with }

theorem Engine.Canon.layerPolicy {t cells : Tab} {bad : List Nat} {d : Nat} {a : Engine × List LayerUse} {l : Nat} (h : a.1.Canon) :
    (layerPolicy t cells bad d a l).1.Canon := by
  unfold Machine.layerPolicy
  extract_lets _ _ _ e1 _ _ _ e2
  have h1 : e1.Canon := h.bump.setReg
  have h2 : e2.Canon := canon_ite h1.raiseBit.raise h1
  split
  · exact h.setReg
  · split
    · dsimp only
      exact h2.raiseBit.raise
    · exact h2
    · dsimp only
      exact h2.raiseBit.raise

theorem Engine.Canon.keepImages {t cells : Tab} {bad : List Nat} (h : e.Canon) : (keepImages e t cells bad).Canon := by
  unfold Machine.keepImages
  split
  · exact h
  · exact { h with }

theorem Engine.Canon.execSetLayer {p : Packet} (h : s.eng.Canon) : Keeps (execSetLayer p s) := keeps_next h.runConfig

theorem Engine.Canon.execSetBlend {p : Packet} (h : s.eng.Canon) : Keeps (execSetBlend p s) := keeps_next h.runConfig

theorem Engine.Canon.execSetFormat {p : Packet} (h : s.eng.Canon) : Keeps (execSetFormat p s) := keeps_next h.runConfig

theorem Engine.Canon.execSetPolicy {p : Packet} (h : s.eng.Canon) : Keeps (execSetPolicy p s) := keeps_next h.runConfig

theorem Engine.Canon.execSetDome {p : Packet} (h : s.eng.Canon) : Keeps (execSetDome p s) := keeps_next h.runConfig

theorem Engine.Canon.execSetRegion {p : Packet} (h : s.eng.Canon) : Keeps (execSetRegion p s) := keeps_next h.runConfig

theorem Engine.Canon.execRawLayers {p : Packet} (h : s.eng.Canon) : Keeps (execRawLayers p s) := keeps_next h.runConfig

theorem Engine.Canon.execRawIlut {p : Packet} (h : s.eng.Canon) : Keeps (execRawIlut p s) := keeps_next h.runConfig

theorem Engine.Canon.execRawOlut {p : Packet} (h : s.eng.Canon) : Keeps (execRawOlut p s) := keeps_next h.runConfig

theorem Engine.Canon.execRawAlpha {p : Packet} (h : s.eng.Canon) : Keeps (execRawAlpha p s) := keeps_next h.runConfig

/-! ### Streams of frames -/

theorem Engine.Canon.setupCounts (h : e.Canon) : (setupCounts e).Canon := h.withRegs (Tab.wf_puts _ h.regs)

/-! ### The Turret -/

theorem Engine.Canon.objStreams {f : Frame} (h : e.Canon) : (objStreams e f).Canon :=
  h.foldl (fun _ _ ha => canon_ite (ha.foldl fun _ _ hb => (by split; exacts [hb.strWrite, hb])) ha)

theorem Engine.Canon.turretFrame {f : Frame} (h : e.Canon) : (turretFrame e f).1.Canon := by
  unfold Machine.turretFrame
  extract_lets _ _ _ _ e1 e2
  have h1 : e1.Canon := h.foldl
    (fun _ _ ha => canon_ite
    (.raiseBit (.bumpBy
    (canon_ite (.raise (.raiseBit (.bumpBy (canon_ite ha.setReg.setReg.bump.bumpBy.raiseBit.raise ha.setReg.setReg))))
    (canon_ite ha.setReg.setReg.bump.bumpBy.raiseBit.raise ha.setReg.setReg))))
    (canon_ite (.raise (.raiseBit (.bumpBy (canon_ite ha.setReg.setReg.bump.bumpBy.raiseBit.raise ha.setReg.setReg))))
    (canon_ite ha.setReg.setReg.bump.bumpBy.raiseBit.raise ha.setReg.setReg)))
  have h2 : e2.Canon := by
    unfold e2
    split
    · exact h1.raise
    · exact h1
  exact h2.objStreams

theorem Engine.Canon.showSprites {t : Tab} {st n : Nat} (h : e.Canon) : (showSprites e t st n).Canon := h.withRegs (Tab.wf_puts _ h.regs)

theorem Engine.Canon.reanchor {old : Tab} {n : Nat} (h : e.Canon) : (reanchor old n e).Canon := h.withRegs (Tab.wf_puts _ h.regs)

theorem Engine.Canon.anchorAll {n : Nat} (h : e.Canon) : (anchorAll n e).Canon := h.withRegs (Tab.wf_puts _ h.regs)

theorem Engine.Canon.execSetSeed {p : Packet} (h : s.eng.Canon) : Keeps (execSetSeed p s) := keeps_next h.runConfig

theorem Engine.Canon.execSetFootprint {p : Packet} (h : s.eng.Canon) : Keeps (execSetFootprint p s) := keeps_next h.runConfig

theorem Engine.Canon.execSetLimits {p : Packet} (h : s.eng.Canon) : Keeps (execSetLimits p s) := keeps_next h.runConfig

theorem Engine.Canon.execSetClass {p : Packet} (h : s.eng.Canon) : Keeps (execSetClass p s) := keeps_next h.runConfig

theorem Engine.Canon.execSetObjstream {p : Packet} (h : s.eng.Canon) : Keeps (execSetObjstream p s) := keeps_next h.runConfig

theorem Engine.Canon.execSetSprite {p : Packet} (h : s.eng.Canon) : Keeps (execSetSprite p s) := keeps_next h.runConfig

theorem Engine.Canon.execSpriteWindow {p : Packet} (h : s.eng.Canon) : Keeps (execSpriteWindow p s) := keeps_next h.runConfig

theorem Engine.Canon.execSpriteEnable {p : Packet} (h : s.eng.Canon) : Keeps (execSpriteEnable p s) := keeps_next h.runConfig

theorem Engine.Canon.execLoadSprite {p : Packet} (h : s.eng.Canon) : Keeps (execLoadSprite p s) := keeps_next h.runConfig

theorem Engine.Canon.execSpriteArmed {p : Packet} (h : s.eng.Canon) : Keeps (execSpriteArmed p s) := keeps_next h.runConfig

theorem Engine.Canon.execRawTurret {p : Packet} (h : s.eng.Canon) : Keeps (execRawTurret p s) := keeps_next h.runConfig

theorem Engine.Canon.execRawClasses {p : Packet} (h : s.eng.Canon) : Keeps (execRawClasses p s) := keeps_next h.runConfig

theorem Engine.Canon.execRawSprites {p : Packet} (h : s.eng.Canon) : Keeps (execRawSprites p s) := keeps_next h.runConfig

theorem Engine.Canon.execRawSprmem {p : Packet} (h : s.eng.Canon) : Keeps (execRawSprmem p s) := keeps_next h.runConfig

/-! ### The Carillon -/

theorem Engine.Canon.seqStatus (h : e.Canon) : (seqStatus e).Canon := h.withRegs (Tab.wf_puts _ h.regs)

theorem Engine.Canon.seqSwap {orb : Nat} (h : e.Canon) : (seqSwap orb e).Canon := by
  unfold Machine.seqSwap
  extract_lets _ _ e1 e2
  have h1 : e1.Canon := { h with active := Tab.wf_foldl h.active (fun _ _ ha => Tab.wf_put ha _ _) _ }
  have h2 : e2.Canon := h1.foldl fun _ _ ha => Engine.Canon.raise { ha with regs := Tab.wf_puts _ ha.regs }
  exact h2.seqStatus

theorem Engine.Canon.seqBeyond (h : e.Canon) : (seqBeyond e).Canon := h.seqStatus.foldl fun _ _ ha => canon_ite ha ha.raiseBit.raise

theorem Engine.Canon.execLoadList {p : Packet} (h : s.eng.Canon) : Keeps (execLoadList p s) := keeps_next h.runConfig

theorem Engine.Canon.execEnableList {p : Packet} (h : s.eng.Canon) : Keeps (execEnableList p s) := keeps_next h.runConfig

theorem Engine.Canon.execRawList {p : Packet} (h : s.eng.Canon) : Keeps (execRawList p s) := keeps_next h.runConfig

theorem Engine.Canon.execSeqStopL0 (h : s.eng.Canon) : Keeps (execSeqStopL0 s) := keeps_next h.later

theorem Engine.Canon.execSeqStopL1 (h : s.eng.Canon) : Keeps (execSeqStopL1 s) := keeps_next h.later

/-! ### The Belfry -/

theorem Engine.Canon.leaveIdle {i : Nat} (h : e.Canon) : (e.leaveIdle i).Canon := by
  unfold Engine.leaveIdle
  split
  · extract_lets e1 _
    have h1 : e1.Canon := h.setReg
    exact .raise { h1 with }
  · exact h

theorem Engine.Canon.notSilent {i : Nat} (h : e.Canon) : (e.notSilent i).Canon := by
  unfold Engine.notSilent
  extract_lets e1 _
  have h1 : e1.Canon := h.leaveIdle
  exact { h1 with }

theorem Engine.Canon.reseed {i : Nat} (h : e.Canon) : (e.reseed i).Canon := by
  unfold Engine.reseed
  extract_lets e1 _
  have h1 : e1.Canon := h.setReg.setReg.leaveIdle
  exact { h1 with }

theorem Engine.Canon.pulseStep {t : Tab} {i : Nat} {d : ℤ} (h : e.Canon) : (e.pulseStep t i d).Canon := by
  unfold Engine.pulseStep
  extract_lets
  split
  · exact { h.setReg with }
  · split
    · exact { h.setReg with }
    · split
      · exact h
      · split
        · exact { h.setReg with }
        · exact { h.setReg with }

theorem Engine.Canon.idleStep {t : Tab} {i : Nat} {d : ℤ} (h : e.Canon) : (e.idleStep t i d).Canon := by
  unfold Engine.idleStep
  extract_lets
  split
  · exact h.notSilent
  · split
    · exact h.notSilent
    · split
      · exact h
      · split
        · exact h.setReg.raise
        · exact { h with }

theorem Engine.Canon.inputStage {t : Tab} {segs : List Seg} {a : Engine × List ℤ} {i : Nat} (h : a.1.Canon) :
    (inputStage t segs a i).1.Canon := by
  unfold Machine.inputStage
  extract_lets _ _ _ shown _
  have hshown : shown.Canon := canon_ite h h.setReg
  split
  · exact hshown
  · exact hshown.bump
  · split
    · extract_lets e1 _
      have h1 : e1.Canon := h.setReg.setReg
      exact { h1 with }
    · extract_lets _ e1 _ _ _ e' e2
      have h1 : e1.Canon := h.pulseStep.idleStep
      have he' : e'.Canon := { h1 with }
      have h2 : e2.Canon := canon_ite he'.setReg (canon_ite h1 h1.setReg)
      exact h2

theorem Engine.Canon.switchCrosspoints {t : Tab} {segs : List Seg} {ds : List ℤ} {n : Nat} (h : e.Canon) :
    (switchCrosspoints t segs ds n e).Canon :=
  h.foldl (fun _ _ ha => canon_ite (canon_ite (.raise (.bump (.setReg { ha with }))) (.setReg { ha with })) ha)

theorem Engine.Canon.deferGains {old : Tab} {c : Nat} (h : e.Canon) : (deferGains old c e).Canon := by
  unfold Machine.deferGains
  extract_lets _ _ _ e1
  have h1 : e1.Canon := { h with }
  exact h1.withRegs (Tab.wf_puts _ h1.regs)

theorem Engine.Canon.belPower (h : e.Canon) : (belPower e).Canon := h.withRegs (Tab.wf_puts _ h.regs)

theorem Engine.Canon.switchAll (h : e.Canon) : (switchAll e).Canon := by
  unfold Machine.switchAll
  extract_lets _ _ e1
  have h1 : e1.Canon := { h with }
  split
  · exact h
  · exact (h1.withRegs (Tab.wf_puts _ h1.regs)).belPower

theorem Engine.Canon.wakeRequests {k : Nat} (h : e.Canon) : (wakeRequests k e).Canon := by
  unfold Machine.wakeRequests
  extract_lets
  split
  · exact h
  · exact .belPower { h with }

theorem Engine.Canon.belCommitted {t : Tab} (h : e.Canon) : (belCommitted t e).Canon :=
  .foldl { h with } fun _ _ ha => canon_ite ha.reseed (canon_ite ha.notSilent ha)

theorem Engine.Canon.belfryFrame {t : Tab} {segs : List Seg} {n : Nat} (h : e.Canon) : (belfryFrame t segs n e).1.Canon := by
  unfold Machine.belfryFrame
  extract_lets e0 _
  have h0 : e0.Canon := h.belCommitted
  dsimp -zeta only
  extract_lets e2 _ _ _ hit _ _ _ _ e3 _ e4 e5 e6
  have h2 : e2.Canon := .switchCrosspoints (canon_foldl (fun _ _ ha => ha.inputStage) h0)
  have h3 : e3.Canon := { h2 with }
  have h4 : e4.Canon := h3.withRegs (Tab.wf_puts _ h3.regs)
  have h5 : e5.Canon := h4.foldl fun _ _ ha => ha.bump
  have h6 : e6.Canon := by
    unfold e6
    cases hit with
    | cons b _ => exact h5.raise
    | nil => exact h5
  exact h6.belPower

theorem Engine.Canon.belRestart (h : e.Canon) : (belRestart e).Canon := by
  unfold Machine.belRestart
  extract_lets e1 _
  have h1 : e1.Canon := h.foldl fun _ _ ha => ha.reseed
  exact .belPower { h1 with }

theorem Engine.Canon.execBelSetInput {p : Packet} (h : s.eng.Canon) : Keeps (execBelSetInput p s) := keeps_next h.runConfig

theorem Engine.Canon.execSetTmo {p : Packet} (h : s.eng.Canon) : Keeps (execSetTmo p s) := keeps_next h.runConfig

theorem Engine.Canon.execSetGains {p : Packet} (h : s.eng.Canon) : Keeps (execSetGains p s) := keeps_next h.runConfig

theorem Engine.Canon.execSetFir {p : Packet} (h : s.eng.Canon) : Keeps (execSetFir p s) := keeps_next h.runConfig

theorem Engine.Canon.execSetBusmap {p : Packet} (h : s.eng.Canon) : Keeps (execSetBusmap p s) := keeps_next h.runConfig

theorem Engine.Canon.execSetMonitor {p : Packet} (h : s.eng.Canon) : Keeps (execSetMonitor p s) := keeps_next h.runConfig

theorem Engine.Canon.execBelRawMatrix {p : Packet} (h : s.eng.Canon) : Keeps (execBelRawMatrix p s) := keeps_next h.runConfig

theorem Engine.Canon.execRawFir {p : Packet} (h : s.eng.Canon) : Keeps (execRawFir p s) := keeps_next h.runConfig

theorem Engine.Canon.execRawInputs {p : Packet} (h : s.eng.Canon) : Keeps (execRawInputs p s) := keeps_next h.runConfig

/-! ### Memory -/

theorem Engine.Canon.clearErrs {a n : Nat} (h : e.Canon) : (e.clearErrs a n).Canon :=
  { h with mem := { h.mem with ecc := Tab.wf_filter h.mem.ecc _, lecc := Tab.wf_filter h.mem.lecc _} }

theorem Engine.Canon.storeBytes {a : Nat} {bs : List Byte} (h : e.Canon) : (e.storeBytes a bs).Canon := by
  unfold Engine.storeBytes
  extract_lets _ e1
  have h1 : e1.Canon := { h with mem := { h.mem with cells := memWf_memWrite _ _ h.mem.cells } }
  exact canon_ite h1 h1.clearErrs

theorem Engine.Canon.zeroBytes {a n : Nat} (h : e.Canon) : (e.zeroBytes a n).Canon :=
  Engine.Canon.clearErrs { h with mem := { h.mem with cells := memWf_memClear h.mem.cells _ _ } }

/-! ### The Keep -/

theorem Engine.Canon.evalWear (h : e.Canon) : (evalWear e).Canon := by
  unfold Machine.evalWear
  extract_lets _ _ _ _ e1 e2
  have h1 : e1.Canon := h.setReg
  have h2 : e2.Canon := canon_ite h1.raise h1
  split
  · exact h2.raise
  · exact h2

theorem Engine.Canon.coilsOff (h : e.Canon) : (coilsOff e).Canon := by
  unfold Machine.coilsOff
  extract_lets _ e1 e2 e3
  have h1 : e1.Canon := h.setReg.setReg
  have h2 : e2.Canon := canon_ite h1.bump h1
  have h3 : e3.Canon := canon_ite h2.bump h2
  split
  · exact h3
  · exact h3.evalWear

theorem Engine.Canon.coilsOn (h : e.Canon) : (coilsOn e).Canon := h.setReg.setReg

theorem Engine.Canon.abortOn (h : e.Canon) : (abortOn e).Canon := by
  unfold Machine.abortOn
  extract_lets e1 _
  have h1 : e1.Canon := h.coilsOff.setReg
  exact { h1 with }

theorem Engine.Canon.abortOff (h : e.Canon) : (abortOff e).Canon := by
  unfold Machine.abortOff
  extract_lets e1 _
  have h1 : e1.Canon := h.coilsOn.setReg
  exact { h1 with }

theorem Engine.Canon.histReset (h : e.Canon) : (histReset e).Canon := by
  unfold Machine.histReset
  extract_lets _ _ e1 _
  have h1 : e1.Canon := h.setReg
  exact { h1 with mem := { h1.mem with cells := memWf_memClear h1.mem.cells _ _ } }

theorem Engine.Canon.histStart (h : e.Canon) : (histStart e).Canon := h.setReg.histReset

theorem Engine.Canon.histFrozen {cause : Nat} (h : e.Canon) : (histFrozen e cause).Canon := by
  unfold Machine.histFrozen
  extract_lets e1 _
  have h1 : e1.Canon := h.setReg.raise
  exact { h1 with }

theorem Engine.Canon.histTrigger {cause st born : Nat} (h : e.Canon) : (histTrigger e cause st born).Canon := by
  unfold Machine.histTrigger
  extract_lets _ _ e1 _ e1' _ _ e2
  have h1 : e1.Canon := { h.setReg.setReg.setReg with }
  have h1' : e1'.Canon := .setReg { h.setReg.setReg.setReg with }
  have h2 : e2.Canon := { h1' with }
  split
  · split
    · exact { h1 with }
    · exact h1.histFrozen
  · split
    · split
      · exact h2.histFrozen
      · exact h2
    · split
      · exact h
      · split
        · split
          · exact h.setReg
          · exact h
        · exact h.bump

theorem Engine.Canon.abortRise {slot stamp born : Nat} (h : e.Canon) : (abortRise e slot stamp born).Canon := by
  unfold Machine.abortRise
  split
  · exact h
  · extract_lets e1 _ e2
    have h1 : e1.Canon := h.setReg.setReg.raise
    have h2 : e2.Canon := { h1 with }
    split
    · exact h2.histTrigger
    · exact h2

theorem Engine.Canon.addCause {b : Nat} (h : e.Canon) : (e.addCause b).Canon := h.setReg

theorem Engine.Canon.keepCauses (h : e.Canon) : (keepCauses e).Canon := by
  unfold Machine.keepCauses
  extract_lets _ _ e1 _ e2 _ e3 _
  have h1 : e1.Canon := h.foldl fun _ _ ha => ha.addCause
  have h2 : e2.Canon := { h1 with }
  have h3 : e3.Canon := h2.abortRise.abortOn
  split
  · exact h
  · split
    · exact h2
    · exact { h3 with }

theorem Engine.Canon.faultDetect {b : Nat} (h : e.Canon) : (faultDetect b e).Canon := by
  unfold Machine.faultDetect
  split
  · exact h
  · extract_lets e1 _
    have h1 : e1.Canon := h.setReg
    split
    · exact h1
    · exact .keepCauses { h1 with }

theorem Engine.Canon.showKeep {req fs : Bool} {sum : Nat} (h : e.Canon) : (showKeep req fs sum e).Canon := h.withRegs (Tab.wf_puts _ h.regs)

theorem Engine.Canon.countFailSafe {req miss run : Bool} (h : e.Canon) : (countFailSafe req miss run e).Canon := by
  unfold Machine.countFailSafe
  extract_lets a b c
  have ha : a.Canon := h.bump
  have hb : b.Canon := canon_ite ha ha.raise
  have hc' : c.Canon := canon_ite hb.addCause hb
  split
  · exact hc'.addCause
  · exact hc'

theorem Engine.Canon.keepEvaluate {f : Frame} (h : e.Canon) : (keepEvaluate e f).1.Canon := by
  unfold Machine.keepEvaluate
  extract_lets
  dsimp -zeta only
  extract_lets _ _ e0 e1 e2 _ e3 _ e4
  have h0 : e0.Canon := canon_ite h.bump h
  have h1 : e1.Canon := canon_ite h0.addCause h0
  have h2 : e2.Canon := canon_ite h1.countFailSafe h1
  have h3 : e3.Canon := .showKeep { h2 with }
  have h4 : e4.Canon := canon_ite h3.abortRise { h3 with }
  exact h4

theorem Engine.Canon.keepLateMiss {f : Frame} (h : e.Canon) : (keepLateMiss f e).Canon := by
  unfold Machine.keepLateMiss
  extract_lets
  dsimp -zeta only
  extract_lets _ e1 e2 _ e3 _ e4 _ _
  have h1 : e1.Canon := canon_ite h.bump h
  have h2 : e2.Canon := h1.countFailSafe
  have h3 : e3.Canon := canon_ite (.showKeep { h2 with }) h2
  have h4 : e4.Canon := canon_ite h3.abortRise h3
  exact { h4 with }

theorem Engine.Canon.abortOutput {f : Frame} (h : e.Canon) : (abortOutput e f).Canon := by
  unfold Machine.abortOutput
  split
  · split
    · exact h
    · exact h.abortOn
  · split
    · exact h.abortOff
    · exact h

theorem Engine.Canon.abortLane {f : Frame} (h : e.Canon) : (abortLane e f).Canon := by
  unfold Machine.abortLane
  split
  · exact { h with }
  · split
    · exact { h with }
    · exact h

theorem Engine.Canon.oculusRecords {f : Frame} (h : e.Canon) : (oculusRecords e f).Canon :=
  h.foldl fun _ _ ha => canon_ite (ha.foldl fun _ _ hb => hb.strWrite) ha

theorem Engine.Canon.historyRecord {f : Frame} {d : Nat} (h : e.Canon) : (historyRecord e f d).Canon := by
  unfold Machine.historyRecord
  extract_lets _ _ _ _ _ _ _ e1 _
  have h1 : e1.Canon := h.storeBytes
  split
  · exact h
  · split
    · exact { h1 with }
    · exact h

theorem Engine.Canon.displayFrame {f : Frame} (h : e.Canon) : (displayFrame e f).Canon := by
  unfold Machine.displayFrame
  extract_lets e1
  have h1 : e1.Canon := h.oculusRecords.historyRecord.historyRecord
  split
  · exact h1.histFrozen
  · exact h1

theorem Engine.Canon.execSetOculus {p : Packet} (h : s.eng.Canon) : Keeps (execSetOculus p s) := keeps_next h.runConfig

theorem Engine.Canon.execSetCapture {p : Packet} (h : s.eng.Canon) : Keeps (execSetCapture p s) := keeps_next h.runConfig

theorem Engine.Canon.execSetHistory {p : Packet} (h : s.eng.Canon) : Keeps (execSetHistory p s) := keeps_next h.runConfig

theorem Engine.Canon.execFreezeHistory {p : Packet} (h : s.eng.Canon) : Keeps (execFreezeHistory p s) := keeps_next h.runConfig

theorem Engine.Canon.execReleaseHistory {p : Packet} (h : s.eng.Canon) : Keeps (execReleaseHistory p s) := keeps_next h.runConfig

theorem Engine.Canon.execSetOculusSparse {p : Packet} (h : s.eng.Canon) : Keeps (execSetOculusSparse p s) := keeps_next h.runConfig

theorem Engine.Canon.execRelayCountJournal {relay : Nat} (h : s.eng.Canon) : Keeps (execRelayCountJournal relay s) := by
  unfold Machine.execRelayCountJournal
  extract_lets
  split
  · exact keeps_next h
  · exact keeps_next { h with }

/-! ### SRAM with its codes -/

theorem Engine.Canon.wordBack {k : Nat} (h : e.Canon) : (wordBack e k).Canon :=
  { h with mem := { h.mem with ecc := Tab.wf_set h.mem.ecc _ _} }

theorem Engine.Canon.eccRead {k : Nat} (h : e.Canon) : (eccRead e k).1.Canon := h.checked (eccRead_checked e k)

theorem Engine.Canon.sramRead {a n : Nat} (h : e.Canon) : (sramRead e a n).1.Canon := h.checked (sramRead_checked e a n)

theorem Engine.Canon.sramBake {a n : Nat} (h : e.Canon) : (sramBake e a n).1.Canon := canon_foldl (fun _ _ ha => ha.eccRead.storeBytes) h

theorem Engine.Canon.sramWrite {a : Nat} {bs : List Byte} (h : e.Canon) : (sramWrite e a bs).1.Canon := by
  unfold Machine.sramWrite
  split
  · exact h
  · dsimp -zeta only
    exact .storeBytes (fst_ite (fst_ite h h.sramBake) (.sramBake (fst_ite h h.sramBake)))

theorem Engine.Canon.aliasWrite {setBits : Bool} {a : Nat} {bs : List Byte} (h : e.Canon) : (aliasWrite setBits e a bs).1.Canon := by
  unfold Machine.aliasWrite
  split
  · exact h
  · dsimp -zeta only
    exact h.sramBake.storeBytes

theorem Engine.Canon.burstRead {r : Engine × Bool} {b : Nat} (h : r.1.Canon) : (burstRead r b).1.Canon := by
  unfold Machine.burstRead
  extract_lets
  split
  · exact h
  · split
    · exact h.bump
    · dsimp only
      exact h.bump.raise

theorem Engine.Canon.captureRead {a n : Nat} (h : e.Canon) : (captureRead e a n).1.Canon := by
  unfold Machine.captureRead
  extract_lets
  dsimp -zeta only
  exact canon_foldl (fun _ _ ha => ha.burstRead) h

theorem Engine.Canon.engRead {a n : Nat} (h : e.Canon) : (engRead e a n).1.Canon := by
  unfold Machine.engRead
  dsimp -zeta only
  split
  · exact h.captureRead
  · exact h.sramRead

theorem Engine.Canon.engWrite {a : Nat} {bs : List Byte} (h : e.Canon) : (engWrite e a bs).1.Canon := by
  unfold Machine.engWrite
  dsimp -zeta only
  split
  · exact h.sramWrite
  · split
    · exact h.aliasWrite
    · split
      · exact h.aliasWrite
      · exact h

theorem Engine.Canon.clearBank {b : Nat} (h : e.Canon) : (clearBank e b).Canon := by
  unfold Machine.clearBank
  extract_lets e1 _
  have h1 : e1.Canon := h.zeroBytes
  split
  · exact h1
  · split
    · exact h1.withActive (Tab.wf_filter h1.active _)
    · exact h1.withStaged (Tab.wf_filter h1.staged _)

theorem Engine.Canon.restoreTables {before : Engine} (h : e.Canon) : (restoreTables before e).Canon :=
  h.withTables (Tab.wf_replace _ h.active _) (Tab.wf_replace _ h.staged _)

/-! ### Spire cores -/

theorem Engine.Canon.core {k : Nat} (h : e.Canon) : (e.core k).Canon := by
  unfold Engine.core
  rw [List.getD_eq_getElem?_getD]
  cases hc : e.spr.cores[k]? with
  | none => exact .reset
  | some c => exact h.spr.cores c (List.mem_of_getElem? hc)

theorem Engine.Canon.maskBit {f : Fld} {b : Nat} {v : Bool} (h : e.Canon) : (maskBit e f b v).Canon := h.setReg

theorem Engine.Canon.putCore {k : Nat} {c : SpireCore} (h : e.Canon) (hc : c.Canon) : (e.putCore k c).Canon := by
  unfold Engine.putCore
  extract_lets _ e1 e2
  have hcs : ∀ d ∈ e.spr.cores.set k c, d.Canon := fun d hd => (List.mem_or_eq_of_mem_set hd).elim (h.spr.cores d) (· ▸ hc)
  have h1 : e1.Canon := { h with spr := { h.spr with cores := hcs } }
  have h2 : e2.Canon := h1.setReg
  exact canon_ite h2 h2.maskBit.maskBit

theorem Engine.Canon.coreCheck {k : Nat} {f : Fld} (h : e.Canon) : (coreCheck e k f).1.Canon := by
  unfold Machine.coreCheck
  extract_lets
  split
  · exact h
  · split
    · exact h.bump
    · split
      · exact h
      · dsimp -zeta only
        split
        · exact h.freeVal
        · exact h.freeVal.bump

theorem Engine.Canon.coreFresh {lo hi : Nat} (h : e.Canon) : (e.coreFresh lo hi).Canon := by
  unfold Engine.coreFresh
  split
  · exact h
  · exact { h with spr := { h.spr with ecc := Tab.wf_filter h.spr.ecc _} }

theorem Engine.Canon.dmemSet {k a n v : Nat} (h : e.Canon) : (e.dmemSet k a n v).Canon := h.setReg

theorem Engine.Canon.dmemStore {k a n v : Nat} (h : e.Canon) : (e.dmemStore k a n v).Canon := h.dmemSet.coreFresh

theorem Engine.Canon.dmemBytes {k a : Nat} {bs : List Byte} (h : e.Canon) : (e.dmemBytes k a bs).Canon := by
  induction bs generalizing e a with
  | nil => exact h
  | cons b bs ih => exact ih h.dmemSet

theorem Engine.Canon.settle {k : Nat} (h : e.Canon) : (e.settle k).Canon := by
  unfold Engine.settle
  extract_lets c _ _ c1
  have hc : c.Canon := h.core
  have hc1 : c1.Canon := List.foldlRecOn (motive := SpireCore.Canon) _ _ { hc with } fun _ ha _ _ => ha.arrive
  exact canon_ite h ((h.putCore hc1).foldl fun _ _ ha => ha.dmemSet)

theorem Engine.Canon.except {k cause epc eaddr : Nat} (h : e.Canon) : (e.except k cause epc eaddr).Canon := by
  unfold Engine.except
  extract_lets c _ c1 c2 src e1 src'
  have hc : c.Canon := h.core
  have hc1 : c1.Canon := hc.setCw.setCw
  have hc2 : c2.Canon := core_ite hc1 hc1.setCw
  have hsrc : src.Canon := hc2.setCw
  have h1 : e1.Canon := .raise (h.putCore { hsrc with })
  have hsrc' : src'.Canon := hc2.setCw.setStat
  split
  · split
    · exact h1.faultDetect
    · exact h1
  · exact h.putCore { hsrc' with }

theorem Engine.Canon.issue {k w : Nat} {control : Bool} {act : Engine → SpireCore → Issued} (h : e.Canon)
    (hact : ∀ e c, e.Canon → c.Canon → (act e c).Canon) : (issue k w control act e).Canon := by
  unfold Machine.issue
  split
  · exact h
  extract_lets e1 c got _
  have h1 : e1.Canon := h.settle
  have hgot : got.1.Canon := fst_ite h1 h1.coreCheck
  have hi : (act got.1 c).Canon := hact _ _ hgot h1.core
  refine canon_ite h1.except (canon_ite hgot.except (canon_ite hgot.except (canon_ite h (canon_ite hgot.except ?_))))
  split
  · rename_i ha
    rw [ha] at hi
    exact hi.1.putCore hi.2
  · exact hgot.except

theorem Engine.Canon.issueTo {k w : Nat} {rd : BitVec 5} {d : Nat} {value : Engine → SpireCore → Nat} (h : e.Canon) :
    (issueTo k w rd d value e).Canon :=
  h.issue fun _ _ ha hc => ⟨ha, hc.result.advance⟩

/-! ### Instructions of the cores -/

theorem Engine.Canon.opA {k op func d : Nat} {rd ra rb : BitVec 5} {f : BitVec 32 → BitVec 32 → BitVec 32} (h : e.Canon) :
    (opA k op func d rd ra rb f e).Canon :=
  h.issueTo

theorem Engine.Canon.opK {k op : Nat} {rd ra : BitVec 5} {imm : BitVec 16} {f : BitVec 32 → BitVec 16 → BitVec 32} (h : e.Canon) :
    (opK k op rd ra imm f e).Canon :=
  h.issueTo

theorem Engine.Canon.opLoad {k op n : Nat} {rd ra : BitVec 5} {imm : BitVec 16} {ext : Nat → BitVec 32} (h : e.Canon) :
    (opLoad k op n rd ra imm ext e).Canon := by
  unfold Machine.opLoad
  refine h.issue fun _ _ ha hc => ?_
  extract_lets _ got
  have hgot : got.1.Canon := ha.coreCheck
  split
  · exact trivial
  · split
    · exact trivial
    · exact ⟨hgot, hc.result.advance⟩

theorem Engine.Canon.opStore {k op n : Nat} {rs ra : BitVec 5} {imm : BitVec 16} (h : e.Canon) : (opStore k op n rs ra imm e).Canon := by
  unfold Machine.opStore
  refine h.issue fun _ _ ha hc => ?_
  extract_lets _ got
  have hgot : got.1.Canon := fst_ite ha ha.coreCheck
  split
  · exact trivial
  · split
    · exact trivial
    · exact ⟨hgot.dmemStore, hc.advance⟩

theorem Engine.Canon.opBranch {k op : Nat} {ra rb : BitVec 5} {off : BitVec 16} {cond : BitVec 32 → BitVec 32 → Bool} (h : e.Canon) :
    (opBranch k op ra rb off cond e).Canon :=
  h.issue fun _ _ ha hc => ⟨ha, hc.jump⟩

theorem Engine.Canon.execAdd {k : Nat} {rd ra rb : BitVec 5} (h : s.eng.Canon) : Keeps (execAdd k rd ra rb s) := keeps_next h.opA

theorem Engine.Canon.execSub {k : Nat} {rd ra rb : BitVec 5} (h : s.eng.Canon) : Keeps (execSub k rd ra rb s) := keeps_next h.opA

theorem Engine.Canon.execAnd {k : Nat} {rd ra rb : BitVec 5} (h : s.eng.Canon) : Keeps (execAnd k rd ra rb s) := keeps_next h.opA

theorem Engine.Canon.execOr {k : Nat} {rd ra rb : BitVec 5} (h : s.eng.Canon) : Keeps (execOr k rd ra rb s) := keeps_next h.opA

theorem Engine.Canon.execXor {k : Nat} {rd ra rb : BitVec 5} (h : s.eng.Canon) : Keeps (execXor k rd ra rb s) := keeps_next h.opA

theorem Engine.Canon.execNor {k : Nat} {rd ra rb : BitVec 5} (h : s.eng.Canon) : Keeps (execNor k rd ra rb s) := keeps_next h.opA

theorem Engine.Canon.execSlt {k : Nat} {rd ra rb : BitVec 5} (h : s.eng.Canon) : Keeps (execSlt k rd ra rb s) := keeps_next h.opA

theorem Engine.Canon.execSltu {k : Nat} {rd ra rb : BitVec 5} (h : s.eng.Canon) : Keeps (execSltu k rd ra rb s) := keeps_next h.opA

theorem Engine.Canon.execShl {k : Nat} {rd ra rb : BitVec 5} (h : s.eng.Canon) : Keeps (execShl k rd ra rb s) := keeps_next h.opA

theorem Engine.Canon.execShr {k : Nat} {rd ra rb : BitVec 5} (h : s.eng.Canon) : Keeps (execShr k rd ra rb s) := keeps_next h.opA

theorem Engine.Canon.execShra {k : Nat} {rd ra rb : BitVec 5} (h : s.eng.Canon) : Keeps (execShra k rd ra rb s) := keeps_next h.opA

theorem Engine.Canon.execMin {k : Nat} {rd ra rb : BitVec 5} (h : s.eng.Canon) : Keeps (execMin k rd ra rb s) := keeps_next h.opA

theorem Engine.Canon.execMax {k : Nat} {rd ra rb : BitVec 5} (h : s.eng.Canon) : Keeps (execMax k rd ra rb s) := keeps_next h.opA

theorem Engine.Canon.execMinu {k : Nat} {rd ra rb : BitVec 5} (h : s.eng.Canon) : Keeps (execMinu k rd ra rb s) := keeps_next h.opA

theorem Engine.Canon.execMaxu {k : Nat} {rd ra rb : BitVec 5} (h : s.eng.Canon) : Keeps (execMaxu k rd ra rb s) := keeps_next h.opA

theorem Engine.Canon.execClz {k : Nat} {rd ra rb : BitVec 5} (h : s.eng.Canon) : Keeps (execClz k rd ra rb s) := keeps_next h.opA

theorem Engine.Canon.execMul {k : Nat} {rd ra rb : BitVec 5} (h : s.eng.Canon) : Keeps (execMul k rd ra rb s) := keeps_next h.opA

theorem Engine.Canon.execMulh {k : Nat} {rd ra rb : BitVec 5} (h : s.eng.Canon) : Keeps (execMulh k rd ra rb s) := keeps_next h.opA

theorem Engine.Canon.execMulhu {k : Nat} {rd ra rb : BitVec 5} (h : s.eng.Canon) : Keeps (execMulhu k rd ra rb s) := keeps_next h.opA

theorem Engine.Canon.execDiv {k : Nat} {rd ra rb : BitVec 5} (h : s.eng.Canon) : Keeps (execDiv k rd ra rb s) := keeps_next h.opA

theorem Engine.Canon.execDivu {k : Nat} {rd ra rb : BitVec 5} (h : s.eng.Canon) : Keeps (execDivu k rd ra rb s) := keeps_next h.opA

theorem Engine.Canon.execRem {k : Nat} {rd ra rb : BitVec 5} (h : s.eng.Canon) : Keeps (execRem k rd ra rb s) := keeps_next h.opA

theorem Engine.Canon.execRemu {k : Nat} {rd ra rb : BitVec 5} (h : s.eng.Canon) : Keeps (execRemu k rd ra rb s) := keeps_next h.opA

theorem Engine.Canon.execJr {k : Nat} {rd ra rb : BitVec 5} (h : s.eng.Canon) : Keeps (execJr k rd ra rb s) :=
  keeps_next (h.issue fun _ _ ha hc => ⟨ha, hc.jump⟩)

theorem Engine.Canon.execJalr {k : Nat} {rd ra rb : BitVec 5} (h : s.eng.Canon) : Keeps (execJalr k rd ra rb s) :=
  keeps_next (h.issue fun _ _ ha hc => ⟨ha, hc.result.jump⟩)

theorem Engine.Canon.execJmp {k : Nat} {off : BitVec 26} (h : s.eng.Canon) : Keeps (execJmp k off s) :=
  keeps_next (h.issue fun _ _ ha hc => ⟨ha, hc.jump⟩)

theorem Engine.Canon.execJal {k : Nat} {off : BitVec 26} (h : s.eng.Canon) : Keeps (execJal k off s) :=
  keeps_next (h.issue fun _ _ ha hc => ⟨ha, hc.result.jump⟩)

theorem Engine.Canon.execAddk {k : Nat} {rd ra : BitVec 5} {imm : BitVec 16} (h : s.eng.Canon) : Keeps (execAddk k rd ra imm s) :=
  keeps_next h.opK

theorem Engine.Canon.execAndk {k : Nat} {rd ra : BitVec 5} {imm : BitVec 16} (h : s.eng.Canon) : Keeps (execAndk k rd ra imm s) :=
  keeps_next h.opK

theorem Engine.Canon.execOrk {k : Nat} {rd ra : BitVec 5} {imm : BitVec 16} (h : s.eng.Canon) : Keeps (execOrk k rd ra imm s) :=
  keeps_next h.opK

theorem Engine.Canon.execXork {k : Nat} {rd ra : BitVec 5} {imm : BitVec 16} (h : s.eng.Canon) : Keeps (execXork k rd ra imm s) :=
  keeps_next h.opK

theorem Engine.Canon.execSltk {k : Nat} {rd ra : BitVec 5} {imm : BitVec 16} (h : s.eng.Canon) : Keeps (execSltk k rd ra imm s) :=
  keeps_next h.opK

theorem Engine.Canon.execSltuk {k : Nat} {rd ra : BitVec 5} {imm : BitVec 16} (h : s.eng.Canon) : Keeps (execSltuk k rd ra imm s) :=
  keeps_next h.opK

theorem Engine.Canon.execShlk {k : Nat} {rd ra : BitVec 5} {imm : BitVec 16} (h : s.eng.Canon) : Keeps (execShlk k rd ra imm s) :=
  keeps_next h.opK

theorem Engine.Canon.execShrk {k : Nat} {rd ra : BitVec 5} {imm : BitVec 16} (h : s.eng.Canon) : Keeps (execShrk k rd ra imm s) :=
  keeps_next h.opK

theorem Engine.Canon.execShrak {k : Nat} {rd ra : BitVec 5} {imm : BitVec 16} (h : s.eng.Canon) : Keeps (execShrak k rd ra imm s) :=
  keeps_next h.opK

theorem Engine.Canon.execMovh {k : Nat} {rd ra : BitVec 5} {imm : BitVec 16} (h : s.eng.Canon) : Keeps (execMovh k rd ra imm s) :=
  keeps_next h.opK

theorem Engine.Canon.execLdb {k : Nat} {rd ra : BitVec 5} {imm : BitVec 16} (h : s.eng.Canon) : Keeps (execLdb k rd ra imm s) :=
  keeps_next h.opLoad

theorem Engine.Canon.execLdbu {k : Nat} {rd ra : BitVec 5} {imm : BitVec 16} (h : s.eng.Canon) : Keeps (execLdbu k rd ra imm s) :=
  keeps_next h.opLoad

theorem Engine.Canon.execLdh {k : Nat} {rd ra : BitVec 5} {imm : BitVec 16} (h : s.eng.Canon) : Keeps (execLdh k rd ra imm s) :=
  keeps_next h.opLoad

theorem Engine.Canon.execLdhu {k : Nat} {rd ra : BitVec 5} {imm : BitVec 16} (h : s.eng.Canon) : Keeps (execLdhu k rd ra imm s) :=
  keeps_next h.opLoad

theorem Engine.Canon.execLdw {k : Nat} {rd ra : BitVec 5} {imm : BitVec 16} (h : s.eng.Canon) : Keeps (execLdw k rd ra imm s) :=
  keeps_next h.opLoad

theorem Engine.Canon.execStb {k : Nat} {rs ra : BitVec 5} {imm : BitVec 16} (h : s.eng.Canon) : Keeps (execStb k rs ra imm s) :=
  keeps_next h.opStore

theorem Engine.Canon.execSth {k : Nat} {rs ra : BitVec 5} {imm : BitVec 16} (h : s.eng.Canon) : Keeps (execSth k rs ra imm s) :=
  keeps_next h.opStore

theorem Engine.Canon.execStw {k : Nat} {rs ra : BitVec 5} {imm : BitVec 16} (h : s.eng.Canon) : Keeps (execStw k rs ra imm s) :=
  keeps_next h.opStore

theorem Engine.Canon.execBeq {k : Nat} {ra rb : BitVec 5} {off : BitVec 16} (h : s.eng.Canon) : Keeps (execBeq k ra rb off s) :=
  keeps_next h.opBranch

theorem Engine.Canon.execBne {k : Nat} {ra rb : BitVec 5} {off : BitVec 16} (h : s.eng.Canon) : Keeps (execBne k ra rb off s) :=
  keeps_next h.opBranch

theorem Engine.Canon.execBlt {k : Nat} {ra rb : BitVec 5} {off : BitVec 16} (h : s.eng.Canon) : Keeps (execBlt k ra rb off s) :=
  keeps_next h.opBranch

theorem Engine.Canon.execBge {k : Nat} {ra rb : BitVec 5} {off : BitVec 16} (h : s.eng.Canon) : Keeps (execBge k ra rb off s) :=
  keeps_next h.opBranch

theorem Engine.Canon.execBltu {k : Nat} {ra rb : BitVec 5} {off : BitVec 16} (h : s.eng.Canon) : Keeps (execBltu k ra rb off s) :=
  keeps_next h.opBranch

theorem Engine.Canon.execBgeu {k : Nat} {ra rb : BitVec 5} {off : BitVec 16} (h : s.eng.Canon) : Keeps (execBgeu k ra rb off s) :=
  keeps_next h.opBranch

theorem Engine.Canon.execSys {k : Nat} {rd ra : BitVec 5} {low : BitVec 16} (h : s.eng.Canon) : Keeps (execSys k rd ra low s) := by
  unfold Machine.execSys
  refine keeps_next (h.issue fun _ _ ha hc => ?_)
  extract_lets
  split
  · exact trivial
  · extract_lets c1
    have hc1 : c1.Canon := hc.cwAfterRead.result
    exact ⟨ha, .advance (core_ite hc1.cwWrite hc1)⟩

theorem Engine.Canon.execTrap {k : Nat} {rd ra : BitVec 5} {imm : BitVec 16} (h : s.eng.Canon) : Keeps (execTrap k rd ra imm s) :=
  keeps_next (h.issue fun _ _ _ _ => trivial)

theorem Engine.Canon.execEret {k : Nat} {low : BitVec 26} (h : s.eng.Canon) : Keeps (execEret k low s) := by
  unfold Machine.execEret
  refine keeps_next (h.issue fun _ _ ha hc => ?_)
  split
  · extract_lets _ c1
    have hc1 : c1.Canon := hc.setStat.resume
    exact ⟨ha, core_ite { hc1 with } hc1⟩
  · split
    · exact ⟨ha, hc.setStat.resume⟩
    · exact trivial

theorem Engine.Canon.execFeret {k : Nat} {low : BitVec 26} (h : s.eng.Canon) : Keeps (execFeret k low s) := by
  unfold Machine.execFeret
  refine keeps_next (h.issue fun _ _ ha hc => ?_)
  split
  · exact ⟨ha, hc.setStat.resume⟩
  · exact trivial

theorem Engine.Canon.mapFrame {f : Frame} {g : Frame → Frame} (h : e.Canon) : (mapFrame e f g).Canon := { h with }

theorem Engine.Canon.finishFrame {k : Nat} {c : SpireCore} (h : e.Canon) (hc : c.Canon) :
    (finishFrame e k c).1.Canon ∧ (finishFrame e k c).2.Canon := by
  unfold Machine.finishFrame
  split
  · exact ⟨h, hc⟩
  · split
    · exact ⟨h, hc⟩
    · exact ⟨h.mapFrame.setReg.setReg, { hc with }⟩

theorem Engine.Canon.execWff {k : Nat} {rd ra rb : BitVec 5} {func : BitVec 11} (h : s.eng.Canon) : Keeps (execWff k rd ra rb func s) := by
  refine keeps_next (h.issue fun e c he hc => ?_)
  extract_lets ec _
  have hec : ec.1.Canon ∧ ec.2.Canon := by
    unfold ec
    split
    · exact ⟨he, hc⟩
    · exact he.finishFrame hc
  exact ⟨hec.1, { hec.2 with }⟩

theorem Engine.Canon.execResultArrive {k : Nat} (h : s.eng.Canon) : Keeps (execResultArrive k s) :=
  keeps_next (canon_ite h (canon_ite h.settle (.settle (h.putCore { h.core with }))))

/-! ### Coprocessors -/

theorem Engine.Canon.overrun {f : Frame} (h : e.Canon) : (overrun e f).Canon := by
  unfold Machine.overrun
  split
  · exact h
  · extract_lets _ e1 e2
    have h1 : e1.Canon := h.mapFrame
    have h2 : e2.Canon := h1.bump
    exact h2.maskBit.raise

theorem Engine.Canon.fetchWrite {k : Nat} {x : Fetch} {bs : List Byte} (h : e.Canon) : (fetchWrite k x bs e).Canon := h.dmemBytes.coreFresh

theorem Engine.Canon.deliverFetch {k : Nat} {f : Frame} (h : e.Canon) : (deliverFetch e k f).Canon := by
  unfold Machine.deliverFetch
  extract_lets
  split
  · exact h
  split
  · exact h
  · dsimp -zeta only
    extract_lets _ e2
    have h2 : e2.Canon := h.checkedAs (sramRead_checked _ _ _)
    exact .fetchWrite (h2.putCore { h.core.setCw with })

theorem Engine.Canon.takeFrame {k : Nat} (h : e.Canon) : (takeFrame e k).Canon := by
  unfold Machine.takeFrame
  extract_lets c _ _
  have hc : c.Canon := h.core
  split
  · exact h
  · extract_lets _ e1 e2 c2 c3 src e3
    have h1 : e1.Canon := .settle (h.putCore { hc with })
    have h2 : e2.Canon := h1.mapFrame
    have hc2 : c2.Canon := h2.core
    have hc3 : c3.Canon := hc2.setCw.result
    have hsrc : src.Canon := hc3.advance
    have h3 : e3.Canon := h2.putCore { hsrc with }
    exact h3.deliverFetch

theorem Engine.Canon.execBudgetOverrun {k : Nat} (h : s.eng.Canon) : Keeps (execBudgetOverrun k s) := by
  unfold Machine.execBudgetOverrun
  extract_lets
  refine keeps_next ?_
  split
  · exact h.overrun
  · exact h

theorem Engine.Canon.opCp {k n cfunc : Nat} {gives : Bool} {rd ra rb : BitVec 5} {act : Engine → SpireCore → Issued} (h : e.Canon)
    (hact : ∀ e x, e.Canon → x.Canon → (act e x).Canon) : (opCp k n cfunc gives rd ra rb act e).Canon := by
  unfold Machine.opCp
  refine h.issue fun _ _ ha hc => ?_
  split
  · exact trivial
  · exact hact _ _ ha hc

theorem Engine.Canon.execOcnt {k : Nat} {rd ra rb : BitVec 5} (h : s.eng.Canon) : Keeps (execOcnt k rd ra rb s) :=
  keeps_next (h.opCp fun _ _ ha hc => ⟨ha, hc.result.advance⟩)

theorem Engine.Canon.execOrec {k : Nat} {rd ra rb : BitVec 5} (h : s.eng.Canon) : Keeps (execOrec k rd ra rb s) :=
  keeps_next (h.opCp fun _ _ ha hc => ⟨ha, hc.result.advance⟩)

theorem Engine.Canon.execCell {k : Nat} {rd ra rb : BitVec 5} (h : s.eng.Canon) : Keeps (execCell k rd ra rb s) :=
  keeps_next (h.opCp fun _ _ ha hc => ⟨ha, hc.result.advance⟩)

theorem Engine.Canon.execGather {k : Nat} {rd ra rb : BitVec 5} (h : s.eng.Canon) : Keeps (execGather k rd ra rb s) := by
  unfold Machine.execGather
  refine keeps_next (h.opCp fun _ _ ha hc => ?_)
  extract_lets _ _ _ _ _ _ _ _ _ src
  have hsrc : src.Canon := hc.result.advance
  split
  · exact trivial
  · split
    · exact trivial
    · exact ⟨ha, { hsrc with }⟩

theorem Engine.Canon.execHadd {k : Nat} {rd ra rb : BitVec 5} (h : s.eng.Canon) : Keeps (execHadd k rd ra rb s) := by
  unfold Machine.execHadd
  refine keeps_next (h.opCp fun _ _ ha hc => ?_)
  extract_lets _ src
  have hsrc : src.Canon := hc.advance
  exact ⟨ha, { hsrc with }⟩

theorem Engine.Canon.execHget {k : Nat} {rd ra rb : BitVec 5} (h : s.eng.Canon) : Keeps (execHget k rd ra rb s) :=
  keeps_next (h.opCp fun _ _ ha hc => ⟨ha, hc.result.advance⟩)

theorem Engine.Canon.execHclr {k : Nat} {rd ra rb : BitVec 5} (h : s.eng.Canon) : Keeps (execHclr k rd ra rb s) :=
  keeps_next (h.opCp fun _ _ ha hc => ⟨ha, { hc.advance with }⟩)

theorem Engine.Canon.execFetch {k : Nat} {rd ra rb : BitVec 5} (h : s.eng.Canon) : Keeps (execFetch k rd ra rb s) := by
  unfold Machine.execFetch
  refine keeps_next (h.opCp fun _ _ ha hc => ?_)
  extract_lets _ _ _ _ src
  have hsrc : src.Canon := hc.setCw.advance
  split
  · exact trivial
  · split
    · exact trivial
    · split
      · exact trivial
      · split
        · exact trivial
        · split
          · exact trivial
          · exact ⟨ha, { hsrc with }⟩

theorem Engine.Canon.execServiceFetchDone {k : Nat} (h : s.eng.Canon) : Keeps (execServiceFetchDone k s) := by
  unfold Machine.execServiceFetchDone
  extract_lets _ c src
  have hc : c.Canon := h.core
  have hsrc : src.Canon := hc.setCw
  split
  · dsimp -zeta only
    extract_lets e2
    have h2 : e2.Canon := .fetchWrite (h.sramRead.putCore { hsrc with })
    exact keeps_next h2.raise
  · exact keeps_next h

theorem Engine.Canon.execResw {k : Nat} {rd ra rb : BitVec 5} (h : s.eng.Canon) : Keeps (execResw k rd ra rb s) :=
  keeps_next (h.opCp fun _ _ ha hc => ⟨ha, { hc.advance with }⟩)

theorem Engine.Canon.execResor {k : Nat} {rd ra rb : BitVec 5} (h : s.eng.Canon) : Keeps (execResor k rd ra rb s) :=
  keeps_next (h.opCp fun _ _ ha hc => ⟨ha, { hc.advance with }⟩)

theorem Engine.Canon.execResget {k : Nat} {rd ra rb : BitVec 5} (h : s.eng.Canon) : Keeps (execResget k rd ra rb s) :=
  keeps_next (h.opCp fun _ _ ha hc => ⟨ha, hc.result.advance⟩)

theorem Engine.Canon.execQget {k : Nat} {rd ra rb : BitVec 5} (h : s.eng.Canon) : Keeps (execQget k rd ra rb s) := by
  unfold Machine.execQget
  refine keeps_next (h.opCp fun _ _ ha hc => ?_)
  split
  · exact ⟨ha, hc.result.advance⟩
  · exact trivial

theorem Engine.Canon.execLanternPortRequest {k cp : Nat} {rd ra rb : BitVec 5} {cfunc : BitVec 11} (h : s.eng.Canon) :
    Keeps (execLanternPortRequest k cp rd ra rb cfunc s) := by
  unfold Machine.execLanternPortRequest
  split
  · exact keeps_next h
  · refine keeps_next (h.issue fun _ _ ha hc => ?_)
    extract_lets
    split
    · exact trivial
    · exact ⟨{ ha with }, hc.result.advance⟩

theorem Engine.Canon.swapImage {t k : Nat} (h : e.Canon) : (swapImage e t k).Canon := (h.withRegs (Tab.wf_replace _ h.regs _)).coreFresh

theorem Engine.Canon.runCore {r : SpireRun} {k : Nat} (h : e.Canon) : (runCore r e k).Canon := by
  unfold Machine.runCore
  extract_lets _ e1 e2 e3 c _ c1 _
  have h1 : e1.Canon := canon_ite (h.putCore { h.core with }) h
  have h2 : e2.Canon := canon_ite h1.swapImage h1
  have h3 : e3.Canon := canon_ite h2.swapImage h2
  have hc : c.Canon := h3.core
  have hc1 : c1.Canon := { hc with cw := Tab.wf_filter hc.cw _ }
  exact canon_ite (h3.putCore { hc1.setCw with regs := Tab.wf_nil }) h3

theorem Engine.Canon.applyRun {r : SpireRun} (h : e.Canon) : (applyRun e r).Canon := h.foldl fun _ _ ha => ha.runCore

theorem Engine.Canon.sprCommitted {c : Nat} (h : e.Canon) : (sprCommitted c e).Canon := by
  unfold Machine.sprCommitted
  extract_lets _ _ _ _ _ e1 _
  have h1 : e1.Canon := h.withActive (Tab.wf_filter h.active _)
  split
  · exact h
  · split
    · exact { h1 with spr := { h1.spr with } }
    · exact h1.applyRun

theorem Engine.Canon.sprTick (h : e.Canon) : (sprTick e).Canon := by
  unfold Machine.sprTick
  extract_lets _ _ e1 e2 _ _ _
  have h1 : e1.Canon := h.agree
  have h2 : e2.Canon := h1.foldl fun _ _ ha => canon_ite (canon_ite (.settle (ha.putCore { ha.core with })) ha) ha
  exact .foldl h2.agree fun _ _ ha => ha.applyRun

theorem Engine.Canon.actRawReadmem {p : Packet} (h : e.Canon) : (actRawReadmem e p).Canon := h.post

theorem Engine.Canon.execLoadProgram {p : Packet} (h : s.eng.Canon) : Keeps (execLoadProgram p s) := keeps_next h.runConfig

theorem Engine.Canon.execSetInterleave {p : Packet} (h : s.eng.Canon) : Keeps (execSetInterleave p s) := keeps_next h.runConfig

theorem Engine.Canon.execRun {p : Packet} (h : s.eng.Canon) : Keeps (execRun p s) := keeps_next h.runConfig

theorem Engine.Canon.execCoreEntry {p : Packet} (h : s.eng.Canon) : Keeps (execCoreEntry p s) := keeps_next h.runConfig

theorem Engine.Canon.execLoadTable {p : Packet} (h : s.eng.Canon) : Keeps (execLoadTable p s) := keeps_next h.runConfig

theorem Engine.Canon.execRawReadmem {p : Packet} (h : s.eng.Canon) : Keeps (execRawReadmem p s) :=
  keeps_next (h.runAction fun _ _ ha => ha.actRawReadmem)

theorem Engine.Canon.execSetPortmap {p : Packet} (h : s.eng.Canon) : Keeps (execSetPortmap p s) := keeps_next h.runConfig

/-! ### The Finial -/

theorem Engine.Canon.keepCapture {b : Nat} {samples : List Nat} (h : e.Canon) : (keepCapture b samples e).Canon := { h with }

theorem Engine.Canon.nimCapture {b : Nat} {samples : List Nat} (h : e.Canon) : (nimCapture b samples e).Canon :=
  h.keepCapture.foldl fun _ _ ha => canon_ite (canon_ite ha.bump.raise ha.bump) ha

theorem Engine.Canon.lanternIn {samples : List Nat} (h : e.Canon) : (lanternIn samples e).Canon := { h with spr := { h.spr with } }

theorem Engine.Canon.psSet {x : Nat × Nat × Nat} (h : e.Canon) : (psSet e x).Canon := h.setReg

theorem Engine.Canon.psFlush (h : e.Canon) : (psFlush e).Canon := by
  unfold Machine.psFlush
  split
  · exact h
  · exact .foldl { h with } fun _ _ ha => ha.psSet

theorem Engine.Canon.psCommit (h : e.Canon) : (psCommit e).Canon := .psFlush { h with }

theorem Engine.Canon.finialEvaluate {f : Frame} (h : e.Canon) : (finialEvaluate e f).1.Canon := by
  unfold Machine.finialEvaluate
  extract_lets _ _ _ _ _ e0 _ _ _ _ _ _ _
  have h0 : e0.Canon := .foldl { h with } fun _ _ ha => ha.psSet
  dsimp -zeta only
  extract_lets _ _ _ _ _ e2 e3 _ _ e4 _
  have h2 : e2.Canon := .foldl
    (canon_foldl (fun _ _ ha => fst_ite (fst_ite (fst_ite (.bump (.setReg ha.bump)) (.setReg ha.bump)) ha.bump) ha) h0)
    fun _ _ ha => canon_ite (.bump (canon_ite ha.bump ha)) (canon_ite ha.bump ha)
  have h3 : e3.Canon := canon_ite h2.bump h2
  have h4 : e4.Canon := canon_ite { h3.bump with }
    (canon_ite h3 (canon_ite h3.bump.raise (canon_ite h3.bump (canon_ite h3.bump h3.bump))))
  exact h4

theorem Engine.Canon.captureAccept {f : Frame} (h : e.Canon) : (captureAccept e f).Canon := by
  unfold Machine.captureAccept
  extract_lets
  split
  · exact { h with }
  · exact h

theorem Engine.Canon.suppressAccepts {f : Frame} (h : e.Canon) : (suppressAccepts f e).Canon := by
  unfold Machine.suppressAccepts
  split
  · exact h
  · extract_lets e1 _ _
    have h1 : e1.Canon := h.bump.raise
    exact { h1 with }

theorem Engine.Canon.logStreams {f : Frame} (h : e.Canon) : (logStreams e f).Canon :=
  h.foldl fun _ _ ha => canon_ite (canon_ite (.strWrite { ha with }) { ha with }) ha

theorem Engine.Canon.logWrite {f : Frame} (h : e.Canon) : (logWrite e f).Canon := by
  unfold Machine.logWrite
  split
  · extract_lets _ e1
    have h1 : e1.Canon := canon_ite h h.storeBytes
    exact h1.logStreams
  · exact h

theorem Engine.Canon.nimDrive {drives : Bool} {f : Frame} (h : e.Canon) : (nimDrive drives e f).1.Canon := by
  unfold Machine.nimDrive
  extract_lets _ e1 _ _ _ e2 _
  have h1 : e1.Canon := canon_ite h.bump h
  have h2 : e2.Canon := canon_ite (h1.foldl fun _ _ ha => canon_ite ha.bump ha) h1
  exact .logWrite { h2 with }

theorem Engine.Canon.lanesSend {t : Tab} {paced : Bool} {w : Nat → Nat} (h : e.Canon) : (lanesSend t paced w e).Canon := by
  unfold Machine.lanesSend
  extract_lets _ _ _ e1
  have h1 : e1.Canon := { h with }
  exact h1.foldl fun _ _ ha => canon_ite ha.bump ha

theorem Engine.Canon.laneFrame {drives : Bool} {f : Frame} (h : e.Canon) : (laneFrame drives e f).Canon := by
  unfold Machine.laneFrame
  extract_lets
  exact h.lanesSend

theorem Engine.Canon.laneEmpty {c : Nat} (h : e.Canon) : (laneEmpty c e).Canon := by
  unfold Machine.laneEmpty
  extract_lets
  exact h.lanesSend

theorem Engine.Canon.laneUnlocked (h : e.Canon) : (laneUnlocked e).Canon := h.lanesSend

theorem Engine.Canon.setLimit {v : Nat} (h : e.Canon) : (setLimit e v).Canon := h.setReg.evalWear

theorem Engine.Canon.execSetCond {p : Packet} (h : s.eng.Canon) : Keeps (execSetCond p s) := keeps_next h.runConfig

theorem Engine.Canon.execSetLine {p : Packet} (h : s.eng.Canon) : Keeps (execSetLine p s) := keeps_next h.runConfig

theorem Engine.Canon.execSetDeadtime {p : Packet} (h : s.eng.Canon) : Keeps (execSetDeadtime p s) := keeps_next h.runConfig

theorem Engine.Canon.execSetPsmode {p : Packet} (h : s.eng.Canon) : Keeps (execSetPsmode p s) := keeps_next h.runConfig

theorem Engine.Canon.execSetInput {p : Packet} (h : s.eng.Canon) : Keeps (execSetInput p s) := keeps_next h.runConfig

theorem Engine.Canon.execSetLogstream {p : Packet} (h : s.eng.Canon) : Keeps (execSetLogstream p s) := keeps_next h.runConfig

theorem Engine.Canon.execRawConds {p : Packet} (h : s.eng.Canon) : Keeps (execRawConds p s) := keeps_next h.runConfig

theorem Engine.Canon.execRawLines {p : Packet} (h : s.eng.Canon) : Keeps (execRawLines p s) := keeps_next h.runConfig

theorem Engine.Canon.execSetNimout {p : Packet} (h : s.eng.Canon) : Keeps (execSetNimout p s) := keeps_next h.runConfig

theorem Engine.Canon.execSetDlane {p : Packet} (h : s.eng.Canon) : Keeps (execSetDlane p s) := keeps_next h.runConfig

theorem Engine.Canon.execRawOuts {p : Packet} (h : s.eng.Canon) : Keeps (execRawOuts p s) := keeps_next h.runConfig

theorem Engine.Canon.execSetRlywarn {p : Packet} (h : s.eng.Canon) : Keeps (execSetRlywarn p s) :=
  keeps_next (h.runAction fun _ _ ha => ha.setLimit)

theorem Engine.Canon.execRlywarnLimitWrite {val : Nat} (h : s.eng.Canon) : Keeps (execRlywarnLimitWrite val s) := keeps_next h.setLimit

theorem Engine.Canon.execDlTxFault {lane : Nat} (h : s.eng.Canon) : Keeps (execDlTxFault lane s) := by
  unfold Machine.execDlTxFault
  split
  · exact keeps_next h.raiseBit.raise
  · exact keeps_next h

/-! ### The event fabric -/

theorem Engine.Canon.takeOld {c : Nat} (h : e.Canon) : (takeOld e c).1.Canon := by
  unfold Machine.takeOld
  extract_lets
  split
  · exact h
  · exact { h with }

theorem Engine.Canon.takeNow {c : Nat} (h : e.Canon) : (takeNow e c).1.Canon := by
  unfold Machine.takeNow
  extract_lets _ _ _ e1 _
  have h1 : e1.Canon := { h with }
  split
  · exact h1.setReg
  · exact h1

theorem Engine.Canon.takeInbox {c : Nat} (h : e.Canon) : (takeInbox e c).1.Canon := by
  unfold Machine.takeInbox
  dsimp -zeta only
  exact h.takeNow.takeOld

theorem Engine.Canon.keepGate {old : Engine} {c : Nat} (h : e.Canon) : (keepGate old e c).Canon := by
  unfold Machine.keepGate
  split
  · exact h
  · extract_lets _ _ _ e1
    have h1 : e1.Canon := { h with }
    exact h1.setReg

theorem Engine.Canon.keepRequests {old : Engine} {k : Nat} (h : e.Canon) : (keepRequests old e k).Canon := by
  unfold Machine.keepRequests
  extract_lets
  split
  · exact h
  · exact { h with }

theorem Engine.Canon.keepBanks {old : Engine} (h : e.Canon) : (keepBanks old e).Canon :=
  .foldl (h.foldl fun _ _ ha => ha.keepGate) fun _ _ ha => ha.keepRequests

theorem Engine.Canon.arriveOld {cg : Nat × Gate} (h : e.Canon) : (arriveOld e cg).Canon := by
  unfold Machine.arriveOld
  dsimp -zeta only
  split
  · exact h.arrive
  · split
    · exact { h with }
    · exact { h with }

theorem Engine.Canon.armOld {k c : Nat} (h : e.Canon) : (armOld k e c).Canon := by
  unfold Machine.armOld
  extract_lets e1 _
  have h1 : e1.Canon := canon_ite h.arm h
  exact { h1 with }

theorem Engine.Canon.fireOld {k : Nat} (h : e.Canon) : (fireOld e k).Canon := by
  unfold Machine.fireOld
  extract_lets _ _ _ e0 src _ e1 _
  have h0 : e0.Canon := { h with }
  have hsrc : src.Canon := h0.bump
  have h1 : e1.Canon := canon_ite h0.fire { hsrc with }
  exact .foldl (h1.foldl fun _ _ ha => ha.arriveOld) fun _ _ ha => ha.armOld

theorem Engine.Canon.mergeEvents {c n : Nat} (h : e.Canon) : (mergeEvents e c n).Canon := by
  unfold Machine.mergeEvents
  split
  · exact h
  · exact h.bumpBy.setReg

theorem Engine.Canon.busyInput {c : Nat} (h : e.Canon) : (busyInput e c).Canon := h.bump.setReg

theorem Engine.Canon.execEventRaise {src data : Nat} (h : s.eng.Canon) : Keeps (execEventRaise src data s) := by
  unfold Machine.execEventRaise
  extract_lets _ _ _ e1 _
  have h1 : e1.Canon := canon_ite { h with } h
  split
  · exact keeps_next h
  · exact keeps_next h1.raise

theorem Engine.Canon.execHoldoffEnd {ch : Nat} (h : s.eng.Canon) : Keeps (execHoldoffEnd ch s) := by
  unfold Machine.execHoldoffEnd
  extract_lets
  split
  · exact keeps_next { h with }
  · split
    · exact keeps_next h.fireOld
    · split
      · exact keeps_next h.fire
      · exact keeps_next { h with }

theorem Engine.Canon.execGuardWindowEnd (h : s.eng.Canon) : Keeps (execGuardWindowEnd s) := keeps_next { h with }

theorem Engine.Canon.writeNote {n : Note} (h : e.Canon) : (writeNote e n).Canon := by
  unfold Machine.writeNote
  extract_lets _ e1
  have h1 : e1.Canon := { h with }
  split
  · exact h1
  · split
    · exact h1
    · split
      · exact h
      · split
        · exact h1.dropOn
        · exact h1.post.ringIrq

theorem Engine.Canon.execNotificationWrite {src : Nat} (h : s.eng.Canon) : Keeps (execNotificationWrite src s) := by
  unfold Machine.execNotificationWrite
  split
  · exact keeps_next h.writeNote
  · exact keeps_next h

theorem Engine.Canon.execEvtSwpubWrite {sw : Nat} (h : s.eng.Canon) : Keeps (execEvtSwpubWrite sw s) := keeps_next h.raise

theorem Engine.Canon.execEvtKstatStopWrite {ch : Nat} (h : s.eng.Canon) : Keeps (execEvtKstatStopWrite ch s) := by
  unfold Machine.execEvtKstatStopWrite
  split
  · exact keeps_next h
  · exact keeps_next h.setReg

theorem Engine.Canon.pruneRoutes (h : e.Canon) : (pruneRoutes e).Canon := by
  unfold Machine.pruneRoutes
  extract_lets e1
  have hr : e1.regs.wf = true := by
    dsimp only [e1]
    exact Tab.wf_filter (Tab.wf_puts _ h.regs) _
  have h1 : e1.Canon := (h.withRegs hr).agree
  exact h1.laterAll

theorem Engine.Canon.execPublish {p : Packet} (h : s.eng.Canon) : Keeps (execPublish p s) := by
  unfold Machine.execPublish
  extract_lets e1
  have h1 : e1.Canon := h.runAction fun _ _ ha => ha.laterAll
  exact keeps_next h1

theorem Engine.Canon.execSubscribe {p : Packet} (h : s.eng.Canon) : Keeps (execSubscribe p s) := by
  unfold Machine.execSubscribe
  extract_lets e1
  have h1 : e1.Canon := h.runAction fun _ _ ha => ha.laterAll
  exact keeps_next h1

theorem Engine.Canon.execSetGate {p : Packet} (h : s.eng.Canon) : Keeps (execSetGate p s) := by
  unfold Machine.execSetGate
  extract_lets e1
  have h1 : e1.Canon := h.runAction fun _ _ ha => ha.laterAll
  exact keeps_next h1

theorem Engine.Canon.execSetMatrix {p : Packet} (h : s.eng.Canon) : Keeps (execSetMatrix p s) := by
  unfold Machine.execSetMatrix
  extract_lets e1
  have h1 : e1.Canon := h.runAction fun _ _ ha => ha.laterAll
  exact keeps_next h1

theorem Engine.Canon.execSetNotify {p : Packet} (h : s.eng.Canon) : Keeps (execSetNotify p s) := by
  unfold Machine.execSetNotify
  extract_lets e1
  have h1 : e1.Canon := h.runAction fun _ _ ha => ha.laterAll
  exact keeps_next h1

theorem Engine.Canon.execSetChannel {p : Packet} (h : s.eng.Canon) : Keeps (execSetChannel p s) := by
  unfold Machine.execSetChannel
  extract_lets e1
  have h1 : e1.Canon := h.runAction fun _ _ ha => ha.laterAll
  exact keeps_next h1

theorem Engine.Canon.execResumeChannel {p : Packet} (h : s.eng.Canon) : Keeps (execResumeChannel p s) :=
  keeps_next (h.runAction fun _ _ ha => ha.setReg)

theorem Engine.Canon.execSetGuard {p : Packet} (h : s.eng.Canon) : Keeps (execSetGuard p s) := by
  unfold Machine.execSetGuard
  extract_lets e1
  have h1 : e1.Canon := h.runAction fun _ _ ha => ha.laterAll
  exact keeps_next h1

theorem Engine.Canon.execRaise {p : Packet} (h : s.eng.Canon) : Keeps (execRaise p s) := keeps_next (h.runAction fun _ _ ha => ha.raise)

theorem Engine.Canon.execEvtRawMatrix {p : Packet} (h : s.eng.Canon) : Keeps (execEvtRawMatrix p s) := by
  unfold Machine.execEvtRawMatrix
  extract_lets e1
  have h1 : e1.Canon := h.runAction fun _ _ ha => ha.laterAll
  exact keeps_next h1

theorem Engine.Canon.execRawRoutes {p : Packet} (h : s.eng.Canon) : Keeps (execRawRoutes p s) := by
  unfold Machine.execRawRoutes
  extract_lets e1
  have h1 : e1.Canon := h.runAction fun _ _ ha => ha.laterAll
  exact keeps_next h1

theorem Engine.Canon.execRawConsumers {p : Packet} (h : s.eng.Canon) : Keeps (execRawConsumers p s) := by
  unfold Machine.execRawConsumers
  extract_lets e1
  have h1 : e1.Canon := h.runAction fun _ _ ha => ha.laterAll
  exact keeps_next h1

/-! ### Interrupts -/

theorem Engine.Canon.present {boundary : Bool} {pend : List Nat} {kc : Nat × Nat} (h : e.Canon) : (present boundary pend e kc).Canon := by
  unfold Machine.present
  dsimp -zeta only
  extract_lets old _ _ best e1
  have h1 : e1.Canon := by
    unfold e1
    cases old with
    | some s => exact canon_ite h.bump h
    | none => exact h
  refine canon_ite h ?_
  cases best with
  | none => exact h1.setReg.setReg
  | some s =>
    have h2 := h1.setReg (f := presValid kc.1 kc.2) (v := 1) |>.setReg (f := presSrc kc.1 kc.2) (v := s)
    exact h2.putCore (core_ite { h2.core with } { h2.core with })

theorem Engine.Canon.keepMsgs {pend : List Nat} (h : e.Canon) : (keepMsgs pend e).Canon := by
  unfold Machine.keepMsgs
  extract_lets _ _ _ _ _ _ e1
  have h1 : e1.Canon := { h with }
  split
  · exact h1
  · exact h1.bumpBy

theorem Engine.Canon.showPba {old : List HostIrq} (h : e.Canon) : (showPba old e).Canon := { h with host := { h.host with } }

theorem Engine.Canon.keepRedirs {pend : List Nat} (h : e.Canon) : (keepRedirs pend e).Canon := { h with }

theorem Engine.Canon.irqUpdate {boundary : Bool} (h : e.Canon) : (irqUpdate boundary e).Canon := by
  unfold Machine.irqUpdate
  extract_lets _ _ e1 e2 _ _
  have h1 : e1.Canon := .keepRedirs (h.foldl fun _ _ ha => ha.present)
  have h2 : e2.Canon := h1.keepMsgs.showPba
  split
  · exact h
  · exact h2.withRegs (Tab.wf_puts _ h2.regs)

theorem Engine.Canon.takeEdge {s b n : Nat} (h : e.Canon) : (takeEdge s b n e).Canon := by
  unfold Machine.takeEdge
  split
  · exact h.bump
  · extract_lets _ e1 _
    have h1 : e1.Canon := h.raiseBit
    exact .irqUpdate { h1 with }

theorem Engine.Canon.execIrqFilterPass {src : Nat} {level : Bool} (h : s.eng.Canon) : Keeps (execIrqFilterPass src level s) := by
  unfold Machine.execIrqFilterPass
  extract_lets _ _ _ _ e1 _ e1'
  have h1 : e1.Canon := { h with }
  have h1' : e1'.Canon := { h with }
  split
  · exact keeps_next h
  · split
    · exact keeps_next (canon_ite h1.takeEdge h1)
    · split
      · exact keeps_next h
      · exact keeps_next h1'.takeEdge

theorem Engine.Canon.irqAccept {k cls s : Nat} (h : e.Canon) : (irqAccept k cls s e).Canon := by
  unfold Machine.irqAccept
  extract_lets _ _ e1 e2 _ e3 e4
  have h1 : e1.Canon := h.setReg.setReg.bump
  have h2 : e2.Canon := h1.setReg.setReg
  have h3 : e3.Canon := { h2 with }
  have h4 : e4.Canon := canon_ite h3 h3.setReg.setReg.bump.raise
  exact h4.irqUpdate

theorem Engine.Canon.enter {k b s pcw srcw vecw bitn pres : Nat} (h : e.Canon) : (enter k b s pcw srcw vecw bitn pres e).Canon := by
  unfold Machine.enter
  extract_lets src e1 c c1 c2
  have hsrc : src.Canon := h.core
  have h1 : e1.Canon := .settle (h.putCore { hsrc with })
  have hc : c.Canon := h1.core
  have hc1 : c1.Canon := hc.setCw.setCw.setStat
  have hc2 : c2.Canon := hc1.setCw
  exact h1.putCore { hc2 with }

theorem Engine.Canon.execNormalInterruptEntry {k : Nat} (h : s.eng.Canon) : Keeps (execNormalInterruptEntry k s) := by
  unfold Machine.execNormalInterruptEntry
  extract_lets
  split
  · split
    · exact keeps_next h.enter.irqAccept
    · exact keeps_next h
  · exact keeps_next h

theorem Engine.Canon.execFastInterruptEntry {k : Nat} (h : s.eng.Canon) : Keeps (execFastInterruptEntry k s) := by
  unfold Machine.execFastInterruptEntry
  extract_lets
  split
  · split
    · exact keeps_next h.enter.irqAccept
    · exact keeps_next h
  · exact keeps_next h

theorem Engine.Canon.wakeService {k : Nat} (h : e.Canon) : (wakeService e k).Canon := by
  unfold Machine.wakeService
  extract_lets c _ e1
  have hc : c.Canon := h.core
  have h1 : e1.Canon := .settle (h.putCore { hc with })
  split
  · exact h
  · extract_lets c1 src
    have hc1 : c1.Canon := h1.core.result
    have hsrc : src.Canon := hc1.advance
    exact .bump (h1.putCore { hsrc with })

theorem Engine.Canon.execWffComplete {k : Nat} (h : s.eng.Canon) : Keeps (execWffComplete k s) := by
  unfold Machine.execWffComplete
  extract_lets
  split
  · exact keeps_next h
  · split
    · exact keeps_next h.wakeService
    · exact keeps_next (canon_ite h.takeFrame h)

theorem Engine.Canon.execMsixSend {src : Nat} (h : s.eng.Canon) : Keeps (execMsixSend src s) := by
  unfold Machine.execMsixSend
  extract_lets _ _ _ _ _ e1 e1'
  have h1 : e1.Canon := { h with }
  have h1' : e1'.Canon := h.sendMsix
  split
  · exact keeps_next h
  · split
    · split
      · exact keeps_next h
      · exact keeps_next h1.bump.showPba.setReg
    · exact keeps_next h1'.setReg.setReg.bump.irqUpdate

theorem Engine.Canon.clearPend {src : Nat} (h : e.Canon) : (clearPend src e).Canon := by
  unfold Machine.clearPend
  extract_lets e1 _
  have h1 : e1.Canon := h.setReg.setReg
  exact .irqUpdate { h1 with }

theorem Engine.Canon.execIrqPendWrite {src : Nat} (h : s.eng.Canon) : Keeps (execIrqPendWrite src s) := by
  unfold Machine.execIrqPendWrite
  split
  · exact keeps_next h
  · exact keeps_next h.clearPend

theorem Engine.Canon.execRoute {p : Packet} (h : s.eng.Canon) : Keeps (execRoute p s) := by
  unfold Machine.execRoute
  extract_lets e1
  have h1 : e1.Canon := h.runAction fun _ _ ha => ha.laterAll
  exact keeps_next h1

theorem Engine.Canon.execSetFilter {p : Packet} (h : s.eng.Canon) : Keeps (execSetFilter p s) :=
  keeps_next (h.runAction fun _ _ ha => ha.later)

theorem Engine.Canon.execMaskTarget {p : Packet} (h : s.eng.Canon) : Keeps (execMaskTarget p s) := by
  unfold Machine.execMaskTarget
  extract_lets e1
  have h1 : e1.Canon := h.runAction fun _ _ ha => ha.laterAll
  exact keeps_next h1

theorem Engine.Canon.execClearPending {p : Packet} (h : s.eng.Canon) : Keeps (execClearPending p s) :=
  keeps_next (h.runAction fun _ _ ha => ha.clearPend)

theorem Engine.Canon.execIrqRawSources {p : Packet} (h : s.eng.Canon) : Keeps (execIrqRawSources p s) := by
  unfold Machine.execIrqRawSources
  extract_lets e1
  have h1 : e1.Canon := h.runAction fun _ _ ha => ha.laterAll
  exact keeps_next h1

/-! ### Counters -/

theorem Engine.Canon.incrFuel {fuel n : Nat} (h : e.Canon) : (Engine.incrFuel fuel e n).Canon := by
  induction fuel generalizing e n with
  | zero => exact h
  | succ fuel ih =>
    unfold Engine.incrFuel
    extract_lets _ e1 _ e2 _ b
    have h1 : e1.Canon := h.setReg
    have h2 : e2.Canon := canon_ite (canon_ite h1.raiseBit.raise h1.raiseBit) h1
    have hb : b.Canon := canon_ite h2.raiseBit.raise h2.raiseBit
    exact canon_ite (canon_ite (ih hb) hb) h2

theorem Engine.Canon.latchChain {n : Nat} (h : e.Canon) : (latchChain n e).Canon := { h with regs := Tab.wf_puts _ h.regs }

theorem Engine.Canon.countLatched {n : Nat} {count : Engine → Engine} (h : e.Canon) (hcount : ∀ e, e.Canon → (count e).Canon) :
    (countLatched n count e).Canon := by
  unfold Machine.countLatched
  split
  · exact hcount _ h
  · split
    · exact (hcount _ h).latchChain
    · dsimp -zeta only
      split
      · exact (hcount _ h.freeVal).latchChain
      · exact hcount _ h.freeVal.latchChain

theorem Engine.Canon.increment {n : Nat} (h : e.Canon) : (increment n e).Canon := by
  unfold Machine.increment
  extract_lets
  split
  · exact h
  · split
    · split
      · exact h
      · exact h.countLatched fun _ ha => .incrFuel { ha with }
    · exact h.countLatched fun _ ha => ha.incrFuel

theorem Engine.Canon.execCounterIncrement {n : Nat} (h : s.eng.Canon) : Keeps (execCounterIncrement n s) := keeps_next h.increment

theorem Engine.Canon.execCounterMatch {n : Nat} (h : s.eng.Canon) : Keeps (execCounterMatch n s) := by
  unfold Machine.execCounterMatch
  split
  · exact keeps_next h.increment
  · exact keeps_next h

theorem Engine.Canon.execCounterOverflow {n : Nat} (h : s.eng.Canon) : Keeps (execCounterOverflow n s) := by
  unfold Machine.execCounterOverflow
  split
  · exact keeps_next h.increment
  · exact keeps_next h

theorem Engine.Canon.cntWrite {n kind v : Nat} (h : e.Canon) : (cntWrite n kind v e).Canon := by
  unfold Machine.cntWrite
  split
  · exact h
  · exact { h with }

theorem Engine.Canon.cntBoundary (h : e.Canon) : (cntBoundary e).Canon := by
  unfold Machine.cntBoundary
  split
  · exact h
  · exact { h with }

theorem Engine.Canon.chainHeads (h : e.Canon) : (chainHeads e).Canon := canon_foldl (fun _ _ ha => ha.setReg) h

theorem Engine.Canon.applyCntWrite {w : CntWrite} (h : e.Canon) : (applyCntWrite e w).Canon := by
  unfold Machine.applyCntWrite
  split
  · exact h.setReg
  · split
    · exact h.setReg
    · extract_lets e1
      have h1 : e1.Canon := h.setReg.setReg
      split
      · exact h1
      · exact h1.setReg.chainHeads

theorem Engine.Canon.execCounterWriteApply {n : Nat} (h : s.eng.Canon) : Keeps (execCounterWriteApply n s) := by
  unfold Machine.execCounterWriteApply
  extract_lets _ _ _ e1
  have h1 : e1.Canon := { h with }
  exact keeps_next (h1.foldl fun _ _ ha => ha.applyCntWrite)

theorem Engine.Canon.execCntLoadWrite {n val : Nat} (h : s.eng.Canon) : Keeps (execCntLoadWrite n val s) := keeps_next h.cntWrite

theorem Engine.Canon.snapRequest (h : e.Canon) : (snapRequest e).Canon := by
  unfold Machine.snapRequest
  split
  · exact h
  · exact { h with }

theorem Engine.Canon.execCntSnapReq (h : s.eng.Canon) : Keeps (execCntSnapReq s) := keeps_next h.snapRequest

theorem Engine.Canon.execSnapshotComplete (h : s.eng.Canon) : Keeps (execSnapshotComplete s) := by
  unfold Machine.execSnapshotComplete
  extract_lets _ _ _ e1 e2 e3 _ e4 e5
  have h1 : e1.Canon := h.withRegs (Tab.wf_puts _ h.regs)
  have h2 : e2.Canon := h1.setReg
  have h3 : e3.Canon := h2.setReg.setReg
  have h4 : e4.Canon := { h3 with }
  have h5 : e5.Canon := h4.foldl fun _ _ ha => ha.post.completeAt
  split
  · exact keeps_next h
  · exact keeps_next h5

theorem Engine.Canon.execSetCounter {p : Packet} (h : s.eng.Canon) : Keeps (execSetCounter p s) := by
  unfold Machine.execSetCounter
  extract_lets e1
  have h1 : e1.Canon := h.runAction fun _ _ ha => ha.cntWrite
  exact keeps_next h1

theorem Engine.Canon.execLoad {p : Packet} (h : s.eng.Canon) : Keeps (execLoad p s) := keeps_next (h.runAction fun _ _ ha => ha.cntWrite)

theorem Engine.Canon.execSetCompare {p : Packet} (h : s.eng.Canon) : Keeps (execSetCompare p s) :=
  keeps_next (h.runAction fun _ _ ha => ha.cntWrite)

theorem Engine.Canon.execSnap {p : Packet} (h : s.eng.Canon) : Keeps (execSnap p s) := by
  unfold Machine.execSnap
  extract_lets e1
  have h1 : e1.Canon := h.runAsync fun _ _ ha => { ha.snapRequest with }
  exact keeps_next h1

theorem Engine.Canon.execRawCounters {p : Packet} (h : s.eng.Canon) : Keeps (execRawCounters p s) := by
  unfold Machine.execRawCounters
  extract_lets e1
  have h1 : e1.Canon := h.runAction fun _ _ ha => ha.foldl (fun _ _ hb => hb.cntWrite.cntWrite)
  exact keeps_next h1

/-! ### Memory commands, captures and freezes -/

theorem Engine.Canon.portRead {a : PortAccess} (h : e.Canon) : (portRead e a).1.Canon := by
  unfold Machine.portRead
  dsimp -zeta only
  exact h.sramRead

theorem Engine.Canon.portWrite {a : PortAccess} (h : e.Canon) : (portWrite e a).Canon := by
  unfold Machine.portWrite
  extract_lets
  split
  · exact h
  · exact h.sramWrite
  · exact h.aliasWrite
  · exact h.aliasWrite

theorem Engine.Canon.bankCycle {p0 p1 : Option PortAccess} (h : e.Canon) : (bankCycle p0 p1 e).Canon := by
  unfold Machine.bankCycle
  extract_lets one
  have hone : ∀ r p, r.1.Canon → (one r p).1.Canon := fun r p hr => by
    unfold one
    cases p with
    | none => exact hr
    | some a => exact fst_ite hr hr.portRead
  dsimp -zeta only
  extract_lets _ e2 e3
  have h2 : e2.Canon :=
    have hr := hone _ p1 (hone (e, []) p0 h)
    { hr with mem := { hr.mem with } }
  have h3 : e3.Canon := by
    unfold e3
    cases p0 with
    | some a => exact h2.portWrite
    | none => exact h2
  split
  · split
    · exact h3.bump.setReg.raise
    · exact h3.portWrite
  · exact h3.portWrite
  · exact h3

theorem Engine.Canon.serveBank {bank : Nat} {port0 : Option PortAccess} (h : e.Canon) : (serveBank bank port0 e).Canon := by
  unfold Machine.serveBank
  split
  · exact .bankCycle { h with mem := { h.mem with } }
  · extract_lets e1
    have h1 : e1.Canon := h.bankCycle
    split
    · exact h1.wordBack
    · exact h1

theorem Engine.Canon.memRest (h : e.Canon) : (memRest e).Canon := by
  unfold Machine.memRest
  extract_lets e1 e2 _
  have h1 : e1.Canon := by
    unfold e1
    exact h.foldl fun _ _ ha => (by split; exacts [ha.serveBank, ha])
  have h2 : e2.Canon := h1.foldl fun _ _ ha => ha.wordBack
  split
  · exact h2
  · exact { h2 with mem := { h2.mem with } }

theorem Engine.Canon.execSramAccess {cycle : BankCycle} {port1 : List (Requester × PortAccess)} (h : s.eng.Canon) :
    Keeps (execSramAccess cycle port1 s) := by
  unfold Machine.execSramAccess
  extract_lets _ _ e1
  have h1 : e1.Canon := { h with mem := { h.mem with } }
  exact keeps_next h1.serveBank

theorem Engine.Canon.execScrubPass (h : s.eng.Canon) : Keeps (execScrubPass s) := by
  unfold Machine.execScrubPass
  extract_lets
  split
  · exact keeps_next h
  · exact keeps_next (h.foldl fun _ _ ha => ha.eccRead)

theorem Engine.Canon.execJournalCompaction {running : Bool} (h : s.eng.Canon) : Keeps (execJournalCompaction running s) := by
  unfold Machine.execJournalCompaction
  extract_lets _ e1
  have h1 : e1.Canon := canon_ite h.journalCompact h
  exact keeps_next h1.setReg

theorem Engine.Canon.appendCapture {bs : List Byte} (h : e.Canon) : (appendCapture e bs).Canon := by
  unfold Machine.appendCapture
  extract_lets _ _ e1 _
  have h1 : e1.Canon := h.storeBytes
  exact h1.setReg.setReg

theorem Engine.Canon.stallCapture {c : Cap} (h : e.Canon) : (stallCapture e c).Canon := by
  unfold Machine.stallCapture
  extract_lets e1 _
  have h1 : e1.Canon := canon_ite h h.bump
  exact { h1 with }

theorem Engine.Canon.copyCapture {c : Cap} (h : e.Canon) : (copyCapture e c).Canon := by
  unfold Machine.copyCapture
  split
  · exact h.bump.raise
  · extract_lets _ _ e0 e1
    have h0 : e0.Canon := { h with mem := { h.mem with } }
    have h1 : e1.Canon := h0.bump.appendCapture
    split
    · exact h.stallCapture
    · exact h1.foldl fun _ _ ha => ha.strWrite

theorem Engine.Canon.execCaptureCopy (h : s.eng.Canon) : Keeps (execCaptureCopy s) := by
  unfold Machine.execCaptureCopy
  split
  · exact keeps_next h
  · split
    · exact keeps_next h
    · exact keeps_next (.copyCapture { h with })

theorem Engine.Canon.readRing {n : Nat} (h : e.Canon) : (readRing e n).1.Canon := canon_foldl (fun _ _ ha => ha.eccRead) h

theorem Engine.Canon.fillFreeze {k : Nat} (h : e.Canon) : (fillFreeze e k).Canon := by
  unfold Machine.fillFreeze
  extract_lets
  dsimp -zeta only
  extract_lets e1 e2 e3
  have h1 : e1.Canon := h.readRing.zeroBytes
  have h2 : e2.Canon := h1.foldl fun _ _ ha => { ha with mem := { ha.mem with cells := memWf_memSet ha.mem.cells _ _ } }
  have h3 : e3.Canon := h2.foldl fun _ _ ha => ha.storeBytes
  exact h3.foldl fun _ _ ha => ha.foldl fun _ _ hb => hb.storeBytes

theorem Engine.Canon.afterFreeze {cause : Nat} (h : e.Canon) : (afterFreeze cause e).Canon := by
  unfold Machine.afterFreeze
  split
  · exact h.setReg
  · exact h

theorem Engine.Canon.execPostMortemFreeze (h : s.eng.Canon) : Keeps (execPostMortemFreeze s) := by
  unfold Machine.execPostMortemFreeze
  split
  · exact keeps_next h
  · extract_lets _ _ e
    have he : e.Canon := { h with }
    split
    · exact keeps_next he.bump.raise.afterFreeze
    · extract_lets e1 e2 _ e3
      have h1 : e1.Canon := he.fillFreeze
      have h2 : e2.Canon := h1.maskBit.maskBit
      have h3 : e3.Canon := { h2 with mem := { h2.mem with } }
      exact keeps_next h3.raise.afterFreeze

theorem Engine.Canon.captureEmpty (h : e.Canon) : (captureEmpty e).Canon := by
  unfold Machine.captureEmpty
  extract_lets e1 _ e2 _
  have h1 : e1.Canon := h.zeroBytes
  have h2 : e2.Canon := { h1 with mem := { h1.mem with } }
  exact h2.withRegs (Tab.wf_puts _ h2.regs)

theorem Engine.Canon.bistBank {r : Engine × ℕ} {b : Nat} (h : r.1.Canon) : (bistBank r b).1.Canon := by
  unfold Machine.bistBank
  dsimp -zeta only
  extract_lets e3
  have h3 : e3.Canon := h.freeVal.clearBank.setReg.setReg
  split
  · exact h3.setReg
  · exact h3

theorem Engine.Canon.actRunBist {p : Packet} (h : e.Canon) : (actRunBist e p).Canon := by
  unfold Machine.actRunBist
  extract_lets banks
  dsimp -zeta only
  extract_lets e2
  have hb : (banks.foldl Machine.bistBank (e, 0)).1.Canon := canon_foldl (fun _ _ ha => ha.bistBank) h
  have h2 : e2.Canon := canon_ite hb.restoreTables hb
  exact .raise (canon_ite h2.histReset h2)

theorem Engine.Canon.actReleaseFreeze {p : Packet} (h : e.Canon) : (actReleaseFreeze e p).Canon := by
  unfold Machine.actReleaseFreeze
  extract_lets e1 _
  have h1 : e1.Canon := h.maskBit.maskBit
  exact { h1 with mem := { h1.mem with } }

theorem Engine.Canon.actWriteMem {p : Packet} (h : e.Canon) : (actWriteMem e p).Canon := by
  unfold Machine.actWriteMem
  dsimp -zeta only
  split
  · exact h.engWrite.freeVal.complete
  · exact h.engWrite.endAction

theorem Engine.Canon.actReadMem {p : Packet} (h : e.Canon) : (actReadMem e p).Canon := by
  unfold Machine.actReadMem
  dsimp -zeta only
  split
  · exact h.engRead.freeVal.complete
  · exact h.engRead.post.complete

theorem Engine.Canon.actInjectError {p : Packet} (h : e.Canon) : (actInjectError e p).Canon :=
  { h with mem := { h.mem with ecc := Tab.wf_set h.mem.ecc _ _} }

theorem Engine.Canon.execSetWindow {p : Packet} (h : s.eng.Canon) : Keeps (execSetWindow p s) := by
  unfold Machine.execSetWindow
  extract_lets e1
  have h1 : e1.Canon := h.runAction fun _ _ ha => ha.laterAll
  exact keeps_next h1

theorem Engine.Canon.execRunBist {p : Packet} (h : s.eng.Canon) : Keeps (execRunBist p s) :=
  keeps_next (h.runAction fun _ _ ha => ha.actRunBist)

theorem Engine.Canon.execSetCapstream {p : Packet} (h : s.eng.Canon) : Keeps (execSetCapstream p s) := keeps_next h.runConfig

theorem Engine.Canon.execReleaseFreeze {p : Packet} (h : s.eng.Canon) : Keeps (execReleaseFreeze p s) :=
  keeps_next (h.runAction fun _ _ ha => ha.actReleaseFreeze)

theorem Engine.Canon.execSetLogsize {p : Packet} (h : s.eng.Canon) : Keeps (execSetLogsize p s) := keeps_next h.runConfig

theorem Engine.Canon.execReadMem {p : Packet} (h : s.eng.Canon) : Keeps (execReadMem p s) :=
  keeps_next (h.runAsync fun _ _ ha => ha.actReadMem)

theorem Engine.Canon.execWriteMem {p : Packet} (h : s.eng.Canon) : Keeps (execWriteMem p s) :=
  keeps_next (h.runAsync fun _ _ ha => ha.actWriteMem)

theorem Engine.Canon.execInjectError {p : Packet} (h : s.eng.Canon) : Keeps (execInjectError p s) :=
  keeps_next (h.runAction fun _ _ ha => ha.actInjectError)

/-! ### DMA movers -/

theorem Engine.Canon.putChan {n : Nat} {c : Chan} (h : e.Canon) : (e.putChan n c).Canon := { h with }

theorem Engine.Canon.dmaRead {n space a len : Nat} (h : e.Canon) : (dmaRead e n space a len).1.Canon := by
  unfold Machine.dmaRead
  split
  · extract_lets
    split
    · exact h
    · exact h.putChan
  · dsimp -zeta only
    exact h.engRead

theorem Engine.Canon.dmaWrite {space a : Nat} {bs : List Byte} (h : e.Canon) : (dmaWrite e space a bs).1.Canon := by
  unfold Machine.dmaWrite
  split
  · exact h.post
  · exact h.engWrite

theorem Engine.Canon.setCur {n space a : Nat} (h : e.Canon) : (setCur e n space a).Canon := h.withRegs (Tab.wf_puts _ h.regs)

theorem Engine.Canon.writeBack {n code resid : Nat} (h : e.Canon) : (writeBack e n code resid).1.Canon := by
  unfold Machine.writeBack
  extract_lets
  split
  · exact h
  · dsimp -zeta only
    exact h.dmaWrite.putChan

theorem Engine.Canon.freeMover {n : Nat} (h : e.Canon) : (freeMover e n).Canon := { h with }

theorem Engine.Canon.chainEnd {n code resid : Nat} (h : e.Canon) : (chainEnd e n code resid).Canon := by
  unfold Machine.chainEnd
  extract_lets _ _ e1 _
  have h1 : e1.Canon := h.freeMover.putChan
  exact (h1.withRegs (Tab.wf_puts _ h1.regs)).foldl fun _ _ ha => ha.completeAt

theorem Engine.Canon.dmaDone {n : Nat} (h : e.Canon) : (dmaDone e n).Canon := h.raise

theorem Engine.Canon.chainFault {n : Nat} {st : Status} {side : Nat} (h : e.Canon) : (chainFault e n st side).Canon := by
  unfold Machine.chainFault
  extract_lets _ _ e1
  have h1 : e1.Canon := canon_ite h h.writeBack
  exact h1.chainEnd.setReg.raise

theorem Engine.Canon.chainStart {n : Nat} (h : e.Canon) : (chainStart e n).Canon := by
  unfold Machine.chainStart
  extract_lets _ _ _ e1
  have h1 : e1.Canon := h.setCur.putChan
  exact h1.setReg

theorem Engine.Canon.dmaHeadWrite {n v : Nat} (h : e.Canon) : (dmaHeadWrite e n v).Canon := by
  unfold Machine.dmaHeadWrite
  extract_lets _ e1 _ _
  have h1 : e1.Canon := h.putChan
  exact h1.withRegs (Tab.wf_puts _ h1.regs)

theorem Engine.Canon.dmaNextWrite {n v : Nat} (h : e.Canon) : (dmaNextWrite e n v).Canon := by
  unfold Machine.dmaNextWrite
  extract_lets _ e1 _ _
  have h1 : e1.Canon := h.putChan
  exact h1.withRegs (Tab.wf_puts _ h1.regs)

theorem Engine.Canon.dmaHoldHead {n v : Nat} (h : e.Canon) : (dmaHoldHead e n v).Canon := h.putChan

theorem Engine.Canon.dmaHoldNext {n v : Nat} (h : e.Canon) : (dmaHoldNext e n v).Canon := h.putChan

theorem Engine.Canon.dmaGo {n : Nat} (h : e.Canon) : (dmaGo e n).Canon := by
  unfold Machine.dmaGo
  split
  · exact h.bump
  · exact h.chainStart

theorem Engine.Canon.hostData {n : Nat} {host : Option (List Byte)} (h : e.Canon) : (hostData e n host).Canon := by
  unfold Machine.hostData
  extract_lets
  split
  · exact h
  · split
    · exact h.putChan
    · exact h.putChan

theorem Engine.Canon.beatDone {n k : Nat} (h : e.Canon) : (beatDone e n k).Canon := h.bumpBy.putChan

theorem Engine.Canon.beatCompare {n pos : Nat} {src dst : List Byte} (h : e.Canon) : (beatCompare e n pos src dst).Canon := by
  unfold Machine.beatCompare
  split
  · exact h.beatDone
  · extract_lets e1 _ e2
    have h1 : e1.Canon := h.beatDone
    have h2 : e2.Canon := h1.putChan
    exact h2.setReg.raiseBit

theorem Engine.Canon.beatMove {n len : Nat} (h : e.Canon) : (beatMove e n len).Canon := by
  unfold Machine.beatMove
  extract_lets c d
  dsimp -zeta only
  generalize hr : (if dReads d then Machine.dmaRead e n (dSpace d 0) (dAddr d 0 c.pos) len
    else (e, some ((List.range len).map fun i => d.getD (i % 8) 0))) = r
  have h1 : r.1.Canon := hr ▸ fst_ite h.dmaRead h
  split
  · exact h1.chainFault
  · split
    · split
      · exact h1.dmaRead.chainFault
      · exact h1.dmaRead.beatCompare
    · extract_lets e3
      have h3 : e3.Canon := h1.dmaWrite.beatDone
      exact canon_ite h3.chainFault h3

theorem Engine.Canon.burstEnded {n : Nat} (h : e.Canon) : (burstEnded e n).Canon := by
  unfold Machine.burstEnded
  extract_lets e1
  have h1 : e1.Canon := h.freeMover
  split
  · exact h1.chainFault
  · exact h1

theorem Engine.Canon.beat {n : Nat} (h : e.Canon) : (beat e n).Canon := by
  unfold Machine.beat
  extract_lets _ _ bad _ e1 e2 _
  have h1 : e1.Canon := .putChan { h with }
  have h2 : e2.Canon := h1.beatMove
  cases bad with
  | some x => exact .chainFault { h with }
  | none => exact canon_ite h2 h2.burstEnded

theorem Engine.Canon.fetchDesc {n : Nat} (h : e.Canon) : (fetchDesc e n).Canon := by
  unfold Machine.fetchDesc
  extract_lets
  split
  · exact h.chainFault
  · split
    · exact h.chainFault
    · split
      · exact h
      · dsimp -zeta only
        split
        · exact h.dmaRead.chainFault
        · extract_lets _ e2
          have h2 : e2.Canon := h.dmaRead.putChan
          split
          · exact h2.chainFault
          · exact h2

theorem Engine.Canon.execDmaBurst {ch : Nat} {host : Option (List Byte)} (h : s.eng.Canon) : Keeps (execDmaBurst ch host s) := by
  unfold Machine.execDmaBurst
  split
  · exact keeps_next h
  · extract_lets e
    have he : e.Canon := h.hostData
    split
    · exact keeps_next he.fetchDesc
    · split
      · exact keeps_next he
      · exact keeps_next he.beat

theorem Engine.Canon.handOver {n : Nat} {d : List Byte} (h : e.Canon) : (handOver e n d).1.Canon := by
  unfold Machine.handOver
  split
  · exact h.setReg
  · split
    · exact h
    · exact h

theorem Engine.Canon.markLate {n : Nat} (h : e.Canon) : (markLate e n).Canon := h.putChan.raiseBit

theorem Engine.Canon.endWrite {n : Nat} (h : e.Canon) : (endWrite e n).1.Canon := by
  unfold Machine.endWrite
  extract_lets
  split
  · exact h.writeBack
  · exact h

theorem Engine.Canon.descEnd {n : Nat} {contend : Bool} (h : e.Canon) : (descEnd e n contend).Canon := by
  unfold Machine.descEnd
  extract_lets
  have hw : (Machine.endWrite e n).1.Canon := h.endWrite
  split
  · rename_i he
    rw [he] at hw
    exact hw.chainFault
  rename_i e1 he
  rw [he] at hw
  split
  · exact hw.chainEnd.dmaDone
  extract_lets e2
  have h2 : e2.Canon := Engine.Canon.bump hw
  dsimp -zeta only
  extract_lets e4 e5 _
  have h4 : e4.Canon := canon_ite h2.handOver.markLate h2.handOver
  have h5 : e5.Canon := canon_ite h4.dmaDone h4
  split
  · exact h4.chainEnd.dmaDone
  · exact h5.setCur.putChan

theorem Engine.Canon.execDescriptorEnd {ch : Nat} {contend : Bool} (h : s.eng.Canon) : Keeps (execDescriptorEnd ch contend s) := by
  unfold Machine.execDescriptorEnd
  extract_lets
  split
  · exact keeps_next h.descEnd
  · exact keeps_next h

theorem Engine.Canon.finishBurst {k n : Nat} (h : e.Canon) : (finishBurst k e n).Canon := by
  induction k generalizing e with
  | zero => exact h
  | succ k ih => exact canon_ite (ih h.beat) h

theorem Engine.Canon.chainAbort {n : Nat} (h : e.Canon) : (chainAbort e n).Canon := by
  unfold Machine.chainAbort
  extract_lets e1 _
  have h1 : e1.Canon := h.finishBurst
  split
  · exact h1
  · split
    · exact h1.putChan
    · exact h1.chainFault

theorem Engine.Canon.chainStop {n : Nat} (h : e.Canon) : (chainStop e n).Canon := by
  unfold Machine.chainStop
  extract_lets e1
  have h1 : e1.Canon := h.finishBurst
  split
  · exact h1.chainFault
  · exact h1

theorem Engine.Canon.abortChains (h : e.Canon) : (abortChains e).Canon := h.foldl fun _ _ ha => ha.chainStop

theorem Engine.Canon.dmaCtl {n : Nat} {go abort : Bool} (h : e.Canon) : (dmaCtl e n go abort).Canon := by
  unfold Machine.dmaCtl
  split
  · exact h.bump
  · extract_lets e1
    have h1 : e1.Canon := canon_ite h.dmaGo h
    split
    · exact h1.chainAbort
    · exact h1

theorem Engine.Canon.execDmaCtlGo {ch : Nat} (h : s.eng.Canon) : Keeps (execDmaCtlGo ch s) := by
  unfold Machine.execDmaCtlGo
  split
  · exact keeps_next h
  · exact keeps_next h.dmaGo

theorem Engine.Canon.execDmaCtlAbort {ch : Nat} (h : s.eng.Canon) : Keeps (execDmaCtlAbort ch s) := by
  unfold Machine.execDmaCtlAbort
  split
  · exact keeps_next h
  · exact keeps_next h.chainAbort

theorem Engine.Canon.execDmaNextLoWrite {ch val : Nat} (h : s.eng.Canon) : Keeps (execDmaNextLoWrite ch val s) := by
  unfold Machine.execDmaNextLoWrite
  split
  · exact keeps_next h
  · exact keeps_next h.dmaNextWrite

theorem Engine.Canon.actStart {p : Packet} (h : e.Canon) : (actStart e p).Canon := h.dmaHoldHead.dmaHeadWrite.chainStart

theorem Engine.Canon.rawChannel {p : Packet} {i : Nat} (h : e.Canon) : (rawChannel p e i).Canon := h.setReg.dmaHoldHead.dmaHeadWrite

theorem Engine.Canon.execDmaSetChannel {p : Packet} (h : s.eng.Canon) : Keeps (execDmaSetChannel p s) :=
  keeps_next (h.runAction fun _ _ ha => ha.setReg)

theorem Engine.Canon.execStart {p : Packet} (h : s.eng.Canon) : Keeps (execStart p s) :=
  keeps_next (h.runAction fun _ _ ha => ha.actStart)

theorem Engine.Canon.execSetNext {p : Packet} (h : s.eng.Canon) : Keeps (execSetNext p s) := by
  unfold Machine.execSetNext
  extract_lets e1
  have h1 : e1.Canon := h.runAction fun _ _ ha => ha.dmaHoldNext.dmaNextWrite
  exact keeps_next h1

theorem Engine.Canon.actDmaAbort {p : Packet} (h : e.Canon) : (actDmaAbort e p).Canon := by
  unfold Machine.actDmaAbort
  extract_lets _ e1 _
  have h1 : e1.Canon := h.chainAbort
  split
  · exact h1.putChan
  · exact h1.complete

theorem Engine.Canon.execDmaAbort {p : Packet} (h : s.eng.Canon) : Keeps (execDmaAbort p s) :=
  keeps_next (h.runAsync fun _ _ ha => ha.actDmaAbort)

theorem Engine.Canon.execSetArb {p : Packet} (h : s.eng.Canon) : Keeps (execSetArb p s) :=
  keeps_next (h.runAction fun _ _ ha => ha.setReg)

theorem Engine.Canon.execRawChannels {p : Packet} (h : s.eng.Canon) : Keeps (execRawChannels p s) :=
  keeps_next (h.runAction fun _ _ ha => ha.foldl fun _ _ hb => hb.rawChannel)

/-! ### Blitters -/

theorem Engine.Canon.putBlt {b : Nat} {x : Blt} (h : e.Canon) : (e.putBlt b x).Canon := { h with }

theorem Engine.Canon.bltComplete {b : Nat} {st : Status} (h : e.Canon) : (bltComplete e b st).Canon := by
  unfold Machine.bltComplete
  split
  · exact h.completeAt
  · exact h

theorem Engine.Canon.bltEnd {b : Nat} {st : Status} (h : e.Canon) : (bltEnd e b st).Canon := by
  unfold Machine.bltEnd
  extract_lets e1 _
  have h1 : e1.Canon := h.bltComplete.putBlt
  exact h1.withRegs (Tab.wf_puts _ h1.regs)

theorem Engine.Canon.bltFault {b : Nat} {st : Status} (h : e.Canon) : (bltFault e b st).Canon := (h.withRegs (Tab.wf_puts _ h.regs)).raise

theorem Engine.Canon.bltDone {b : Nat} (h : e.Canon) : (bltDone e b).Canon := h.bltEnd.bump.raise

theorem Engine.Canon.bltStop {b : Nat} {st : Status} (h : e.Canon) : (bltStop e b st).Canon := h.bltEnd.bltFault

theorem Engine.Canon.bltAbort {b : Nat} (h : e.Canon) : (bltAbort e b).Canon := by
  unfold Machine.bltAbort
  split
  · exact h.bltStop
  · exact h

theorem Engine.Canon.abortBlits (h : e.Canon) : (abortBlits e).Canon := h.bltAbort.bltAbort

theorem Engine.Canon.bltStart {b : Nat} {g : List Nat} {cmd : Option (Nat × Nat × Bool)} (h : e.Canon) : (bltStart e b g cmd).Canon :=
  (h.withRegs (Tab.wf_puts _ h.regs)).putBlt

/-- The definition is unfolded as a function: compared with its value at `e` and `b`, the kernel would evaluate `bltBad`. -/
theorem Engine.Canon.bltTry {b : Nat} (h : e.Canon) : (bltTry e b).Canon := by
  generalize hf : Machine.bltTry = f
  delta Machine.bltTry at hf
  subst hf
  beta_reduce
  cases bltBad e b (bltImage e b) with
  | some st => exact h.bltFault
  | none => exact h.bltStart

theorem Engine.Canon.bltGo {b : Nat} (h : e.Canon) : (bltGo e b).Canon := by
  unfold Machine.bltGo
  split
  · exact h.bump
  · exact h.bltTry

theorem Engine.Canon.bltCtl {b : Nat} {go abort : Bool} (h : e.Canon) : (bltCtl e b go abort).Canon := by
  unfold Machine.bltCtl
  extract_lets e1
  have h1 : e1.Canon := canon_ite h.bltGo h
  split
  · exact h1.bltAbort
  · exact h1

theorem Engine.Canon.readElem {used : Bool} {a es : Nat} (h : e.Canon) : (readElem e used a es).1.Canon := by
  unfold Machine.readElem
  split
  · dsimp -zeta only
    exact h.engRead
  · exact h

theorem Engine.Canon.burstData {x : Blt} {cols : List Nat} {y : Nat} (h : e.Canon) : (burstData e x cols y).1.Canon :=
  canon_foldl (fun _ _ ha => ha.readElem.readElem) h

theorem Engine.Canon.burstWrite {es : Nat} {out : List (Nat × Nat)} (h : e.Canon) : (burstWrite e es out).1.Canon :=
  canon_foldl (fun _ _ ha => fst_ite ha ha.engWrite) h

theorem Engine.Canon.burstRun {b : Nat} {x : Blt} {cols : List Nat} {y : Nat} (h : e.Canon) : (burstRun e b x cols y).Canon := by
  unfold Machine.burstRun
  dsimp -zeta only
  have h1 : (Machine.burstData e x cols y).1.Canon := h.burstData
  generalize Machine.burstData e x cols y = r at h1 ⊢
  generalize hr : (if r.2.2 then (r.1, true) else Machine.burstWrite r.1 (esz x.img) r.2.1) = r2
  have h2 : r2.1.Canon := hr ▸ fst_ite h1 h1.burstWrite
  refine canon_ite h2.freeVal.bltStop (canon_ite h2.putBlt ?_)
  extract_lets e3
  have h3 : e3.Canon := h2.putBlt.setReg
  exact canon_ite h3 h3.bltDone

theorem Engine.Canon.execBltBurst {b : Nat} (h : s.eng.Canon) : Keeps (execBltBurst b s) := by
  unfold Machine.execBltBurst
  extract_lets
  split
  · split
    · exact keeps_next h.bltStop
    · exact keeps_next h.burstRun
  · exact keeps_next h

theorem Engine.Canon.execBltCtlGo {b : Nat} (h : s.eng.Canon) : Keeps (execBltCtlGo b s) := by
  unfold Machine.execBltCtlGo
  split
  · exact keeps_next h.bltGo
  · exact keeps_next h

theorem Engine.Canon.execBltCtlAbort {b : Nat} (h : s.eng.Canon) : Keeps (execBltCtlAbort b s) := by
  unfold Machine.execBltCtlAbort
  split
  · exact keeps_next h.bltAbort
  · exact keeps_next h

theorem Engine.Canon.actBlit {p : Packet} (h : e.Canon) : (actBlit e p).Canon := by
  unfold Machine.actBlit
  extract_lets _ _ e1
  have h1 : e1.Canon := h.withRegs (Tab.wf_puts _ (Tab.wf_puts _ h.regs))
  split
  · exact h1.bltStart
  · exact h1.complete

theorem Engine.Canon.execBlit {p : Packet} (h : s.eng.Canon) : Keeps (execBlit p s) := keeps_next (h.runAsync fun _ _ ha => ha.actBlit)

theorem Engine.Canon.execSetGap {p : Packet} (h : s.eng.Canon) : Keeps (execSetGap p s) :=
  keeps_next (h.runAction fun _ _ ha => ha.setReg)

theorem Engine.Canon.execBltAbort {p : Packet} (h : s.eng.Canon) : Keeps (execBltAbort p s) :=
  keeps_next (h.runAction fun _ _ ha => ha.bltAbort)

/-! ### Rings and resources -/

theorem Engine.Canon.setCtrl {typ : Nat} (h : e.Canon) : (setCtrl e typ).Canon := by
  unfold Machine.setCtrl
  extract_lets
  split
  · exact { h with host := { h.host with } }
  · exact { h with host := { h.host with } }
  · split
    · exact h.putRing
    · exact { h with host := { h.host with } }

theorem Engine.Canon.hostEnabled (h : e.Canon) : (hostEnabled e).Canon := h.setCtrl.setCtrl.flushHeld

theorem Engine.Canon.ptmShow (h : e.Canon) : (ptmShow e).Canon := h.setReg

theorem Engine.Canon.hostWritten {old : Engine} (h : e.Canon) : (hostWritten old e).Canon := by
  unfold Machine.hostWritten
  extract_lets e1
  have h1 : e1.Canon := canon_ite h.hostEnabled h
  exact canon_ite h1 h1.ptmShow

theorem Engine.Canon.ringFault {r : Ring} (h : e.Canon) : (ringFault e r).Canon := by
  unfold Machine.ringFault
  extract_lets e1 e2
  have h1 : e1.Canon := h.putRing
  have h2 : e2.Canon := canon_ite h1.setReg h1
  exact h2.raiseBit.raise

theorem Engine.Canon.ringBell {r : Ring} {v : Nat} (h : e.Canon) : (ringBell e r v).Canon := by
  unfold Machine.ringBell
  split
  · exact h
  · split
    · split
      · exact h.ringFault
      · exact h.putRing
    · split
      · exact h.ringFault
      · exact h.putRing.flushHeld

theorem Engine.Canon.doorbell {off size val : Nat} (h : e.Canon) : (doorbell off size val e).Canon := by
  unfold Machine.doorbell
  split
  · exact h
  · split
    · exact h.bump
    · exact h.ringBell

theorem Engine.Canon.execDoorbellWrite {off size val : Nat} (h : s.eng.Canon) : Keeps (execDoorbellWrite off size val s) := by
  unfold Machine.execDoorbellWrite
  split
  · exact keeps_next h
  · exact keeps_next h.doorbell

theorem Engine.Canon.orphan {p : Nat → Nat → Bool} (h : e.Canon) : (orphan p e).Canon :=
  { h with host := h.host.mapPends rfl rfl (fun _ => rfl) }

theorem Engine.Canon.dropNotes {id : Nat} (h : e.Canon) : (dropNotes id e).Canon := by
  unfold Machine.dropNotes
  extract_lets routed
  exact (h.withRegs (Tab.wf_puts (routed.map fun s => (Reg.EVT_SNOTE_EN s, 0)) h.regs)).agree

theorem Engine.Canon.dropStream {id : Nat} (h : e.Canon) : (dropStream id e).Canon := by
  have hp : ∀ p ∈ (Machine.dropStream id e).host.pends, p.set.wf = true := fun p hp => by
    obtain ⟨q, hq, rfl⟩ := List.mem_map.mp hp
    exact Tab.wf_dropSetups _ (h.host.pends q hq)
  exact { h with
    active := Tab.wf_dropSetups _ h.active
    staged := Tab.wf_dropSetups _ h.staged
    host := { h.host with pends := hp } }

theorem Engine.Canon.removeRing {r : Ring} (h : e.Canon) : (removeRing e r).Canon := by
  unfold Machine.removeRing
  extract_lets e1 e2 _
  have h1 : e1.Canon := h.orphan
  have h2 : e2.Canon := canon_ite h1.dropStream.setupCounts (canon_ite h1.dropNotes h1)
  exact { h2 with host := { h2.host with } }

theorem Engine.Canon.stopRings {p : Nat → Bool} {c : Nat} (h : e.Canon) : (stopRings p c e).Canon := by
  unfold Machine.stopRings
  extract_lets _ _ e1
  have h1 : e1.Canon := { h with host := { h.host with } }
  exact h1.setReg.setReg

theorem Engine.Canon.resumeRings {p : Nat → Bool} (h : e.Canon) : (resumeRings p e).Canon := { h with host := { h.host with } }

theorem Engine.Canon.execHstStopCtx {ctx : Nat} (h : s.eng.Canon) : Keeps (execHstStopCtx ctx s) := keeps_next h.stopRings

theorem Engine.Canon.execHstStopAll (h : s.eng.Canon) : Keeps (execHstStopAll s) := keeps_next h.stopRings

theorem Engine.Canon.execHstResumeCtx {ctx : Nat} (h : s.eng.Canon) : Keeps (execHstResumeCtx ctx s) := keeps_next h.resumeRings

theorem Engine.Canon.execHstResumeAll (h : s.eng.Canon) : Keeps (execHstResumeAll s) := keeps_next h.resumeRings

theorem Engine.Canon.execStopDrainDone (h : s.eng.Canon) : Keeps (execStopDrainDone s) := by
  unfold Machine.execStopDrainDone
  extract_lets _ e0 _ e1
  have h0 : e0.Canon := h.linkDrain
  have h1 : e1.Canon := { h0 with host := { h0.host with } }
  split
  · exact keeps_next h
  · exact keeps_next h1.raiseBit.raise

/-! ### Keep bundles -/

theorem Engine.Canon.installBundle {o : List Byte} (h : e.Canon) : (installBundle e o).Canon := by
  unfold Machine.installBundle
  split
  · exact h
  · rename_i ss _
    extract_lets act _ e1 _ e2
    have ha : act.wf = true := Tab.wf_puts _ (Tab.wf_clearMasks (Tab.wf_putBundle h.active _) _)
    have h1 : e1.Canon := (h.withTables ha (Tab.wf_putBundle h.staged ss)).agree
    have h2 : e2.Canon := canon_ite h1.raiseBit.raise h1
    exact h2.setReg.setReg.mapStatus.raise.keepCauses

theorem Engine.Canon.removeBundle (h : e.Canon) : (removeBundle e).Canon := by
  unfold Machine.removeBundle
  extract_lets _ _ e1
  have h1 : e1.Canon := { h with active := Tab.wf_clearMasks (Tab.wf_dropBundle h.active) _, staged := Tab.wf_dropBundle h.staged }
  exact h1.setReg.mapStatus.keepCauses

theorem Engine.Canon.installBits {o : List Byte} (h : e.Canon) : (installBits e o).Canon := by
  unfold Machine.installBits
  extract_lets _ _ _ e1
  have h1 : e1.Canon := { h with regs := Tab.wf_puts _ h.regs }
  exact h1.raise.raise

theorem Engine.Canon.removeBits (h : e.Canon) : (removeBits e).Canon := { h with regs := Tab.wf_puts _ h.regs }

/-! ### Security -/

theorem Engine.Canon.recordVerify {o : List Byte} {cause : Nat} (h : e.Canon) : (recordVerify e o cause).Canon := by
  unfold Machine.recordVerify
  extract_lets _ e1
  have h1 : e1.Canon := h.withRegs (Tab.wf_puts _ h.regs)
  split
  · exact h1
  · exact h1.bump.raise

theorem Engine.Canon.putSlot {x : Nat} {o : List Byte} {valid : Bool} (h : e.Canon) : (putSlot e x o valid).Canon := .maskBit { h with }

theorem Engine.Canon.showSlot {x : Nat} (h : e.Canon) : (showSlot e x).Canon := by
  unfold Machine.showSlot
  extract_lets
  split
  · exact h.setReg.setReg
  · exact h.setReg.setReg

theorem Engine.Canon.endTrial (h : e.Canon) : (endTrial e).Canon := h.setReg.setReg

theorem Engine.Canon.runSlot {sel : Nat} (h : e.Canon) : (runSlot e sel).Canon := h.withRegs (Tab.wf_puts _ h.regs)

theorem Engine.Canon.showSlots (h : e.Canon) : (showSlots e).Canon := h.foldl fun _ _ ha => canon_ite ha.maskBit.showSlot ha.maskBit

theorem Engine.Canon.bootRom (h : e.Canon) : (bootRom e).1.Canon := by
  unfold Machine.bootRom
  extract_lets e0 _ _ e1 _ e2 e2'
  have h0 : e0.Canon := h.showSlots
  have h1 : e1.Canon := canon_ite h0.maskBit.setReg.endTrial (canon_ite h0.setReg h0)
  have h2 : e2.Canon := h1.runSlot
  have h2' : e2'.Canon := canon_ite h1.maskBit.setReg.endTrial h1
  split
  · dsimp only
    exact canon_ite h2.raise h2
  · split
    · dsimp only
      exact h2'.runSlot.raise
    · exact h1

theorem Engine.Canon.putXfers {xs : List Xfer} (h : e.Canon) : (putXfers e xs).Canon := .setReg { h with }

theorem Engine.Canon.closeXfer {op : Nat} (h : e.Canon) : (closeXfer e op).Canon := h.putXfers

theorem Engine.Canon.takePacket {op : Nat} {p : Packet} (h : e.Canon) : (takePacket op e p).Canon := by
  unfold Machine.takePacket
  extract_lets _ e0 _ _ e1 _ e2 _
  have h0 : e0.Canon := canon_ite h.closeXfer h
  have h1 : e1.Canon := canon_ite h0.putSlot h0
  have h2 : e2.Canon := h1.putXfers
  split
  · exact h0.closeXfer.complete
  · split
    · exact { h2 with }
    · exact h1.putXfers.complete

theorem Engine.Canon.runXfer {f : Fn} {extra : Engine → Packet → Option Status} {p : Packet} (h : e.Canon) : (runXfer f extra p e).Canon :=
  h.runAsync fun _ _ ha => ha.takePacket

theorem Engine.Canon.pendObject {p : Packet} {blocks : List Nat} {object : Nat} {g : Engine} (h : e.Canon)
    (hg : pendObject e p blocks object = .inr g) : g.Canon := by
  unfold Machine.pendObject at hg
  split at hg
  · cases hg
  split at hg
  · cases hg
  cases hg
  exact { h with host := h.host.addPend Tab.wf_nil rfl rfl }

theorem Engine.Canon.acceptBundle {p : Packet} {o : List Byte} (h : e.Canon) : (acceptBundle e p o).Canon := by
  unfold Machine.acceptBundle
  split
  · exact h.complete
  · rename_i hg
    exact canon_ite h.complete (canon_ite h.holdCommit (Engine.Canon.journalSync { h.pendObject hg with }))

theorem Engine.Canon.acceptBits {p : Packet} {o : List Byte} (h : e.Canon) : (acceptBits e p o).Canon := by
  unfold Machine.acceptBits
  split
  · exact h.complete
  · split
    · exact h.complete
    · rename_i hg
      exact canon_ite h.holdCommit (.journalSync (.setReg { h.pendObject hg with }))

theorem Engine.Canon.acceptRepair {p : Packet} {o : List Byte} (h : e.Canon) : (acceptRepair e p o).Canon := by
  unfold Machine.acceptRepair
  extract_lets
  split
  · exact h.complete
  · split
    · exact h.complete
    · exact ((h.withRegs (Tab.wf_puts _ h.regs)).clearBank).complete

theorem Engine.Canon.acceptFirmware {p : Packet} {o : List Byte} (h : e.Canon) : (acceptFirmware e p o).Canon := by
  unfold Machine.acceptFirmware
  extract_lets _ e1 e2
  have h1 : e1.Canon := h.putSlot.maskBit.showSlot
  have h2 : e2.Canon := canon_ite h1.endTrial h1
  exact h2.raise.complete

theorem Engine.Canon.showOwner {state : Nat} {key : List Byte} (h : e.Canon) : (showOwner state key e).Canon := by
  unfold Machine.showOwner
  extract_lets _ ws
  exact (h.withRegs (Tab.wf_puts ws h.regs)).agree

theorem Engine.Canon.setOwner {key : List Byte} (h : e.Canon) : (setOwner e key).Canon := by
  unfold Machine.setOwner
  extract_lets e1
  have h1 : e1.Canon := h.showOwner
  split
  · exact h1
  · exact h1.raise

theorem Engine.Canon.restoreOwner {lost : Bool} (h : e.Canon) : (restoreOwner lost e).Canon := by
  unfold Machine.restoreOwner
  split
  · exact h.showOwner
  · exact h.showOwner

theorem Engine.Canon.acceptClaim {p : Packet} {o : List Byte} (h : e.Canon) : (acceptClaim e p o).Canon := by
  unfold Machine.acceptClaim
  split
  · exact h.complete
  · exact { h with }

theorem Engine.Canon.acceptReset {p : Packet} (h : e.Canon) : (acceptReset e p).Canon := by
  unfold Machine.acceptReset
  split
  · exact h.complete
  · exact h.setOwner.removeBundle.setReg.removeBits.journalSync.complete

theorem Engine.Canon.endVerify {v : Verif} (h : e.Canon) : (endVerify e v).Canon := by
  unfold Machine.endVerify
  extract_lets _ e1
  have h1 : e1.Canon := h.recordVerify
  split
  · exact h1.complete
  · split
    · exact h1.acceptFirmware
    · exact h1.acceptBundle
    · exact h1.acceptBits
    · exact h1.acceptRepair
    · exact h1.acceptClaim
    · exact h1.setOwner.journalSync.complete
    · exact h1.acceptReset

theorem Engine.Canon.execVerificationEnd (h : s.eng.Canon) : Keeps (execVerificationEnd s) := by
  unfold Machine.execVerificationEnd
  split
  · exact keeps_next h
  · exact keeps_next (.endVerify { h with })

theorem Engine.Canon.execTransferTimeout {op : Nat} (h : s.eng.Canon) : Keeps (execTransferTimeout op s) := by
  unfold Machine.execTransferTimeout
  split
  · exact keeps_next h.closeXfer.raise
  · exact keeps_next h

theorem Engine.Canon.startReport (h : e.Canon) : (startReport e).Canon := by
  unfold Machine.startReport
  split
  · exact h
  · split
    · exact { h with }
    · exact h

theorem Engine.Canon.execAttest {p : Packet} (h : s.eng.Canon) : Keeps (execAttest p s) := by
  unfold Machine.execAttest
  extract_lets e1
  have h1 : e1.Canon := h.runAsync fun _ _ ha => .startReport { ha with }
  exact keeps_next h1

theorem Engine.Canon.execAttestReportDone {ms : Nat} (h : s.eng.Canon) : Keeps (execAttestReportDone ms s) := by
  unfold Machine.execAttestReportDone
  split
  · exact keeps_next h
  · extract_lets _ _ e1 e2
    have h1 : e1.Canon := .post { h with }
    have h2 : e2.Canon := h1.bump.setReg
    exact keeps_next h2.completeAt.raise.startReport

theorem Engine.Canon.execGetCert {p : Packet} (h : s.eng.Canon) : Keeps (execGetCert p s) :=
  keeps_next (h.runAction fun _ _ ha => ha.post)

theorem Engine.Canon.execInstallBundle {p : Packet} (h : s.eng.Canon) : Keeps (execInstallBundle p s) := keeps_next h.runXfer

theorem Engine.Canon.execLoadBitstream {p : Packet} (h : s.eng.Canon) : Keeps (execLoadBitstream p s) := keeps_next h.runXfer

theorem Engine.Canon.execRepair {p : Packet} (h : s.eng.Canon) : Keeps (execRepair p s) := keeps_next h.runXfer

theorem Engine.Canon.execFwUpdate {p : Packet} (h : s.eng.Canon) : Keeps (execFwUpdate p s) := keeps_next h.runXfer

theorem Engine.Canon.execOwnerClaim {p : Packet} (h : s.eng.Canon) : Keeps (execOwnerClaim p s) := keeps_next h.runXfer

theorem Engine.Canon.execOwnerHandover {p : Packet} (h : s.eng.Canon) : Keeps (execOwnerHandover p s) := keeps_next h.runXfer

theorem Engine.Canon.execOwnerReset {p : Packet} (h : s.eng.Canon) : Keeps (execOwnerReset p s) := keeps_next h.runXfer

theorem Engine.Canon.execOwnerClaimConfirm (h : s.eng.Canon) : Keeps (execOwnerClaimConfirm s) := by
  unfold Machine.execOwnerClaimConfirm
  split
  · exact keeps_next h
  · extract_lets _ _ e1
    have h1 : e1.Canon := .journalSync (.setOwner { h with })
    exact keeps_next h1.completeAt

theorem Engine.Canon.execOwnerClaimTimeout (h : s.eng.Canon) : Keeps (execOwnerClaimTimeout s) := by
  unfold Machine.execOwnerClaimTimeout
  split
  · exact keeps_next h
  · extract_lets _ _ e1
    have h1 : e1.Canon := { h with }
    exact keeps_next h1.completeAt

theorem Engine.Canon.actRaiseFloor {x : Packet} (h : e.Canon) : (actRaiseFloor e x).Canon := by
  unfold Machine.actRaiseFloor
  extract_lets _ _ _ e1
  have h1 : e1.Canon := h.setReg
  exact .raise (canon_ite h1.maskBit h1)

theorem Engine.Canon.execFwActivate {p : Packet} (h : s.eng.Canon) : Keeps (execFwActivate p s) := by
  unfold Machine.execFwActivate
  extract_lets e1
  have h1 : e1.Canon := h.runAction fun _ _ ha => ha.setReg.setReg.setReg
  exact keeps_next h1

theorem Engine.Canon.execFwConfirm {p : Packet} (h : s.eng.Canon) : Keeps (execFwConfirm p s) :=
  keeps_next (h.runAction fun _ _ ha => ha.endTrial)

theorem Engine.Canon.execRaiseFloor {p : Packet} (h : s.eng.Canon) : Keeps (execRaiseFloor p s) :=
  keeps_next (h.runAction fun _ _ ha => ha.actRaiseFloor)

/-! ### The tandem pair -/

theorem Engine.Canon.permitNow {k : Nat} {take : Bool} (h : e.Canon) : (permitNow e k take).Canon := by
  unfold Machine.permitNow
  extract_lets e1 e2 e3
  have h1 : e1.Canon := h.setReg
  have h2 : e2.Canon := canon_ite h1.bump h1
  have h3 : e3.Canon := h2.setReg
  exact h3.raise

theorem Engine.Canon.permitStep {k : Nat} {take : Bool} (h : e.Canon) : (permitStep e k take).Canon := by
  unfold Machine.permitStep
  extract_lets _ e1
  have h1 : e1.Canon := { h with }
  split
  · exact h1.permitNow
  · exact h1

theorem Engine.Canon.permitTick (h : e.Canon) : (permitTick e).Canon := by
  unfold Machine.permitTick
  split
  · split
    · exact h
    · exact h.permitNow
  · exact h

theorem Engine.Canon.tdmArm {k : Nat} (h : e.Canon) : (tdmArm e k).Canon := by
  unfold Machine.tdmArm
  extract_lets _ e1
  have h1 : e1.Canon := { h with }
  split
  · exact h1.permitStep
  · exact h1

theorem Engine.Canon.switchAbort (h : e.Canon) : (switchAbort e).Canon := by
  unfold Machine.switchAbort
  split
  · exact .completeAt { h with }
  · exact h

theorem Engine.Canon.tdmDisarm {k : Nat} (h : e.Canon) : (tdmDisarm e k).Canon := by
  unfold Machine.tdmDisarm
  extract_lets _ e1
  have h1 : e1.Canon := .switchAbort { h with }
  split
  · exact h1.permitNow
  · exact h1

theorem Engine.Canon.setLink {l : Nat} (h : e.Canon) : (setLink e l).Canon := by
  unfold Machine.setLink
  extract_lets _ e1 e2
  have h1 : e1.Canon := h.setReg
  have h2 : e2.Canon := canon_ite h1 h1.setReg
  split
  · exact h2.raise
  · split
    · exact h2.raise
    · exact h2

theorem Engine.Canon.tdmDown (h : e.Canon) : (tdmDown e).Canon := by
  unfold Machine.tdmDown
  extract_lets e1 _
  have h1 : e1.Canon := h.setReg.setLink
  exact { h1 with }

theorem Engine.Canon.tdmUnlock (h : e.Canon) : (tdmUnlock e).Canon := by
  unfold Machine.tdmUnlock
  extract_lets e1 _
  have h1 : e1.Canon := canon_ite h.setLink h
  exact { h1 with }

theorem Engine.Canon.switchRx {flags swk : Nat} (h : e.Canon) : (switchRx e flags swk).Canon := by
  unfold Machine.switchRx
  split
  · exact { h with }
  · split
    · split
      · exact { h with }
      · exact h
    · extract_lets
      split
      · exact h
      · exact .permitStep { h with }

theorem Engine.Canon.roleRx {flags : Nat} (h : e.Canon) : (roleRx e flags).Canon := by
  unfold Machine.roleRx
  extract_lets _ _ e1
  have h1 : e1.Canon := h.setReg
  split
  · exact h1.raise
  · exact h1

theorem Engine.Canon.linkEnter {flags : Nat} (h : e.Canon) : (linkEnter e flags).Canon := by
  unfold Machine.linkEnter
  extract_lets e1 e2
  have h1 : e1.Canon := h.setLink
  have h2 : e2.Canon := h1.raise
  split
  · split
    · exact h2.permitStep
    · exact h2
  · exact h1

theorem Engine.Canon.partnerRx {w owd : Nat} (h : e.Canon) : (partnerRx e w owd).Canon := by
  unfold Machine.partnerRx
  extract_lets _ _ _ _ _ _ _ _ _ _ _ _ e1 e2 _ e3
  have h1 : e1.Canon := { h with regs := Tab.wf_puts _ h.regs }
  have h2 : e2.Canon := canon_ite h1.raise h1
  have h3 : e3.Canon := canon_ite h2.setLink (canon_ite h2.linkEnter h2)
  exact h3.switchRx.roleRx

theorem Engine.Canon.execTandemFrameReceive {lanes : List (Option Nat)} {owd : Nat} (h : s.eng.Canon) :
    Keeps (execTandemFrameReceive lanes owd s) := by
  unfold Machine.execTandemFrameReceive
  extract_lets _ _ _ _ _ e1 e2
  have h1 : e1.Canon := (h.withRegs (Tab.wf_puts _ h.regs)).bumpBy
  have h2 : e2.Canon := canon_ite h1.setLink h1
  split
  · exact keeps_next h
  · split
    · exact keeps_next h1.tdmDown
    · split
      · exact keeps_next h2.partnerRx
      · exact keeps_next h2

theorem Engine.Canon.tdmSend (h : e.Canon) : (tdmSend e).Canon := { h with }

theorem Engine.Canon.mismatch {f : Frame} (h : e.Canon) : (mismatch e f).Canon := by
  unfold Machine.mismatch
  extract_lets _ _ e1 e2 _ _ e3 e4
  have h1 : e1.Canon := ((h.withRegs (Tab.wf_puts _ h.regs)).bump).raise
  have h2 : e2.Canon := h1.raiseBit
  have h3 : e3.Canon := { h2 with }
  have h4 : e4.Canon := h3.raiseBit.raise
  split
  · exact h1
  · split
    · split
      · split
        · exact h4.permitStep
        · exact h4
      · exact h3
    · exact h2

theorem Engine.Canon.takeover {failed : Bool} (h : e.Canon) : (takeover e failed).Canon := by
  unfold Machine.takeover
  split
  · extract_lets _ _ e1
    have h1 : e1.Canon := { h with }
    split
    · exact h1.permitStep
    · exact h1
  · exact h

theorem Engine.Canon.tdmCompare (h : e.Canon) : (tdmCompare e).Canon := by
  unfold Machine.tdmCompare
  extract_lets
  split
  · exact h
  · split
    · extract_lets e1
      have h1 : e1.Canon := canon_ite h h.mismatch
      exact h1.takeover
    · exact h.bump.raise.takeover

theorem Engine.Canon.switchTick (h : e.Canon) : (switchTick e).Canon := by
  unfold Machine.switchTick
  split
  · split
    · exact h
    · split
      · extract_lets _ _ e1
        have h1 : e1.Canon := .raise (.permitStep { h with })
        exact h1.completeAt
      · exact h.switchAbort
  · exact h

theorem Engine.Canon.tdmSilence (h : e.Canon) : (tdmSilence e).Canon := by
  unfold Machine.tdmSilence
  extract_lets _ _ e1
  have h1 : e1.Canon := { h with }
  split
  · exact h1.setLink
  · exact h1

theorem Engine.Canon.tdmTick (h : e.Canon) : (tdmTick e).Canon := by
  unfold Machine.tdmTick
  split
  · exact h.tdmSilence.switchTick.permitTick.tdmCompare.tdmSend
  · exact h

theorem Engine.Canon.tdmCommitted (h : e.Canon) : (tdmCommitted e).Canon := by
  unfold Machine.tdmCommitted
  split
  · exact h.tdmDown
  · exact h

theorem Engine.Canon.actSwitch {p : Packet} (h : e.Canon) : (actSwitch e p).Canon := by
  unfold Machine.actSwitch
  split
  · exact h.complete
  · exact h.complete
  · exact { h with }

theorem Engine.Canon.execSetRole {p : Packet} (h : s.eng.Canon) : Keeps (execSetRole p s) := keeps_next h.runConfig

theorem Engine.Canon.execSwitchPermit {p : Packet} (h : s.eng.Canon) : Keeps (execSwitchPermit p s) :=
  keeps_next (h.runAsync fun _ _ ha => ha.actSwitch)

theorem Engine.Canon.execClearDemote {p : Packet} (h : s.eng.Canon) : Keeps (execClearDemote p s) := by
  unfold Machine.execClearDemote
  extract_lets e1
  have h1 : e1.Canon := h.runAction fun _ _ ha => .setReg { ha with }
  exact keeps_next h1

theorem Engine.Canon.execRawLink {p : Packet} (h : s.eng.Canon) : Keeps (execRawLink p s) :=
  keeps_next (h.runAction fun _ _ ha => ha.laterAll)

/-! ### Power -/

theorem Engine.Canon.outputsFollow (h : e.Canon) : (outputsFollow e).Canon := by
  unfold Machine.outputsFollow
  extract_lets e1 _
  have h1 : e1.Canon := h.keepCauses
  split
  · exact h1
  · exact { h1 with }

theorem Engine.Canon.dropFrames (h : e.Canon) : (dropFrames e).Canon := { h with }

theorem Engine.Canon.loseStage (h : e.Canon) : (loseStage e).Canon := by
  unfold Machine.loseStage
  extract_lets _ e1
  have h1 : e1.Canon := { h with }
  exact h1.foldl fun _ _ ha => ha.bump.raise

theorem Engine.Canon.finishWaiting (h : e.Canon) : (finishWaiting e).Canon := by
  unfold Machine.finishWaiting
  extract_lets _ _ e1 e2
  have h1 : e1.Canon := { h with host := h.host.filterPends rfl rfl }
  have h2 : e2.Canon := canon_ite h1 h1.setReg
  exact h2.foldl fun _ _ ha => ha.completeAt

theorem Engine.Canon.standbyEntry (h : e.Canon) : (standbyEntry e).Canon := by
  unfold Machine.standbyEntry
  extract_lets e1
  have h1 : e1.Canon := h.abortChains.abortBlits.lanesOff
  exact h1.dropFrames.loseStage.tdmDown.switchAll.finishWaiting

theorem Engine.Canon.faultEntry (h : e.Canon) : (faultEntry e).Canon := by
  unfold Machine.faultEntry
  extract_lets _ e1 e2
  have h1 : e1.Canon := { h with }
  have h2 : e2.Canon := h1.histTrigger
  exact h2.raise.dropFrames.tdmDown

theorem Engine.Canon.wakeEntry (h : e.Canon) : (wakeEntry e).Canon := by
  unfold Machine.wakeEntry
  extract_lets e1
  have h1 : e1.Canon := h.setReg.lanesOn.belRestart
  exact h1.agree

theorem Engine.Canon.enterState {new k : Nat} (h : e.Canon) : (enterState e new k).Canon := by
  unfold Machine.enterState
  extract_lets _ _ e0 e1 _ e2 _ e3 _ a e4 e5
  have h0 : e0.Canon := h.withRegs (Tab.wf_puts _ h.regs)
  have h1 : e1.Canon := h0.raise
  have h2 : e2.Canon := canon_ite (.tdmDisarm { h1 with }) h1
  have h3 : e3.Canon := canon_ite (.tdmArm (.setReg { h2 with })) h2
  have ha : a.Canon := { h3 with }
  have h4 : e4.Canon := canon_ite h3.standbyEntry (canon_ite h3.faultEntry (canon_ite (canon_ite ha.wakeEntry ha) h3))
  have h5 : e5.Canon := canon_ite h4.lanesOn h4
  exact h5.outputsFollow

theorem Engine.Canon.finishReq {r : StReq} {st : Status} {k : Nat} (h : e.Canon) : (finishReq e r st k).Canon := h.completeAt

theorem Engine.Canon.finishWakers {k : Nat} (h : e.Canon) : (finishWakers e k).Canon := by
  unfold Machine.finishWakers
  extract_lets _ _ e1
  have h1 : e1.Canon := { h with }
  exact h1.foldl fun _ _ ha => ha.finishReq

theorem Engine.Canon.faultNow {k : Nat} (h : e.Canon) : (faultNow e k).Canon := by
  unfold Machine.faultNow
  split
  · exact h
  · exact h.setReg.enterState.finishWakers

theorem Engine.Canon.faultReport {b : Nat} (h : e.Canon) : (faultReport b e).Canon := by
  unfold Machine.faultReport
  extract_lets e1
  have h1 : e1.Canon := h.faultDetect
  split
  · exact h1
  · exact h1.faultNow

theorem Engine.Canon.startWake {cause : Nat} (h : e.Canon) : (startWake e cause).Canon := by
  unfold Machine.startWake
  split
  · exact h
  · exact h.setReg.raise

theorem Engine.Canon.requestAt {k : Nat} {a : Engine × Option ℕ} {r : StReq} (h : a.1.Canon) : (requestAt k a r).1.Canon := by
  unfold Machine.requestAt
  extract_lets
  split
  · exact h.finishReq
  · split
    · exact h.finishReq
    · split
      · exact h.finishReq
      · split
        · exact .startWake { h with }
        · exact h.enterState.finishReq

theorem Engine.Canon.fillAt {k : Nat} {a : Engine × Option ℕ} (h : a.1.Canon) : (fillAt k a).Canon := by
  unfold Machine.fillAt
  extract_lets _ _ e
  have he : e.Canon := { h with }
  split
  · exact h
  · split
    · exact he.bump
    · split
      · split
        · exact he.enterState
        · exact he
      · split
        · exact he
        · split
          · exact he.enterState
          · exact he.raiseBit.raise

theorem Engine.Canon.stateBoundary {k : Nat} {lost : Bool} (h : e.Canon) : (stateBoundary k lost e).Canon := by
  unfold Machine.stateBoundary
  extract_lets _ _ e1 e2 e3 _
  have h1 : e1.Canon := { h with }
  have h2 : e2.Canon := h1.faultNow
  have h3 : e3.Canon := canon_ite h2.enterState h2
  exact .fillAt (canon_foldl (fun _ _ ha => ha.requestAt) h3)

theorem Engine.Canon.clearedBy {warm : Bool} (h : e.Canon) : (clearedBy warm e).Canon := by
  unfold Machine.clearedBy
  extract_lets z _
  have hz : z.Canon := .reset
  have hm : memWf (if warm then e.mem.cells.filter (fun c => decide (2 ^ 37 ≤ c.1)) else []) = true := by
    split
    · exact memWf_filter h.mem.cells _
    · rfl
  exact { hz with regs := Tab.wf_puts _ (Tab.wf_puts _ hz.regs), host := { hz.host with },
                  mem := { hz.mem with cells := hm, recs := h.mem.recs } }

theorem Engine.Canon.restoreConfig (h : e.Canon) : (restoreConfig e).Canon := by
  unfold Machine.restoreConfig
  extract_lets t _ staged e1
  have ht : t.wf = true := Journal.Canon.cfg h.mem.recs
  have h1 : e1.Canon := { h with active := ht, staged := Tab.wf_filter ht _, regs := Tab.wf_setAll _ h.regs }
  exact h1.histStart.mapStatus.seqStatus.setupCounts.psCommit

theorem Engine.Canon.restoreBundle (h : e.Canon) : (restoreBundle e).Canon := by
  unfold Machine.restoreBundle
  extract_lets _ _ e1
  have h1 : e1.Canon := h.recordVerify
  split
  · exact h
  · split
    · exact h1.installBundle
    · exact (h1.withTables (Tab.wf_clearMasks (Tab.wf_dropBundle h1.active) _) (Tab.wf_dropBundle h1.staged)).mapStatus

theorem Engine.Canon.restore (h : e.Canon) : (restore e).Canon := by
  unfold Machine.restore
  dsimp -zeta only
  extract_lets e1 e2
  have h1 : e1.Canon := h.journalStart.setReg.restoreOwner.restoreConfig.restoreBundle
  have h2 : e2.Canon := canon_ite h1 h1.installBits
  exact h2.latencyRegs.showRelease.evalWear

theorem Engine.Canon.relayCheck {senseA senseB : Bool} (h : e.Canon) : (relayCheck senseA senseB e).Canon := by
  unfold Machine.relayCheck
  extract_lets e1
  have h1 : e1.Canon := h.setReg
  split
  · exact h1.addCause.faultReport
  · exact h1

theorem Engine.Canon.startUp {senseA senseB : Bool} (h : e.Canon) : (startUp senseA senseB e).Canon := by
  unfold Machine.startUp
  dsimp -zeta only
  split
  · exact h.bootRom.keepCauses
  · extract_lets src src' e2 _ _ e3 e4
    have hsrc : src.Canon := h.bootRom.core
    have hsrc' : src'.Canon := h.bootRom.core
    have h2 : e2.Canon := .putCore (h.bootRom.putCore { hsrc with }) { hsrc' with }
    have h3 : e3.Canon := { h2 with host := { h2.host with } }
    have h4 : e4.Canon := h3.setReg.restore.keepCauses.relayCheck
    split
    · exact h4.lanesOn
    · exact h4.enterState.lanesOn.belRestart

theorem Engine.Canon.warmReset {cause : Nat} {senseA senseB : Bool} (h : e.Canon) : (warmReset cause senseA senseB e).Canon := by
  unfold Machine.warmReset
  extract_lets e1
  have h1 : e1.Canon := h.coilsOff
  exact h1.clearedBy.setReg.startUp

theorem Engine.Canon.selfReset {cause : Nat} (h : e.Canon) : (selfReset cause e).Canon := h.warmReset

theorem Engine.Canon.powerOff (h : e.Canon) : (powerOff e).Canon := by
  unfold Machine.powerOff
  extract_lets _ e1
  have h1 : e1.Canon := h.coilsOff.clearedBy.setReg
  exact h1.agree

theorem Engine.Canon.relayCounts (h : e.Canon) : (relayCounts e).Canon := h.setReg.setReg

theorem Engine.Canon.execPowerOn {senseA senseB : Bool} (h : s.eng.Canon) : Keeps (execPowerOn senseA senseB s) := by
  unfold Machine.execPowerOn
  extract_lets _ e1
  have h1 : e1.Canon := h.clearedBy
  split
  · exact keeps_next h1.setReg.relayCounts.startUp
  · exact keeps_next h

theorem Engine.Canon.execWarmReset {senseA senseB : Bool} (h : s.eng.Canon) : Keeps (execWarmReset senseA senseB s) := by
  unfold Machine.execWarmReset
  extract_lets
  split
  · exact keeps_next h
  · dsimp -zeta only
    exact keeps_next h.freeVal.warmReset

theorem Engine.Canon.execPowerLoss (h : s.eng.Canon) : Keeps (execPowerLoss s) := by
  unfold Machine.execPowerLoss
  split
  · exact keeps_next h
  · exact keeps_next h.powerOff

theorem Engine.Canon.execTrialBootTimeout (h : s.eng.Canon) : Keeps (execTrialBootTimeout s) := by
  unfold Machine.execTrialBootTimeout
  extract_lets
  split
  · exact keeps_next h.selfReset.raise
  · exact keeps_next h

theorem Engine.Canon.execRelaySenseTimeout {relay : Nat} {closed : Bool} (h : s.eng.Canon) :
    Keeps (execRelaySenseTimeout relay closed s) := by
  unfold Machine.execRelaySenseTimeout
  extract_lets _ _ e1 e2
  have h1 : e1.Canon := h.setReg
  have h2 : e2.Canon := h1.addCause.raise
  split
  · exact keeps_next h
  · exact keeps_next h2.faultReport

theorem Engine.Canon.supplyShow {m : Nat} {r : SupplyReport} {dc : Bool} (h : e.Canon) : (supplyShow m r dc e).Canon :=
  h.withRegs (Tab.wf_puts _ h.regs)

theorem Engine.Canon.execSupplyDcLoss {m : Nat} {r : SupplyReport} (h : s.eng.Canon) : Keeps (execSupplyDcLoss m r s) := by
  unfold Machine.execSupplyDcLoss
  extract_lets _ e1
  have h1 : e1.Canon := h.supplyShow
  split
  · exact keeps_next h
  · exact keeps_next (canon_ite h1 h1.raise)

theorem Engine.Canon.execSupplyDcGood {m : Nat} {r : SupplyReport} (h : s.eng.Canon) : Keeps (execSupplyDcGood m r s) := by
  unfold Machine.execSupplyDcGood
  extract_lets _ e1
  have h1 : e1.Canon := h.supplyShow
  split
  · exact keeps_next h
  · exact keeps_next (canon_ite h1 h1.raise)

theorem Engine.Canon.execAcFail (h : s.eng.Canon) : Keeps (execAcFail s) := by
  unfold Machine.execAcFail
  extract_lets _ e1 _ _ e2
  have h1 : e1.Canon := h.setReg.setReg.bump
  have h2 : e2.Canon := { h1 with }
  split
  · exact keeps_next h
  · exact keeps_next h2.raise

theorem Engine.Canon.acceptLate {u : Unrecorded} (h : e.Canon) : (acceptLate e u).Canon := by
  unfold Machine.acceptLate
  split
  · exact h.acceptBundle
  · split
    · exact h.acceptBits
    · exact h.commitOr

theorem Engine.Canon.execAcReturn {m : Nat} (h : s.eng.Canon) : Keeps (execAcReturn m s) := by
  unfold Machine.execAcReturn
  extract_lets _ e1 _ e2
  have h1 : e1.Canon := h.setReg
  have h2 : e2.Canon := { h1 with }
  split
  · exact keeps_next h
  · exact keeps_next (canon_ite (h2.journalSync.foldl fun _ _ ha => ha.acceptLate) h2)

theorem Engine.Canon.avsDomain {dm : Nat × Nat} (h : e.Canon) : (avsDomain e dm).Canon := by
  unfold Machine.avsDomain
  extract_lets _ _ _ _ _ _ _ _ e1 e2 _ _ e3
  have h1 : e1.Canon := h.withRegs (Tab.wf_puts _ h.regs)
  have h2 : e2.Canon := canon_ite h1.bump.raise h1
  have h3 : e3.Canon := { h2 with }
  split
  · exact h3.faultReport
  · exact h3

theorem Engine.Canon.execAvsUpdate {margins : List Nat} (h : s.eng.Canon) : Keeps (execAvsUpdate margins s) := by
  unfold Machine.execAvsUpdate
  split
  · exact keeps_next h
  · exact keeps_next (h.foldl fun _ _ ha => ha.avsDomain)

theorem Engine.Canon.execRailFault {domain : Nat} (h : s.eng.Canon) : Keeps (execRailFault domain s) := by
  unfold Machine.execRailFault
  split
  · exact keeps_next h
  · exact keeps_next h.faultReport

theorem Engine.Canon.execFanFail {fan rpm : Nat} (h : s.eng.Canon) : Keeps (execFanFail fan rpm s) := by
  unfold Machine.execFanFail
  extract_lets
  split
  · exact keeps_next h
  · exact keeps_next h.setReg.raiseBit.raise

theorem Engine.Canon.dieTemp {x : Temperatures} (h : e.Canon) : (dieTemp x e).Canon := by
  unfold Machine.dieTemp
  extract_lets _ e1 _ _ _
  have h1 : e1.Canon := h.withRegs (Tab.wf_puts _ h.regs)
  split
  · exact .raise { h1 with }
  · split
    · exact .raise { h1 with }
    · exact h1

theorem Engine.Canon.execThermalWarn {x : Temperatures} (h : s.eng.Canon) : Keeps (execThermalWarn x s) := by
  unfold Machine.execThermalWarn
  split
  · exact keeps_next h
  · exact keeps_next h.dieTemp

theorem Engine.Canon.execThermalFault {x : Temperatures} (h : s.eng.Canon) : Keeps (execThermalFault x s) := by
  unfold Machine.execThermalFault
  extract_lets _ e1
  have h1 : e1.Canon := h.dieTemp
  split
  · exact keeps_next h
  · exact keeps_next (canon_ite h1.faultReport h1)

theorem Engine.Canon.execThermalCutoff (h : s.eng.Canon) : Keeps (execThermalCutoff s) := by
  unfold Machine.execThermalCutoff
  split
  · exact keeps_next h
  · exact keeps_next h.powerOff

theorem Engine.Canon.execModuleInsert {cage : Cage} (h : s.eng.Canon) : Keeps (execModuleInsert cage s) := by
  unfold Machine.execModuleInsert
  split
  · split
    · exact keeps_next h
    · exact keeps_next h.raiseBit
  · exact keeps_next h
  · exact keeps_next h

theorem Engine.Canon.execModuleRemove {cage : Cage} (h : s.eng.Canon) : Keeps (execModuleRemove cage s) := by
  unfold Machine.execModuleRemove
  extract_lets
  split
  · split
    · exact keeps_next h
    · exact keeps_next h.setReg
  · split
    · exact keeps_next h.setReg
    · exact keeps_next h
  · split
    · exact keeps_next h
    · exact keeps_next h.tdmDown

theorem Engine.Canon.request {r : StReq} {applyAt : Nat} {first : Bool} (h : e.Canon) : (request r applyAt first e).Canon := by
  unfold Machine.request
  extract_lets
  split
  · exact h.completeAt
  · split
    · split
      · exact h.enterState.finishReq
      · exact h.completeAt
    · split
      · split
        · exact h.completeAt
        · exact { h with }
      · split
        · exact h.completeAt
        · split
          · exact .startWake { h with }
          · exact { h with }

theorem Engine.Canon.execReqState {p : Packet} (h : s.eng.Canon) : Keeps (execReqState p s) := by
  unfold Machine.execReqState
  extract_lets e1
  have h1 : e1.Canon := h.runAsync fun _ _ ha => ha.request
  exact keeps_next h1

theorem Engine.Canon.execStandbyWake {cause : Nat} (h : s.eng.Canon) : Keeps (execStandbyWake cause s) :=
  keeps_next (canon_ite h.startWake h)

theorem Engine.Canon.execWakeComplete (h : s.eng.Canon) : Keeps (execWakeComplete s) := by
  unfold Machine.execWakeComplete
  extract_lets
  split
  · exact keeps_next h.enterState.finishWakers
  · exact keeps_next h

theorem Engine.Canon.execSetAvs {p : Packet} (h : s.eng.Canon) : Keeps (execSetAvs p s) := by
  unfold Machine.execSetAvs
  extract_lets e1
  have h1 : e1.Canon := h.runAction fun _ _ ha => ha.laterAll
  exact keeps_next h1

theorem Engine.Canon.execReset {p : Packet} (h : s.eng.Canon) : Keeps (execReset p s) :=
  keeps_next (h.runAsync fun _ _ ha => ha.complete.selfReset)

theorem Engine.Canon.execSetWake {p : Packet} (h : s.eng.Canon) : Keeps (execSetWake p s) := by
  unfold Machine.execSetWake
  extract_lets e1
  have h1 : e1.Canon := h.runAction fun _ _ ha => ha.laterAll
  exact keeps_next h1

theorem Engine.Canon.execSetFillcmd {p : Packet} (h : s.eng.Canon) : Keeps (execSetFillcmd p s) :=
  keeps_next (h.runAction fun _ _ ha => ha.later)

theorem Engine.Canon.execSetTlim {p : Packet} (h : s.eng.Canon) : Keeps (execSetTlim p s) :=
  keeps_next (h.runAction fun _ _ ha => ha.later)

theorem Engine.Canon.execRawDomains {p : Packet} (h : s.eng.Canon) : Keeps (execRawDomains p s) := by
  unfold Machine.execRawDomains
  extract_lets e1
  have h1 : e1.Canon := h.runAction fun _ _ ha => ha.laterAll
  exact keeps_next h1

theorem Engine.Canon.execConsoleCommand {c : ConsoleCmd} (h : s.eng.Canon) : Keeps (execConsoleCommand c s) := by
  unfold Machine.execConsoleCommand
  extract_lets
  split
  · exact keeps_next h
  · split
    · exact keeps_next h.selfReset
    · split
      · exact keeps_next h
      · exact keeps_next h.request
    · split
      · exact keeps_next h
      · extract_lets
        split
        · exact keeps_next h
        · exact keeps_next h.takePacket

/-! ### Beam timing -/

theorem Engine.Canon.restartAcq (h : e.Canon) : (restartAcq e).Canon := by
  unfold Machine.restartAcq
  extract_lets e1 _
  have h1 : e1.Canon := h.setReg
  exact { h1 with }

theorem Engine.Canon.acqAdvance (h : e.Canon) : (acqAdvance e).Canon := by
  unfold Machine.acqAdvance
  split
  · exact h
  · extract_lets e1
    have h1 : e1.Canon := canon_ite h.setReg h
    split
    · exact h1.setReg
    · exact h1

theorem Engine.Canon.recordFailed (h : e.Canon) : (recordFailed e).Canon := h.bump.raise

theorem Engine.Canon.sampleOrbit {t : Timing} (h : e.Canon) : (sampleOrbit e t).Canon := by
  unfold Machine.sampleOrbit
  split
  · exact { h with }
  · exact h

theorem Engine.Canon.lengthError (h : e.Canon) : (lengthError e).Canon := h.raiseBit.restartAcq

theorem Engine.Canon.acqMarkers {mark : Bool} {word : Nat} (h : e.Canon) : (acqMarkers mark word e).Canon := by
  unfold Machine.acqMarkers
  extract_lets _ _ e1
  have h1 : e1.Canon := { h with }
  split
  · exact { h with }
  · split
    · exact { h with }
    · split
      · exact h.lengthError
      · exact h1.setReg

theorem Engine.Canon.acqRecord {mark : Bool} {word : Nat} (h : e.Canon) : (acqRecord mark word e).Canon := by
  unfold Machine.acqRecord
  extract_lets _ _ _ e1 _
  have h1 : e1.Canon := { h with }
  split
  · split
    · exact h1.recordFailed
    · split
      · exact h1.lengthError
      · exact .setReg { h1 with }
  · exact h1

theorem Engine.Canon.acqSlot0 {mark : Bool} {t : Timing} (h : e.Canon) : (acqSlot0 mark t e).Canon := by
  unfold Machine.acqSlot0
  extract_lets
  split
  · exact h.restartAcq
  · split
    · exact { h with }
    · exact { h with }

theorem Engine.Canon.acqCrossing {t : Timing} (h : e.Canon) : (acqCrossing t e).Canon := by
  unfold Machine.acqCrossing
  extract_lets _ _ e1 _ _ _ _ e2
  have h1 : e1.Canon := h.setReg.sampleOrbit
  have h2 : e2.Canon := { h1 with }
  split
  · exact h1.restartAcq
  · split
    · exact h1.acqAdvance
    · split
      · split
        · exact h2
        · exact h2.setReg
      · split
        · exact h1.acqMarkers
        · split
          · exact h1.acqRecord
          · exact h1.acqSlot0

theorem Engine.Canon.execAcquisitionCrossing {t : Timing} (h : s.eng.Canon) : Keeps (execAcquisitionCrossing t s) := by
  unfold Machine.execAcquisitionCrossing
  extract_lets
  split
  · exact keeps_next h
  · exact keeps_next h.acqCrossing

theorem Engine.Canon.dropPend {p : Pend} {st : Status} {cx : Nat} (h : e.Canon) : (dropPend e p st cx).Canon := by
  unfold Machine.dropPend
  extract_lets _ e1 _ a _ _ e2 e3
  have h1 : e1.Canon := { h with host := h.host.filterPends rfl rfl }
  have ha : a.Canon := canon_ite h1 (h1.foldl fun _ _ hb => hb.takeLock)
  have h2 : e2.Canon := canon_ite { h1 with } (canon_ite (.setReg { h1 with }) { ha with staged := Tab.wf_setAll _ ha.staged })
  have h3 : e3.Canon := canon_ite h2.setReg h2
  exact h3.journalSync.completeAt

theorem Engine.Canon.leadReg (h : e.Canon) : (leadReg e).Canon := h.setReg

theorem Engine.Canon.timingCommand {c : Nat} (h : e.Canon) : (timingCommand c e).Canon := by
  unfold Machine.timingCommand
  extract_lets _ e0 e1 _
  have h0 : e0.Canon := { h with }
  have h1 : e1.Canon := h0.setReg.raise
  split
  · exact h0.bump
  · split
    · split
      · exact h1.startWake
      · exact h1
    · split
      · exact { h1 with }
      · exact h1

theorem Engine.Canon.commandLeft (h : e.Canon) : (commandLeft e).Canon := by
  unfold Machine.commandLeft
  split
  · exact h.timingCommand
  · exact h

theorem Engine.Canon.loseLock {causes : Nat} {planned : Bool} (h : e.Canon) : (loseLock causes planned e).Canon := by
  unfold Machine.loseLock
  extract_lets _ _ _ e0 e1 _ _ _ _ e2 e3 e4 e5
  have h0 : e0.Canon := { h with regs := Tab.wf_puts _ h.regs }
  have h1 : e1.Canon := h0.eqAll
  have h2 : e2.Canon := .restartAcq { h1 with }
  have h3 : e3.Canon := h2.bump.raise
  have h4 : e4.Canon := h3.switchAll.finishWaiting
  have h5 : e5.Canon := h4.foldl fun _ _ ha => ha.dropPend
  exact h5.keepCauses.tdmUnlock.leadReg

theorem Engine.Canon.dropRequests (h : e.Canon) : (dropRequests e).Canon := by
  unfold Machine.dropRequests
  extract_lets _ e1
  have h1 : e1.Canon := { h with }
  exact h1.foldl fun _ _ ha => ha.finishReq

theorem Engine.Canon.lockLost {causes k : Nat} {planned : Bool} (h : e.Canon) : (lockLost causes k planned e).Canon :=
  h.commandLeft.loseLock.stateBoundary.dropRequests

theorem Engine.Canon.execPllLockChange {locked : Bool} (h : s.eng.Canon) : Keeps (execPllLockChange locked s) := by
  unfold Machine.execPllLockChange
  extract_lets _ _ e1
  have h1 : e1.Canon := { h with }
  split
  · exact keeps_next h1
  · split
    · exact keeps_next (canon_ite h1 h1.lockLost)
    · exact keeps_next (canon_ite h1.acqAdvance (canon_ite h1 h1.restartAcq))

theorem Engine.Canon.execFreqWindowEnd {khz : Nat} (h : s.eng.Canon) : Keeps (execFreqWindowEnd khz s) := by
  unfold Machine.execFreqWindowEnd
  extract_lets _ _ e1 _
  have h1 : e1.Canon := h.setReg
  split
  · exact keeps_next h
  · split
    · exact keeps_next (canon_ite h1 h1.lockLost)
    · split
      · exact keeps_next (.acqAdvance { h1 with })
      · exact keeps_next h1.restartAcq

theorem Engine.Canon.execSignalAbsentTimeout (h : s.eng.Canon) : Keeps (execSignalAbsentTimeout s) := by
  unfold Machine.execSignalAbsentTimeout
  extract_lets
  split
  · exact keeps_next h.setReg.lockLost
  · exact keeps_next h

theorem Engine.Canon.recordWord {t : Timing} {slot orb : Nat} (h : e.Canon) : (recordWord t slot orb e).1.Canon := by
  unfold Machine.recordWord
  split
  · exact h
  · extract_lets _ _ e1 _ _
    have h1 : e1.Canon := { h with }
    split
    · exact h1
    · split
      · exact .recordFailed { h1 with }
      · exact { h1 with }

theorem Engine.Canon.timingInput {t : Timing} {slot orb : Nat} (h : e.Canon) : (timingInput t slot orb e).1.Canon := by
  unfold Machine.timingInput
  extract_lets _ _ _ _ _ e1 _ e2 _ _ _
  have h1 : e1.Canon := h.setReg.bumpBy.sampleOrbit
  have h2 : e2.Canon := { h1 with }
  dsimp -zeta only
  exact fst_ite h2.recordWord h2

theorem Engine.Canon.beamOf {t : Timing} (h : e.Canon) : (beamOf t e).Canon := by
  unfold Machine.beamOf
  split
  · exact h.setReg
  · split
    · exact h.setReg
    · exact h.setReg
    · exact h
    · exact h
    · exact h

theorem Engine.Canon.commandByte {t : Timing} (h : e.Canon) : (commandByte t e).Canon := by
  unfold Machine.commandByte
  split
  · exact h
  · split
    · exact { h with }
    · exact { h with }

theorem Engine.Canon.commandRow {p : Nat → Bool} (h : e.Canon) : (commandRow p e).Canon := by
  unfold Machine.commandRow
  split
  · split
    · exact h.timingCommand
    · exact h
  · exact h

theorem Engine.Canon.execTcWake (h : s.eng.Canon) : Keeps (execTcWake s) := keeps_next h.commandRow

theorem Engine.Canon.execTcFillEnd (h : s.eng.Canon) : Keeps (execTcFillEnd s) := keeps_next h.commandRow

theorem Engine.Canon.execTcFillStart (h : s.eng.Canon) : Keeps (execTcFillStart s) := keeps_next h.commandRow

theorem Engine.Canon.execTcMark (h : s.eng.Canon) : Keeps (execTcMark s) := keeps_next h.commandRow

theorem Engine.Canon.execTcUser (h : s.eng.Canon) : Keeps (execTcUser s) := keeps_next h.commandRow

theorem Engine.Canon.execTcUndefined (h : s.eng.Canon) : Keeps (execTcUndefined s) := keeps_next h.commandRow

theorem Engine.Canon.arrival {a : Arrival} (h : e.Canon) : (arrival e a).Canon := by
  unfold Machine.arrival
  split
  · exact h
  · extract_lets _ e1 e2 e3 _ e4
    have h1 : e1.Canon := { h with }
    have h2 : e2.Canon := canon_ite h1.setReg h1
    have h3 : e3.Canon := h2.bump.raise
    have h4 : e4.Canon := { h3 with }
    split
    · exact h1.showRelease
    · split
      · exact h1.showRelease
      · extract_lets e5
        have h5 : e5.Canon := h4.suppressAccepts
        exact .showRelease (canon_ite h5.keepLateMiss h5)

theorem Engine.Canon.execTimRpworstClr (h : s.eng.Canon) : Keeps (execTimRpworstClr s) := keeps_next (.showRelease { h with })

theorem Engine.Canon.execSetSource {p : Packet} (h : s.eng.Canon) : Keeps (execSetSource p s) := keeps_next h.runConfig

theorem Engine.Canon.execSetOrbit {p : Packet} (h : s.eng.Canon) : Keeps (execSetOrbit p s) := keeps_next h.runConfig

theorem Engine.Canon.execSetMult {p : Packet} (h : s.eng.Canon) : Keeps (execSetMult p s) := keeps_next h.runConfig

theorem Engine.Canon.execSetAlign {p : Packet} (h : s.eng.Canon) : Keeps (execSetAlign p s) := keeps_next h.runConfig

theorem Engine.Canon.execPreviewLatency {p : Packet} (h : s.eng.Canon) : Keeps (execPreviewLatency p s) :=
  keeps_next (h.runAction fun _ _ ha => ha.post)

theorem Engine.Canon.execRawRelease {p : Packet} (h : s.eng.Canon) : Keeps (execRawRelease p s) := keeps_next h.runConfig

theorem Engine.Canon.execReadRelease {p : Packet} (h : s.eng.Canon) : Keeps (execReadRelease p s) :=
  keeps_next (h.runAction fun _ _ ha => ha.post)

/-! ### Register access by the host -/

theorem Engine.Canon.clearOnRead {a : Nat} (h : e.Canon) : (clearOnRead e a).Canon := by
  unfold Machine.clearOnRead
  extract_lets _ e1 _
  have h1 : e1.Canon := canon_ite h (h.withRegs (Tab.wf_puts _ h.regs))
  split
  · exact { h1 with }
  · exact h1

theorem Engine.Canon.freezeWords {hs : List Nat} (h : e.Canon) : (freezeWords e hs).Canon := by
  unfold Machine.freezeWords
  extract_lets t
  have ht : t.wf = true := Tab.wf_foldl h.host.frozen (fun a x ha => by
    split
    · exact Tab.wf_set ha _ _
    · exact ha) _
  exact { h with host := { h.host with frozen := ht } }

theorem Engine.Canon.thaw {hs : List Nat} (h : e.Canon) : (thaw e hs).Canon :=
  { h with host := { h.host with frozen := Tab.wf_foldl h.host.frozen (fun _ _ ha => Tab.wf_set ha _ _) _ } }

theorem Engine.Canon.readWord {a : Nat} (h : e.Canon) : (readWord e a).2.Canon := by
  unfold Machine.readWord
  extract_lets _ _ e1 e2
  have h1 : e1.Canon := by
    unfold e1
    split
    · exact h.thaw
    · exact h
  have h2 : e2.Canon := by
    unfold e2
    split
    · exact h1.freezeWords
    · exact h1
  exact h2.clearOnRead

theorem Engine.Canon.badAccess {off : Nat} (h : e.Canon) : (badAccess e off).Canon := by
  unfold Machine.badAccess
  extract_lets e1
  have h1 : e1.Canon := canon_ite h.setReg h
  exact h1.raiseBit

theorem Engine.Canon.barRead {bar off size : Nat} (h : e.Canon) : (barRead bar off size e).Canon := by
  unfold Machine.barRead
  extract_lets
  split
  · split
    · exact { h.badAccess with host := { h.badAccess.host with } }
    · split
      · exact { h.readWord with host := { h.readWord.host with } }
      · dsimp -zeta only
        exact { h.readWord.readWord with host := { h.readWord.readWord.host with } }
  · split
    · exact { h with host := { h.host with } }
    · split
      · exact { h.freeVal with host := { h.freeVal.host with } }
      · exact h

theorem Engine.Canon.readStep {bar off size : Nat} (h : e.Canon) : (readStep bar off size e).Canon := by
  unfold Machine.readStep
  split
  · exact h
  · exact h.barRead

theorem Engine.Canon.execReadClear {bar off size : Nat} (h : s.eng.Canon) : Keeps (execReadClear bar off size s) := keeps_next h.readStep

theorem Engine.Canon.execTimStampRead (h : s.eng.Canon) : Keeps (execTimStampRead s) := keeps_next h.readStep

theorem Engine.Canon.execPtmOrbRead (h : s.eng.Canon) : Keeps (execPtmOrbRead s) := keeps_next h.readStep

theorem Engine.Canon.execLoWordFreezeRead {off : Nat} (h : s.eng.Canon) : Keeps (execLoWordFreezeRead off s) := keeps_next h.readStep

theorem keepsAct_actsAtOnce (a : Nat) : KeepsAct (actsAtOnce a) := by
  unfold Machine.actsAtOnce
  refine keepsAct_ite (keepsAct_some fun h => canon_ite h.stopRings h.stopRings) ?_
  refine keepsAct_ite (keepsAct_some fun h => h.resumeRings) ?_
  refine keepsAct_ite (keepsAct_some fun h => canon_ite (.showRelease { h with }) h) ?_
  refine keepsAct_ite (keepsAct_some fun h => h.foldl fun _ _ ha => canon_ite ha.later ha) ?_
  refine keepsAct_ite (keepsAct_some fun h => h.setLimit) ?_
  refine keepsAct_ite (keepsAct_some fun h => h.raise) ?_
  refine keepsAct_ite (keepsAct_some fun h => canon_ite h.snapRequest h) ?_
  split
  · exact keepsAct_ite (keepsAct_some fun h => canon_ite h.setReg h) keepsAct_none
  · exact keepsAct_ite (keepsAct_some fun h => canon_ite h.clearPend h) keepsAct_none
  · exact keepsAct_ite (keepsAct_some fun h => h.cntWrite)
      (keepsAct_ite (keepsAct_some fun h => h.cntWrite) (keepsAct_ite (keepsAct_some fun h => h.cntWrite) keepsAct_none))
  · refine keepsAct_ite (keepsAct_some fun h => h.dmaCtl) ?_
    refine keepsAct_ite (keepsAct_some fun h => h.dmaHeadWrite) ?_
    refine keepsAct_ite (keepsAct_some fun h => h.dmaHoldHead) ?_
    refine keepsAct_ite (keepsAct_some fun h => h.dmaNextWrite) ?_
    exact keepsAct_ite (keepsAct_some fun h => h.dmaHoldNext) keepsAct_none
  · exact keepsAct_ite (keepsAct_some fun h => h.bltCtl) keepsAct_none
  · exact keepsAct_none

theorem Engine.Canon.writeWord {a v : Nat} (h : e.Canon) : (writeWord e a v).Canon := by
  unfold Machine.writeWord
  split
  · rename_i hf
    exact keepsAct_actsAtOnce a _ hf h
  · exact .hostWritten (h.withRegs (Tab.wf_puts _ h.regs))

theorem Engine.Canon.clearWord {a v : Nat} (h : e.Canon) : (clearWord e a v).Canon := h.withRegs (Tab.wf_puts _ h.regs)

theorem Engine.Canon.writeWaiting {a v : Nat} (h : e.Canon) : (writeWaiting e a v).Canon := by
  unfold Machine.writeWaiting
  split
  · rename_i hf
    exact keepsAct_actsAtOnce a _ hf h
  · exact .hostWritten (h.withRegs (Tab.wf_puts _ h.regs))

theorem Engine.Canon.applyLater {w : Fld × Nat} (h : e.Canon) : (applyLater e w).Canon := by
  unfold Machine.applyLater
  split
  · exact h.clearWord
  · split
    · exact h.writeWaiting
    · exact h.setReg

theorem Engine.Canon.laterWord {a v : Nat} (h : e.Canon) : (e.laterWord a v).Canon := h.laterAll

theorem Engine.Canon.writeReg {a v : Nat} (h : e.Canon) : (writeReg e a v).Canon := by
  unfold Machine.writeReg
  split
  · exact h
  · split
    · split
      · exact h
      · exact h.raiseBit
    · extract_lets _ _ _ e1 _
      have h1 : e1.Canon := canon_ite h ((h.withStaged (Tab.wf_puts _ h.staged)).takeLock)
      split
      · split
        · exact h1.laterWord
        · exact h1
      · split
        · exact h1.writeWord
        · split
          · exact h1.laterWord
          · exact h1

theorem Engine.Canon.writeMsix {a v : Nat} (h : e.Canon) : (writeMsix e a v).Canon := by
  unfold Machine.writeMsix
  split
  · exact h
  · exact .irqUpdate (.flushPba { h with host := { h.host with } })

theorem Engine.Canon.barWrite {bar off size val : Nat} (h : e.Canon) : (barWrite bar off size val e).Canon := by
  unfold Machine.barWrite
  split
  · split
    · exact h.badAccess
    · split
      · exact h.writeReg
      · exact h.writeReg.writeReg
  · split
    · exact h.doorbell
    · split
      · split
        · exact h.writeMsix
        · exact h.writeMsix.writeMsix
      · exact h

theorem Engine.Canon.execRegisterWrite {bar off size val : Nat} (h : s.eng.Canon) : Keeps (execRegisterWrite bar off size val s) := by
  unfold Machine.execRegisterWrite
  split
  · exact keeps_next h
  · exact keeps_next h.barWrite

/-! ### Commits that take effect -/

theorem Engine.Canon.removePend {p : Pend} (h : e.Canon) : (removePend e p).Canon :=
  { h with host := h.host.filterPends rfl rfl }

theorem Engine.Canon.showFreezeInput (h : e.Canon) : (showFreezeInput e).Canon := h.withRegs (Tab.wf_puts _ h.regs)

theorem Engine.Canon.anchorCommit {old : Tab} {c : Option Nat} (h : e.Canon) : (anchorCommit old c e).Canon := by
  unfold Machine.anchorCommit
  extract_lets e1
  have h1 : e1.Canon := by
    unfold e1
    split
    · exact h.reanchor
    · dsimp -zeta only
      exact h.freeVal.reanchor
  split
  · exact h1
  · exact h1.withRegs (Tab.wf_put h1.regs _ _)

theorem Engine.Canon.historyCommit {old : Tab} {object : Nat} {c : Option Nat} (h : e.Canon) : (historyCommit old object c e).Canon := by
  unfold Machine.historyCommit
  extract_lets _ e1
  have h1 : e1.Canon := canon_ite h.histReset h
  split
  · exact h1.histTrigger
  · split
    · exact h1.setReg
    · exact h1

theorem Engine.Canon.followCommit {old : Tab} {p : Pend} {c : Option Nat} (h : e.Canon) : (followCommit old p c e).Canon := by
  unfold Machine.followCommit
  extract_lets _ _ e1 e2 e3 e4 _ e5 e6 e7 e8 e9 _ e10
  have h1 : e1.Canon := canon_ite h.commitMasks h
  have h2 : e2.Canon := canon_ite h1.lanesCommitted.mapStatus h1
  have h3 : e3.Canon := canon_ite h2.anchorCommit h2
  have h4 : e4.Canon := by
    unfold e4
    split
    · exact h3
    · split
      · exact h3.seqSwap
      · dsimp -zeta only
        exact h3.freeVal.seqSwap
  have h5 : e5.Canon := canon_ite { h4 with mem := { h4.mem with } } h4
  have h6 : e6.Canon := canon_ite h5.sprCommitted h5
  have h7 : e7.Canon := canon_ite h6.captureEmpty h6
  have h8 : e8.Canon := h7.historyCommit
  have h9 : e9.Canon := canon_ite h8.tdmCommitted h8
  have h10 : e10.Canon := canon_ite h9 { h9 with }
  exact h10.psCommit.latencyRegs.setupCounts.showFreezeInput.showRelease

theorem Engine.Canon.applySet {p : Pend} {c : Option Nat} (h : e.Canon) : (applySet p c e).Canon := by
  unfold Machine.applySet
  extract_lets _ new _ stg e1
  have hn : new.wf = true := wf_mergedSet h p
  have hs : stg.wf = true := Tab.wf_follow _ _ _ h.staged
  have h1 : e1.Canon := { h with
    active := Tab.wf_ite (Tab.wf_fullWindows hn) hn
    staged := Tab.wf_ite (Tab.wf_fullWindows hs) hs }
  exact h1.followCommit

theorem Engine.Canon.applyObject {p : Pend} (h : e.Canon) : (applyObject p e).Canon := by
  unfold Machine.applyObject
  split
  · extract_lets e1 _
    have h1 : e1.Canon := h.installBundle
    exact .lanesCommitted { h1 with }
  · extract_lets e1 _
    have h1 : e1.Canon := h.installBits
    exact { h1 with }

theorem Engine.Canon.commitTo {p : Pend} {c : Option Nat} {live : Bool} {cx : Nat} (h : e.Canon) (hp : p.set.wf = true) :
    (commitTo p c live cx e).Canon := by
  unfold Machine.commitTo
  extract_lets _ e0 e1 e2 e3 _ e4
  have h0 : e0.Canon := h.removePend
  have h1 : e1.Canon := canon_ite h0.applyObject h0.applySet
  have h2 : e2.Canon := Engine.Canon.journalSync (by
    split
    · exact h1.keepBank
    · exact h1)
  have h3 : e3.Canon := canon_ite h2 (.belPower (canon_ite h2.deferGains h2))
  have h4 : e4.Canon := canon_ite h3.setReg h3
  exact canon_ite { h3 with host := h3.host.addPend (by exact hp) rfl rfl } h4.completeAt

theorem Engine.Canon.activate {p : Pend} {bad c : Option Nat} (h : e.Canon) (hp : p.set.wf = true) : (activate p bad c e).Canon := by
  unfold Machine.activate
  extract_lets
  split
  · exact h.dropPend
  · exact h.commitTo hp

theorem Engine.Canon.clockChanged {p : Pend} {old : Tab} (h : e.Canon) : (clockChanged p old e).Canon := by
  unfold Machine.clockChanged
  split
  · exact h.restartAcq
  · exact h

theorem Engine.Canon.commitDue (h : e.Canon) : (commitDue e).Canon := by
  refine h.foldlMem fun a p hp ha => ?_
  have hs : p.set.wf = true := h.host.pends p (List.mem_filter.mp hp).1
  exact canon_ite (ha.activate hs) ((ha.activate hs).clockChanged)

theorem Engine.Canon.execCommitActivate (h : s.eng.Canon) : Keeps (execCommitActivate s) := keeps_next h.commitDue

theorem Engine.Canon.plannedRelock {k : Nat} {p : Pend} (h : e.Canon) (hp : p.set.wf = true) : (plannedRelock k p e).Canon := by
  unfold Machine.plannedRelock
  extract_lets
  split
  · exact h.dropPend
  · exact h.removePend.lockLost.commitTo hp

/-! ### Commands common to all blocks -/

theorem Engine.Canon.runCommon {blk : Nat} {f : Fn} {act : Engine → Packet → Engine} {p : Packet} (h : e.Canon)
    (hact : ∀ e x, e.Canon → (act e x).Canon) : (runCommon blk f act p e).Canon := by
  unfold Machine.runCommon
  split
  · exact h.complete
  · split
    · exact h.complete
    · exact h.runAction hact

theorem Engine.Canon.execQuery {blk : Nat} {p : Packet} (h : s.eng.Canon) : Keeps (execQuery blk p s) :=
  keeps_next (h.runCommon fun _ _ ha => ha.post)

theorem Engine.Canon.execCommit {blk : Nat} {p : Packet} (h : s.eng.Canon) : Keeps (execCommit blk p s) :=
  keeps_next (h.runCommon fun _ _ ha => ha)

theorem Engine.Canon.execDiscard {blk : Nat} {p : Packet} (h : s.eng.Canon) : Keeps (execDiscard blk p s) :=
  keeps_next (h.runCommon fun _ _ ha => canon_ite ha.discardBlock ha)

theorem Engine.Canon.execReadActive {blk : Nat} {p : Packet} (h : s.eng.Canon) : Keeps (execReadActive blk p s) :=
  keeps_next (h.runCommon fun _ _ ha => ha.post)

/-! ### Contexts -/

theorem Engine.Canon.actOpenCtx {p : Packet} (h : e.Canon) : (actOpenCtx e p).Canon := { h with host := { h.host with } }

theorem Engine.Canon.execOpenCtx {p : Packet} (h : s.eng.Canon) : Keeps (execOpenCtx p s) :=
  keeps_next (h.runAction fun _ _ ha => ha.actOpenCtx)

theorem Engine.Canon.setRight {on : Bool} {p : Packet} (h : e.Canon) : (setRight on e p).Canon := { h with host := { h.host with } }

theorem Engine.Canon.execGrant {p : Packet} (h : s.eng.Canon) : Keeps (execGrant p s) :=
  keeps_next (h.runAction fun _ _ ha => ha.setRight)

theorem Engine.Canon.execRevoke {p : Packet} (h : s.eng.Canon) : Keeps (execRevoke p s) :=
  keeps_next (h.runAction fun _ _ ha => ha.setRight)

theorem Engine.Canon.moveResource {c kind i : Nat} (h : e.Canon) : (moveResource c e kind i).Canon :=
  { h with regs := Tab.wf_puts _ h.regs, host := { h.host with } }

theorem Engine.Canon.execAssign {p : Packet} (h : s.eng.Canon) : Keeps (execAssign p s) := by
  unfold Machine.execAssign
  extract_lets e1
  have h1 : e1.Canon := h.runAction fun _ _ ha => ha.moveResource.pruneRoutes
  exact keeps_next h1

theorem Engine.Canon.freeWindows {p : Nat → Bool} (h : e.Canon) : (freeWindows p e).Canon := { h with regs := Tab.wf_puts _ h.regs }

theorem Engine.Canon.closePends {p : Pend → Bool} (h : e.Canon) : (closePends p e).Canon :=
  { h with host := h.host.mapPends rfl rfl fun q => by split <;> rfl }

theorem Engine.Canon.dropHeldCommits {p : Nat → Bool} (h : e.Canon) : (dropHeldCommits p e).Canon := { h with }

theorem Engine.Canon.closeCtx {c : Nat} (h : e.Canon) : (closeCtx c e).Canon := by
  unfold Machine.closeCtx
  extract_lets _ e0 e1 e2 e3 _ e4 e5 e6 e7 _
  have h0 : e0.Canon := h.dropHeldCommits
  have h1 : e1.Canon := h0.orphan.closePends
  have h2 : e2.Canon := h1.foldl fun _ _ ha => ha.discardBlock
  have h3 : e3.Canon := h2.putXfers
  have h4 : e4.Canon := h3.foldl fun _ _ ha => canon_ite ha.chainStop (canon_ite ha.bltAbort ha)
  have h5 : e5.Canon := h4.foldl fun _ _ ha => ha.removeRing
  have h6 : e6.Canon := h5.foldl fun _ _ ha => ha.moveResource
  have h7 : e7.Canon := h6.freeWindows
  exact { h7 with host := { h7.host with } }

theorem Engine.Canon.execCloseCtx {p : Packet} (h : s.eng.Canon) : Keeps (execCloseCtx p s) :=
  keeps_next (h.runAction fun _ _ ha => ha.closeCtx)

theorem Engine.Canon.actCreateRing {p : Packet} (h : e.Canon) : (actCreateRing e p).Canon := { h with host := { h.host with } }

theorem Engine.Canon.execCreateRing {p : Packet} (h : s.eng.Canon) : Keeps (execCreateRing p s) :=
  keeps_next (h.runAction fun _ _ ha => ha.actCreateRing)

theorem Engine.Canon.abortStarted {id : Nat} {p : Packet} (h : e.Canon) : (abortStarted id p e).Canon := h.foldl fun _ _ ha => ha.completeAt

theorem Engine.Canon.actDestroyRing {p : Packet} (h : e.Canon) : (actDestroyRing e p).Canon := by
  unfold Machine.actDestroyRing
  extract_lets e1
  have h1 : e1.Canon := h.abortStarted.complete
  split
  · exact h1.removeRing
  · exact h1

theorem Engine.Canon.execDestroyRing {p : Packet} (h : s.eng.Canon) : Keeps (execDestroyRing p s) :=
  keeps_next (h.runAsync fun _ _ ha => ha.actDestroyRing)

theorem Engine.Canon.execStopStreams {p : Packet} (h : s.eng.Canon) : Keeps (execStopStreams p s) :=
  keeps_next (h.runAction fun _ _ ha => ha.stopRings)

theorem Engine.Canon.execResumeStreams {p : Packet} (h : s.eng.Canon) : Keeps (execResumeStreams p s) :=
  keeps_next (h.runAction fun _ _ ha => ha.resumeRings)

theorem Engine.Canon.execPtmSample {p : Packet} (h : s.eng.Canon) : Keeps (execPtmSample p s) :=
  keeps_next (h.runAction fun _ _ ha => ha.post)

theorem Engine.Canon.execPtmExchange {ok : Bool} {time : Nat} (h : s.eng.Canon) : Keeps (execPtmExchange ok time s) := by
  unfold Machine.execPtmExchange
  extract_lets _ _ host
  have hh : host.Canon := by
    unfold host
    split
    · exact { h.host with }
    · exact { h.host with }
  split
  · exact keeps_next h
  · exact keeps_next (.ptmShow { h with host := hh })

theorem Engine.Canon.execLinkTrain {portA portB : Bool} {gen : Nat} (h : s.eng.Canon) : Keeps (execLinkTrain portA portB gen s) := by
  unfold Machine.execLinkTrain
  extract_lets
  split
  · exact keeps_next h
  · exact keeps_next (h.withRegs (Tab.wf_puts _ h.regs))

theorem Engine.Canon.hstRegsReset (h : e.Canon) : (hstRegsReset e).Canon := .leadReg { h with regs := Tab.wf_filter h.regs _ }

theorem Engine.Canon.cutChains (h : e.Canon) : (cutChains e).Canon := { h with }

theorem Engine.Canon.hostReset {msix : Bool} (h : e.Canon) : (hostReset msix e).Canon := by
  unfold Machine.hostReset
  extract_lets e0 e1 e2 _ e3 _ host
  have h0 : e0.Canon := h.cutChains.dropHeldCommits
  have h1 : e1.Canon := h0.orphan.closePends.freeWindows
  have h2 : e2.Canon := h1.foldl fun _ _ ha => ha.removeRing
  have h3 : e3.Canon := .putXfers (h2.foldl fun _ _ ha => ha.moveResource)
  have hh : host.Canon := { h3.host with frozen := Tab.wf_nil }
  exact .hstRegsReset { h3 with host := hh }

theorem Engine.Canon.execFunctionLevelReset (h : s.eng.Canon) : Keeps (execFunctionLevelReset s) := by
  unfold Machine.execFunctionLevelReset
  split
  · exact keeps_next h
  · exact keeps_next h.hostReset

theorem Engine.Canon.execPcieLinkDown (h : s.eng.Canon) : Keeps (execPcieLinkDown s) := by
  unfold Machine.execPcieLinkDown
  split
  · exact keeps_next h
  · extract_lets e _
    have he : e.Canon := h.hostReset
    exact keeps_next { he with host := { he.host with } }

theorem Engine.Canon.execD3hotEntry (h : s.eng.Canon) : Keeps (execD3hotEntry s) := by
  unfold Machine.execD3hotEntry
  split
  · exact keeps_next h
  · extract_lets e _
    have he : e.Canon := h.hostReset
    exact keeps_next { he with host := { he.host with } }

theorem Engine.Canon.execD3hotExit (h : s.eng.Canon) : Keeps (execD3hotExit s) := keeps_next { h with host := { h.host with } }

theorem Engine.Canon.execConfigurationRequest (h : s.eng.Canon) : Keeps (execConfigurationRequest s) := by
  unfold Machine.execConfigurationRequest
  extract_lets _ _ host
  have hh : host.Canon := by
    unfold host
    split
    · exact { h.host with }
    · exact { h.host with }
  split
  · exact keeps_next h
  · exact keeps_next { h with host := hh }

/-! ### Host interface inputs -/

theorem Engine.Canon.execLaneFrameReceive {lane gap : Nat} {line : List LineBlock} {codeErrs fecCorr : Nat} (h : s.eng.Canon) :
    Keeps (execLaneFrameReceive lane gap line codeErrs fecCorr s) :=
  keeps_next h.receiveFrame

theorem Engine.Canon.inputTask {c : Nat} (h : e.Canon) : (inputTask e c).Canon := by
  unfold Machine.inputTask
  split
  · split
    · exact h.startWake
    · exact h
  · split
    · exact h.snapRequest
    · split
      · exact h.histTrigger
      · split
        · exact h.bltTry
        · split
          · split
            · exact { h with }
            · exact h
          · exact h.chainStart

theorem Engine.Canon.activate1 {c : Nat} (h : e.Canon) : (activate1 e c).Canon := by
  unfold Machine.activate1
  split
  · exact h
  · split
    · exact h.bump
    · split
      · exact h.busyInput
      · extract_lets e1
        have h1 : e1.Canon := h.inputTask
        split
        · exact h1
        · exact h1.bump

theorem Engine.Canon.execConsumerActivation {c : Nat} (h : s.eng.Canon) : Keeps (execConsumerActivation c s) := by
  unfold Machine.execConsumerActivation
  dsimp -zeta only
  split
  · exact keeps_next h.takeInbox
  · exact keeps_next h.takeInbox.mergeEvents.activate1

/-! ### The scheduler of commands -/

theorem Engine.Canon.runHst {fn : Nat} {p : Packet} (h : s.eng.Canon) : KeepsSome (runHst fn p s) := by
  unfold Machine.runHst
  split
  · exact keeps_some h.execOpenCtx
  · exact keeps_some h.execCloseCtx
  · exact keeps_some h.execGrant
  · exact keeps_some h.execRevoke
  · exact keeps_some h.execAssign
  · exact keeps_some h.execCreateRing
  · exact keeps_some h.execDestroyRing
  · exact keeps_some h.execStopStreams
  · exact keeps_some h.execResumeStreams
  · exact keeps_some h.execPtmSample
  · exact keeps_none

theorem Engine.Canon.runTim {fn : Nat} {p : Packet} (h : s.eng.Canon) : KeepsSome (runTim fn p s) := by
  unfold Machine.runTim
  split
  · exact keeps_some h.execSetSource
  · exact keeps_some h.execSetOrbit
  · exact keeps_some h.execSetMult
  · exact keeps_some h.execSetAlign
  · exact keeps_some h.execPreviewLatency
  · exact keeps_some h.execRawRelease
  · exact keeps_some h.execReadRelease
  · exact keeps_none

theorem Engine.Canon.runLnk {fn : Nat} {p : Packet} (h : s.eng.Canon) : KeepsSome (runLnk fn p s) := by
  unfold Machine.runLnk
  split
  · exact keeps_some h.execLaneMode
  · exact keeps_some h.execSetSources
  · exact keeps_some h.execEqMode
  · exact keeps_some h.execSetTrx
  · exact keeps_some h.execRawLanes
  · exact keeps_some h.execRawSources
  · exact keeps_some h.execEqRead
  · exact keeps_none

theorem Engine.Canon.runMap {fn : Nat} {p : Packet} (h : s.eng.Canon) : KeepsSome (runMap fn p s) := by
  unfold Machine.runMap
  split
  · exact keeps_some h.execSetGeom
  · exact keeps_some h.execDefineSource
  · exact keeps_some h.execPlace
  · exact keeps_some h.execPlaceSrc
  · exact keeps_some h.execSetConv
  · exact keeps_some h.execMaskCells
  · exact keeps_some h.execUnplace
  · exact keeps_some h.execRawTmap
  · exact keeps_some h.execRawConv
  · exact keeps_some h.execRawLut
  · exact keeps_some h.execRawMask
  · exact keeps_none

theorem Engine.Canon.runDom {fn : Nat} {p : Packet} (h : s.eng.Canon) : KeepsSome (runDom fn p s) := by
  unfold Machine.runDom
  split
  · exact keeps_some h.execSetLayer
  · exact keeps_some h.execSetBlend
  · exact keeps_some h.execSetFormat
  · exact keeps_some h.execSetPolicy
  · exact keeps_some h.execSetDome
  · exact keeps_some h.execSetRegion
  · exact keeps_some h.execRawLayers
  · exact keeps_some h.execRawIlut
  · exact keeps_some h.execRawOlut
  · exact keeps_some h.execRawAlpha
  · exact keeps_none

theorem Engine.Canon.runKeep {fn : Nat} {p : Packet} (h : s.eng.Canon) : KeepsSome (runKeep fn p s) := by
  unfold Machine.runKeep
  split
  · exact keeps_some h.execInstallBundle
  · exact keeps_none

theorem Engine.Canon.runObj {fn : Nat} {p : Packet} (h : s.eng.Canon) : KeepsSome (runObj fn p s) := by
  unfold Machine.runObj
  split
  · exact keeps_some h.execSetSeed
  · exact keeps_some h.execSetFootprint
  · exact keeps_some h.execSetLimits
  · exact keeps_some h.execSetClass
  · exact keeps_some h.execSetObjstream
  · exact keeps_some h.execSetSprite
  · exact keeps_some h.execSpriteWindow
  · exact keeps_some h.execSpriteEnable
  · exact keeps_some h.execLoadSprite
  · exact keeps_some h.execSpriteArmed
  · exact keeps_some h.execRawTurret
  · exact keeps_some h.execRawClasses
  · exact keeps_some h.execRawSprites
  · exact keeps_some h.execRawSprmem
  · exact keeps_none

theorem Engine.Canon.runSeq {fn : Nat} {p : Packet} (h : s.eng.Canon) : KeepsSome (runSeq fn p s) := by
  unfold Machine.runSeq
  split
  · exact keeps_some h.execLoadList
  · exact keeps_some h.execEnableList
  · exact keeps_some h.execRawList
  · exact keeps_none

theorem Engine.Canon.runMnu {fn : Nat} {p : Packet} (h : s.eng.Canon) : KeepsSome (runMnu fn p s) := by
  unfold Machine.runMnu
  split
  · exact keeps_some h.execSetCond
  · exact keeps_some h.execSetLine
  · exact keeps_some h.execSetDeadtime
  · exact keeps_some h.execSetPsmode
  · exact keeps_some h.execSetInput
  · exact keeps_some h.execSetLogstream
  · exact keeps_some h.execRawConds
  · exact keeps_some h.execRawLines
  · exact keeps_none

theorem Engine.Canon.runBel {fn : Nat} {p : Packet} (h : s.eng.Canon) : KeepsSome (runBel fn p s) := by
  unfold Machine.runBel
  split
  · exact keeps_some h.execBelSetInput
  · exact keeps_some h.execSetTmo
  · exact keeps_some h.execSetGains
  · exact keeps_some h.execSetFir
  · exact keeps_some h.execSetBusmap
  · exact keeps_some h.execSetMonitor
  · exact keeps_some h.execBelRawMatrix
  · exact keeps_some h.execRawFir
  · exact keeps_some h.execRawInputs
  · exact keeps_none

theorem Engine.Canon.runSpr {fn : Nat} {p : Packet} (h : s.eng.Canon) : KeepsSome (runSpr fn p s) := by
  unfold Machine.runSpr
  split
  · exact keeps_some h.execLoadProgram
  · exact keeps_some h.execSetInterleave
  · exact keeps_some h.execRun
  · exact keeps_some h.execCoreEntry
  · exact keeps_some h.execLoadTable
  · exact keeps_some h.execRawReadmem
  · exact keeps_none

theorem Engine.Canon.runUla {fn : Nat} {p : Packet} (h : s.eng.Canon) : KeepsSome (runUla fn p s) := by
  unfold Machine.runUla
  split
  · exact keeps_some h.execLoadBitstream
  · exact keeps_some h.execSetPortmap
  · exact keeps_none

theorem Engine.Canon.runEvt {fn : Nat} {p : Packet} (h : s.eng.Canon) : KeepsSome (runEvt fn p s) := by
  unfold Machine.runEvt
  split
  · exact keeps_some h.execPublish
  · exact keeps_some h.execSubscribe
  · exact keeps_some h.execSetGate
  · exact keeps_some h.execSetMatrix
  · exact keeps_some h.execSetNotify
  · exact keeps_some h.execSetChannel
  · exact keeps_some h.execResumeChannel
  · exact keeps_some h.execSetGuard
  · exact keeps_some h.execRaise
  · exact keeps_some h.execEvtRawMatrix
  · exact keeps_some h.execRawRoutes
  · exact keeps_some h.execRawConsumers
  · exact keeps_none

theorem Engine.Canon.runIrq {fn : Nat} {p : Packet} (h : s.eng.Canon) : KeepsSome (runIrq fn p s) := by
  unfold Machine.runIrq
  split
  · exact keeps_some h.execRoute
  · exact keeps_some h.execSetFilter
  · exact keeps_some h.execMaskTarget
  · exact keeps_some h.execClearPending
  · exact keeps_some h.execIrqRawSources
  · exact keeps_none

theorem Engine.Canon.runCnt {fn : Nat} {p : Packet} (h : s.eng.Canon) : KeepsSome (runCnt fn p s) := by
  unfold Machine.runCnt
  split
  · exact keeps_some h.execSetCounter
  · exact keeps_some h.execLoad
  · exact keeps_some h.execSetCompare
  · exact keeps_some h.execSnap
  · exact keeps_some h.execRawCounters
  · exact keeps_none

theorem Engine.Canon.runMem {fn : Nat} {p : Packet} (h : s.eng.Canon) : KeepsSome (runMem fn p s) := by
  unfold Machine.runMem
  split
  · exact keeps_some h.execSetWindow
  · exact keeps_some h.execRunBist
  · exact keeps_some h.execRepair
  · exact keeps_some h.execSetCapstream
  · exact keeps_some h.execReleaseFreeze
  · exact keeps_some h.execSetLogsize
  · exact keeps_some h.execReadMem
  · exact keeps_some h.execWriteMem
  · exact keeps_some h.execInjectError
  · exact keeps_none

theorem Engine.Canon.runDma {fn : Nat} {p : Packet} (h : s.eng.Canon) : KeepsSome (runDma fn p s) := by
  unfold Machine.runDma
  split
  · exact keeps_some h.execDmaSetChannel
  · exact keeps_some h.execStart
  · exact keeps_some h.execSetNext
  · exact keeps_some h.execDmaAbort
  · exact keeps_some h.execSetArb
  · exact keeps_some h.execRawChannels
  · exact keeps_none

theorem Engine.Canon.runBlt {fn : Nat} {p : Packet} (h : s.eng.Canon) : KeepsSome (runBlt fn p s) := by
  unfold Machine.runBlt
  split
  · exact keeps_some h.execBlit
  · exact keeps_some h.execSetGap
  · exact keeps_some h.execBltAbort
  · exact keeps_none

theorem Engine.Canon.runSec {fn : Nat} {p : Packet} (h : s.eng.Canon) : KeepsSome (runSec fn p s) := by
  unfold Machine.runSec
  split
  · exact keeps_some h.execAttest
  · exact keeps_some h.execGetCert
  · exact keeps_some h.execFwUpdate
  · exact keeps_some h.execFwActivate
  · exact keeps_some h.execFwConfirm
  · exact keeps_some h.execRaiseFloor
  · exact keeps_some h.execOwnerClaim
  · exact keeps_some h.execOwnerHandover
  · exact keeps_some h.execOwnerReset
  · exact keeps_none

theorem Engine.Canon.runTdm {fn : Nat} {p : Packet} (h : s.eng.Canon) : KeepsSome (runTdm fn p s) := by
  unfold Machine.runTdm
  split
  · exact keeps_some h.execSetRole
  · exact keeps_some h.execSwitchPermit
  · exact keeps_some h.execClearDemote
  · exact keeps_some h.execRawLink
  · exact keeps_none

theorem Engine.Canon.runPwr {fn : Nat} {p : Packet} (h : s.eng.Canon) : KeepsSome (runPwr fn p s) := by
  unfold Machine.runPwr
  split
  · exact keeps_some h.execReqState
  · exact keeps_some h.execSetAvs
  · exact keeps_some h.execReset
  · exact keeps_some h.execSetWake
  · exact keeps_some h.execSetFillcmd
  · exact keeps_some h.execSetTlim
  · exact keeps_some h.execRawDomains
  · exact keeps_none

theorem Engine.Canon.runOut {fn : Nat} {p : Packet} (h : s.eng.Canon) : KeepsSome (runOut fn p s) := by
  unfold Machine.runOut
  split
  · exact keeps_some h.execSetNimout
  · exact keeps_some h.execSetDlane
  · exact keeps_some h.execSetRlywarn
  · exact keeps_some h.execSetOculus
  · exact keeps_some h.execSetCapture
  · exact keeps_some h.execSetHistory
  · exact keeps_some h.execFreezeHistory
  · exact keeps_some h.execReleaseHistory
  · exact keeps_some h.execSetOculusSparse
  · exact keeps_some h.execRawOuts
  · exact keeps_none

theorem Engine.Canon.runFunction {blk fn : Nat} {p : Packet} (h : s.eng.Canon) : KeepsSome (runFunction blk fn p s) := by
  unfold Machine.runFunction
  split
  · exact h.runHst
  · exact h.runTim
  · exact h.runLnk
  · exact h.runMap
  · exact h.runDom
  · exact h.runKeep
  · exact h.runObj
  · exact h.runSeq
  · exact h.runMnu
  · exact h.runBel
  · exact h.runSpr
  · exact h.runUla
  · exact h.runEvt
  · exact h.runIrq
  · exact h.runCnt
  · exact h.runMem
  · exact h.runDma
  · exact h.runBlt
  · exact h.runSec
  · exact h.runTdm
  · exact h.runPwr
  · exact h.runOut
  · exact keeps_none

theorem Engine.Canon.keepCommand {fn : Nat} {p : Packet} (h : s.eng.Canon) : Keeps (keepCommand fn p s) :=
  keeps_next (h.runCommon fun _ _ ha => ha)

theorem Engine.Canon.runCommand {op : Nat} {p : Packet} (h : s.eng.Canon) : Keeps (runCommand op p s) := by
  unfold Machine.runCommand
  extract_lets
  split
  · exact h.execQuery
  split
  · exact h.execCommit
  split
  · exact h.execDiscard
  split
  · exact h.execReadActive
  split
  · rename_i o ho
    exact h.runFunction o ho
  · split
    · exact h.keepCommand
    · exact keeps_next h.complete

theorem Engine.Canon.headReport {r : Ring} (h : e.Canon) : (headReport e r).Canon := h.post

theorem Engine.Canon.startCommand {r : Ring} {op : Nat} {p : Packet} (h : e.Canon) : (startCommand r op p e).Canon := by
  unfold Machine.startCommand
  extract_lets _ e1 _
  have h1 : e1.Canon := h.linkDrain.putRing.headReport
  exact { h1 with host := { h1.host with } }

theorem Engine.Canon.execCommandFetch {ring : Nat} {slots : List Byte} (h : s.eng.Canon) : Keeps (execCommandFetch ring slots s) := by
  unfold Machine.execCommandFetch
  split
  · exact keeps_next h
  · dsimp -zeta only
    extract_lets
    split
    · exact keeps_next h
    · split
      · exact keeps_next h.ringFault
      · split
        · exact keeps_next h.putRing
        · split
          · exact keeps_next h
          · split
            · exact keeps_next h.putRing
            · exact h.startCommand.runCommand

theorem Engine.Canon.execCommandTimeout {ring tag : Nat} (h : s.eng.Canon) : Keeps (execCommandTimeout ring tag s) := by
  unfold Machine.execCommandTimeout
  extract_lets _ _ e1
  have h1 : e1.Canon := h.orphan
  split
  · exact keeps_next h
  · exact keeps_next h1.completeAt

/-! ### Frames through the pipeline -/

theorem Engine.Canon.mapFrameCells {t : Tab} {segs : List Seg} {bel : BelOut} (h : e.Canon) : (mapFrameCells t segs bel e).1.Canon := by
  unfold Machine.mapFrameCells
  dsimp -zeta only
  extract_lets _ _ _ e1 e2 e3
  have h1 : e1.Canon := h.foldl fun _ _ ha => ha.bump.raise
  have h2 : e2.Canon := h1.foldl fun _ _ ha => ha.bumpBy
  have h3 : e3.Canon := by
    unfold e3
    split
    · exact h2.raise
    · exact h2
  exact h3

theorem Engine.Canon.createFrame {n : Nat} (h : e.Canon) : (createFrame n e).Canon := by
  unfold Machine.createFrame
  dsimp -zeta only
  extract_lets e1 _ e3 _
  have h1 : e1.Canon := h.foldl fun _ _ ha => ha.bump
  have h3 : e3.Canon := canon_ite h1.releaseSegs.belfryFrame.finishWaiting h1.releaseSegs.belfryFrame
  exact .showSprites { h3.mapFrameCells with }

theorem Engine.Canon.domePolicy {f : Frame} {a : Engine × List (List LayerUse)} {d : Nat} (h : a.1.Canon) : (domePolicy f a d).1.Canon := by
  unfold Machine.domePolicy
  extract_lets r
  have hr : r.1.Canon := canon_foldl (fun _ _ ha => ha.layerPolicy) h
  exact hr

theorem Engine.Canon.composeFrame {f : Frame} (h : e.Canon) : (composeFrame e f).1.Canon := by
  unfold Machine.composeFrame
  extract_lets
  dsimp -zeta only
  extract_lets e2 _ _ e3 e4 _ e5 e6 _ _ e7 _ _
  have h2 : e2.Canon := .keepImages (canon_foldl (fun _ _ ha => ha.domePolicy) h.dropImages)
  have h3 : e3.Canon := canon_ite h2.bump h2
  have h4 : e4.Canon := canon_ite h3.bump h3
  have h5 : e5.Canon := h4.foldl fun _ _ ha => ha.bumpBy
  have h6 : e6.Canon := by
    unfold e6
    split
    · exact h5.raise
    · exact h5
  have h7 : e7.Canon := h6.withRegs (Tab.wf_puts _ h6.regs)
  exact h7.displayFrame

theorem Engine.Canon.onFrame {b : Nat} {act : Engine → Frame → Engine × Frame} (h : e.Canon) (hact : ∀ e x, e.Canon → (act e x).1.Canon) :
    (onFrame b act e).Canon := by
  unfold Machine.onFrame
  split
  · exact h
  · split
    · exact h
    · dsimp -zeta only
      exact { hact _ _ h with }

theorem Engine.Canon.stagesOf {a : Nat} {t : Tab} {act : Engine → Frame → Engine × Frame} {f : Frame} (h : e.Canon)
    (hact : act ∈ stagesOf a t) : (act e f).1.Canon := by
  have hpick : ∀ {c : Prop} [Decidable c] {g : Engine → Frame → Engine × Frame}, act ∈ (if c then [g] else []) → act = g := by
    intro c _ g hg
    split at hg
    · exact List.mem_singleton.mp hg
    · cases hg
  unfold Machine.stagesOf at hact
  simp only [List.mem_append] at hact
  obtain (((hg | hg) | hg) | hg) | hg := hact <;> obtain rfl := hpick hg
  · exact h.keepEvaluate
  · exact h.composeFrame
  · exact h.turretFrame
  · exact h.finialEvaluate
  · exact h.captureAccept

theorem Engine.Canon.budgetStep {b : Nat} (h : e.Canon) : (budgetStep b e).Canon := by
  unfold Machine.budgetStep
  split
  · exact h
  · split
    · exact h.overrun
    · exact h

theorem Engine.Canon.frameStep {b : Nat} (h : e.Canon) : (frameStep e b).Canon := by
  unfold Machine.frameStep
  extract_lets e1
  have h1 : e1.Canon := h.budgetStep
  split
  · exact h1
  · exact h1.foldlMem fun _ act hact ha => ha.onFrame (fun _ _ hb => hb.stagesOf hact)

theorem Engine.Canon.moveFrames (h : e.Canon) : (moveFrames e).Canon := h.foldl fun _ _ ha => ha.frameStep

theorem Engine.Canon.pruneFrames (h : e.Canon) : (pruneFrames e).Canon := { h with }

theorem Engine.Canon.slowOutputs (h : e.Canon) : (slowOutputs e).Canon := by
  unfold Machine.slowOutputs
  extract_lets _ e1
  have h1 : e1.Canon := by
    unfold e1
    split
    · split
      · exact { h with }
      · exact h
    · exact h
  split
  · exact h1.abortOutput
  · exact h1

theorem Engine.Canon.nimStep (h : e.Canon) : (nimStep e).Canon := by
  unfold Machine.nimStep
  split
  · exact h.onFrame fun _ _ ha => ha.nimDrive
  · exact { h with }

theorem Engine.Canon.flagStep (h : e.Canon) : (flagStep e).Canon := by
  unfold Machine.flagStep
  split
  · exact h.abortLane
  · exact h

theorem Engine.Canon.laneStep (h : e.Canon) : (laneStep e).Canon := by
  unfold Machine.laneStep
  split
  · exact h.laneUnlocked
  · extract_lets e1
    have h1 : e1.Canon := h.flagStep
    split
    · exact h1.laneFrame
    · exact h1.laneEmpty

theorem Engine.Canon.outputsStep (h : e.Canon) : (outputsStep e).Canon := by
  unfold Machine.outputsStep
  split
  · exact h
  · exact h.nimStep.laneStep

/-! ### Crossings -/

theorem Engine.Canon.boundaryClears (h : e.Canon) : (boundaryClears e).Canon := by
  unfold Machine.boundaryClears
  extract_lets
  split
  · exact .foldl { h with } fun _ _ ha => ha.applyLater
  · exact h

theorem Engine.Canon.applyR9 (h : e.Canon) : (applyR9 e).Canon := by
  unfold Machine.applyR9
  extract_lets _ _ e1
  have h1 : e1.Canon := .foldl { h with } fun _ _ ha => ha.applyLater
  split
  · exact h
  · exact .showRelease (canon_ite h1.keepBanks h1)

theorem Engine.Canon.boundaryWrites (h : e.Canon) : (boundaryWrites e).Canon := by
  unfold Machine.boundaryWrites
  split
  · exact h.applyR9
  · exact h.applyR9.applyUnstaged

theorem Engine.Canon.bcRest (h : e.Canon) : (bcRest e).Canon := h.memRest.cntBoundary.sprTick.irqUpdate.pruneFrames.psFlush

theorem Engine.Canon.nextBc (h : e.Canon) : (nextBc e).Canon := { h with }

theorem Engine.Canon.freeSamples (h : e.Canon) : (freeSamples e).2.Canon := h.freeVal

theorem Engine.Canon.holdoverBc (h : e.Canon) : (holdoverBc e).Canon := by
  unfold Machine.holdoverBc
  dsimp -zeta only
  extract_lets e1 e2
  have h1 : e1.Canon := h.boundaryClears.nextBc.freeSamples.keepCapture.faultNow.outputsStep
  have h2 : e2.Canon := h1.boundaryWrites.slowOutputs.lanternIn.moveFrames
  exact .bcRest (canon_ite h2.tdmSend h2)

theorem Engine.Canon.execHoldoverBcTick (h : s.eng.Canon) : Keeps (execHoldoverBcTick s) := by
  unfold Machine.execHoldoverBcTick
  split
  · exact keeps_next h
  · exact keeps_next h.holdoverBc

theorem Engine.Canon.orbitMark (h : e.Canon) : (orbitMark e).Canon := by
  unfold Machine.orbitMark
  split
  · exact h
  · exact (h.withRegs (Tab.wf_puts _ h.regs)).raise

theorem Engine.Canon.noteBeam {k : Nat} (h : e.Canon) : (noteBeam k e).Canon := by
  unfold Machine.noteBeam
  extract_lets
  split
  · exact h
  · exact .eqAll { h with }

theorem Engine.Canon.nimLevelsNow {samples : List Nat} (h : e.Canon) : (nimLevelsNow samples e).Canon := { h with }

theorem Engine.Canon.createStep (h : e.Canon) : (createStep e).Canon := by
  unfold Machine.createStep
  extract_lets
  split
  · exact h.createFrame
  · exact h.releaseSegs

theorem Engine.Canon.countedCrossing {samples : List Nat} {arrivals : List Arrival} (h : e.Canon) :
    (countedCrossing samples arrivals e).Canon := by
  unfold Machine.countedCrossing
  extract_lets _ e1 e2 e3 e4 e5
  have h1 : e1.Canon := h.boundaryClears.noteBeam.orbitMark.foldl fun _ _ ha => ha.arrival
  have h2 : e2.Canon := h1.tdmTick.nimCapture.nimLevelsNow
  have h3 : e3.Canon := h2.outputsStep.stateBoundary
  have h4 : e4.Canon := h3.slowOutputs.alignDue.wakeRequests
  have h5 : e5.Canon := h4.commitDue.boundaryWrites.createStep
  exact h5.lanternIn.moveFrames.bcRest

theorem Engine.Canon.relocks {n k : Nat} (h : e.Canon) : (relocks n k e).Canon := by
  induction n generalizing e k with
  | zero => exact h
  | succ n ih =>
    unfold Machine.relocks
    split
    · exact h
    · rename_i p hp
      extract_lets e1
      have h1 : e1.Canon := h.plannedRelock (h.host.pends p (List.mem_of_find?_eq_some hp))
      exact canon_ite (ih h1) h1

theorem Engine.Canon.crossingTick {i : TickIn} (h : e.Canon) : (crossingTick i e).Canon := by
  unfold Machine.crossingTick
  extract_lets e0 _ _ _
  have h0 : e0.Canon := h.commandLeft
  dsimp -zeta only
  split
  · exact h0.timingInput.lockLost.holdoverBc
  · extract_lets e2 _ _ e3
    have h2 : e2.Canon := canon_ite h0.timingInput.relocks h0.timingInput
    have h3 : e3.Canon := .commandByte (.beamOf (.nextBc { h2 with }))
    split
    · exact h2.holdoverBc
    · exact h3.countedCrossing

theorem Engine.Canon.execCrossingTick {i : TickIn} (h : s.eng.Canon) : Keeps (execCrossingTick i s) := by
  unfold Machine.execCrossingTick
  split
  · exact keeps_next h.crossingTick
  · exact keeps_next h

theorem Engine.Canon.declareLock {orb : Nat} (h : e.Canon) : (declareLock orb e).Canon := by
  unfold Machine.declareLock
  extract_lets _ _ _ _ _ e1 e2 a e3
  have h1 : e1.Canon := .raise { h with regs := Tab.wf_puts _ h.regs }
  have h2 : e2.Canon := h1.clearSkew.belRestart.seqBeyond
  have ha : a.Canon := h2.anchorAll
  have h3 : e3.Canon := canon_ite (ha.withRegs (Tab.wf_put ha.regs _ _)) h2
  exact h3.keepCauses.ptmShow.leadReg

theorem Engine.Canon.execLockAcquire (h : s.eng.Canon) : Keeps (execLockAcquire s) := by
  unfold Machine.execLockAcquire
  extract_lets _ e0
  have h0 : e0.Canon := h.commitDue
  split
  · exact keeps_next h
  · split
    · exact keeps_next h0
    · dsimp -zeta only
      exact keeps_next h0.declareLock.nextBc.freeSamples.countedCrossing

/-! ### Every command -/

theorem Engine.Canon.exec {i : Instr} (h : s.eng.Canon) : Keeps (exec i s) := by
  unfold Machine.exec
  split
  · exact h.execRegisterWrite
  · exact h.execReadClear
  · exact h.execTimStampRead
  · exact h.execPtmOrbRead
  · exact h.execLoWordFreezeRead
  · exact h.execDoorbellWrite
  · exact h.execCommandFetch
  · exact h.execCommandTimeout
  · exact h.execCommitActivate
  · exact h.execQuery
  · exact h.execCommit
  · exact h.execDiscard
  · exact h.execReadActive
  · exact h.execOpenCtx
  · exact h.execCloseCtx
  · exact h.execGrant
  · exact h.execRevoke
  · exact h.execAssign
  · exact h.execCreateRing
  · exact h.execDestroyRing
  · exact h.execStopStreams
  · exact h.execResumeStreams
  · exact h.execPtmSample
  · exact h.execHstStopCtx
  · exact h.execHstStopAll
  · exact h.execHstResumeCtx
  · exact h.execHstResumeAll
  · exact h.execStopDrainDone
  · exact h.execPtmExchange
  · exact h.execLinkTrain
  · exact h.execFunctionLevelReset
  · exact h.execPcieLinkDown
  · exact h.execD3hotEntry
  · exact h.execCrossingTick
  · exact h.execTcWake
  · exact h.execTcFillEnd
  · exact h.execTcFillStart
  · exact h.execTcMark
  · exact h.execTcUser
  · exact h.execTcUndefined
  · exact h.execPllLockChange
  · exact h.execFreqWindowEnd
  · exact h.execSignalAbsentTimeout
  · exact h.execLockAcquire
  · exact h.execTimRpworstClr
  · exact h.execSetSource
  · exact h.execSetOrbit
  · exact h.execSetMult
  · exact h.execSetAlign
  · exact h.execPreviewLatency
  · exact h.execRawRelease
  · exact h.execReadRelease
  · exact h.execLaneSignalChange
  · exact h.execLaneFrameReceive
  · exact h.execSkewEpochEnd
  · exact h.execEqHoldStart
  · exact h.execLaneMode
  · exact h.execSetSources
  · exact h.execEqMode
  · exact h.execSetTrx
  · exact h.execRawLanes
  · exact h.execRawSources
  · exact h.execEqRead
  · exact h.execSetGeom
  · exact h.execDefineSource
  · exact h.execPlace
  · exact h.execPlaceSrc
  · exact h.execSetConv
  · exact h.execMaskCells
  · exact h.execUnplace
  · exact h.execRawTmap
  · exact h.execRawConv
  · exact h.execRawLut
  · exact h.execRawMask
  · exact h.execSetLayer
  · exact h.execSetBlend
  · exact h.execSetFormat
  · exact h.execSetPolicy
  · exact h.execSetDome
  · exact h.execSetRegion
  · exact h.execRawLayers
  · exact h.execRawIlut
  · exact h.execRawOlut
  · exact h.execRawAlpha
  · exact h.execRelaySenseTimeout
  · exact h.execRelayCountJournal
  · exact h.execInstallBundle
  · exact h.execCaptureCopy
  · exact h.execPostMortemFreeze
  · exact h.execSetOculus
  · exact h.execSetCapture
  · exact h.execSetHistory
  · exact h.execFreezeHistory
  · exact h.execReleaseHistory
  · exact h.execSetOculusSparse
  · exact h.execSetSeed
  · exact h.execSetFootprint
  · exact h.execSetLimits
  · exact h.execSetClass
  · exact h.execSetObjstream
  · exact h.execSetSprite
  · exact h.execSpriteWindow
  · exact h.execSpriteEnable
  · exact h.execLoadSprite
  · exact h.execSpriteArmed
  · exact h.execRawTurret
  · exact h.execRawClasses
  · exact h.execRawSprites
  · exact h.execRawSprmem
  · exact h.execSeqStopL0
  · exact h.execSeqStopL1
  · exact h.execLoadList
  · exact h.execEnableList
  · exact h.execRawList
  · exact h.execDlTxFault
  · exact h.execSetCond
  · exact h.execSetLine
  · exact h.execSetDeadtime
  · exact h.execSetPsmode
  · exact h.execSetInput
  · exact h.execSetLogstream
  · exact h.execRawConds
  · exact h.execRawLines
  · exact h.execSetNimout
  · exact h.execSetDlane
  · exact h.execSetRlywarn
  · exact h.execRlywarnLimitWrite
  · exact h.execRawOuts
  · exact h.execBelSetInput
  · exact h.execSetTmo
  · exact h.execSetGains
  · exact h.execSetFir
  · exact h.execSetBusmap
  · exact h.execSetMonitor
  · exact h.execBelRawMatrix
  · exact h.execRawFir
  · exact h.execRawInputs
  · exact h.execAdd
  · exact h.execSub
  · exact h.execAnd
  · exact h.execOr
  · exact h.execXor
  · exact h.execNor
  · exact h.execSlt
  · exact h.execSltu
  · exact h.execShl
  · exact h.execShr
  · exact h.execShra
  · exact h.execMin
  · exact h.execMax
  · exact h.execMinu
  · exact h.execMaxu
  · exact h.execClz
  · exact h.execMul
  · exact h.execMulh
  · exact h.execMulhu
  · exact h.execDiv
  · exact h.execDivu
  · exact h.execRem
  · exact h.execRemu
  · exact h.execJr
  · exact h.execJalr
  · exact h.execJmp
  · exact h.execJal
  · exact h.execAddk
  · exact h.execAndk
  · exact h.execOrk
  · exact h.execXork
  · exact h.execSltk
  · exact h.execSltuk
  · exact h.execShlk
  · exact h.execShrk
  · exact h.execShrak
  · exact h.execMovh
  · exact h.execLdb
  · exact h.execLdbu
  · exact h.execLdh
  · exact h.execLdhu
  · exact h.execLdw
  · exact h.execStb
  · exact h.execSth
  · exact h.execStw
  · exact h.execBeq
  · exact h.execBne
  · exact h.execBlt
  · exact h.execBge
  · exact h.execBltu
  · exact h.execBgeu
  · exact h.execSys
  · exact h.execWff
  · exact h.execWffComplete
  · exact h.execEret
  · exact h.execFeret
  · exact h.execTrap
  · exact h.execResultArrive
  · exact h.execNormalInterruptEntry
  · exact h.execFastInterruptEntry
  · exact h.execOcnt
  · exact h.execOrec
  · exact h.execCell
  · exact h.execGather
  · exact h.execHadd
  · exact h.execHget
  · exact h.execHclr
  · exact h.execFetch
  · exact h.execServiceFetchDone
  · exact h.execResw
  · exact h.execResor
  · exact h.execResget
  · exact h.execQget
  · exact h.execLanternPortRequest
  · exact h.execBudgetOverrun
  · exact h.execLoadProgram
  · exact h.execSetInterleave
  · exact h.execRun
  · exact h.execCoreEntry
  · exact h.execLoadTable
  · exact h.execRawReadmem
  · exact h.execLoadBitstream
  · exact h.execSetPortmap
  · exact h.execEventRaise
  · exact h.execHoldoffEnd
  · exact h.execGuardWindowEnd
  · exact h.execConsumerActivation
  · exact h.execNotificationWrite
  · exact h.execIrqFilterPass
  · exact h.execMsixSend
  · exact h.execPublish
  · exact h.execSubscribe
  · exact h.execSetGate
  · exact h.execSetMatrix
  · exact h.execSetNotify
  · exact h.execSetChannel
  · exact h.execResumeChannel
  · exact h.execSetGuard
  · exact h.execRaise
  · exact h.execEvtSwpubWrite
  · exact h.execEvtKstatStopWrite
  · exact h.execEvtRawMatrix
  · exact h.execRawRoutes
  · exact h.execRawConsumers
  · exact h.execRoute
  · exact h.execSetFilter
  · exact h.execMaskTarget
  · exact h.execClearPending
  · exact h.execIrqPendWrite
  · exact h.execIrqRawSources
  · exact h.execCounterMatch
  · exact h.execCounterOverflow
  · exact h.execCounterWriteApply
  · exact h.execCntLoadWrite
  · exact h.execCntSnapReq
  · exact h.execSnapshotComplete
  · exact h.execSetCounter
  · exact h.execLoad
  · exact h.execSetCompare
  · exact h.execSnap
  · exact h.execRawCounters
  · exact h.execSramAccess
  · exact h.execScrubPass
  · exact h.execJournalCompaction
  · exact h.execSetWindow
  · exact h.execRunBist
  · exact h.execRepair
  · exact h.execSetCapstream
  · exact h.execReleaseFreeze
  · exact h.execSetLogsize
  · exact h.execReadMem
  · exact h.execWriteMem
  · exact h.execInjectError
  · exact h.execStart
  · exact h.execDmaCtlGo
  · exact h.execDmaCtlAbort
  · exact h.execDmaNextLoWrite
  · exact h.execDmaBurst
  · exact h.execDescriptorEnd
  · exact h.execSetNext
  · exact h.execDmaAbort
  · exact h.execDmaSetChannel
  · exact h.execSetArb
  · exact h.execRawChannels
  · exact h.execBlit
  · exact h.execBltCtlGo
  · exact h.execBltCtlAbort
  · exact h.execBltBurst
  · exact h.execSetGap
  · exact h.execBltAbort
  · exact h.execVerificationEnd
  · exact h.execTransferTimeout
  · exact h.execAttest
  · exact h.execAttestReportDone
  · exact h.execGetCert
  · exact h.execFwUpdate
  · exact h.execFwActivate
  · exact h.execFwConfirm
  · exact h.execRaiseFloor
  · exact h.execOwnerClaim
  · exact h.execOwnerClaimConfirm
  · exact h.execOwnerClaimTimeout
  · exact h.execOwnerHandover
  · exact h.execOwnerReset
  · exact h.execTrialBootTimeout
  · exact h.execTandemFrameReceive
  · exact h.execSetRole
  · exact h.execSwitchPermit
  · exact h.execClearDemote
  · exact h.execRawLink
  · exact h.execReqState
  · exact h.execStandbyWake
  · exact h.execWakeComplete
  · exact h.execSetAvs
  · exact h.execReset
  · exact h.execSetWake
  · exact h.execSetFillcmd
  · exact h.execSetTlim
  · exact h.execRawDomains
  · exact h.execPowerOn
  · exact h.execWarmReset
  · exact h.execConsoleCommand
  · exact h.execPowerLoss
  · exact h.execSupplyDcLoss
  · exact h.execSupplyDcGood
  · exact h.execAcFail
  · exact h.execAcReturn
  · exact h.execAvsUpdate
  · exact h.execRailFault
  · exact h.execFanFail
  · exact h.execThermalWarn
  · exact h.execThermalFault
  · exact h.execThermalCutoff
  · exact h.execModuleInsert
  · exact h.execModuleRemove
  · exact h.execAcquisitionCrossing
  · exact h.execHoldoverBcTick
  · exact h.execCounterIncrement
  · exact h.execD3hotExit
  · exact h.execConfigurationRequest

/-! ### The step -/

theorem Engine.Canon.step (h : s.eng.Canon) : Keeps (step s) := by
  unfold Machine.step
  split
  · exact keeps_next h.linkDrain
  · exact Engine.Canon.exec (s := { s with pending := _ }) h

/-- Settles O58: the form is kept by the drain of the outbound buffer and by every command (`Engine.Canon.step`). -/
theorem stepKeepsCanonical : Obligations.StepKeepsCanonical := by
  unfold Obligations.StepKeepsCanonical
  intro s t hc hs ht
  exact (Engine.canon_iff t.eng).mp (Engine.Canon.step ((Engine.canon_iff s.eng).mpr ⟨hc, hs⟩) t ht)

end Sys2Proof.Machine
end

/-! ## The host's reads and writes of BAR0 -/

section
namespace Sys2Proof.Machine

/-! ### Words that freeze others -/

/-- Where the words that freeze and those that release stand in `freezers`: no word does both, and each is found at its own entry. -/
theorem freezers_apart : ∀ g ∈ freezers,
    freezers.find? (fun x => x.1 == g.1) = some g ∧ freezers.find? (fun x => x.2.2 == g.1) = none
      ∧ freezers.find? (fun x => x.2.2 == g.2.2) = some g ∧ freezers.find? (fun x => x.1 == g.2.2) = none := by decide

theorem freezers_aligned : ∀ g ∈ freezers, g.1 < 2 ^ 25 ∧ g.1 % 4 = 0 ∧ g.2.2 < 2 ^ 25 ∧ g.2.2 % 4 = 0 := by decide

section
variable {v : Nat → Nat} {x : Nat}

/-- A word that is frozen keeps its value. -/
theorem get_freeze_of_ne_zero : ∀ (hs : List Nat) {t : Tab}, t.wf = true → t.get x ≠ 0 →
    (hs.foldl (fun t h => if Tab.get t h = 0 then t.set h (1 + v h) else t) t).get x = t.get x
  | [], _, _, _ => rfl
  | h :: hs, t, hw, hx => by
    rw [List.foldl_cons]
    split
    · rename_i h0
      have hne : x ≠ h := fun hxh => hx (hxh ▸ h0)
      have hget : (t.set h (1 + v h)).get x = t.get x := Tab.get_set_ne hw hne _
      rw [get_freeze_of_ne_zero hs (Tab.wf_set hw _ _) (hget ▸ hx), hget]
    · exact get_freeze_of_ne_zero hs hw hx

theorem get_freeze_of_mem : ∀ {hs : List Nat} {t : Tab}, t.wf = true → t.get x = 0 → x ∈ hs →
    (hs.foldl (fun t h => if Tab.get t h = 0 then t.set h (1 + v h) else t) t).get x = 1 + v x
  | h :: hs, t, hw, hx, hm => by
    rw [List.foldl_cons]
    by_cases hxh : x = h
    · subst hxh
      have hget : (t.set x (1 + v x)).get x = 1 + v x := Tab.get_set_same hw _ _
      rw [if_pos hx, get_freeze_of_ne_zero hs (Tab.wf_set hw _ _) (by omega), hget]
    · have hm' : x ∈ hs := (List.mem_cons.mp hm).resolve_left hxh
      split
      · exact get_freeze_of_mem (Tab.wf_set hw _ _) ((Tab.get_set_ne hw hxh _).trans hx) hm'
      · exact get_freeze_of_mem hw hx hm'

theorem get_release_of_zero : ∀ (hs : List Nat) {t : Tab}, t.wf = true → t.get x = 0 → (hs.foldl (fun t h => Tab.set t h 0) t).get x = 0
  | [], _, _, hx => hx
  | h :: hs, t, hw, hx => by
    refine get_release_of_zero hs (Tab.wf_set hw _ _) ?_
    by_cases hxh : x = h
    · exact hxh ▸ Tab.get_set_same hw _ _
    · exact (Tab.get_set_ne hw hxh _).trans hx

theorem get_release_of_mem : ∀ {hs : List Nat} {t : Tab}, t.wf = true → x ∈ hs → (hs.foldl (fun t h => Tab.set t h 0) t).get x = 0
  | h :: hs, t, hw, hm => by
    rw [List.foldl_cons]
    by_cases hxh : x = h
    · exact get_release_of_zero hs (Tab.wf_set hw _ _) (hxh ▸ Tab.get_set_same hw _ _)
    · exact get_release_of_mem (Tab.wf_set hw _ _) ((List.mem_cons.mp hm).resolve_left hxh)

end

/-! ### A read of an aligned word -/

variable {e : Engine} {a : Nat}

theorem clearOnRead_eq (e : Engine) (a : Nat) : clearOnRead e a = { e with
    regs := e.regs.puts (((fieldsAt a).filter (fun fa => fa.2 == .rc)).map (fun fa => (fa.1, 0)))
    tim := if a = 0x100050 then { e.tim with rmissFresh := true } else e.tim } := by
  unfold clearOnRead
  cases (fieldsAt a).filter (fun fa => fa.2 == .rc) <;> split <;> rfl

theorem clearOnRead_frozen (e : Engine) (a : Nat) : (clearOnRead e a).host.frozen = e.host.frozen := by rw [clearOnRead_eq]

/-- Before the read clears its fields, it has changed frozen words only. -/
theorem readWord_snd (e : Engine) (a : Nat) : ∃ t, (readWord e a).2 = clearOnRead { e with host := { e.host with frozen := t } } a := by
  unfold readWord
  dsimp only
  split <;> split <;> exact ⟨_, rfl⟩

theorem readWord_fst (h : e.host.frozen.get a = 0) : (readWord e a).1 = wordValue e a := if_pos h

theorem readWord_fst_frozen (h : e.host.frozen.get a ≠ 0) : (readWord e a).1 = e.host.frozen.get a - 1 := if_neg h

theorem readWord_frozen_plain (h : ∀ g ∈ freezers, g.1 ≠ a ∧ g.2.2 ≠ a) : (readWord e a).2.host.frozen = e.host.frozen := by
  have h1 : freezers.find? (fun g => g.1 == a) = none := List.find?_eq_none.mpr fun g hg => by simpa using (h g hg).1
  have h2 : freezers.find? (fun g => g.2.2 == a) = none := List.find?_eq_none.mpr fun g hg => by simpa using (h g hg).2
  unfold readWord
  rw [h1, h2]
  exact clearOnRead_frozen _ _

theorem readWord_frozen_lo {g : Nat × List Nat × Nat} (hg : g ∈ freezers) :
    (readWord e g.1).2.host.frozen = (freezeWords e g.2.1).host.frozen := by
  obtain ⟨h1, h2, -, -⟩ := freezers_apart g hg
  unfold readWord
  rw [h1, h2]
  exact clearOnRead_frozen _ _

theorem readWord_frozen_release {g : Nat × List Nat × Nat} (hg : g ∈ freezers) :
    (readWord e g.2.2).2.host.frozen = (thaw e g.2.1).host.frozen := by
  obtain ⟨-, -, h1, h2⟩ := freezers_apart g hg
  unfold readWord
  rw [h1, h2]
  exact clearOnRead_frozen _ _

theorem readStep_word (hst : e.st ≠ stOff) (ha : a < 2 ^ 25) (h4 : a % 4 = 0) :
    readStep 0 a 4 e = { (readWord e a).2 with host := { (readWord e a).2.host with lastRead := (readWord e a).1 } } := by
  have hok : accessOk a 4 = true := by simp [accessOk, h4]
  rw [readStep, if_neg hst, barRead, if_pos ⟨rfl, ha⟩, hok]
  rfl

theorem readStep_reads (hst : e.st ≠ stOff) (ha : a < 2 ^ 25) (h4 : a % 4 = 0) : Reads a (readWord e a).1 e (readStep 0 a 4 e) := by
  obtain ⟨t, ht⟩ := readWord_snd e a
  rw [readStep_word hst ha h4, ht, clearOnRead_eq]
  rfl

theorem readStep_frozen (hst : e.st ≠ stOff) (ha : a < 2 ^ 25) (h4 : a % 4 = 0) :
    (readStep 0 a 4 e).host.frozen = (readWord e a).2.host.frozen := by rw [readStep_word hst ha h4]

/-- A read of a _LO word answers the word's value and freezes its companions. -/
theorem readStep_lo {g : Nat × List Nat × Nat} (hst : e.st ≠ stOff) (hw : e.host.frozen.wf = true) (hg : g ∈ freezers)
    (h0 : e.host.frozen.get g.1 = 0) :
    Reads g.1 (wordValue e g.1) e (readStep 0 g.1 4 e)
      ∧ ∀ h ∈ g.2.1, e.host.frozen.get h = 0 → (readStep 0 g.1 4 e).host.frozen.get h = 1 + wordValue e h := by
  obtain ⟨ha, h4, -, -⟩ := freezers_aligned g hg
  refine ⟨readWord_fst h0 ▸ readStep_reads hst ha h4, fun h hh hz => ?_⟩
  rw [readStep_frozen hst ha h4, readWord_frozen_lo hg]
  exact get_freeze_of_mem hw hz hh

/-- The read that releases a _LO word's companions answers the frozen value. -/
theorem readStep_release {g : Nat × List Nat × Nat} (hst : e.st ≠ stOff) (hw : e.host.frozen.wf = true) (hg : g ∈ freezers)
    (h0 : e.host.frozen.get g.2.2 ≠ 0) :
    Reads g.2.2 (e.host.frozen.get g.2.2 - 1) e (readStep 0 g.2.2 4 e) ∧ ∀ h ∈ g.2.1, (readStep 0 g.2.2 4 e).host.frozen.get h = 0 := by
  obtain ⟨-, -, ha, h4⟩ := freezers_aligned g hg
  refine ⟨readWord_fst_frozen h0 ▸ readStep_reads hst ha h4, fun h hh => ?_⟩
  rw [readStep_frozen hst ha h4, readWord_frozen_release hg]
  exact get_release_of_mem hw hh

/-! ### An access that is not aligned -/

theorem accessOk_eq_false {off size : Nat} (h : (size ≠ 4 ∧ size ≠ 8) ∨ off % size ≠ 0) : accessOk off size = false := by
  unfold accessOk
  obtain ⟨h4, h8⟩ | h := h
  · simp [h4, h8]
  · simp [h]

theorem readStep_bad {off size : Nat} (hst : e.st ≠ stOff) (ho : off < 2 ^ 25) (h : accessOk off size = false) :
    readStep 0 off size e = { badAccess e off with host := { (badAccess e off).host with lastRead := 0xFFFFFFFF } } := by
  rw [readStep, if_neg hst, barRead, if_pos ⟨rfl, ho⟩, h]
  rfl

theorem execReadClear_bad {off size : Nat} {s : State} (hst : s.eng.st ≠ stOff) (ho : off < 2 ^ 25) (h : accessOk off size = false) :
    execReadClear 0 off size s
      = .next { s with eng := { badAccess s.eng off with host := { (badAccess s.eng off).host with lastRead := 0xFFFFFFFF } } } := by
  rw [execReadClear, readStep_bad hst ho h]

theorem execRegisterWrite_bad {off size val : Nat} {s : State} (hst : s.eng.st ≠ stOff) (ho : off < 2 ^ 25)
    (h : accessOk off size = false) : execRegisterWrite 0 off size val s = .next { s with eng := badAccess s.eng off } := by
  rw [execRegisterWrite, if_neg hst, barWrite, if_pos ⟨rfl, ho⟩, h]
  rfl

/-! ### A write of an aligned word -/

theorem regRowsOf_lo_lt (b : Nat) : ∀ r ∈ regRowsOf b, r.lo < 32 := by
  unfold regRowsOf
  split <;> decide +kernel

/-- The enables of the Carillon's lists lie in its block, so no word of another block holds one. -/
theorem blockOfAddr_of_listEnable {off l : Nat} {fa : Fld × Access} (hl : l < 2) (hf : fa ∈ fieldsAt off)
    (he : fa.1 = Reg.SEQ_LCTL_EN l) : blockOfAddr off = 8 := by
  obtain ⟨r, hr, rfl⟩ := List.mem_map.mp hf
  have hlo : r.lo < 32 := regRowsOf_lo_lt _ r (List.mem_filter.mp hr).1
  have hkey : 32 * off + r.lo = 32 * (0x900100 + 0x40 * l) + 0 := congrArg Fld.key he
  have hoff : off = 0x900100 + 0x40 * l := by omega
  unfold blockOfAddr
  grind

/-- A write to a block other than SEQ marks no list for a swap. -/
theorem listMarks_eq_nil {off : Nat} {ws : List (Fld × Nat)} (hb : blockOfAddr off ≠ 8) (hws : ∀ w ∈ ws, ∃ fa ∈ fieldsAt off, w.1 = fa.1) :
    ([0, 1] : List Nat).flatMap (fun l => if ws.any (fun w => w.1 == Reg.SEQ_LCTL_EN l) then [(seqMark l, 1)] else []) = [] := by
  refine List.flatMap_eq_nil_iff.mpr fun l hl => if_neg fun h => ?_
  obtain ⟨w, hw, he⟩ := List.any_eq_true.mp h
  obtain ⟨fa, hf, hwf⟩ := hws w hw
  exact hb (blockOfAddr_of_listEnable (by grind) hf (hwf ▸ eq_of_beq he))

theorem execRegisterWrite_word {off val : Nat} {s : State} (hst : s.eng.st ≠ stOff) (ho : off < 2 ^ 25) (h4 : off % 4 = 0) :
    execRegisterWrite 0 off 4 val s = .next { s with eng := writeReg s.eng off (val % 2 ^ 32) } := by
  have hok : accessOk off 4 = true := by simp [accessOk, h4]
  rw [execRegisterWrite, if_neg hst, barWrite, if_pos ⟨rfl, ho⟩, hok]
  rfl

/-- The staged values that a write of `v` to word `a` gives. -/
def stagedWrites (e : Engine) (a v : Nat) : List (Fld × Nat) :=
  (((fieldsAt a).filter (fun fa => fa.2 == .st)).map (fun fa => (fa.1, v / 2 ^ fa.1.lo % 2 ^ fa.1.width))).filter
    (fun w => !keepChange e w.1 w.2)

theorem fieldsAt_of_stagedWrites {v : Nat} : ∀ w ∈ stagedWrites e a v, ∃ fa ∈ fieldsAt a, w.1 = fa.1 := by
  intro w hw
  obtain ⟨fa, hf, rfl⟩ := List.mem_map.mp (List.mem_filter.mp hw).1
  exact ⟨fa, (List.mem_filter.mp hf).1, rfl⟩

/-- A write to a word of a block that runs, where the word is neither the history freeze's subscription nor a Control ring register nor one
that acts at once: its staged fields are staged, and the rest of it waits for the boundary. -/
theorem writeReg_eq {v : Nat} (h258 : a ≠ 0xE21020) (hctl : e.reg Reg.HST_CTL_EN = 0 ∨ ctrlWord a = false) (hst : e.st ≠ stStandby)
    (hact : (actsAtOnce a).isNone = true) (hb : blockOfAddr a ∉ [8, 17, 18]) :
    writeReg e a v =
      let e1 : Engine := if stagedWrites e a v = [] then e
        else Engine.takeLock { e with staged := e.staged.puts (stagedWrites e a v) } (blockOfAddr a) 0
      if (fieldsAt a).any (fun fa => fa.2 == .rw || fa.2 == .w1c || fa.2 == .w1s) = true then e1.laterWord a v else e1 := by
  have hb8 : blockOfAddr a ≠ 8 := by grind
  have hb17 : ¬((actsAtOnce a).isSome = true ∨ blockOfAddr a = 17 ∨ blockOfAddr a = 18) := by
    rw [Option.isNone_iff_eq_none.mp hact]
    grind
  have hctl' : ¬(ctrlWord a = true ∧ e.reg Reg.HST_CTL_EN = 1) := by grind
  have hmarks := listMarks_eq_nil hb8 (fieldsAt_of_stagedWrites (e := e) (v := v))
  unfold stagedWrites at hmarks ⊢
  unfold writeReg
  rw [if_neg h258, if_neg hctl']
  dsimp only
  rw [hmarks, if_neg (fun h => hst h.1), if_neg hb17, List.append_nil]
  simp only [List.isEmpty_iff]

/-- Settles O33: reads by what `readStep` answers, freezes and releases, writes by `writeReg_eq`. -/
theorem hostAccess : Obligations.HostAccess := by
  unfold Obligations.HostAccess
  refine ⟨?_, ?_, ?_, ?_⟩
  · intro off s hst ho h4 h0 hg
    refine ⟨_, rfl, rfl, readWord_fst h0 ▸ readStep_reads hst ho h4, ?_⟩
    exact (readStep_frozen hst ho h4).trans (readWord_frozen_plain hg)
  · intro off size val s hst ho h
    have hok := accessOk_eq_false h
    exact ⟨execReadClear_bad hst ho hok, execRegisterWrite_bad hst ho hok⟩
  · intro s hst hw
    have hlo : ∀ g ∈ freezers, s.eng.host.frozen.get g.1 = 0 →
        Completes s (exec (.loWordFreezeRead g.1) s) (fun t => Reads g.1 (wordValue s.eng g.1) s.eng t
          ∧ ∀ h ∈ g.2.1, s.eng.host.frozen.get h = 0 → t.host.frozen.get h = 1 + wordValue s.eng h) :=
      fun g hg h0 => ⟨_, rfl, rfl, readStep_lo hst hw hg h0⟩
    refine ⟨fun h0 h1 => ?_, hlo (0x64, [0x68, 0x6C, 0x70], 0x70) (by decide), hlo,
      fun g hg h0 => ⟨_, rfl, rfl, readStep_release hst hw hg h0⟩⟩
    obtain ⟨t, ht, hq, hr, hf⟩ := hlo (0x10002C, [0x100030], 0x100030) (by decide) h0
    exact ⟨t, ht, hq, hr, hf 0x100030 (by decide) h1⟩
  · intro off val s hst hsb ho h4 h258 hctl hact hb
    exact (execRegisterWrite_word hst ho h4).trans
      (congrArg (fun g : Engine => Host.Outcome.next { s with eng := g }) (writeReg_eq h258 hctl hsb hact hb))

end Sys2Proof.Machine
end

/-! ## Every command completes -/

section
namespace Sys2Proof.Machine

/-- The outcome is a next state that differs from `s` in the engine alone. -/
def ChangesEngine (s : State) (o : Host.Outcome State Fault Refusal) : Prop := ∃ e : Engine, o = .next { s with eng := e }

theorem ChangesEngine.next (s : State) (e : Engine) : ChangesEngine s (.next { s with eng := e }) := ⟨e, rfl⟩

theorem ChangesEngine.ite {s : State} {c : Prop} [Decidable c] {a b : Host.Outcome State Fault Refusal} (ha : ChangesEngine s a)
    (hb : ChangesEngine s b) : ChangesEngine s (if c then a else b) := by
  split
  · exact ha
  · exact hb

theorem execCommandFetch_changesEngine (ring : Nat) (slots : List Byte) (s : State) : ChangesEngine s (execCommandFetch ring slots s) := by
  unfold execCommandFetch
  split
  · exact .next s _
  · exact .ite (.next s _) (.ite (.next s _) (.ite (.next s _) (.ite (.next s _) (.ite (.next s _) (runCommand_next _ _ _)))))

theorem execNormalInterruptEntry_changesEngine (k : Nat) (s : State) : ChangesEngine s (execNormalInterruptEntry k s) := by
  unfold execNormalInterruptEntry
  dsimp only
  split
  · exact .ite (.next s _) (.next s _)
  · exact .next s _

theorem execFastInterruptEntry_changesEngine (k : Nat) (s : State) : ChangesEngine s (execFastInterruptEntry k s) := by
  unfold execFastInterruptEntry
  dsimp only
  split
  · exact .ite (.next s _) (.next s _)
  · exact .next s _

theorem execServiceFetchDone_changesEngine (k : Nat) (s : State) : ChangesEngine s (execServiceFetchDone k s) := by
  unfold execServiceFetchDone
  dsimp only
  split
  · exact .next s _
  · exact .next s _

theorem execNotificationWrite_changesEngine (src : Nat) (s : State) : ChangesEngine s (execNotificationWrite src s) := by
  unfold execNotificationWrite
  split
  · exact .next s _
  · exact .next s _

theorem execDmaBurst_changesEngine (ch : Nat) (host : Option (List Byte)) (s : State) : ChangesEngine s (execDmaBurst ch host s) := by
  unfold execDmaBurst
  refine .ite (.next s _) (.ite (.next s _) ?_)
  split
  · exact .next s _
  · exact .next s _

theorem execBltBurst_changesEngine (b : Nat) (s : State) : ChangesEngine s (execBltBurst b s) := by
  unfold execBltBurst
  refine .ite ?_ (.next s _)
  dsimp only
  split
  · exact .next s _
  · exact .next s _

theorem execVerificationEnd_changesEngine (s : State) : ChangesEngine s (execVerificationEnd s) := by
  unfold execVerificationEnd
  split
  · exact .next s _
  · exact .next s _

theorem execAttestReportDone_changesEngine (ms : Nat) (s : State) : ChangesEngine s (execAttestReportDone ms s) := by
  unfold execAttestReportDone
  split
  · exact .next s _
  · exact .next s _

theorem execOwnerClaimConfirm_changesEngine (s : State) : ChangesEngine s (execOwnerClaimConfirm s) := by
  unfold execOwnerClaimConfirm
  split
  · exact .next s _
  · exact .next s _

theorem execOwnerClaimTimeout_changesEngine (s : State) : ChangesEngine s (execOwnerClaimTimeout s) := by
  unfold execOwnerClaimTimeout
  split
  · exact .next s _
  · exact .next s _

theorem execTandemFrameReceive_changesEngine (lanes : List (Option Nat)) (owd : Nat) (s : State) :
    ChangesEngine s (execTandemFrameReceive lanes owd s) := by
  unfold execTandemFrameReceive
  refine .ite (.next s _) (.ite (.next s _) ?_)
  extract_lets e2
  split
  · exact .next s _
  · exact .next s _

theorem execConsoleCommand_changesEngine (c : ConsoleCmd) (s : State) : ChangesEngine s (execConsoleCommand c s) := by
  unfold execConsoleCommand
  refine .ite (.next s _) ?_
  cases c with
  | reset => exact .next s _
  | reqState code => exact .ite (.next s _) (.next s _)
  | firmware slot p => exact .ite (.next s _) (.ite (.next s _) (.next s _))

theorem execModuleInsert_changesEngine (cage : Cage) (s : State) : ChangesEngine s (execModuleInsert cage s) := by
  cases cage with
  | dl lane => exact .ite (.next s _) (.next s _)
  | timing | tandem => exact .next s _

theorem execModuleRemove_changesEngine (cage : Cage) (s : State) : ChangesEngine s (execModuleRemove cage s) := by
  cases cage with
  | dl lane | timing | tandem => exact .ite (.next s _) (.next s _)

theorem execCaptureCopy_changesEngine (s : State) : ChangesEngine s (execCaptureCopy s) := by
  unfold execCaptureCopy
  split
  · exact .next s _
  · exact .ite (.next s _) (.next s _)

theorem execPostMortemFreeze_changesEngine (s : State) : ChangesEngine s (execPostMortemFreeze s) := by
  unfold execPostMortemFreeze
  split
  · exact .next s _
  · dsimp only
    split
    · exact .next s _
    · exact .next s _

/-- A command's meaning changes the engine alone. The alternatives follow the shape of the meanings: those that choose by a match have a
lemma each, then come those that choose by one test or several, and every other meaning is one next state. -/
theorem exec_changesEngine (i : Instr) (s : State) : ChangesEngine s (exec i s) := by
  cases i with
  | commandFetch ring slots => exact execCommandFetch_changesEngine ring slots s
  | normalInterruptEntry k => exact execNormalInterruptEntry_changesEngine k s
  | fastInterruptEntry k => exact execFastInterruptEntry_changesEngine k s
  | serviceFetchDone k => exact execServiceFetchDone_changesEngine k s
  | notificationWrite src => exact execNotificationWrite_changesEngine src s
  | dmaBurst ch host => exact execDmaBurst_changesEngine ch host s
  | bltBurst b => exact execBltBurst_changesEngine b s
  | verificationEnd => exact execVerificationEnd_changesEngine s
  | attestReportDone ms => exact execAttestReportDone_changesEngine ms s
  | ownerClaimConfirm => exact execOwnerClaimConfirm_changesEngine s
  | ownerClaimTimeout => exact execOwnerClaimTimeout_changesEngine s
  | tandemFrameReceive lanes owd => exact execTandemFrameReceive_changesEngine lanes owd s
  | consoleCommand c => exact execConsoleCommand_changesEngine c s
  | moduleInsert cage => exact execModuleInsert_changesEngine cage s
  | moduleRemove cage => exact execModuleRemove_changesEngine cage s
  | captureCopy => exact execCaptureCopy_changesEngine s
  | postMortemFreeze => exact execPostMortemFreeze_changesEngine s
  | commandTimeout | dlTxFault | lanternPortRequest | eventRaise | consumerActivation | evtKstatStopWrite | irqPendWrite | counterMatch
  | counterOverflow | snapshotComplete | scrubPass | dmaCtlGo | dmaCtlAbort | dmaNextLoWrite | descriptorEnd | bltCtlGo | bltCtlAbort
  | transferTimeout | registerWrite | stopDrainDone | trialBootTimeout | ptmExchange | wakeComplete | powerOn | linkTrain | warmReset
  | powerLoss | supplyDcLoss | supplyDcGood | acFail | acReturn | avsUpdate | railFault | fanFail | functionLevelReset | thermalWarn
  | thermalFault | thermalCutoff | acquisitionCrossing | holdoverBcTick | configurationRequest | pcieLinkDown | d3hotEntry | crossingTick
  | signalAbsentTimeout | doorbellWrite | relaySenseTimeout | relayCountJournal => exact .ite (.next s _) (.next s _)
  | wffComplete | pllLockChange | lockAcquire => exact .ite (.next s _) (.ite (.next s _) (.next s _))
  | holdoffEnd | irqFilterPass | freqWindowEnd => exact .ite (.next s _) (.ite (.next s _) (.ite (.next s _) (.next s _)))
  | msixSend => exact .ite (.next s _) (.ite (.ite (.next s _) (.next s _)) (.next s _))
  | _ => exact .next s _

/-- Settles O56: every meaning answers a next state that differs in the engine alone, which holds no queue (`exec_changesEngine`). -/
theorem everyCommandCompletes : Obligations.EveryCommandCompletes := by
  intro i s
  obtain ⟨e, he⟩ := exec_changesEngine i s
  exact ⟨_, he, rfl⟩

end Sys2Proof.Machine
end

/-! ## Contexts, reports to host buffers, and the common functions -/

section
namespace Sys2Proof.Machine

/-! ### Contexts, rights, rings and streams -/

/-- Settles O23: the effects are those of the model's functions, run as actions (`runAction_does`); DESTROY_RING answers by itself. -/
theorem contextFunctions : Obligations.ContextFunctions := by
  unfold Obligations.ContextFunctions
  refine ⟨?openCtx, ?closeCtx, ?grant, ?revoke, ?assign, ?createRing, ?destroyRing, ?stopStreams, ?resumeStreams, ?ptmSample⟩
  case openCtx => exact runAction_does (act := actOpenCtx) fun _ _ => rfl
  case closeCtx => exact runAction_does (act := fun e p => closeCtx p.target e) fun _ _ => rfl
  case grant => exact runAction_does (act := setRight true) fun _ _ => rfl
  case revoke => exact runAction_does (act := setRight false) fun _ _ => rfl
  case assign => exact runAction_does (act := fun e p => pruneRoutes (moveResource p.target e (p.arg 0) (p.arg 1))) fun _ _ => rfl
  case createRing => exact runAction_does (act := actCreateRing) fun _ _ => rfl
  case destroyRing => exact runAsync_does (act := actDestroyRing) (fun _ _ => rfl) fun _ _ => rfl
  case stopStreams =>
    exact runAction_does (act := fun e p => stopRings (fun c => p.target == allInstances || c == p.target)
      (if p.target = allInstances then e.reg Reg.HST_STOPSTAT_CTX else p.target) e) fun _ _ => rfl
  case resumeStreams =>
    exact runAction_does (act := fun e p => resumeRings (fun c => p.target == allInstances || c == p.target) e) fun _ _ => rfl
  case ptmSample => exact runAction_does (act := fun e p => e.post (p.arg64 0) (ptmBytes e)) fun _ _ => rfl

/-! ### Reports to a host buffer -/

/-- Settles O24: each function posts its bytes as an action (`runAction_does`); READ_MEM answers by itself, for its read may fail. -/
theorem readFunctions : Obligations.ReadFunctions := by
  unfold Obligations.ReadFunctions
  refine ⟨?previewLatency, ?readRelease, ?eqRead, ?rawReadmem, ?readMem, ?getCert⟩
  case previewLatency =>
    exact runAction_does (act := fun e p => e.post (p.arg64 0) (previewBytes (e.viewOf stagedBlocks p.ctx) e.active)) fun _ _ => rfl
  case readRelease => exact runAction_does (act := fun e p => e.post (p.arg64 0) (releaseBytes e)) fun _ _ => rfl
  case eqRead => exact runAction_does (act := actEqRead) fun _ _ => rfl
  case rawReadmem => exact runAction_does (act := actRawReadmem) fun _ _ => rfl
  case readMem => exact runAsync_does (act := actReadMem) (fun _ _ => rfl) fun _ _ => rfl
  case getCert => exact runAction_does (act := fun e p => e.post (p.arg64 0) certObj) fun _ _ => rfl

/-! ### Common functions -/

/-- In a block other than KEEP a common function runs as an action that refuses nothing more. -/
theorem runCommon_defined {blk : Nat} (h1 : 1 ≤ blk) (h22 : blk ≤ 22) (h6 : blk ≠ 6) (f : Fn) (act : Engine → Packet → Engine) (p : Packet)
    (e : Engine) : runCommon blk f act p e = runAction f noExtra act p e := by
  unfold runCommon
  rw [if_neg (by omega), if_neg h6]
  rfl

theorem runCommon_undefined {blk : Nat} (h : blk = 0 ∨ 22 < blk) (f : Fn) (act : Engine → Packet → Engine) (p : Packet) (e : Engine) :
    runCommon blk f act p e = e.complete p .badop := if_pos h

theorem runCommon_keep (f : Fn) (act : Engine → Packet → Engine) (p : Packet) (e : Engine) :
    runCommon 6 f act p e = e.complete p (keepRefusal p) := rfl

/-- A command that runs a common function of a block other than KEEP does what an action does. -/
theorem runCommon_does {blk : Nat} (h1 : 1 ≤ blk) (h22 : blk ≤ 22) (h6 : blk ≠ 6) {i : Packet → Instr} {f : Fn} {act : Engine → Packet → Engine}
    (hx : ∀ p s, exec (i p) s = .next { s with eng := runCommon blk f act p s.eng }) : ActionCommand i f noExtra act :=
  runAction_does fun p s => by rw [hx, runCommon_defined h1 h22 h6]

/-- The four commands run a common function of their block. -/
theorem exec_common {blk : Nat} {p : Packet} {i : Instr} (hi : i ∈ [Instr.query blk p, .commit blk p, .discard blk p, .readActive blk p])
    (s : State) : ∃ f act, exec i s = .next { s with eng := runCommon blk f act p s.eng } := by
  simp only [List.mem_cons, List.not_mem_nil, or_false] at hi
  obtain rfl | rfl | rfl | rfl := hi
  · exact ⟨_, _, rfl⟩
  · exact ⟨_, _, rfl⟩
  · exact ⟨_, _, rfl⟩
  · exact ⟨_, _, rfl⟩

/-- Settles O31: in a block that has them the common functions run as actions (`runCommon_does`); an undefined code and KEEP answer with
their status alone (`runCommon_undefined`, `runCommon_keep`). -/
theorem commonFunctions : Obligations.CommonFunctions := by
  unfold Obligations.CommonFunctions
  refine ⟨fun blk h1 h22 h6 => ⟨?query, ?commit, ?discard, ?readActive⟩, fun p s i blk hi => ?_⟩
  case query => exact runCommon_does h1 h22 h6 fun _ _ => rfl
  case commit => exact runCommon_does h1 h22 h6 fun _ _ => rfl
  case discard =>
    exact runCommon_does (act := fun e p => if e.lockOf blk = p.ctx + 1 then e.discardBlock blk else e) h1 h22 h6 fun _ _ => rfl
  case readActive => exact runCommon_does h1 h22 h6 fun _ _ => rfl
  · obtain ⟨f, act, hx⟩ := exec_common hi s
    refine ⟨fun hu => ⟨_, hx, rfl, ?_⟩, fun hk => ⟨_, hx, rfl, ?_⟩⟩
    · rw [runCommon_undefined hu]
      exact complete_answers _ _ _
    · rw [hk, runCommon_keep]
      exact complete_answers _ _ _

end Sys2Proof.Machine
end

/-! ## Doorbells, stops and resumes -/

section
namespace Sys2Proof.Machine

/-! ### What a doorbell does -/

theorem execDoorbellWrite_running {s : State} (h : s.eng.st ≠ stOff) (off size val : Nat) :
    execDoorbellWrite off size val s = .next { s with eng := doorbell off size val s.eng } := if_neg h

/-- A 32-bit write to the word of ring `id` (R45). -/
theorem doorbell_word {id : Nat} (hid : id < 2 ^ 18) (v : Nat) (e : Engine) :
    doorbell (8 * id) 4 v e = (e.ring? id).elim (e.bump Reg.HST_DBLOST_COUNT) fun r => ringBell e r (v % 2 ^ 32) := by
  unfold doorbell
  rw [if_neg (by simp only [beq_self_eq_true, Bool.true_or, Bool.not_true, Bool.false_eq_true, or_false]; omega),
    Nat.mul_div_cancel_left id (by decide)]
  cases e.ring? id with
  | none => rfl
  | some r => rfl

theorem doorbell_ring {id v : Nat} {e : Engine} {r : Ring} (hid : id < 2 ^ 18) (hv : v < 2 ^ 32) (hr : e.ring? id = some r) :
    doorbell (8 * id) 4 v e = ringBell e r v := by
  rw [doorbell_word hid, hr, Option.elim_some, Nat.mod_eq_of_lt hv]

theorem doorbell_lost {id : Nat} {e : Engine} (hid : id < 2 ^ 18) (hr : e.ring? id = none) (v : Nat) :
    doorbell (8 * id) 4 v e = e.bump Reg.HST_DBLOST_COUNT := by
  rw [doorbell_word hid, hr, Option.elim_none]

theorem ringBell_fault {r : Ring} (h : r.fault = true) (e : Engine) (v : Nat) : ringBell e r v = e := if_pos h

/-- The producer count of a CMD ring: forward, by no more than the ring holds (R45, R47). -/
theorem ringBell_cmd {r : Ring} (hf : r.fault = false) (ht : r.typ = 0) (e : Engine) (v : Nat) :
    ringBell e r v = if 2 ^ 31 ≤ (v + 2 ^ 32 - r.prod) % 2 ^ 32 ∨ 2 ^ r.k < (v + 2 ^ 32 - r.cons) % 2 ^ 32 then ringFault e r
      else e.putRing { r with prod := v } := by
  rw [ringBell, if_neg (by simp [hf]), if_pos ht]

/-- The consumer count of another ring: not past the producer count (R45, R47, R50). -/
theorem ringBell_consumer {r : Ring} (hf : r.fault = false) (ht : r.typ ≠ 0) (e : Engine) (v : Nat) :
    ringBell e r v = if r.used < (v + 2 ^ 32 - r.cons) % 2 ^ 32 then ringFault e r
      else (e.putRing { r with cons := v, armed := true }).flushHeld := by
  rw [ringBell, if_neg (by simp [hf]), if_neg ht]

/-- The outbound buffer has emptied after a stop (R67). -/
def drained (e : Engine) : Engine := { e.linkDrain with host := { e.linkDrain.host with draining := false } }

theorem execStopDrainDone_draining {s : State} (h : s.eng.host.draining = true) : execStopDrainDone s = .next { s with
    eng := ((drained s.eng).setReg Reg.HST_STOPSTAT_DONE 1).raise Src.stopDone (s.eng.reg Reg.HST_STOPSTAT_CTX) } :=
  if_neg (by simp [h])

/-- Settles O34: a doorbell acts on its ring (`doorbell_ring`) by the ring's type (`ringBell_cmd`, `ringBell_consumer`); the stops and
resumes are those of R67. -/
theorem doorbellsAndStops : Obligations.DoorbellsAndStops := by
  unfold Obligations.DoorbellsAndStops
  refine ⟨fun id v s r hst hid hv hr => ?rings, fun id v s hst hid hr => ?lost,
    fun ctx s => ⟨rfl, rfl, rfl, rfl, execStopDrainDone_draining⟩⟩
  case rings =>
    have hx : exec (.doorbellWrite (8 * id) 4 v) s = .next { s with eng := ringBell s.eng r v } := by
      rw [← doorbell_ring hid hv hr]
      exact execDoorbellWrite_running hst _ _ _
    dsimp only
    rw [hx]
    refine ⟨fun hf => ?_, fun hf ht hp hc => ?_, fun hf ht hb => ?_, fun hf ht hc => ?_, fun hf ht hc => ?_⟩
    · rw [ringBell_fault hf]
    · rw [ringBell_cmd hf ht, if_neg (by omega)]
    · rw [ringBell_cmd hf ht, if_pos hb]
    · rw [ringBell_consumer hf ht, if_neg (by omega)]
    · rw [ringBell_consumer hf ht, if_pos hc]
  case lost =>
    rw [← doorbell_lost hid hr v]
    exact execDoorbellWrite_running hst _ _ _

end Sys2Proof.Machine
end

/-! ## The PCIe side -/

section
namespace Sys2Proof.Machine

/-! ### What a reset of the host interface leaves as it was -/

/-- From `e` to `f` rings, contexts, resources and what waits for them have changed: not the MSI-X table, the queue of writes, memory or
the frames; and registers keep their canonical form. -/
structure Detaches (e f : Engine) : Prop where
  msix : f.host.msix = e.host.msix
  pba : f.host.pba = e.host.pba
  fnMask : f.host.fnMask = e.host.fnMask
  d3hot : f.host.d3hot = e.host.d3hot
  out : f.host.out = e.host.out
  mem : f.mem = e.mem
  frames : f.frames = e.frames
  wf : e.regs.wf = true → f.regs.wf = true

namespace Detaches

theorem refl (e : Engine) : Detaches e e := ⟨rfl, rfl, rfl, rfl, rfl, rfl, rfl, id⟩

theorem trans {e f g : Engine} (a : Detaches e f) (b : Detaches f g) : Detaches e g where
  msix := b.msix.trans a.msix
  pba := b.pba.trans a.pba
  fnMask := b.fnMask.trans a.fnMask
  d3hot := b.d3hot.trans a.d3hot
  out := b.out.trans a.out
  mem := b.mem.trans a.mem
  frames := b.frames.trans a.frames
  wf := b.wf ∘ a.wf

theorem foldl {α : Type} {f : Engine → α → Engine} (hf : ∀ e a, Detaches e (f e a)) (l : List α) (e : Engine) : Detaches e (l.foldl f e) :=
  List.foldlRecOn l f (refl e) fun r hr a _ => hr.trans (hf r a)

theorem cutChains (e : Engine) : Detaches e (cutChains e) := ⟨rfl, rfl, rfl, rfl, rfl, rfl, rfl, id⟩

theorem dropHeldCommits (p : Nat → Bool) (e : Engine) : Detaches e (dropHeldCommits p e) := ⟨rfl, rfl, rfl, rfl, rfl, rfl, rfl, id⟩

theorem orphan (p : Nat → Nat → Bool) (e : Engine) : Detaches e (orphan p e) := ⟨rfl, rfl, rfl, rfl, rfl, rfl, rfl, id⟩

theorem closePends (p : Pend → Bool) (e : Engine) : Detaches e (closePends p e) := ⟨rfl, rfl, rfl, rfl, rfl, rfl, rfl, id⟩

theorem freeWindows (p : Nat → Bool) (e : Engine) : Detaches e (freeWindows p e) :=
  ⟨rfl, rfl, rfl, rfl, rfl, rfl, rfl, fun h => Tab.wf_puts _ h⟩

theorem moveResource (c : Nat) (e : Engine) (kind i : Nat) : Detaches e (moveResource c e kind i) :=
  ⟨rfl, rfl, rfl, rfl, rfl, rfl, rfl, fun h => Tab.wf_puts _ h⟩

theorem putXfers (e : Engine) (xs : List Xfer) : Detaches e (putXfers e xs) :=
  ⟨rfl, rfl, rfl, rfl, rfl, rfl, rfl, fun h => Tab.wf_put h _ _⟩

theorem setupCounts (e : Engine) : Detaches e (setupCounts e) := ⟨rfl, rfl, rfl, rfl, rfl, rfl, rfl, fun h => Tab.wf_puts _ h⟩

theorem dropStream (id : Nat) (e : Engine) : Detaches e (dropStream id e) := ⟨rfl, rfl, rfl, rfl, rfl, rfl, rfl, fun h => h⟩

theorem dropNotes (id : Nat) (e : Engine) : Detaches e (dropNotes id e) := by
  unfold Machine.dropNotes
  extract_lets routed waits
  have hw : e.regs.wf = true → (e.regs.puts (routed.map fun s => (Reg.EVT_SNOTE_EN s, 0))).wf = true := Tab.wf_puts _
  clear_value routed waits
  exact ⟨rfl, rfl, rfl, rfl, rfl, rfl, rfl, hw⟩

theorem removeRing (e : Engine) (r : Ring) : Detaches e (removeRing e r) := by
  unfold Machine.removeRing
  extract_lets e1 e2 host
  have h1 : Detaches e e1 := .orphan _ _
  have h2 : Detaches e1 e2 := by
    unfold e2
    split
    · exact (dropStream _ _).trans (.setupCounts _)
    · split
      · exact .dropNotes _ _
      · exact .refl _
  exact (h1.trans h2).trans ⟨rfl, rfl, rfl, rfl, rfl, rfl, rfl, id⟩

end Detaches

/-! ### Every ring goes -/

theorem removeRing_rings (e : Engine) (r : Ring) : (removeRing e r).host.rings = e.host.rings.filter (fun q => q.id != r.id) := by
  unfold removeRing
  dsimp only
  split
  · rfl
  · split
    · rfl
    · rfl

theorem foldl_removeRing_rings (l : List Ring) : ∀ e : Engine, (∀ q ∈ e.host.rings, ∃ r ∈ l, q.id = r.id) →
    (l.foldl removeRing e).host.rings = [] := by
  induction l with
  | nil => exact fun e h => List.eq_nil_iff_forall_not_mem.mpr fun q hq => by simpa using h q hq
  | cons r rs ih =>
    refine fun e h => ih (removeRing e r) fun q hq => ?_
    rw [removeRing_rings, List.mem_filter] at hq
    obtain ⟨x, hx, hid⟩ := h q hq.1
    obtain rfl | hx := List.mem_cons.mp hx
    · exact absurd hid (by simpa using hq.2)
    · exact ⟨x, hx, hid⟩

theorem foldl_moveResource_rings (c : Nat) (l : List (Nat × Nat)) (e : Engine) :
    (l.foldl (fun a r => moveResource c a r.1 r.2) e).host.rings = e.host.rings :=
  List.foldlRecOn (motive := fun a : Engine => a.host.rings = e.host.rings) l _ rfl fun _ ha _ _ => ha

/-! ### The registers of HST -/

theorem Tab.get_of_unlisted {x : Nat} : ∀ {t : Tab}, (∀ kv ∈ t, kv.1 ≠ x) → Tab.get t x = 0
  | [], _ => rfl
  | (k, v) :: t, h => by
    have hk : x ≠ k := (h (k, v) (List.mem_cons_self ..)).symm
    have ht : Tab.get t x = 0 := get_of_unlisted fun kv hkv => h kv (List.mem_cons_of_mem _ hkv)
    simp [Tab.get, hk, ht]

theorem hstRegsReset_host (e : Engine) : (hstRegsReset e).host = e.host := rfl

theorem hstRegsReset_mem (e : Engine) : (hstRegsReset e).mem = e.mem := rfl

theorem hstRegsReset_frames (e : Engine) : (hstRegsReset e).frames = e.frames := rfl

/-- After a reset of the host interface every HST register but the lead reads its reset value (R38). -/
theorem hstRegsReset_reg {e : Engine} (h : e.regs.wf = true) {g : Fld} (hg : g.key < 32 * 0x100000) (hl : g.key ≠ Reg.HST_CMTLEAD_LEAD.key) :
    (hstRegsReset e).reg g = g.reset := by
  have hget : Tab.get (e.regs.filter fun kv => decide (32 * 0x100000 ≤ kv.1)) g.key = 0 :=
    Tab.get_of_unlisted fun kv hkv => by
      have := of_decide_eq_true (List.mem_filter.mp hkv).2
      omega
  refine (Tab.fld_put_ne (Tab.wf_filter h _) hl _).trans ?_
  unfold Tab.fld
  rw [hget]
  exact Nat.zero_xor _

/-! ### The resets -/

/-- R38: what waits for the host is gone, HST registers read their reset values, and the rest of the engine is as before. -/
theorem hostReset_cleared (msix : Bool) {e : Engine} (h : e.regs.wf = true) :
    HostCleared msix e (hostReset msix e) ∧ (hostReset msix e).host.d3hot = e.host.d3hot := by
  unfold hostReset
  extract_lets e0 e1 e2 owned e3 host msgs
  have h0 : Detaches e e0 := (Detaches.cutChains e).trans (.dropHeldCommits _ _)
  have h1 : Detaches e e1 := ((h0.trans (.orphan _ _)).trans (.closePends _ _)).trans (.freeWindows _ _)
  have h2 : Detaches e e2 := h1.trans (.foldl .removeRing _ _)
  have h3 : Detaches e e3 := (h2.trans (.foldl (fun a (r : Nat × Nat) => .moveResource 0 a r.1 r.2) _ _)).trans (.putXfers _ _)
  have hrings : e3.host.rings = [] :=
    (foldl_moveResource_rings 0 owned e2).trans (foldl_removeRing_rings _ e1 fun q hq => ⟨q, hq, rfl⟩)
  clear_value e3
  unfold HostCleared
  rw [hstRegsReset_host, hstRegsReset_mem, hstRegsReset_frames]
  refine ⟨⟨rfl, rfl, hrings, rfl, rfl, rfl, rfl, rfl, rfl, fun hm => ?_, fun hm => ?_, h3.out, congrArg MemSt.cells h3.mem, h3.frames,
    fun g hg hl => hstRegsReset_reg (h3.wf h) hg hl⟩, h3.d3hot⟩
  · subst hm
    exact ⟨rfl, rfl, rfl⟩
  · subst hm
    exact ⟨h3.msix, h3.pba, h3.fnMask⟩

/-- The power state of the function is no part of what a reset of the host interface clears. -/
theorem HostCleared.setD3hot {msix : Bool} {e f : Engine} (h : HostCleared msix e f) (d : Bool) :
    HostCleared msix e { f with host := { f.host with d3hot := d } } := h

section
variable {s : State} (hst : s.eng.st ≠ stOff)
include hst

theorem execLinkTrain_trains {gen : Nat} (hc : s.eng.host.crs = false) (hg : gen ≠ 0) (portB : Bool) :
    execLinkTrain true portB gen s = .next { s with eng := { s.eng with
      regs := s.eng.regs.puts [(Reg.HST_STATUS_LINKUP, 1), (Reg.HST_STATUS_WIDTH, if portB then 16 else 8), (Reg.HST_STATUS_GEN, min gen 4)] } } :=
  if_neg (by simp [hst, hc, hg])

theorem execFunctionLevelReset_on : execFunctionLevelReset s = .next { s with eng := hostReset true s.eng } := if_neg hst

theorem execPcieLinkDown_on : execPcieLinkDown s = .next { s with
    eng := { hostReset true s.eng with host := { (hostReset true s.eng).host with d3hot := false } } } := if_neg hst

theorem execD3hotEntry_on (hd : s.eng.host.d3hot = false) : execD3hotEntry s = .next { s with
    eng := { hostReset false s.eng with host := { (hostReset false s.eng).host with d3hot := true } } } := if_neg (by simp [hst, hd])

end

theorem execLinkTrain_noPort (portB : Bool) (gen : Nat) (s : State) : execLinkTrain false portB gen s = .next s := if_pos (by simp)

/-- Settles O36: the three resets are `hostReset` with the power state set after it (`hostReset_cleared`); the others are one next state. -/
theorem pcieEvents : Obligations.PcieEvents := by
  unfold Obligations.PcieEvents
  refine fun s hst => ⟨fun portB gen hc hg => execLinkTrain_trains hst hc hg portB, fun portB gen => execLinkTrain_noPort portB gen s,
    fun hw => ⟨?functionLevelReset, ?linkDown, fun hd => ?d3hotEntry⟩, rfl, if_neg hst, fun time hen => ?ptm⟩
  case functionLevelReset => exact ⟨_, execFunctionLevelReset_on hst, rfl, hostReset_cleared true hw⟩
  case linkDown => exact ⟨_, execPcieLinkDown_on hst, rfl, (hostReset_cleared true hw).1.setD3hot false, rfl⟩
  case d3hotEntry => exact ⟨_, execD3hotEntry_on hst hd, rfl, (hostReset_cleared false hw).1.setD3hot true, rfl⟩
  case ptm =>
    have hon : s.eng.reg Reg.HST_PTM_CTL_EN ≠ 0 := by omega
    exact ⟨if_neg hon, if_neg hon⟩

end Sys2Proof.Machine
end

/-! ## Checks on a packet, stage locks, and what a commit names -/

section
namespace Sys2Proof.Machine

/-! ### The checks of R53, in their order -/

/-- The header's bits and flags are those of a command of function `f` (R14, R53, R56). -/
def HeaderKnown (f : Fn) (p : Packet) : Prop :=
  p.flags < 32 ∧ p.reserved = 0 ∧ (f.expert = true → p.expert = true) ∧ (f.kind = .stage → p.stage = true)
    ∧ (f.kind = .direct → p.commit = true → p.stage = true) ∧ (f.op % 256 = 1 → p.commit = true)

/-- The context has the rights that the command needs (R15, R39). -/
def HasRights (f : Fn) (e : Engine) (p : Packet) : Prop :=
  ¬(p.expert = true ∧ f.block = 6) ∧ (p.expert = true ∨ f.op % 256 = 3 → e.hasRight p.ctx rightExpert = true)
    ∧ e.hasRight p.ctx (f.right p) = true

/-- The checks that follow those of rights: length, apply-at, range and alignment. -/
def checkFields (f : Fn) (e : Engine) (p : Packet) : Option Status :=
  if 65536 < p.length ∨ !f.len p then some .badlen
  else if p.applyAt ≠ 0 ∧ (f.noApply ∨ !f.commits p) then some (.range 5)
  else (f.range e p).elim ((f.align p).map .align) fun d => some (.range d)

/-- The checks that follow those of the header's bits, the context and the owner. -/
def checkRights (f : Fn) (e : Engine) (p : Packet) : Option Status :=
  if p.expert ∧ f.block = 6 then some (.perm 5)
  else if (p.expert ∨ f.op % 256 = 3) ∧ !e.hasRight p.ctx rightExpert then some (.perm rightExpert)
  else if !e.hasRight p.ctx (f.right p) then some (.perm (f.right p))
  else checkFields f e p

section
variable {f : Fn} {e : Engine} {p : Packet}

theorem checkHeader_unknown (h : ¬HeaderKnown f p) : checkHeader f e p = some .badop := by
  unfold checkHeader
  refine ite_eq_left_iff.mpr fun h1 => ite_eq_left_iff.mpr fun h2 => ite_eq_left_iff.mpr fun h3 => ite_eq_left_iff.mpr fun h4 =>
    ite_eq_left_iff.mpr fun h5 => absurd ?_ h
  simp only [not_or, not_and, Nat.not_le, not_not, Bool.not_eq_true', Bool.not_eq_false, ne_eq] at h1 h2 h3 h4 h5
  exact ⟨h1.1, h1.2, h2, h3, h4, h5⟩

theorem checkHeader_known (h : HeaderKnown f p) : checkHeader f e p =
    if p.ctx ≠ p.ring / 256 then some (.owner (p.ring / 256)) else (f.owner e p).elim (checkRights f e p) fun d => some (.owner d) := by
  obtain ⟨hflags, hres, hexp, hstage, hdirect, hcommit⟩ := h
  unfold checkHeader
  rw [if_neg (by omega), if_neg (by simpa using hexp), if_neg (by simpa using hstage), if_neg (by simpa using hdirect),
    if_neg (by simpa using hcommit)]
  cases f.owner e p with
  | some d => rfl
  | none =>
    unfold checkRights checkFields
    cases f.range e p with
    | none => rfl
    | some d => rfl

theorem checkHeader_otherContext (hk : HeaderKnown f p) (ho : p.ctx ≠ p.ring / 256) :
    checkHeader f e p = some (.owner (p.ring / 256)) := (checkHeader_known hk).trans (if_pos ho)

theorem checkHeader_otherOwner (hk : HeaderKnown f p) (ho : p.ctx = p.ring / 256) {d : Nat} (hd : f.owner e p = some d) :
    checkHeader f e p = some (.owner d) := by
  rw [checkHeader_known hk, if_neg (not_not.mpr ho), hd, Option.elim_some]

theorem checkHeader_owned (hk : HeaderKnown f p) (ho : p.ctx = p.ring / 256) (hn : f.owner e p = none) :
    checkHeader f e p = checkRights f e p := by
  rw [checkHeader_known hk, if_neg (not_not.mpr ho), hn, Option.elim_none]

theorem checkRights_missing (h : ¬HasRights f e p) : ∃ d, checkRights f e p = some (.perm d) := by
  unfold checkRights
  split
  · exact ⟨_, rfl⟩
  · next h1 =>
    split
    · exact ⟨_, rfl⟩
    · next h2 =>
      split
      · exact ⟨_, rfl⟩
      · next h3 => exact absurd ⟨h1, by simpa using h2, by simpa using h3⟩ h

theorem checkRights_held (h : HasRights f e p) : checkRights f e p = checkFields f e p := by
  obtain ⟨hkeep, hexpert, hright⟩ := h
  unfold checkRights
  rw [if_neg hkeep, if_neg (fun hx => by simp [hexpert hx.1] at hx), if_neg (by simp [hright])]

theorem checkFields_length (h : ¬(p.length ≤ 65536 ∧ f.len p = true)) : checkFields f e p = some .badlen :=
  if_pos (by rw [not_and_or] at h; simpa using h)

theorem checkFields_applyAt (hl : p.length ≤ 65536 ∧ f.len p = true) (h : ¬(p.applyAt = 0 ∨ (f.noApply = false ∧ f.commits p = true))) :
    checkFields f e p = some (.range 5) := by
  unfold checkFields
  rw [if_neg (by simp [hl.1, hl.2]), if_pos]
  simp only [not_or, not_and, Bool.not_eq_true] at h
  refine ⟨h.1, ?_⟩
  cases hn : f.noApply with
  | true => exact Or.inl rfl
  | false => exact Or.inr (by simp [h.2 hn])

theorem checkFields_fits (hl : p.length ≤ 65536 ∧ f.len p = true) (h : p.applyAt = 0 ∨ (f.noApply = false ∧ f.commits p = true)) :
    checkFields f e p = (f.range e p).elim ((f.align p).map .align) fun d => some (.range d) := by
  unfold checkFields
  rw [if_neg (by simp [hl.1, hl.2]), if_neg]
  rintro ⟨ha, hb⟩
  obtain h0 | ⟨hn, hc⟩ := h
  · exact ha h0
  · simp [hn, hc] at hb

end

/-! ### The stage lock (R57) -/

theorem takeLock_lockOf_free {e : Engine} {b : Nat} (h : e.lockOf b = 0) (c : Nat) : (e.takeLock b c).lockOf b = c + 1 :=
  takeLock_lockOf e b c (by simp [Engine.lockedOut, h])

theorem dropLock_lockOf {e : Engine} (h : e.host.locks.wf = true) (b : Nat) : (e.dropLock b).lockOf b = 0 := Tab.get_set_same h b 0

/-- A command that passes its other checks is refused while another context holds the lock of its block. -/
theorem refuse_lockedOut {f : Fn} {e : Engine} {p : Packet} {b c : Nat} (hb : e.lockOf b = c + 1) (hc : p.ctx ≠ c)
    (hh : checkHeader f e p = none) (hs : checkState f e = none) (extra : Engine → Packet → Option Status) :
    refuse f [b] extra e p = some (.busy b) := by
  have hl : e.lockedOut b p.ctx = true := by simp [Engine.lockedOut, hb, Ne.symm hc]
  simp only [refuse, hh, hs, List.find?_cons, hl]

/-! ### Pending commits (R58, R212) -/

section
variable {e : Engine} {p : Packet} {blocks : List Nat} {object : Nat}

theorem acceptCommit_busy {b : Nat} (h : blocks.find? (fun x => e.pendingOn x) = some b) :
    acceptCommit e p blocks object = .inl (.busy b) := by
  simp only [acceptCommit, h]

theorem acceptCommit_otherOwner {c : Nat} (hb : blocks.find? (fun x => e.pendingOn x) = none) (h8 : 8 ∈ blocks)
    (hc : stagedOwner e p.ctx = some c) : acceptCommit e p blocks object = .inl (.owner c) := by
  simp only [acceptCommit, hb, List.contains_iff_mem.mpr h8, if_true, hc]

/-- A commit that is accepted finds none pending on its blocks, and is then pending on them. -/
theorem acceptCommit_pendingOn {g : Engine} (h : acceptCommit e p blocks object = .inr g) {b : Nat} (hb : b ∈ blocks) :
    e.pendingOn b = false ∧ g.pendingOn b = true := by
  constructor
  · cases hf : blocks.find? (fun x => e.pendingOn x) with
    | none => exact Bool.eq_false_iff.mpr (List.find?_eq_none.mp hf b hb)
    | some x => rw [acceptCommit_busy hf] at h; exact absurd h (by simp)
  · obtain ⟨pd, hhost, -, -, -, -, -, -, -, hblocks, -⟩ := acceptCommit_captured h
    have hp : g.host.pends = e.host.pends ++ [pd] := by rw [hhost]
    refine List.any_eq_true.mpr ⟨pd, by rw [hp]; simp, ?_⟩
    rw [hblocks]
    exact List.contains_iff_mem.mpr hb

end

/-! ### The crossing that a commit names (R58, R77, R80) -/

/-- Within half of the orbit numbers a stamp names the crossing of its own number. -/
theorem crossingNamed_near {e : Engine} {st : Nat} (hn : numberOf (orbitLen e.active) st < crossMod (orbitLen e.active))
    (hc : e.counted ≤ crossMod (orbitLen e.active) / 2) : e.crossingNamed st = numberOf (orbitLen e.active) st := by
  unfold Engine.crossingNamed
  dsimp only
  generalize numberOf (orbitLen e.active) st = x at *
  generalize crossMod (orbitLen e.active) = m at *
  generalize e.counted = c at *
  rw [Nat.div_eq_of_lt (by omega), Nat.zero_mul, Nat.zero_add, Nat.mod_eq_of_lt hn, if_neg (by omega), if_neg (by omega)]

/-- The first crossing that a commit may name: `lead` BC ahead, and one that has a frame. -/
def firstNamed (e : Engine) (long : Bool) : Nat :=
  max (e.counted + (if long then e.lead + lRx e.active + 128 else e.lead) - createDelay e.active) (e.tim.resume.getD 0)

section
variable {e : Engine} {applyAt : Nat} (long : Bool)

theorem nameCrossing_unlocked (h : e.locked = false) (applyAt : Nat) :
    nameCrossing e applyAt long = if applyAt ≠ 0 then .inl (.state e.st) else .inr none := by
  unfold nameCrossing
  exact if_pos (by simp [h])

theorem nameCrossing_locked (h : e.locked = true) (applyAt : Nat) : nameCrossing e applyAt long =
    if applyAt = 0 then .inr (some (firstNamed e long))
    else if orbitLen e.active ≤ applyAt % 2 ^ 14 then .inl (.range 5)
    else if e.crossingNamed applyAt < firstNamed e long then .inl .late
    else if e.counted - createDelay e.active + 2 ^ 40 < e.crossingNamed applyAt then .inl (.range 5)
    else .inr (some (e.crossingNamed applyAt)) := by
  unfold nameCrossing firstNamed
  rw [if_neg (by simp [h])]
  cases long with
  | true => simp only [if_true, Nat.add_assoc]
  | false => simp only [Bool.false_eq_true, if_false, Nat.add_zero]

end

/-- Settles O60: the first failing check (`checkHeader_unknown` to `checkFields_fits`), the stage lock (`refuse_lockedOut`), the pending
commits (`acceptCommit_pendingOn`), and the crossing named (`nameCrossing_locked`). -/
theorem packetsAndCommits : Obligations.PacketsAndCommits := by
  unfold Obligations.PacketsAndCommits
  refine ⟨fun f e p => ?checks, fun f extra b c e p => ?locks, fun e p blocks object => ?pends, fun e applyAt long => ?names⟩
  case checks =>
    have toFields (hk : HeaderKnown f p) (ho : p.ctx = p.ring / 256) (hn : f.owner e p = none) (hm : HasRights f e p) :
        checkHeader f e p = checkFields f e p := (checkHeader_owned hk ho hn).trans (checkRights_held hm)
    refine ⟨checkHeader_unknown, checkHeader_otherContext, fun hk ho d hd => checkHeader_otherOwner hk ho hd,
      fun hk ho hn hm => ?_, fun hk ho hn hm hl => ?_, fun hk ho hn hm hl ha => ?_, fun hk ho hn hm hl ha d hd => ?_,
      fun hk ho hn hm hl ha hr => ?_⟩
    · exact checkHeader_owned hk ho hn ▸ checkRights_missing hm
    · exact (toFields hk ho hn hm).trans (checkFields_length hl)
    · exact (toFields hk ho hn hm).trans (checkFields_applyAt hl ha)
    · exact ((toFields hk ho hn hm).trans (checkFields_fits hl ha)).trans (by rw [hd, Option.elim_some])
    · exact ((toFields hk ho hn hm).trans (checkFields_fits hl ha)).trans (by rw [hr, Option.elim_none])
  case locks => exact ⟨fun h => takeLock_lockOf_free h c, fun hb hc hh hs => refuse_lockedOut hb hc hh hs extra, fun h => dropLock_lockOf h b⟩
  case pends =>
    exact ⟨fun b hb => acceptCommit_busy hb, fun g hg b hb => acceptCommit_pendingOn hg hb,
      fun c hb h8 hc => acceptCommit_otherOwner hb h8 hc⟩
  case names =>
    refine ⟨crossingNamed_near, fun hl h0 => ?_, fun hl h0 => ?_, fun hl h0 => ?_, fun hl h0 hs hn => ?_, fun hl h0 hs hf hn => ?_,
      fun hl h0 h => ?_⟩
    · rw [nameCrossing_unlocked long hl, if_neg (not_not.mpr h0)]
    · rw [nameCrossing_unlocked long hl, if_pos h0]
    · exact (nameCrossing_locked long hl applyAt).trans (if_pos h0)
    · rw [nameCrossing_locked long hl, if_neg h0, if_neg (Nat.not_le.mpr hs)]
      exact if_pos hn
    · rw [nameCrossing_locked long hl, if_neg h0, if_neg (Nat.not_le.mpr hs), if_neg (Nat.not_lt.mpr hf : ¬_ < firstNamed e long),
        if_neg (Nat.not_lt.mpr hn)]
    · rw [nameCrossing_locked long hl, if_neg h0]
      obtain hs | ⟨hf, hn⟩ := h
      · exact if_pos hs
      · rw [if_neg (Nat.not_lt.mpr hf : ¬_ < firstNamed e long), if_pos hn, ite_self]

end Sys2Proof.Machine
end

/-! ## Commands in a ring, timeouts, and commits that are due -/

section
namespace Sys2Proof.Machine

/-! ### A command that the scheduler serves (R46, R54, R55) -/

section
variable {ring : Nat} {slots : List Byte} {s : State}

/-- The command at the front of the ring that is served next, once its first slot has come. -/
theorem execCommandFetch_served {r : Ring} (hr : nextRing s.eng = some r) (h64 : 64 ≤ slots.length) :
    execCommandFetch r.id slots s =
      if 2 ^ r.k < cmdSlots (decodePacket r.id slots).2.length then .next { s with eng := ringFault s.eng r }
      else if r.used < cmdSlots (decodePacket r.id slots).2.length then
        .next { s with eng := s.eng.putRing { r with need := cmdSlots (decodePacket r.id slots).2.length } }
      else if slots.length ≠ 64 * cmdSlots (decodePacket r.id slots).2.length then .next s
      else if (decodePacket r.id slots).2.fence ∧ s.eng.host.started.any (fun q => q.ring == r.id) then
        .next { s with eng := s.eng.putRing { r with fence := true } }
      else runCommand (decodePacket r.id slots).1 (decodePacket r.id slots).2
        { s with eng := startCommand r (decodePacket r.id slots).1 (decodePacket r.id slots).2 s.eng } := by
  unfold execCommandFetch
  rw [hr]
  exact if_neg (by omega)

/-- The command of another ring than the one that is served next. -/
theorem execCommandFetch_otherRing (h : ∀ r, nextRing s.eng = some r → r.id ≠ ring) : execCommandFetch ring slots s = .next s := by
  unfold execCommandFetch
  split
  · rfl
  · next r hr => exact if_pos (Or.inl (h r hr))

section
variable {r : Ring} (hr : nextRing s.eng = some r) (h64 : 64 ≤ slots.length)
include hr h64

theorem execCommandFetch_tooLong (h : 2 ^ r.k < cmdSlots (decodePacket r.id slots).2.length) :
    execCommandFetch r.id slots s = .next { s with eng := ringFault s.eng r } := by
  rw [execCommandFetch_served hr h64, if_pos h]

theorem execCommandFetch_notCovered (hk : cmdSlots (decodePacket r.id slots).2.length ≤ 2 ^ r.k)
    (h : r.used < cmdSlots (decodePacket r.id slots).2.length) : execCommandFetch r.id slots s =
      .next { s with eng := s.eng.putRing { r with need := cmdSlots (decodePacket r.id slots).2.length } } := by
  rw [execCommandFetch_served hr h64, if_neg (by omega), if_pos h]

section
variable (hk : cmdSlots (decodePacket r.id slots).2.length ≤ 2 ^ r.k) (hu : cmdSlots (decodePacket r.id slots).2.length ≤ r.used)
  (hl : slots.length = 64 * cmdSlots (decodePacket r.id slots).2.length)
include hk hu hl

theorem execCommandFetch_fenced (h : (decodePacket r.id slots).2.fence = true ∧ (s.eng.host.started.any fun q => q.ring == r.id) = true) :
    execCommandFetch r.id slots s = .next { s with eng := s.eng.putRing { r with fence := true } } := by
  rw [execCommandFetch_served hr h64, if_neg (by omega), if_neg (by omega), if_neg (not_not.mpr hl), if_pos h]

theorem execCommandFetch_starts (h : (decodePacket r.id slots).2.fence = false ∨ (s.eng.host.started.any fun q => q.ring == r.id) = false) :
    execCommandFetch r.id slots s = runCommand (decodePacket r.id slots).1 (decodePacket r.id slots).2
      { s with eng := startCommand r (decodePacket r.id slots).1 (decodePacket r.id slots).2 s.eng } := by
  rw [execCommandFetch_served hr h64, if_neg (by omega), if_neg (by omega), if_neg (not_not.mpr hl), if_neg]
  rintro ⟨hf, hb⟩
  simp [hf, hb] at h

end
end
end

/-- A function that its block does not define, and that is no common one, is refused (R11, R53). -/
theorem runCommand_undefined {op : Nat} {p : Packet} {s : State} (h6 : op / 256 ≠ 6) (h4 : 4 ≤ op % 256)
    (hn : runFunction (op / 256) (op % 256) p s = none) : runCommand op p s = .next { s with eng := s.eng.complete p .badop } := by
  unfold runCommand
  dsimp only
  rw [if_neg (by omega), if_neg (by omega), if_neg (by omega), if_neg (by omega), hn]
  exact if_neg h6

/-! ### A command that has not completed in time (R59) -/

/-- The commands of a ring with a tag that have not completed, other than commits. -/
def waitersOf (e : Engine) (ring tag : Nat) : List (Nat × Nat × Bool) := (waiters e).filter (fun w => w.1 == ring && w.2.1 == tag)

section
variable {ring tag : Nat} {s : State}

theorem any_pends_iff (e : Engine) : (e.host.pends.any (fun q => q.ring == ring && q.tag == tag)) = true ↔
    ∃ q ∈ e.host.pends, q.ring = ring ∧ q.tag = tag := by
  simp only [List.any_eq_true, Bool.and_eq_true, beq_iff_eq]

theorem execCommandTimeout_none (h : (∃ q ∈ s.eng.host.pends, q.ring = ring ∧ q.tag = tag) ∨ waitersOf s.eng ring tag = []) :
    execCommandTimeout ring tag s = .next s := if_pos (h.imp_left (any_pends_iff s.eng).mpr)

theorem execCommandTimeout_completes (hp : ¬∃ q ∈ s.eng.host.pends, q.ring = ring ∧ q.tag = tag) (hw : waitersOf s.eng ring tag ≠ []) :
    let e1 := orphan (fun r g => r == ring && g == tag) s.eng
    execCommandTimeout ring tag s =
      .next { s with eng := e1.completeAt ring tag ((waitersOf s.eng ring tag).any fun w => w.2.2) .timeout e1.cxNow } :=
  if_neg (not_or.mpr ⟨fun h => hp ((any_pends_iff s.eng).mp h), hw⟩)

end

/-! ### Commits that are due (R8, R59, R80, R135) -/

/-- What the checker rules on commit `p` among the commits `ps` that become active together. -/
def rulingOn (e : Engine) (ps : List Pend) (p : Pend) : Option Nat :=
  ((refusals e ps.length ps).find? (fun x => x.1 == p.uid)).map (fun x => x.2)

/-- A commit that is due alone is tested in the set that it makes active alone. -/
theorem rulingOn_alone (e : Engine) (q : Pend) : rulingOn e [q] q = checkIn e (withPend e e.active q) q := by
  unfold rulingOn refusals
  cases h : checkIn e (withPend e e.active q) q with
  | none => simp [h]
  | some d => simp [h]

/-- The crossing that the commits due now become active for: none while TIM is unlocked (R80). -/
def dueCrossing (e : Engine) : Option Nat := if e.locked then some (e.counted - createDelay e.active) else none

/-- What follows a commit of `q` made while TIM is unlocked (R76, R80). -/
def afterDue (e : Engine) (q : Pend) (x : Engine) : Engine := if e.locked then x else clockChanged q e.active x

theorem commitDue_none {e : Engine} (h : duePends e = []) : commitDue e = e := by
  unfold commitDue
  rw [h]
  rfl

/-- One commit is due: the ruling on it decides. -/
theorem commitDue_alone {e : Engine} {q : Pend} (h : duePends e = [q]) :
    commitDue e = afterDue e q (activate q (rulingOn e (duePends e) q) (dueCrossing e) e) := by
  unfold commitDue afterDue dueCrossing rulingOn
  simp only [h, List.foldl_cons, List.foldl_nil]
  cases e.locked with
  | true => simp only [if_true]
  | false => simp only [Bool.false_eq_true, if_false]

theorem activate_refused (q : Pend) (d : Nat) (c : Option Nat) (e : Engine) :
    activate q (some d) c e = dropPend e q (.incons d) ((c.map (cxField (orbitLen e.active))).getD 0) := rfl

theorem activate_accepted (q : Pend) (c : Option Nat) (e : Engine) :
    activate q none c e = commitTo q c (c.isSome && e.running) ((c.map (cxField (orbitLen e.active))).getD 0) e := rfl

theorem dueCrossing_isSome (e : Engine) : (dueCrossing e).isSome = e.locked := by
  unfold dueCrossing
  cases e.locked with
  | true => rfl
  | false => rfl

/-- A commit of staged copies outside BEL, made for a crossing: its set and its journal record, then its completion (R8, R59, R370). -/
theorem commitTo_set {q : Pend} (ho : q.object = 0) (h10 : 10 ∉ q.blocks) (n : Nat) (live : Bool) (cx : Nat) (e : Engine) :
    commitTo q (some n) live cx e =
      (journalSync (keepBank e.active n (applySet q (some n) (removePend e q)))).completeAt q.ring q.tag q.notify .ok cx := by
  have hb : q.blocks.contains 10 = false := by simpa using h10
  simp only [commitTo, ho, hb, OfNat.zero_ne_ofNat, zero_ne_one, or_self, if_false, Bool.not_false, if_true, Bool.false_eq_true, false_and]

/-- One commit of staged copies outside BEL is due and accepted while TIM is locked. -/
theorem commitDue_set {e : Engine} {q : Pend} (h : duePends e = [q]) (hw : rulingOn e (duePends e) q = none) (ho : q.object = 0)
    (h10 : 10 ∉ q.blocks) (hl : e.locked = true) : commitDue e =
      (journalSync (keepBank e.active (e.counted - createDelay e.active) (applySet q (dueCrossing e) (removePend e q)))).completeAt
        q.ring q.tag q.notify .ok (((dueCrossing e).map (cxField (orbitLen e.active))).getD 0) := by
  have hd : dueCrossing e = some (e.counted - createDelay e.active) := if_pos hl
  rw [commitDue_alone h, hw, activate_accepted, hd, commitTo_set ho h10]
  exact if_pos hl

/-- Settles O35: COMMAND_FETCH by what of its command the doorbells cover (`execCommandFetch_served`), COMMAND_TIMEOUT, and the commits that
are due (`commitDue_alone`, `commitTo_set`). -/
theorem commandsAndCommits : Obligations.CommandsAndCommits := by
  unfold Obligations.CommandsAndCommits
  refine ⟨fun ring slots s r hr hid => ?fetch, fun ring slots s h => execCommandFetch_otherRing h, fun ring tag s => ?timeout, fun s => ?due⟩
  case fetch =>
    subst hid
    refine fun h64 => ⟨execCommandFetch_tooLong hr h64, execCommandFetch_notCovered hr h64, fun hk hu hl => ?_⟩
    have starts := execCommandFetch_starts hr h64 hk hu hl
    refine ⟨execCommandFetch_fenced hr h64 hk hu hl, fun hf => ?_, fun hf hop => ?_, fun hf h6 h4 hn => ?_⟩
    · obtain ⟨t, ht⟩ := runCommand_next (decodePacket r.id slots).1 (decodePacket r.id slots).2
        { s with eng := startCommand r (decodePacket r.id slots).1 (decodePacket r.id slots).2 s.eng }
      exact ⟨_, (starts hf).trans ht, ht, rfl⟩
    · refine (starts hf).trans ?_
      rw [hop]
      rfl
    · exact ⟨_, (starts hf).trans (runCommand_undefined h6 h4 hn), rfl, complete_answers _ _ _⟩
  case timeout =>
    exact ⟨fun hp hw => ⟨_, execCommandTimeout_completes hp hw, rfl, completeAt_answers _ _ _ _ _ _⟩, execCommandTimeout_none⟩
  case due =>
    refine ⟨fun h => ?_, fun q (h : duePends s.eng = [q]) => ⟨?_, fun w (hw : rulingOn s.eng (duePends s.eng) q = some w) => ?_,
      fun (hw : rulingOn s.eng (duePends s.eng) q = none) => ?_,
      fun (hw : rulingOn s.eng (duePends s.eng) q = none) ho h10 hl => ⟨_, rfl, rfl, ?_⟩⟩, rfl⟩
    · exact congrArg (fun x : Engine => Host.Outcome.next { s with eng := x }) (commitDue_none h)
    · exact (congrArg (fun ps => rulingOn s.eng ps q) h).trans (rulingOn_alone s.eng q)
    · refine congrArg (fun x : Engine => Host.Outcome.next { s with eng := x }) ?_
      rw [commitDue_alone h, hw, activate_refused]
      rfl
    · refine congrArg (fun x : Engine => Host.Outcome.next { s with eng := x }) ?_
      rw [commitDue_alone h, hw, activate_accepted, dueCrossing_isSome]
      rfl
    · change AnswersAt _ _ _ _ _ _ (commitDue s.eng)
      rw [commitDue_set h hw ho h10 hl]
      exact completeAt_answers _ _ _ _ _ _

end Sys2Proof.Machine
end

/-! ## Beam timing: acquisition -/

section
namespace Sys2Proof.Machine

/-! ### What a register reads after an update, and how a command completes -/

section
variable {e : Engine} (h : e.regs.wf = true)
include h

theorem setReg_wf (f : Fld) (v : Nat) : (e.setReg f v).regs.wf = true := Tab.wf_put h f v

theorem reg_setReg_same (f : Fld) (v : Nat) : (e.setReg f v).reg f = v % 2 ^ f.width := Tab.fld_put_same h f v

theorem reg_setReg_ne {f g : Fld} (hg : g.key ≠ f.key) (v : Nat) : (e.setReg f v).reg g = e.reg g := Tab.fld_put_ne h hg v

end

theorem Completes.of_next {s : State} {o : Host.Outcome State Fault Refusal} {t : Engine} {q : Engine → Prop}
    (ho : o = .next { s with eng := t }) (hq : q t) : Completes s o q := ⟨_, ho, rfl, hq⟩

/-! ### The operations of acquisition (R76, Table 3.4) -/

/-- Acquisition stands at step 1 and remembers nothing of what has passed. -/
def AtStepOne (t : Engine) : Prop :=
  t.reg Reg.TIM_STAT_PHASE = 1 ∧ t.tim.goodChars = 0 ∧ t.tim.marks = 0 ∧ t.tim.acqWords = [] ∧ t.tim.freqOk = false

/-- TIM runs and is unlocked, so that acquisition goes on; the registers are in canonical form. -/
structure Acquiring (e : Engine) : Prop where
  unlocked : e.locked = false
  timing : e.timing = true
  wf : e.regs.wf = true

section
variable {e : Engine} (h : e.regs.wf = true)
include h

theorem restartAcq_phase : (restartAcq e).reg Reg.TIM_STAT_PHASE = 1 := reg_setReg_same h _ _

theorem restartAcq_atStepOne : AtStepOne (restartAcq e) := ⟨restartAcq_phase h, rfl, rfl, rfl, rfl⟩

theorem restartAcq_reg {g : Fld} (hg : g.key ≠ Reg.TIM_STAT_PHASE.key) : (restartAcq e).reg g = e.reg g := reg_setReg_ne h hg 1

theorem lengthError_atStepOne : AtStepOne (lengthError e) := restartAcq_atStepOne (setReg_wf h _ _)

theorem lengthError_lenerr : (lengthError e).reg Reg.TIM_STAT_LENERR = 1 :=
  (restartAcq_reg (setReg_wf h _ _) (by decide)).trans (reg_setReg_same h _ _)

end

/-- The step after the PLL's lock: characters on the Timing port, markers with SMA. -/
def stepAfterPll (e : Engine) : Nat := if e.sma then 4 else 3

/-- Step 2 passes where the PLL is locked. -/
theorem acqAdvance_step2 {e : Engine} (ha : Acquiring e) (hp : e.reg Reg.TIM_STAT_PHASE = 2) :
    acqAdvance e = if e.tim.pll then e.setReg Reg.TIM_STAT_PHASE (stepAfterPll e) else e := by
  simp [acqAdvance, ha.unlocked, ha.timing, hp, stepAfterPll]

/-- Step 1 passes where signal and frequency are right, and step 2 with it where the PLL is locked. -/
theorem acqAdvance_step1 {e : Engine} (ha : Acquiring e) (hp : e.reg Reg.TIM_STAT_PHASE = 1) (hs : e.reg Reg.TIM_STAT_SIGNAL = 1)
    (hf : e.tim.freqOk = true) : acqAdvance e =
      if e.tim.pll then (e.setReg Reg.TIM_STAT_PHASE 2).setReg Reg.TIM_STAT_PHASE (stepAfterPll e) else e.setReg Reg.TIM_STAT_PHASE 2 := by
  have h2 : (e.setReg Reg.TIM_STAT_PHASE 2).reg Reg.TIM_STAT_PHASE = 2 := reg_setReg_same ha.wf _ _
  simp [acqAdvance, ha.unlocked, ha.timing, hp, hs, hf, h2, stepAfterPll, Engine.sma]

theorem Acquiring.setReg {e : Engine} (ha : Acquiring e) {f : Fld} (hl : Reg.TIM_STAT_LOCK.key ≠ f.key)
    (hs : Reg.PWR_STAT_STATE.key ≠ f.key) (v : Nat) : Acquiring (e.setReg f v) where
  unlocked := (congrArg (· == 1) (reg_setReg_ne ha.wf hl v)).trans ha.unlocked
  timing := (congrArg (fun n => n != stOff && n != stBoot) (reg_setReg_ne ha.wf hs v)).trans ha.timing
  wf := setReg_wf ha.wf f v

theorem Acquiring.withTim {e : Engine} (ha : Acquiring e) (t : TimSt) : Acquiring { e with tim := t } := ⟨ha.unlocked, ha.timing, ha.wf⟩

theorem acqAdvance_phase_of_step2 {e : Engine} (ha : Acquiring e) (hp : e.reg Reg.TIM_STAT_PHASE = 2) (hl : e.tim.pll = true) :
    (acqAdvance e).reg Reg.TIM_STAT_PHASE = if e.sma then 4 else 3 := by
  rw [acqAdvance_step2 ha hp, if_pos hl, reg_setReg_same ha.wf, stepAfterPll]
  split <;> rfl

theorem acqAdvance_phase_of_step1 {e : Engine} (ha : Acquiring e) (hp : e.reg Reg.TIM_STAT_PHASE = 1) (hs : e.reg Reg.TIM_STAT_SIGNAL = 1)
    (hf : e.tim.freqOk = true) : (acqAdvance e).reg Reg.TIM_STAT_PHASE = if e.tim.pll then (if e.sma then 4 else 3) else 2 := by
  rw [acqAdvance_step1 ha hp hs hf]
  split
  · rw [reg_setReg_same (setReg_wf ha.wf _ _), stepAfterPll]
    split <;> rfl
  · exact reg_setReg_same ha.wf _ _

/-- Steps 1 and 2 move the phase alone. -/
theorem acqAdvance_tim (e : Engine) : (acqAdvance e).tim = e.tim := by
  unfold acqAdvance
  extract_lets e1
  have h1 : e1.tim = e.tim := by
    unfold e1
    split <;> rfl
  split
  · rfl
  · split
    · exact h1
    · exact h1

theorem acqAdvance_reg {e : Engine} (h : e.regs.wf = true) {g : Fld} (hg : g.key ≠ Reg.TIM_STAT_PHASE.key) :
    (acqAdvance e).reg g = e.reg g := by
  unfold acqAdvance
  extract_lets e1
  obtain ⟨hw, hr⟩ : e1.regs.wf = true ∧ e1.reg g = e.reg g := by
    unfold e1
    split
    · exact ⟨setReg_wf h _ _, reg_setReg_ne h hg _⟩
    · exact ⟨h, rfl⟩
  split
  · rfl
  · split
    · exact (reg_setReg_ne hw hg _).trans hr
    · exact hr

/-! ### A crossing received while TIM is unlocked -/

/-- The engine when the crossing's signal has been shown and ORBIT_IN sampled (R75, R76). -/
def heard (x : Timing) (e : Engine) : Engine :=
  { e.setReg Reg.TIM_STAT_SIGNAL (b2n (signalIn e x)) with
    tim := { e.tim with orbitIn := if x.bcEdge then x.orbitIn else e.tim.orbitIn } }

theorem sampleOrbit_eq (e : Engine) (x : Timing) :
    sampleOrbit e x = { e with tim := { e.tim with orbitIn := if x.bcEdge then x.orbitIn else e.tim.orbitIn } } := by
  unfold sampleOrbit
  split <;> rfl

section
variable {e : Engine} {x : Timing}

theorem Acquiring.heard (ha : Acquiring e) : Acquiring (heard x e) := (ha.setReg (by decide) (by decide) _).withTim _

theorem heard_reg (h : e.regs.wf = true) {g : Fld} (hg : g.key ≠ Reg.TIM_STAT_SIGNAL.key) : (heard x e).reg g = e.reg g :=
  reg_setReg_ne h hg _

theorem heard_phase (h : e.regs.wf = true) : (heard x e).reg Reg.TIM_STAT_PHASE = e.reg Reg.TIM_STAT_PHASE := heard_reg h (by decide)

theorem heard_signal (h : e.regs.wf = true) : (heard x e).reg Reg.TIM_STAT_SIGNAL = b2n (signalIn e x) :=
  (reg_setReg_same h _ _).trans (by cases signalIn e x <;> rfl)

/-- Step 3: a framed character is one more, another one starts the count again. -/
def acqChars (x : Timing) (e : Engine) : Engine :=
  let g := if (x.char0 = .k281 ∨ x.char0 = .k285 ∨ x.char0 = .k286) ∧ x.codeErrs = 0 then e.tim.goodChars + 1 else 0
  let e2 : Engine := { e with tim := { e.tim with goodChars := g } }
  if g < 16 then e2 else e2.setReg Reg.TIM_STAT_PHASE 4

/-- What a crossing without signal does, and one in each phase with it (Table 3.4). -/
theorem acqCrossing_eq (h : e.regs.wf = true) : acqCrossing x e =
    if signalIn e x = false then restartAcq (heard x e)
    else if e.reg Reg.TIM_STAT_PHASE = 1 ∨ e.reg Reg.TIM_STAT_PHASE = 2 then acqAdvance (heard x e)
    else if e.reg Reg.TIM_STAT_PHASE = 3 then acqChars x (heard x e)
    else if e.reg Reg.TIM_STAT_PHASE = 4 then acqMarkers (markerIn e x) x.word (heard x e)
    else if e.reg Reg.TIM_STAT_PHASE = 5 then acqRecord (markerIn e x) x.word (heard x e)
    else acqSlot0 (markerIn e x) x (heard x e) := by
  have hh : sampleOrbit (e.setReg Reg.TIM_STAT_SIGNAL (b2n (signalIn e x))) x = heard x e := sampleOrbit_eq _ _
  simp only [← heard_phase (x := x) h]
  unfold acqCrossing
  simp only [hh, Bool.not_eq_true', acqChars]

section
variable (h : e.regs.wf = true)
include h

theorem acqCrossing_silent (hh : signalIn e x = false) : acqCrossing x e = restartAcq (heard x e) :=
  (acqCrossing_eq h).trans (if_pos hh)

variable (hh : signalIn e x = true)
include hh

theorem acqCrossing_step1 (hp : e.reg Reg.TIM_STAT_PHASE = 1) : acqCrossing x e = acqAdvance (heard x e) := by
  simp [acqCrossing_eq h, hh, hp]

theorem acqCrossing_step3 (hp : e.reg Reg.TIM_STAT_PHASE = 3) : acqCrossing x e = acqChars x (heard x e) := by
  simp [acqCrossing_eq h, hh, hp]

theorem acqCrossing_step4 (hp : e.reg Reg.TIM_STAT_PHASE = 4) {mark : Bool} (hm : markerIn e x = mark) :
    acqCrossing x e = acqMarkers mark x.word (heard x e) := by
  simp [acqCrossing_eq h, hh, hp, hm]

theorem acqCrossing_step5 (hp : e.reg Reg.TIM_STAT_PHASE = 5) {mark : Bool} (hm : markerIn e x = mark) :
    acqCrossing x e = acqRecord mark x.word (heard x e) := by
  simp [acqCrossing_eq h, hh, hp, hm]

theorem acqCrossing_passed (hp : e.reg Reg.TIM_STAT_PHASE = 0) {mark : Bool} (hm : markerIn e x = mark) :
    acqCrossing x e = acqSlot0 mark x (heard x e) := by
  simp [acqCrossing_eq h, hh, hp, hm]

end

/-! ### The steps at a crossing with signal -/

theorem acqChars_sixteenth (hx : x.codeErrs = 0 ∧ (x.char0 = .k281 ∨ x.char0 = .k285 ∨ x.char0 = .k286))
    (hg : 15 ≤ e.tim.goodChars) :
    acqChars x e = Engine.setReg { e with tim := { e.tim with goodChars := e.tim.goodChars + 1 } } Reg.TIM_STAT_PHASE 4 := by
  simp only [acqChars, hx, and_self, if_true]
  exact if_neg (by omega)

theorem acqChars_counts (hx : x.codeErrs = 0 ∧ (x.char0 = .k281 ∨ x.char0 = .k285 ∨ x.char0 = .k286))
    (hg : e.tim.goodChars < 15) :
    acqChars x e = { e with tim := { e.tim with goodChars := e.tim.goodChars + 1 } } := by
  simp only [acqChars, hx, and_self, if_true]
  exact if_pos (by omega)

theorem acqChars_restarts (hx : ¬(x.codeErrs = 0 ∧ (x.char0 = .k281 ∨ x.char0 = .k285 ∨ x.char0 = .k286))) :
    acqChars x e = { e with tim := { e.tim with goodChars := 0 } } := by
  simp only [acqChars, and_comm.not.mp hx, if_false, Nat.zero_lt_succ, if_true]

theorem acqMarkers_first {word : Nat} (hm : e.tim.marks = 0) :
    acqMarkers true word e = { e with tim := { e.tim with marks := 1, sinceMark := 0 } } := by
  simp [acqMarkers, hm]

theorem acqMarkers_wrongLength {word : Nat} (hm : e.tim.marks ≠ 0) (hn : e.tim.sinceMark + 1 ≠ orbitLen e.active) :
    acqMarkers true word e = lengthError e := by
  simp [acqMarkers, hm, hn]

theorem acqMarkers_orbit {word : Nat} (hm : e.tim.marks ≠ 0) (hn : e.tim.sinceMark + 1 = orbitLen e.active) : acqMarkers true word e =
    Engine.setReg { e with tim := { e.tim with marks := 2, sinceMark := 0, acqWords := [word] } } Reg.TIM_STAT_PHASE
      (if e.sma then 0 else 5) := by
  simp [acqMarkers, hm, hn]

/-- Step 5 with the eighth word of an orbit record. -/
def withRecord (word : Nat) (e : Engine) : Engine := { e with tim := { e.tim with acqWords := e.tim.acqWords ++ [word], sinceMark := 7 } }

section
variable {word : Nat} (hn : e.tim.sinceMark + 1 = 7) (hl : e.tim.acqWords.length = 7)
include hn hl

theorem acqRecord_failed (hr : recordOf (e.tim.acqWords ++ [word]) = none) : acqRecord false word e = recordFailed (withRecord word e) := by
  simp [acqRecord, hn, hl, hr, withRecord]

theorem acqRecord_wrongLength {orb s1 : Nat} (hr : recordOf (e.tim.acqWords ++ [word]) = some (orb, s1))
    (hs : s1 ≠ orbitLen e.active - 1) :
    acqRecord false word e = lengthError (withRecord word e) := by
  simp [acqRecord, hn, hl, hr, hs, withRecord]

theorem acqRecord_passes {orb s1 : Nat} (hr : recordOf (e.tim.acqWords ++ [word]) = some (orb, s1)) (hs : s1 = orbitLen e.active - 1) :
    acqRecord false word e =
      Engine.setReg { withRecord word e with tim := { (withRecord word e).tim with acqOrbit := orb + 1 } } Reg.TIM_STAT_PHASE 0 := by
  simp [acqRecord, hn, hl, hr, hs, withRecord]

end

theorem acqSlot0_marker (hn : e.sma = false ∨ e.tim.sinceMark + 1 = orbitLen e.active) : acqSlot0 true x e =
    { e with tim := { e.tim with acqReady := true, acqWords := [x.word], sinceMark := 0, prevCmd := 1 + x.cmd % 256 } } := by
  rcases hn with hn | hn <;> simp [acqSlot0, hn]

end

/-! ### The rows of acquisition -/

theorem execAcquisitionCrossing_acquires {s : State} (ha : Acquiring s.eng) (hr : s.eng.tim.acqReady = false) (x : Timing) :
    execAcquisitionCrossing x s = .next { s with eng := acqCrossing x s.eng } :=
  if_neg (by simp [ha.unlocked, ha.timing, hr])

section
variable {s : State} (ha : Acquiring s.eng)
include ha

theorem execFreqWindowEnd_near {khz : Nat} (hn : freqNear (s.eng.act Reg.TIM_FNOM_KHZ) khz = true) :
    execFreqWindowEnd khz s = .next { s with
      eng := acqAdvance { s.eng.setReg Reg.TIM_MEAS_KHZ (min khz 131071) with tim := { s.eng.tim with freqOk := true } } } := by
  simp [execFreqWindowEnd, ha.timing, ha.unlocked, hn, satU]

theorem execFreqWindowEnd_far {khz : Nat} (hn : freqNear (s.eng.act Reg.TIM_FNOM_KHZ) khz = false) :
    execFreqWindowEnd khz s = .next { s with eng := restartAcq (s.eng.setReg Reg.TIM_MEAS_KHZ (min khz 131071)) } := by
  simp [execFreqWindowEnd, ha.timing, ha.unlocked, hn, satU]

theorem execPllLockChange_locks :
    execPllLockChange true s = .next { s with eng := acqAdvance { s.eng with tim := { s.eng.tim with pll := true } } } := by
  simp [execPllLockChange, ha.timing, ha.unlocked]

theorem execPllLockChange_unlocks (hp : s.eng.reg Reg.TIM_STAT_PHASE ≠ 1) :
    execPllLockChange false s = .next { s with eng := restartAcq { s.eng with tim := { s.eng.tim with pll := false } } } := by
  simp [execPllLockChange, ha.timing, ha.unlocked, hp]

/-- The measured frequency is shown, in kHz and up to the greatest value of its field. -/
theorem measured_reg (khz : Nat) : (s.eng.setReg Reg.TIM_MEAS_KHZ (min khz 131071)).reg Reg.TIM_MEAS_KHZ = min khz 131071 :=
  (reg_setReg_same ha.wf _ _).trans (Nat.mod_eq_of_lt (show min khz 131071 < 131072 by omega))

end

/-- Settles O37: a crossing does what its phase asks for (`acqCrossing_eq`), each step by its own lemma; the window and the PLL let steps 1
and 2 pass (`acqAdvance_step1`, `acqAdvance_step2`) or begin anew. -/
theorem acquisitionSteps : Obligations.AcquisitionSteps := by
  unfold Obligations.AcquisitionSteps
  refine ⟨fun x s hu ht hr hw => ?crossing, fun khz s hu ht hw => ?window, fun s hu ht hw => ⟨fun hp => ?locks, fun hp => ?unlocks⟩⟩
  case crossing =>
    have ha : Acquiring s.eng := ⟨hu, ht, hw⟩
    have hwh : (heard x s.eng).regs.wf = true := ha.heard.wf
    have hwr : (withRecord x.word (heard x s.eng)).regs.wf = true := hwh
    have does {q : Engine → Prop} {t : Engine} (ht : acqCrossing x s.eng = t) (hq : q t) :
        Completes s (exec (.acquisitionCrossing x) s) q :=
      .of_next ((execAcquisitionCrossing_acquires ha hr x).trans (by rw [ht])) hq
    have phase : (heard x s.eng).reg Reg.TIM_STAT_PHASE = s.eng.reg Reg.TIM_STAT_PHASE := heard_phase hw
    refine ⟨fun hh => ?silent, fun hh hp hf => ?frequency, fun hh hp hx hg => ?sixteenth, fun hh hp hx hg => ?framed,
      fun hh hp hx => ?unframed, fun hh hp hm hm0 => ?firstMarker, fun hh hp hm hm0 hn => ?orbit, fun hh hp hm hm0 hn => ?wrongOrbit,
      fun hh hp hm hn hl orb s1 ho => ⟨fun hs => ?record, fun hs => ?wrongRecord⟩, fun hh hp hm hn hl ho => ?failedRecord,
      fun hh hp hm hn => ?slot0⟩
    case silent =>
      exact does (acqCrossing_silent hw hh)
        ⟨restartAcq_atStepOne hwh, (restartAcq_reg hwh (by decide)).trans ((heard_signal hw).trans (congrArg b2n hh))⟩
    case frequency =>
      exact does (acqCrossing_step1 hw hh hp)
        (acqAdvance_phase_of_step1 ha.heard (phase.trans hp) ((heard_signal hw).trans (congrArg b2n hh)) hf)
    case sixteenth => exact does ((acqCrossing_step3 hw hh hp).trans (acqChars_sixteenth hx hg)) (reg_setReg_same hwh _ _)
    case framed => exact does ((acqCrossing_step3 hw hh hp).trans (acqChars_counts hx hg)) ⟨phase.trans hp, rfl⟩
    case unframed => exact does ((acqCrossing_step3 hw hh hp).trans (acqChars_restarts hx)) ⟨phase.trans hp, rfl⟩
    case firstMarker => exact does ((acqCrossing_step4 hw hh hp hm).trans (acqMarkers_first hm0)) ⟨phase.trans hp, rfl, rfl⟩
    case orbit =>
      refine does ((acqCrossing_step4 hw hh hp hm).trans (acqMarkers_orbit hm0 hn)) ((reg_setReg_same hwh _ _).trans ?_)
      change _ = if (heard x s.eng).sma = true then 0 else 5
      split <;> rfl
    case wrongOrbit =>
      exact does ((acqCrossing_step4 hw hh hp hm).trans (acqMarkers_wrongLength hm0 hn))
        ⟨lengthError_atStepOne hwh, lengthError_lenerr hwh⟩
    case record =>
      exact does ((acqCrossing_step5 hw hh hp hm).trans (acqRecord_passes (e := heard x s.eng) hn hl ho hs))
        ⟨reg_setReg_same hwh _ _, rfl⟩
    case wrongRecord =>
      exact does ((acqCrossing_step5 hw hh hp hm).trans (acqRecord_wrongLength (e := heard x s.eng) hn hl ho hs))
        ⟨lengthError_atStepOne hwr, lengthError_lenerr hwr⟩
    case failedRecord =>
      exact does ((acqCrossing_step5 hw hh hp hm).trans (acqRecord_failed (e := heard x s.eng) hn hl ho))
        ⟨_, rfl, phase.trans hp, rfl⟩
    case slot0 => exact does ((acqCrossing_passed hw hh hp hm).trans (acqSlot0_marker hn)) ⟨rfl, phase.trans hp⟩
  case window =>
    have ha : Acquiring s.eng := ⟨hu, ht, hw⟩
    have ham := ha.setReg (f := Reg.TIM_MEAS_KHZ) (by decide) (by decide) (min khz 131071)
    cases hn : freqNear (s.eng.act Reg.TIM_FNOM_KHZ) khz with
    | true =>
      refine .of_next (execFreqWindowEnd_near ha hn)
        ⟨?_, fun _ => ⟨congrArg TimSt.freqOk (acqAdvance_tim _), fun hp hs => ?_⟩, nofun⟩
      · exact (acqAdvance_reg (ham.withTim _).wf (by decide)).trans (measured_reg ha khz)
      · exact acqAdvance_phase_of_step1 (ham.withTim _) ((reg_setReg_ne hw (by decide) _).trans hp)
          ((reg_setReg_ne hw (by decide) _).trans hs) rfl
    | false =>
      refine .of_next (execFreqWindowEnd_far ha hn) ⟨?_, nofun, fun _ => ⟨restartAcq_phase ham.wf, rfl⟩⟩
      exact (restartAcq_reg ham.wf (by decide)).trans (measured_reg ha khz)
  case locks =>
    have ha : Acquiring s.eng := ⟨hu, ht, hw⟩
    exact .of_next (execPllLockChange_locks ha) ⟨congrArg TimSt.pll (acqAdvance_tim _), acqAdvance_phase_of_step2 (ha.withTim _) hp rfl⟩
  case unlocks => exact .of_next (execPllLockChange_unlocks ⟨hu, ht, hw⟩ hp) ⟨rfl, restartAcq_phase hw⟩

end Sys2Proof.Machine
end

/-! ## Beam timing: lock, counted crossings, and release points -/

section
namespace Sys2Proof.Machine

/-! ### The timing input of a counted crossing (R73, R78, Table 3.5) -/

theorem raise_host (e : Engine) (s d : Nat) : (e.raise s d).host = e.host := (congrArg Engine.host (raise_events e s d).1 :)

theorem raise_wf {e : Engine} (h : e.regs.wf = true) (s d : Nat) : (e.raise s d).regs.wf = true := ((raise_events e s d).2 h).1

/-- From `e` to `f` the host's side and the lock are as they were, and registers keep their canonical form. -/
structure KeepsLock (e f : Engine) : Prop where
  host : f.host = e.host
  wf : e.regs.wf = true → f.regs.wf = true
  locked : e.regs.wf = true → f.locked = e.locked

namespace KeepsLock

theorem refl (e : Engine) : KeepsLock e e := ⟨rfl, id, fun _ => rfl⟩

theorem trans {e f g : Engine} (a : KeepsLock e f) (b : KeepsLock f g) : KeepsLock e g where
  host := b.host.trans a.host
  wf := b.wf ∘ a.wf
  locked h := (b.locked (a.wf h)).trans (a.locked h)

theorem setReg (e : Engine) {f : Fld} (hf : Reg.TIM_STAT_LOCK.key ≠ f.key) (v : Nat) : KeepsLock e (e.setReg f v) :=
  ⟨rfl, fun h => setReg_wf h f v, fun h => congrArg (· == 1) (reg_setReg_ne h hf v)⟩

theorem withTim (e : Engine) (t : TimSt) : KeepsLock e { e with tim := t } := ⟨rfl, id, fun _ => rfl⟩

theorem raise (e : Engine) (s d : Nat) : KeepsLock e (e.raise s d) :=
  ⟨raise_host e s d, fun h => raise_wf h s d, fun h => congrArg (· == 1) (raise_reg e s d h _ (by decide))⟩

end KeepsLock

theorem recordFailed_keepsLock (e : Engine) : KeepsLock e (recordFailed e) := (KeepsLock.setReg e (by decide) _).trans (.raise _ _ _)

/-- The words of an orbit record leave the lock alone; a record that is wrong or fails is a cause of its loss. -/
theorem recordWord_keepsLock (x : Timing) (slot orb : Nat) (e : Engine) :
    KeepsLock e (recordWord x slot orb e).1 ∧ (recordWord x slot orb e).2 ∈ [0, 32, 64] := by
  unfold recordWord
  split
  · exact ⟨.refl e, by simp⟩
  · extract_lets ws e0 e1 n
    have h1 : KeepsLock e e1 := .withTim e _
    split
    · exact ⟨h1, by simp⟩
    · split
      · refine ⟨(h1.trans (.withTim e1 _)).trans (recordFailed_keepsLock _), ?_⟩
        dsimp only
        split <;> simp
      · refine ⟨h1.trans (.withTim e1 _), ?_⟩
        dsimp only
        split <;> simp

/-- The engine when signal and code errors of a counted crossing have been noted and ORBIT_IN sampled. -/
def inputNoted (x : Timing) (e : Engine) : Engine :=
  { (e.setReg Reg.TIM_STAT_SIGNAL (b2n (signalIn e x))).bumpBy Reg.TIM_CODEERR_COUNT (errorsIn e x) with
    tim := { e.tim with
      orbitIn := if x.bcEdge then x.orbitIn else e.tim.orbitIn, errs := errsAfter e.tim.errs (errorsIn e x)
      absent := if signalIn e x then 0 else e.tim.absent + 1 } }

/-- The orbit record of a crossing: the engine, and the causes that it shows. -/
def recordSeen (x : Timing) (slot orb : Nat) (e : Engine) : Engine × Nat :=
  if signalIn e x then recordWord x slot orb (inputNoted x e) else (inputNoted x e, 0)

theorem timingInput_eq (x : Timing) (slot orb : Nat) (e : Engine) : timingInput x slot orb e =
    ((recordSeen x slot orb e).1,
     b2n (!signalIn e x && (decide (4 ≤ if signalIn e x then 0 else e.tim.absent + 1) || decide (slot = 0)))
      + 8 * b2n (decide (slot = 0) != markerIn e x)
      + 16 * b2n (decide (e.reg Reg.TIM_ERRWIN_MAX < ((errsAfter e.tim.errs (errorsIn e x)).map (·.2)).foldl (· + ·) 0))
      + (recordSeen x slot orb e).2) := by
  unfold timingInput
  simp only [sampleOrbit_eq]
  rfl

theorem recordSeen_keepsLock (x : Timing) (slot orb : Nat) (e : Engine) :
    KeepsLock e (recordSeen x slot orb e).1 ∧ (recordSeen x slot orb e).2 ∈ [0, 32, 64] := by
  have hn : KeepsLock e (inputNoted x e) := ((KeepsLock.setReg e (by decide) _).trans (.setReg _ (by decide) _)).trans (.withTim _ _)
  unfold recordSeen
  split
  · obtain ⟨hw, hc⟩ := recordWord_keepsLock x slot orb (inputNoted x e)
    exact ⟨hn.trans hw, hc⟩
  · exact ⟨hn, by simp⟩

theorem timingInput_keepsLock (x : Timing) (slot orb : Nat) (e : Engine) : KeepsLock e (timingInput x slot orb e).1 := by
  rw [timingInput_eq]
  exact (recordSeen_keepsLock x slot orb e).1

/-- Each cause has its bit (Table 3.5). -/
theorem causes_testBit : ∀ (absent marker errors : Bool), ∀ r ∈ [0, 32, 64],
    let c := b2n absent + 8 * b2n marker + 16 * b2n errors + r
    c.testBit 0 = absent ∧ c.testBit 3 = marker ∧ c.testBit 4 = errors
      ∧ c.testBit 1 = false ∧ c.testBit 2 = false ∧ c.testBit 7 = false := by
  decide

/-! ### A crossing of a locked engine (R72, R83) -/

/-- The slot of the next crossing. -/
def slotAfter (e : Engine) : Nat := if e.tim.slot + 1 < orbitLen e.active then e.tim.slot + 1 else 0

/-- The orbit of the next crossing. -/
def orbitAfter (e : Engine) : Nat := if slotAfter e = 0 then e.tim.orbit + 1 else e.tim.orbit

/-- What the timing input of the next crossing shows: the engine, and the causes of loss. -/
def nextInput (x : Timing) (e : Engine) : Engine × Nat := timingInput x (slotAfter e) (orbitAfter e) e

/-- The engine `f`, to which the timing input has led from `e`, in the crossing that is counted next. -/
def inNextCrossing (e f : Engine) : Engine :=
  { f with tim := { f.tim with
      slot := slotAfter e, orbit := orbitAfter e, orbits := if slotAfter e = 0 then f.tim.orbits + 1 else f.tim.orbits } }

/-- The next crossing of an engine that the planned relocks of an orbit boundary, if any, have made `f`. -/
def afterRelocks (i : TickIn) (e f : Engine) : Engine :=
  if !f.locked then holdoverBc f
  else countedCrossing i.nim i.arrivals (commandByte i.timing (beamOf i.timing (nextBc (inNextCrossing e f))))

section
variable {i : TickIn} {e : Engine} (hd : e.tim.cmdDue = none)
include hd

theorem commandLeft_none : commandLeft e = e := by
  unfold commandLeft
  rw [hd]

theorem crossingTick_eq : crossingTick i e =
    if (nextInput i.timing e).2 ≠ 0 then
      holdoverBc (lockLost (nextInput i.timing e).2 (orbitAfter e * orbitLen e.active + slotAfter e) false (nextInput i.timing e).1)
    else afterRelocks i e (if slotAfter e = 0 then
        relocks (nextInput i.timing e).1.host.pends.length (orbitAfter e * orbitLen e.active) (nextInput i.timing e).1
      else (nextInput i.timing e).1) := by
  unfold crossingTick
  rw [commandLeft_none hd]
  rfl

theorem crossingTick_loses (hc : (nextInput i.timing e).2 ≠ 0) : crossingTick i e =
    holdoverBc (lockLost (nextInput i.timing e).2 (orbitAfter e * orbitLen e.active + slotAfter e) false (nextInput i.timing e).1) :=
  (crossingTick_eq hd).trans (if_pos hc)

/-- Without a cause of loss, and without a commit that could relock at an orbit boundary, the next crossing is counted. -/
theorem crossingTick_counts (hc : (nextInput i.timing e).2 = 0) (hl : (nextInput i.timing e).1.locked = true)
    (hp : slotAfter e ≠ 0 ∨ (nextInput i.timing e).1.host.pends = []) : crossingTick i e = countedCrossing i.nim i.arrivals
      (commandByte i.timing (beamOf i.timing (nextBc (inNextCrossing e (nextInput i.timing e).1)))) := by
  have hr : (if slotAfter e = 0 then
      relocks (nextInput i.timing e).1.host.pends.length (orbitAfter e * orbitLen e.active) (nextInput i.timing e).1
      else (nextInput i.timing e).1) = (nextInput i.timing e).1 := by
    rcases hp with hp | hp
    · exact if_neg hp
    · rw [hp]
      exact ite_self _
  rw [crossingTick_eq hd, hr, if_neg (not_not_intro hc), afterRelocks, hl]
  exact if_neg Bool.false_ne_true

end

/-- The input of the next crossing shows Table 3.5's causes: no signal, a marker in the wrong slot or none in slot 0, code errors. -/
theorem nextInput_testBit (x : Timing) (e : Engine) :
    let c := (nextInput x e).2
    c.testBit 0 = (!signalIn e x && (decide (4 ≤ if signalIn e x then 0 else e.tim.absent + 1) || decide (slotAfter e = 0)))
      ∧ c.testBit 3 = (decide (slotAfter e = 0) != markerIn e x)
      ∧ c.testBit 4 = decide (e.reg Reg.TIM_ERRWIN_MAX < ((errsAfter e.tim.errs (errorsIn e x)).map (·.2)).foldl (· + ·) 0)
      ∧ c.testBit 1 = false ∧ c.testBit 2 = false ∧ c.testBit 7 = false := by
  unfold nextInput
  rw [timingInput_eq]
  exact causes_testBit _ _ _ _ (recordSeen_keepsLock x _ _ e).2

/-! ### Lock, and the other causes of its loss -/

theorem execLockAcquire_locks {s : State} (hu : s.eng.locked = false) (ht : s.eng.timing = true) (hr : s.eng.tim.acqReady = true)
    (hp : s.eng.host.pends = []) : execLockAcquire s = .next { s with
      eng := countedCrossing (freeSamples (nextBc (declareLock (lockOrbit s.eng) s.eng))).1 []
        (freeSamples (nextBc (declareLock (lockOrbit s.eng) s.eng))).2 } := by
  have hd : commitDue s.eng = s.eng := commitDue_none (by simp [duePends, hp])
  simp only [execLockAcquire, hd, hu, ht, hr, Bool.not_true, Bool.false_eq_true, or_self, if_false]

/-- The orbit number of R77: of the orbit record, or of TIM_ORBSET where it is valid, or the one after the last. -/
theorem lockOrbit_eq (e : Engine) : lockOrbit e = if e.sma = false then e.tim.acqOrbit % 2 ^ 50
    else if e.reg Reg.TIM_ORBSET_HI_VALID = 1 then e.reg Reg.TIM_ORBSET_LO_ORB + 2 ^ 32 * e.reg Reg.TIM_ORBSET_HI_ORB
    else e.tim.nextOrbit := by
  simp only [lockOrbit, Bool.not_eq_true']

section
variable {s : State} (ht : s.eng.timing = true) (hl : s.eng.locked = true)
include ht hl

theorem execPllLockChange_loses : execPllLockChange false s =
    .next { s with eng := lockLost 2 s.eng.counted false { s.eng with tim := { s.eng.tim with pll := false } } } := by
  simp [execPllLockChange, ht, hl]

theorem execFreqWindowEnd_loses {khz : Nat} (hn : freqNear (s.eng.act Reg.TIM_FNOM_KHZ) khz = false) : execFreqWindowEnd khz s =
    .next { s with eng := lockLost 4 s.eng.counted false (s.eng.setReg Reg.TIM_MEAS_KHZ (min khz 131071)) } := by
  simp [execFreqWindowEnd, ht, hl, hn, satU]

theorem execFreqWindowEnd_stays {khz : Nat} (hn : freqNear (s.eng.act Reg.TIM_FNOM_KHZ) khz = true) : execFreqWindowEnd khz s =
    .next { s with eng := s.eng.setReg Reg.TIM_MEAS_KHZ (min khz 131071) } := by
  simp [execFreqWindowEnd, ht, hl, hn, satU]

end

/-! ### Release points (R88) -/

section
variable {e : Engine} (h : e.regs.wf = true)
include h

theorem showRelease_worst : (showRelease e).reg Reg.TIM_RPWORST_SC = satU 12 (e.tim.rpWorst.get (e.reg Reg.TIM_RPIDX_ID)) := by
  refine (Tab.fld_put_same (Tab.wf_put h _ _) _ _).trans (Nat.mod_eq_of_lt ?_)
  exact Nat.lt_of_le_of_lt (Nat.min_le_right _ _) (show 2 ^ 12 - 1 < 2 ^ 12 by decide)

theorem showRelease_reg {g : Fld} (hs : g.key ≠ Reg.TIM_RPSET_SC.key) (hw : g.key ≠ Reg.TIM_RPWORST_SC.key) :
    (showRelease e).reg g = e.reg g :=
  Tab.fld_puts_ne _ h (by simp only [List.forall_mem_cons]; exact ⟨hs, hw, nofun⟩)

end

/-- The engine in which nothing has reached the boundary that TIM_RPIDX selects. -/
def trackingRestarted (e : Engine) : Engine :=
  { e with tim := { e.tim with rpWorst := e.tim.rpWorst.set (e.reg Reg.TIM_RPIDX_ID) 0 } }

theorem execTimRpworstClr_eq (s : State) : execTimRpworstClr s = .next { s with eng := showRelease (trackingRestarted s.eng) } := rfl

/-- Settles O38: lock is counted from `declareLock`; the next crossing by the causes that its input shows (`nextInput_testBit`), lost
(`crossingTick_loses`) or counted (`crossingTick_counts`); the other clauses are one next state each. -/
theorem lockAndCrossings : Obligations.LockAndCrossings := by
  unfold Obligations.LockAndCrossings
  refine ⟨fun s hu ht hr hp => ?lock, fun i s hl hd hw => ?crossing,
    fun s ht hl => ⟨?pll, fun khz hn => ?far, fun khz hn => ?near, fun ha => ?signal⟩,
    fun s hu hst => ?holdover, fun s hw hrp => ?release⟩
  case lock =>
    dsimp only
    rw [← lockOrbit_eq]
    exact execLockAcquire_locks hu ht hr hp
  case crossing =>
    obtain ⟨h0, h3, h4, h127⟩ := nextInput_testBit i.timing s.eng
    have hk : KeepsLock s.eng (nextInput i.timing s.eng).1 := timingInput_keepsLock _ _ _ _
    have ho : exec (.crossingTick i) s = .next { s with eng := crossingTick i s.eng } := if_pos hl
    refine ⟨h0, h3, h4, h127, fun hc => ?_, fun hc hp => ?_⟩
    · rw [ho, crossingTick_loses hd hc]
      rfl
    · rw [ho, crossingTick_counts hd hc ((hk.locked hw).trans hl) (hp.imp_right (congrArg HostSt.pends hk.host).trans)]
      rfl
  case pll => exact execPllLockChange_loses ht hl
  case far => exact execFreqWindowEnd_loses ht hl hn
  case near => exact execFreqWindowEnd_stays ht hl hn
  case signal => exact if_pos ⟨hl, ha⟩
  case holdover => exact if_neg (by simp [hu, hst])
  case release =>
    have hwr : (trackingRestarted s.eng).regs.wf = true := hw
    have h0 : (trackingRestarted s.eng).tim.rpWorst.get (s.eng.reg Reg.TIM_RPIDX_ID) = 0 := Tab.get_set_same hrp _ _
    refine .of_next (execTimRpworstClr_eq s) ⟨(showRelease_worst hwr).trans (congrArg (satU 12) h0), h0,
      fun b hb => Tab.get_set_ne hrp hb _, fun g hs hc => showRelease_reg hwr hs hc⟩

end Sys2Proof.Machine
end

/-! ## Beam timing: timing commands -/

section
namespace Sys2Proof.Machine

/-! ### The command byte (R74) -/

section
variable {x : Timing} {e : Engine} (hs : e.sma = false)
include hs

theorem commandByte_absent (hx : x.char0 = .absent) : commandByte x e = { e with tim := { e.tim with prevCmd := 0 } } := by
  simp [commandByte, hs, hx]

variable (hx : x.char0 ≠ .absent) (hc : x.cmd < 256)
include hx hc

/-- The second of two crossings with a new code: the command acts. -/
theorem commandByte_acts (h0 : x.cmd ≠ 0) (hp : e.tim.prevCmd = x.cmd + 1) (ha : e.tim.acted ≠ x.cmd + 1) : commandByte x e =
    { e with tim := { e.tim with prevCmd := x.cmd + 1, acted := x.cmd + 1, cmdDue := some x.cmd } } := by
  simp [commandByte, hs, hx, Nat.mod_eq_of_lt hc, h0, hp, ha]

/-- NOP, the first crossing with a code, and a code that has acted: no command acts. -/
theorem commandByte_waits (h : x.cmd = 0 ∨ e.tim.prevCmd ≠ x.cmd + 1 ∨ e.tim.acted = x.cmd + 1) : commandByte x e =
    { e with tim := { e.tim with prevCmd := x.cmd + 1, acted := if e.tim.acted = x.cmd + 1 then x.cmd + 1 else 0 } } := by
  rcases h with h | h | h <;> simp [commandByte, hs, hx, Nat.mod_eq_of_lt hc, h]

end

/-! ### A timing command that is due (R74, R435, R444) -/

/-- The engine when the command that was due has been taken. -/
def commandTaken (e : Engine) : Engine := { e with tim := { e.tim with cmdDue := none } }

/-- The engine when command `c` has been recorded and its event raised. -/
def commandRecorded (c : Nat) (e : Engine) : Engine := ((commandTaken e).setReg Reg.TIM_CMD_LAST c).raise Src.cmd c

theorem timingCommand_defined {c : Nat} (hd : cmdDefined c = true) (e : Engine) : timingCommand c e =
    if c = 1 then
      if (commandRecorded c e).reg Reg.PWR_WAKE_TIMCMD = 1 then startWake (commandRecorded c e) 2 else commandRecorded c e
    else if (c = 2 ∨ c = 3) ∧ (commandRecorded c e).reg Reg.PWR_CTL_FILLCMD = 1 then
      { commandRecorded c e with pwr := { (commandRecorded c e).pwr with fillDue := c } }
    else commandRecorded c e := if_neg (by simp [hd])

theorem timingCommand_wake (e : Engine) : timingCommand 1 e =
    if (commandRecorded 1 e).reg Reg.PWR_WAKE_TIMCMD = 1 then startWake (commandRecorded 1 e) 2 else commandRecorded 1 e :=
  (timingCommand_defined rfl e).trans (if_pos rfl)

theorem timingCommand_fill {c : Nat} (hc : c = 2 ∨ c = 3) (e : Engine) : timingCommand c e =
    if (commandRecorded c e).reg Reg.PWR_CTL_FILLCMD = 1 then
      { commandRecorded c e with pwr := { (commandRecorded c e).pwr with fillDue := c } }
    else commandRecorded c e := by
  have hd : cmdDefined c = true := by rcases hc with rfl | rfl <;> rfl
  rw [timingCommand_defined hd, if_neg (by omega)]
  simp only [hc, true_and]

theorem timingCommand_recorded {c : Nat} (hc : c = 4 ∨ 0x40 ≤ c ∧ c ≤ 0x7F)
    (e : Engine) : timingCommand c e = commandRecorded c e := by
  have hd : cmdDefined c = true := by
    simp only [cmdDefined, Bool.or_eq_true, decide_eq_true_eq]
    omega
  rw [timingCommand_defined hd, if_neg (by omega), if_neg (by omega)]

theorem cmdDefined_eq_false {c : Nat} (hc : c = 0 ∨ (4 < c ∧ c < 0x40) ∨ 0x7F < c) : cmdDefined c = false := by
  simp only [cmdDefined, Bool.or_eq_false_iff, decide_eq_false_iff_not]
  omega

theorem timingCommand_undefined {c : Nat} (hc : cmdDefined c = false) (e : Engine) :
    timingCommand c e = (commandTaken e).bump Reg.TIM_CMDBAD_COUNT :=
  if_pos (by simp [hc])

theorem commandRow_due {p : Nat → Bool} {e : Engine} {c : Nat} (hl : e.locked = true) (hd : e.tim.cmdDue = some c) (hp : p c = true) :
    commandRow p e = timingCommand c e := by
  simp [commandRow, hd, hl, hp]

/-- While TIM is unlocked, and without a command that is due, a row does nothing. -/
theorem commandRow_none {e : Engine} (h : e.locked = false ∨ e.tim.cmdDue = none) (p : Nat → Bool) : commandRow p e = e := by
  unfold commandRow
  rcases h with h | h
  · simp only [h, Bool.and_false, Bool.false_eq_true, if_false]
    split <;> rfl
  · rw [h]

/-- Settles O39: a byte makes its command due or not (`commandByte_acts`, `commandByte_waits`), and a row does what its command does
(`commandRow_due`, `timingCommand_defined`). -/
theorem timingCommands : Obligations.TimingCommands := by
  unfold Obligations.TimingCommands
  refine ⟨fun x e hs hx hc => ?byte, fun x e hs hx => ?absent, fun s c hl hd => ?due, fun s h => ?none⟩
  case byte =>
    dsimp only
    by_cases hw : x.cmd = 0 ∨ e.tim.prevCmd ≠ x.cmd + 1 ∨ e.tim.acted = x.cmd + 1
    · rw [commandByte_waits hs hx hc hw]
      exact ⟨rfl, fun h0 hp ha => (hw.elim h0 (Or.elim · (· hp) ha)).elim, fun _ => rfl, fun ha => if_pos ha, fun ha _ => if_neg ha⟩
    · obtain ⟨h0, hp, ha⟩ := by simpa only [not_or, not_not] using hw
      rw [commandByte_acts hs hx hc h0 hp ha]
      exact ⟨rfl, fun _ _ _ => ⟨rfl, rfl⟩, fun h => (hw h).elim, fun _ => rfl, fun _ hn => (hn hp).elim⟩
  case absent =>
    dsimp only
    rw [commandByte_absent hs hx]
    exact ⟨rfl, rfl, rfl⟩
  case due =>
    have row {p : Nat → Bool} {t : Engine} (hp : p c = true) (ht : timingCommand c s.eng = t) :
        (.next { s with eng := commandRow p s.eng } : Host.Outcome State Fault Refusal) = .next { s with eng := t } := by
      rw [commandRow_due hl hd hp, ht]
    refine ⟨fun hc => row (by simp [hc]) ?_, fun hc => row (by simp [hc]) (timingCommand_fill (.inl hc) _),
      fun hc => row (by simp [hc]) (timingCommand_fill (.inr hc) _), fun hc => row (by simp [hc]) (timingCommand_recorded (.inl hc) _),
      fun ha hb => row (by simp [ha, hb]) (timingCommand_recorded (.inr ⟨ha, hb⟩) _),
      fun hc => row (by simp [cmdDefined_eq_false hc]) (timingCommand_undefined (cmdDefined_eq_false hc) _)⟩
    subst hc
    exact timingCommand_wake _
  case none =>
    have row (p : Nat → Bool) : (.next { s with eng := commandRow p s.eng } : Host.Outcome State Fault Refusal) = .next s := by
      rw [commandRow_none h]
    exact ⟨row _, row _, row _, row _, row _, row _⟩

end Sys2Proof.Machine
end

/-! ## Shevo lanes: coding lock, holding, and the reports of skew -/

section
namespace Sys2Proof.Machine

/-! ### Registers below the event fabric that keep their values -/

/-- Every register below EVT, but for those at the keys `ks`, reads in `t` as in `e`; the registers stay in canonical form. -/
def KeepsRegsBut (ks : List Nat) (e t : Engine) : Prop :=
  e.regs.wf = true → t.regs.wf = true ∧ ∀ g : Fld, g.key < 32 * 0xE00000 → g.key ∉ ks → t.reg g = e.reg g

namespace KeepsRegsBut

section
variable {ks : List Nat} {e f t : Engine}

theorem of_regs_eq (h : t.regs = e.regs) : KeepsRegsBut ks e t := fun hw =>
  ⟨by rwa [h], fun g _ _ => congrArg (·.fld g) h⟩

theorem mono {js : List Nat} (h : KeepsRegsBut js e t) (hs : js ⊆ ks) : KeepsRegsBut ks e t := fun hw =>
  have ⟨ht, hr⟩ := h hw
  ⟨ht, fun g hg hk => hr g hg (fun hj => hk (hs hj))⟩

theorem trans (a : KeepsRegsBut ks e f) (b : KeepsRegsBut ks f t) : KeepsRegsBut ks e t := fun hw =>
  have ⟨hf, ha⟩ := a hw
  have ⟨ht, hb⟩ := b hf
  ⟨ht, fun g hg hk => (hb g hg hk).trans (ha g hg hk)⟩

theorem setReg {f : Fld} (hf : f.key ∈ ks) (v : Nat) : KeepsRegsBut ks e (e.setReg f v) := fun hw =>
  ⟨setReg_wf hw f v, fun _ _ hk => reg_setReg_ne hw (ne_of_mem_of_not_mem hf hk).symm v⟩

theorem raise (s d : Nat) : KeepsRegsBut ks e (e.raise s d) := fun hw =>
  have ⟨ht, hr⟩ := (raise_events e s d).2 hw
  ⟨ht, fun g hg _ => hr g hg⟩

end

end KeepsRegsBut

/-- A counter reads one more after a count, and no more than its greatest value. -/
theorem reg_bump_same {e : Engine} (h : e.regs.wf = true) (f : Fld) : (e.bump f).reg f = satU f.width (e.reg f + 1) :=
  (reg_setReg_same h f _).trans (Nat.mod_eq_of_lt (Nat.lt_of_le_of_lt (Nat.min_le_right _ _) (Nat.sub_one_lt (by simp))))

theorem raise_lnk (e : Engine) (s d : Nat) : (e.raise s d).lnk = e.lnk := by rw [(raise_events e s d).1]

/-! ### The registers of a lane (Tables 4.9 and 4.10) -/

/-- LNK_UP stands below the registers of the lanes. -/
theorem upFld_key_lt (l : Nat) : (upFld l).key < 32 * 0x0201000 := by
  unfold upFld
  match l / 32 with
  | 0 | 1 | 2 | 3 | 4 => decide
  | _ + 5 => simp

theorem key_ne_upFld {g : Fld} (hg : 32 * 0x0201000 ≤ g.key) (l : Nat) : g.key ≠ (upFld l).key :=
  Nat.ne_of_gt ((upFld_key_lt l).trans_le hg)

theorem laneStateKey_ne_upFld (l : Nat) : (Reg.LNK_LSTAT_STATE l).key ≠ (upFld l).key := key_ne_upFld (by dsimp only; omega) l

theorem synclossKey_ne_upFld (l : Nat) : (Reg.LNK_SYNCLOSS_COUNT l).key ≠ (upFld l).key := key_ne_upFld (by dsimp only; omega) l

theorem laneStateKey_lt {l : Nat} (hl : l < 144) : (Reg.LNK_LSTAT_STATE l).key < 32 * 0xE00000 := by
  dsimp only
  omega

theorem synclossKey_lt {l : Nat} (hl : l < 144) : (Reg.LNK_SYNCLOSS_COUNT l).key < 32 * 0xE00000 := by
  dsimp only
  omega

theorem synclossKey_ne_lstat (l : Nat) : (Reg.LNK_SYNCLOSS_COUNT l).key ≠ (Reg.LNK_LSTAT_STATE l).key
    ∧ (Reg.LNK_SYNCLOSS_COUNT l).key ≠ (Reg.LNK_LSTAT_EQF l).key ∧ (Reg.LNK_SYNCLOSS_COUNT l).key ≠ (Reg.LNK_LSTAT_READAPT l).key := by
  dsimp only
  omega

/-- The keys of the registers that a lane's change of state may write. -/
def laneKeys (l : Nat) : List Nat :=
  [(Reg.LNK_LSTAT_STATE l).key, (upFld l).key, (Reg.LNK_LSTAT_EQF l).key, (Reg.LNK_SYNCLOSS_COUNT l).key, (Reg.LNK_LSTAT_READAPT l).key]

/-! ### The equaliser (R115) -/

section
variable {e : Engine} {l : Nat}

/-- A lane that is not UP does not hold. -/
theorem eqRefresh_of_not_up (h : e.laneState l ≠ 3) : e.eqRefresh l = e.setReg (Reg.LNK_LSTAT_EQF l) 0 := by
  simp [Engine.eqRefresh, h, b2n]

/-- A lane that is UP and has adapted holds where its mode asks for it; as holding starts, the coefficients are those found till then. -/
theorem eqRefresh_of_adapted (hu : e.laneState l = 3) (ha : e.lnk.adapting.get l = 0) : e.eqRefresh l =
    if e.holdMode l = true ∧ e.reg (Reg.LNK_LSTAT_EQF l) = 0 then
      { e.setReg (Reg.LNK_LSTAT_EQF l) (b2n (e.holdMode l)) with
        lnk := { e.lnk with coefs := e.lnk.coefs.set l (1 + e.free) }, free := e.free + 1 }
    else e.setReg (Reg.LNK_LSTAT_EQF l) (b2n (e.holdMode l)) := by
  simp [Engine.eqRefresh, hu, ha]

end

/-! ### A lane moves to a state below UP (R108) -/

/-- The engine when lane `l` shows state `st` below UP, and its headers and its adaptation are counted anew. -/
def laneMarked (l st : Nat) (e : Engine) : Engine :=
  { (e.setReg (Reg.LNK_LSTAT_STATE l) st).putBit (upFld l) (l % 32) false with
    lnk := { e.lnk with good := e.lnk.good.set l 0, bad := e.lnk.bad.set l 0, adapting := e.lnk.adapting.set l 0 } }

/-- The engine when lane `l` has lost its sync: its frames in the receive stage go, the loss is counted and LANE_DOWN raised. -/
def syncLost (l : Nat) (e : Engine) : Engine := ((e.dropRx l).bump (Reg.LNK_SYNCLOSS_COUNT l)).raise (Src.lnk + 1) l

/-- The engine when lane `l` has left UP: it shows READAPT where it `held`. -/
def upLeft (l : Nat) (held : Prop) [Decidable held] (e : Engine) : Engine :=
  if held then (syncLost l e).raiseBit (Reg.LNK_LSTAT_READAPT l) else syncLost l e

/-- The engine when lane `l` has moved to `st` below UP, before its equaliser is judged. -/
def movedBelow (l st : Nat) (e : Engine) : Engine :=
  if e.laneState l = 3 then upLeft l (e.reg (Reg.LNK_LSTAT_EQF l) = 1) (laneMarked l st e) else laneMarked l st e

theorem laneMarked_keepsRegs (l st : Nat) (e : Engine) :
    KeepsRegsBut [(Reg.LNK_LSTAT_STATE l).key, (upFld l).key] e (laneMarked l st e) :=
  ((KeepsRegsBut.setReg (f := Reg.LNK_LSTAT_STATE l) (by simp) st).trans (.setReg (f := upFld l) (by simp) _)).trans (.of_regs_eq rfl)

theorem syncLost_keepsRegs (l : Nat) (e : Engine) : KeepsRegsBut [(Reg.LNK_SYNCLOSS_COUNT l).key] e (syncLost l e) :=
  ((KeepsRegsBut.of_regs_eq rfl).trans (.setReg (e := e.dropRx l) (List.mem_singleton_self _) _)).trans (.raise _ _)

section
variable (l : Nat) (held : Prop) [Decidable held] (e : Engine)

theorem upLeft_lnk : (upLeft l held e).lnk = (e.dropRx l).lnk := by
  unfold upLeft
  split <;> exact raise_lnk _ _ _

theorem upLeft_keepsRegs : KeepsRegsBut [(Reg.LNK_SYNCLOSS_COUNT l).key, (Reg.LNK_LSTAT_READAPT l).key] e (upLeft l held e) := by
  have hs := (syncLost_keepsRegs l e).mono (List.cons_subset_cons _ (List.nil_subset [(Reg.LNK_LSTAT_READAPT l).key]))
  unfold upLeft
  split
  · exact hs.trans (.setReg (by simp) _)
  · exact hs

end

theorem movedBelow_keepsRegs (l st : Nat) (e : Engine) : KeepsRegsBut (laneKeys l) e (movedBelow l st e) := by
  have hm : KeepsRegsBut (laneKeys l) e (laneMarked l st e) := (laneMarked_keepsRegs l st e).mono (by simp [laneKeys])
  unfold movedBelow
  split
  · exact hm.trans ((upLeft_keepsRegs l _ _).mono (by simp [laneKeys]))
  · exact hm

section
variable {e : Engine} {l : Nat} (hw : e.regs.wf = true)
include hw

theorem upLeft_syncloss (hl : l < 144) (held : Prop) [Decidable held] :
    (upLeft l held e).reg (Reg.LNK_SYNCLOSS_COUNT l) = satU 32 (e.reg (Reg.LNK_SYNCLOSS_COUNT l) + 1) := by
  have hs : (syncLost l e).reg (Reg.LNK_SYNCLOSS_COUNT l) = satU 32 (e.reg (Reg.LNK_SYNCLOSS_COUNT l) + 1) :=
    have h0 : (e.dropRx l).regs.wf = true := hw
    (raise_reg _ _ _ (setReg_wf h0 _ _) _ (synclossKey_lt hl)).trans (reg_bump_same h0 _)
  unfold upLeft
  split
  · exact (reg_setReg_ne (syncLost_keepsRegs l e hw).1 (synclossKey_ne_lstat l).2.2 _).trans hs
  · exact hs

theorem upLeft_readapt {held : Prop} [Decidable held] (hh : held) : (upLeft l held e).reg (Reg.LNK_LSTAT_READAPT l) = 1 := by
  rw [upLeft, if_pos hh]
  exact reg_setReg_same (syncLost_keepsRegs l e hw).1 _ _

end

section
variable {e : Engine} {l st : Nat} (hw : e.regs.wf = true) (hl : l < 144) (hst : st < 3)
include hw hst

theorem laneMarked_laneState : (laneMarked l st e).laneState l = st :=
  calc (laneMarked l st e).laneState l
    _ = (e.setReg (Reg.LNK_LSTAT_STATE l) st).laneState l := reg_setReg_ne (setReg_wf hw _ _) (laneStateKey_ne_upFld l) _
    _ = st % 2 ^ 2 := reg_setReg_same hw _ _
    _ = st := Nat.mod_eq_of_lt (by omega)

include hl

theorem movedBelow_laneState : (movedBelow l st e).laneState l = st := by
  unfold movedBelow
  split
  · have ⟨_, hr⟩ := upLeft_keepsRegs l (e.reg (Reg.LNK_LSTAT_EQF l) = 1) _ (laneMarked_keepsRegs l st e hw).1
    exact (hr _ (laneStateKey_lt hl) (by simp)).trans (laneMarked_laneState hw hst)
  · exact laneMarked_laneState hw hst

/-- Below UP a lane holds no more. -/
theorem setLane_below : e.setLane l st = (movedBelow l st e).setReg (Reg.LNK_LSTAT_EQF l) 0 := by
  have h3 : st ≠ 3 := Nat.ne_of_lt hst
  have hm : e.setLane l st = (movedBelow l st e).eqRefresh l := by
    have hb : (st == 3) = false := beq_false_of_ne h3
    by_cases hu : e.laneState l = 3
    · simp only [Engine.setLane, movedBelow, hu, h3, hb, ne_eq, not_false_eq_true, and_self, if_true, if_false]
      rfl
    · simp only [Engine.setLane, movedBelow, hu, h3, hb, false_and, and_false, if_false]
      rfl
  rw [hm, eqRefresh_of_not_up ((movedBelow_laneState hw hl hst).trans_ne h3)]

theorem setLane_below_laneState : (e.setLane l st).laneState l = st := by
  rw [setLane_below hw hl hst]
  exact (reg_setReg_ne (movedBelow_keepsRegs l st e hw).1 (by simp) _).trans (movedBelow_laneState hw hl hst)

theorem setLane_below_eqf : (e.setLane l st).reg (Reg.LNK_LSTAT_EQF l) = 0 := by
  rw [setLane_below hw hl hst]
  exact reg_setReg_same (movedBelow_keepsRegs l st e hw).1 _ _

theorem setLane_below_keepsRegs : KeepsRegsBut (laneKeys l) e (e.setLane l st) := by
  rw [setLane_below hw hl hst]
  exact (movedBelow_keepsRegs l st e).trans (.setReg (by simp [laneKeys]) _)

/-- A change of state below UP is seen in the lane's own registers and in LNK_UP alone. -/
theorem setLane_below_rest {g : Fld} (hg : g.key < 32 * 0xE00000) (hs : g.key ≠ (Reg.LNK_LSTAT_STATE l).key)
    (hup : g.key ≠ (upFld l).key) (heqf : g.key ≠ (Reg.LNK_LSTAT_EQF l).key) (hloss : g.key ≠ (Reg.LNK_SYNCLOSS_COUNT l).key)
    (hre : g.key ≠ (Reg.LNK_LSTAT_READAPT l).key) : (e.setLane l st).reg g = e.reg g := by
  refine (setLane_below_keepsRegs hw hl hst hw).2 g hg ?_
  simp only [laneKeys, List.mem_cons, List.not_mem_nil, or_false, not_or]
  exact ⟨hs, hup, heqf, hloss, hre⟩

/-- The counts of headers begin anew. -/
theorem setLane_below_headers : (e.setLane l st).lnk.good = e.lnk.good.set l 0 ∧ (e.setLane l st).lnk.bad = e.lnk.bad.set l 0 := by
  rw [setLane_below hw hl hst, setReg_lnk]
  unfold movedBelow
  split
  · rw [upLeft_lnk]
    exact ⟨rfl, rfl⟩
  · exact ⟨rfl, rfl⟩

variable (hu : e.laneState l = 3)
include hu

theorem setLane_fromUp :
    e.setLane l st = (upLeft l (e.reg (Reg.LNK_LSTAT_EQF l) = 1) (laneMarked l st e)).setReg (Reg.LNK_LSTAT_EQF l) 0 := by
  rw [setLane_below hw hl hst, movedBelow, if_pos hu]

theorem setLane_fromUp_rx : (e.setLane l st).lnk.rx = (e.dropRx l).lnk.rx := by
  rw [setLane_fromUp hw hl hst hu, setReg_lnk, upLeft_lnk]
  rfl

theorem setLane_fromUp_syncloss :
    (e.setLane l st).reg (Reg.LNK_SYNCLOSS_COUNT l) = satU 32 (e.reg (Reg.LNK_SYNCLOSS_COUNT l) + 1) := by
  obtain ⟨hwm, hm⟩ := laneMarked_keepsRegs l st e hw
  obtain ⟨hstate, heqf, _⟩ := synclossKey_ne_lstat l
  rw [setLane_fromUp hw hl hst hu, reg_setReg_ne (upLeft_keepsRegs l _ _ hwm).1 heqf, upLeft_syncloss hwm hl,
    hm _ (synclossKey_lt hl) (by simp only [List.mem_cons, List.not_mem_nil, or_false, not_or]; exact ⟨hstate, synclossKey_ne_upFld l⟩)]

/-- A lane that held adapts anew when it is UP again. -/
theorem setLane_fromUp_readapt (hf : e.reg (Reg.LNK_LSTAT_EQF l) = 1) : (e.setLane l st).reg (Reg.LNK_LSTAT_READAPT l) = 1 := by
  have hwm := (laneMarked_keepsRegs l st e hw).1
  rw [setLane_fromUp hw hl hst hu]
  exact (reg_setReg_ne (upLeft_keepsRegs l _ _ hwm).1 (by simp) _).trans (upLeft_readapt hwm hf)

end

/-! ### The rows of a lane (R108, R113, R115) -/

section
variable {lane : Nat} {s : State}

/-- A lane that is OFF changes in nothing. -/
theorem execLaneSignalChange_off (h : s.eng.laneState lane = 0) (x : LaneSignal) : execLaneSignalChange lane x s = .next s := by
  simp [execLaneSignalChange, h]

/-- The coding layer locks at the polarity that INV gives alone: at the other one it is as if lost. -/
theorem execLaneSignalChange_polarity {inv : Bool} (hi : inv ≠ (s.eng.act (Reg.LNK_LCFG_INV lane) == 1)) (inv' : Bool) :
    execLaneSignalChange lane ⟨true, inv⟩ s = execLaneSignalChange lane ⟨false, inv'⟩ s := by
  simp [execLaneSignalChange, hi]

theorem execLaneSignalChange_hunts (hl : lane < 144) (h : s.eng.laneState lane = 1) :
    execLaneSignalChange lane ⟨true, s.eng.act (Reg.LNK_LCFG_INV lane) == 1⟩ s = .next { s with eng := s.eng.setLane lane 2 } := by
  simp [execLaneSignalChange, h, hl]

theorem execLaneSignalChange_staysDown (h : s.eng.laneState lane = 1) (inv : Bool) :
    execLaneSignalChange lane ⟨false, inv⟩ s = .next s := by
  simp [execLaneSignalChange, h]

theorem execLaneSignalChange_staysLocked (h : 2 ≤ s.eng.laneState lane) :
    execLaneSignalChange lane ⟨true, s.eng.act (Reg.LNK_LCFG_INV lane) == 1⟩ s = .next s := by
  simp [execLaneSignalChange, show s.eng.laneState lane ≠ 1 by omega]

theorem execLaneSignalChange_loses (hl : lane < 144) (h : 2 ≤ s.eng.laneState lane) (inv : Bool) :
    execLaneSignalChange lane ⟨false, inv⟩ s = .next { s with eng := s.eng.setLane lane 1 } := by
  simp [execLaneSignalChange, hl, show s.eng.laneState lane ≠ 0 by omega, show s.eng.laneState lane ≠ 1 by omega]

/-- The engine when the millisecond of adaptation of lane `l` has passed. -/
def adapted (l : Nat) (e : Engine) : Engine := { e with lnk := { e.lnk with adapting := e.lnk.adapting.set l 0 } }

theorem execEqHoldStart_up (hl : lane < 144) (hu : s.eng.laneState lane = 3) :
    execEqHoldStart lane s = .next { s with eng := (adapted lane s.eng).eqRefresh lane } := by
  simp [execEqHoldStart, adapted, hl, hu]

end

theorem skewEpochEnd_ends {e : Engine} (hl : e.locked = true) (ho : 128 ≤ e.tim.orbits) :
    skewEpochEnd e = ((skewed e.lnk.skew).foldl Engine.reportSkew { e with
      lnk := { e.lnk with skew := shiftEpochs e.lnk.skew }, tim := { e.tim with orbits := e.tim.orbits - 128 } }).skewSum :=
  if_neg (by simp [hl, ho])

/-- Settles O40: a row moves its lane to HUNT or to DOWN (`execLaneSignalChange_hunts`, `execLaneSignalChange_loses`), and what a move below
UP does is said by the lemmas on `setLane`; the equaliser of a lane that has adapted is judged by `eqRefresh_of_adapted`. -/
theorem laneStates : Obligations.LaneStates := by
  unfold Obligations.LaneStates
  refine ⟨fun lane s hl hw hg hb => ⟨fun h0 => ⟨?offLocks, ?offLost⟩, fun h1 => ⟨?staysDown, ?hunts⟩, fun inv hi => ?polarity,
    fun h2 => ⟨?staysLocked, ?loses⟩⟩, fun lane s hl hw ha hu => ?hold, fun s hk ho => ?epoch⟩
  case offLocks => exact execLaneSignalChange_off h0 _
  case offLost => exact execLaneSignalChange_off h0 _
  case staysDown => exact execLaneSignalChange_staysDown h1 _
  case hunts =>
    have h2 : 2 < 3 := by decide
    exact .of_next (execLaneSignalChange_hunts hl h1)
      ⟨setLane_below_laneState hw hl h2, fun _ => setLane_below_rest hw hl h2⟩
  case polarity => exact execLaneSignalChange_polarity hi _
  case staysLocked => exact execLaneSignalChange_staysLocked h2
  case loses =>
    have h1 : 1 < 3 := by decide
    obtain ⟨hgood, hbad⟩ := setLane_below_headers hw hl h1
    exact .of_next (execLaneSignalChange_loses hl h2 _)
      ⟨setLane_below_laneState hw hl h1, setLane_below_eqf hw hl h1, fun _ => setLane_below_rest hw hl h1,
        (congrArg (Tab.get · lane) hgood).trans (Tab.get_set_same hg _ _), (congrArg (Tab.get · lane) hbad).trans (Tab.get_set_same hb _ _),
        fun hu => ⟨setLane_fromUp_syncloss hw hl h1 hu, setLane_fromUp_readapt hw hl h1 hu, setLane_fromUp_rx hw hl h1 hu⟩⟩
  case hold =>
    have ha0 : (adapted lane s.eng).lnk.adapting.get lane = 0 := Tab.get_set_same ha _ _
    have heqf : ((adapted lane s.eng).setReg (Reg.LNK_LSTAT_EQF lane) (b2n (s.eng.holdMode lane))).reg (Reg.LNK_LSTAT_EQF lane)
        = b2n (s.eng.holdMode lane) :=
      (reg_setReg_same hw _ _).trans (by cases s.eng.holdMode lane <;> rfl)
    have hu0 : (adapted lane s.eng).laneState lane = 3 := hu
    refine .of_next (execEqHoldStart_up hl hu) ?_
    rw [eqRefresh_of_adapted hu0 ha0]
    split
    case isTrue hs =>
      exact ⟨ha0, heqf, fun _ _ hc => ⟨Tab.get_set_same hc _ _, rfl⟩, fun h1 => absurd (hs.2.symm.trans h1) (by decide),
        fun _ hg => reg_setReg_ne hw hg _⟩
    case isFalse hs =>
      exact ⟨ha0, heqf, fun hm hf => absurd ⟨hm, hf⟩ hs, fun _ => rfl, fun _ hg => reg_setReg_ne hw hg _⟩
  case epoch =>
    change execSkewEpochEnd s = _
    rw [execSkewEpochEnd, skewEpochEnd_ends hk ho]

end Sys2Proof.Machine
end

/-! ## The cell map: its functions over staged fields, and RAW_MASK -/

section
namespace Sys2Proof.Machine

/-! ### Functions over staged fields -/

section
variable {i : Packet → Instr} {f : Fn} {extra : Engine → Packet → Option Status} {w : Engine → Packet → List (Fld × Nat)} {object : Nat}

/-- A basic function that stages the fields `w` does what a basic command that writes them does. -/
theorem runConfig_basic (hx : ∀ p s, exec (i p) s = .next { s with eng := runConfig f extra w object p s.eng }) (hk : f.kind = .basic) :
    BasicCommand i f extra (writing w) object :=
  runStage_basic hx hk

/-- An expert function that stages the fields `w` does what an expert command that writes them does. -/
theorem runConfig_expert (hx : ∀ p s, exec (i p) s = .next { s with eng := runConfig f extra w 0 p s.eng }) (hk : f.kind ≠ .basic) :
    ExpertCommand i f extra (writing w) :=
  runStage_expert hx hk

end

/-- Settles O16: each function stages its writes as a basic or an expert command over staged fields does (`runConfig_basic`,
`runConfig_expert`); MASK_CELLS stages a mask write instead (`runStage_basic`). -/
theorem cellMapFields : Obligations.CellMapFields := by
  unfold Obligations.CellMapFields
  refine ⟨?setGeom, ?defineSource, ?place, ?placeSrc, ?setConv, ?maskCells, ?unplace, ?rawTmap, ?rawConv, ?rawLut⟩
  case setGeom => exact runConfig_basic (w := wSetGeom) (fun _ _ => rfl) rfl
  case defineSource => exact runConfig_basic (w := wDefineSource) (fun _ _ => rfl) rfl
  case place => exact runConfig_basic (w := wPlace) (fun _ _ => rfl) rfl
  case placeSrc => exact runConfig_basic (w := wPlaceSrc) (fun _ _ => rfl) rfl
  case setConv => exact runConfig_basic (w := wSetConv) (fun _ _ => rfl) rfl
  case maskCells => exact runStage_basic (fun _ _ => rfl) rfl
  case unplace => exact runConfig_basic (w := wUnplace) (fun _ _ => rfl) rfl
  case rawTmap => exact runConfig_expert (w := wRawTmap) (fun _ _ => rfl) (by decide)
  case rawConv => exact runConfig_expert (w := wRawConv) (fun _ _ => rfl) (by decide)
  case rawLut => exact runConfig_expert (w := wRawLut) (fun _ _ => rfl) (by decide)

/-! ### Runners, for one packet -/

section
variable {f : Fn} {extra : Engine → Packet → Option Status} {p : Packet} {e : Engine}

theorem runStage_refused {stage : Engine → Packet → Engine} {object : Nat} {st : Status} (hr : refuse f [f.block] extra e p = some st) :
    runStage f extra stage object p e = e.complete p st := by
  simp only [runStage, hr]

theorem runStage_staged {stage : Engine → Packet → Engine} {object : Nat} (hk : f.kind ≠ .basic) (hr : refuse f [f.block] extra e p = none)
    (hc : p.commit = false) : runStage f extra stage object p e = (stagedFor f.block stage p e).complete p (.staged f.block) := by
  simp only [runStage, stagedFor, hr, hk, hc, if_false, Bool.false_eq_true]

theorem runStage_commit {stage : Engine → Packet → Engine} {object : Nat} (hk : f.kind ≠ .basic) (hr : refuse f [f.block] extra e p = none)
    (hc : p.commit = true) :
    runStage f extra stage object p e
      = commitOr (stagedFor f.block stage p e) p ((stagedFor f.block stage p e).lockedBlocks p.ctx) object := by
  simp only [runStage, stagedFor, hr, hk, hc, if_false, if_true]

theorem runAction_refused {act : Engine → Packet → Engine} {st : Status} (hr : refuse f (f.locks p) extra e p = some st) :
    runAction f extra act p e = e.complete p st := by
  simp only [runAction, hr]

theorem runAction_accepted {act : Engine → Packet → Engine} (hr : refuse f (f.locks p) extra e p = none) :
    runAction f extra act p e = endAction f (act e p) p := by
  simp only [runAction, hr]

/-- An expert function over no staged fields that carries neither STAGE nor COMMIT ends with ST_OK. -/
theorem endAction_direct (hk : f.kind = .direct) (hs : p.stage = false) (hc : p.commit = false) : endAction f e p = e.complete p .ok := by
  simp [endAction, alsoCommits, Fn.done, hk, hs, hc]

end

/-! ### RAW_MASK -/

section
variable {p : Packet}

/-- The mask write of RAW_MASK would change a bit of MS31. -/
def rawMaskPerm (e : Engine) (p : Packet) : Option Status := maskPerm e (rawMaskWrite p)

/-- RAW_MASK's staging step. -/
def stageRawMask (e : Engine) (p : Packet) : Engine := stageMask (rawMaskWrite p) e

theorem runRawMask_stage (hs : p.stage = true) (e : Engine) : runRawMask p e = runStage fnRawMask rawMaskPerm stageRawMask 0 p e := if_pos hs

theorem runRawMask_act (hs : p.stage = false) (e : Engine) : runRawMask p e = runAction fnRawMask rawMaskPerm unstagedMask p e :=
  if_neg (by simp [hs])

theorem fnRawMask_locks_unstaged (hs : p.stage = false) : fnRawMask.locks p = [] := by
  simp [Fn.locks, fnRawMask, hs]

theorem runRawMask_refused {e : Engine} {st : Status} (hr : refuse fnRawMask (if p.stage then [4] else []) rawMaskPerm e p = some st) :
    runRawMask p e = e.complete p st := by
  cases hs : p.stage with
  | true =>
    rw [hs] at hr
    rw [runRawMask_stage hs, runStage_refused hr]
  | false =>
    rw [hs] at hr
    rw [runRawMask_act hs, runAction_refused (by rw [fnRawMask_locks_unstaged hs]; exact hr)]

/-- Neither STAGE nor COMMIT: the mask write waits for the next frame, and ST_OK. -/
theorem runRawMask_unstaged {e : Engine} (hs : p.stage = false) (hr : refuse fnRawMask [] rawMaskPerm e p = none) (hc : p.commit = false) :
    runRawMask p e = (unstagedMask e p).complete p .ok := by
  rw [runRawMask_act hs, runAction_accepted (by rw [fnRawMask_locks_unstaged hs]; exact hr), endAction_direct rfl hs hc]

theorem rawMask_answers {s : State} {st : Status} {e : Engine} (h : runRawMask p s.eng = e.complete p st) :
    Completes s (exec (.rawMask p) s) (Answers p st e) :=
  ⟨_, rfl, rfl, h ▸ complete_answers e p st⟩

end

/-- Settles O30: with STAGE the runner of stage functions stages the mask write (`runStage_staged`, `runStage_commit`), without it the
write acts at once (`runRawMask_unstaged`); a refusal is answered in both (`runRawMask_refused`). -/
theorem rawMask : Obligations.RawMask := by
  unfold Obligations.RawMask
  intro p s extra m passed u
  have hk : fnRawMask.kind ≠ .basic := by decide
  refine ⟨fun hs hr hc => ?staged, fun hs hr hc => ?committed, fun hs hr hc => ?unstaged, fun st hr => ?refused⟩
  case staged => exact rawMask_answers ((runRawMask_stage hs _).trans (runStage_staged hk hr hc))
  case committed =>
    have h := (runRawMask_stage hs s.eng).trans (runStage_commit hk hr hc)
    exact ⟨_, rfl, rfl, h ▸ commitOr_commits _ _ _ _⟩
  case unstaged => exact rawMask_answers (runRawMask_unstaged hs hr hc)
  case refused => exact rawMask_answers (runRawMask_refused hr)

end Sys2Proof.Machine
end

/-! ## The display, capture, history and stream functions over staged fields -/

section
namespace Sys2Proof.Machine

/-- Settles O18: every function is basic and does what a basic command that stages its writes does (`runConfig_basic`); FREEZE_HISTORY and
RELEASE_HISTORY write no field and commit the actions 4 and 5. -/
theorem displayStreamFields : Obligations.DisplayStreamFields := by
  unfold Obligations.DisplayStreamFields
  refine ⟨?setOculus, ?setCapture, ?setHistory, ?freezeHistory, ?releaseHistory, ?setOculusSparse, ?setCapstream, ?setLogsize, ?setLogstream,
    ?setObjstream⟩
  case setOculus => exact runConfig_basic (w := wSetOculus) (fun _ _ => rfl) rfl
  case setCapture => exact runConfig_basic (w := wSetCapture) (fun _ _ => rfl) rfl
  case setHistory => exact runConfig_basic (w := wSetHistory) (fun _ _ => rfl) rfl
  case freezeHistory => exact runConfig_basic (w := wNone) (fun _ _ => rfl) rfl
  case releaseHistory => exact runConfig_basic (w := wNone) (fun _ _ => rfl) rfl
  case setOculusSparse => exact runConfig_basic (w := wSetOculusSparse) (fun _ _ => rfl) rfl
  case setCapstream => exact runConfig_basic (w := wSetCapstream) (fun _ _ => rfl) rfl
  case setLogsize => exact runConfig_basic (fun _ _ => rfl) rfl
  case setLogstream => exact runConfig_basic (w := wSetLogstream) (fun _ _ => rfl) rfl
  case setObjstream => exact runConfig_basic (w := wSetObjstream) (fun _ _ => rfl) rfl

end Sys2Proof.Machine
end


/-! ## Outputs: stops of lists, relays, and decision lanes -/

section
namespace Sys2Proof.Machine

/-! ### Relay wear (R234) -/

section
variable {e : Engine} (h : e.regs.wf = true)
include h

/-- A new limit is evaluated at once against both counts, and the wear bits that rise, and they alone, raise RLYWEAR. -/
theorem setLimit_eq {v : Nat} (hv : v < 2 ^ 32) :
    let old := e.reg Reg.OUT_RLYSTAT_WEAR
    let a := decide (v ≤ e.reg Reg.OUT_RLYCNT_A_COUNT)
    let b := decide (v ≤ e.reg Reg.OUT_RLYCNT_B_COUNT)
    let e1 := (e.setReg Reg.OUT_RLYWARN_LIMIT v).setReg Reg.OUT_RLYSTAT_WEAR (b2n a + 2 * b2n b)
    let e2 := if a = true ∧ tbit old 0 = false then e1.raise Src.rlyWear 0 else e1
    setLimit e v = if b = true ∧ tbit old 1 = false then e2.raise Src.rlyWear 1 else e2 := by
  have hlimit : (e.setReg Reg.OUT_RLYWARN_LIMIT v).reg Reg.OUT_RLYWARN_LIMIT = v :=
    (reg_setReg_same h _ v).trans (Nat.mod_eq_of_lt hv)
  have hold : (e.setReg Reg.OUT_RLYWARN_LIMIT v).reg Reg.OUT_RLYSTAT_WEAR = e.reg Reg.OUT_RLYSTAT_WEAR := reg_setReg_ne h (by decide) v
  have ha : (e.setReg Reg.OUT_RLYWARN_LIMIT v).reg Reg.OUT_RLYCNT_A_COUNT = e.reg Reg.OUT_RLYCNT_A_COUNT := reg_setReg_ne h (by decide) v
  have hb : (e.setReg Reg.OUT_RLYWARN_LIMIT v).reg Reg.OUT_RLYCNT_B_COUNT = e.reg Reg.OUT_RLYCNT_B_COUNT := reg_setReg_ne h (by decide) v
  unfold setLimit evalWear
  simp only [hlimit, hold, ha, hb, Bool.and_eq_true, Bool.not_eq_true']

end

/-! ### The rows of the outputs (R170, R215, R233, R234) -/

section
variable {s : State}

theorem execRelayCountJournal_records {relay : Nat} (hr : relay ≤ 1) :
    execRelayCountJournal relay s = .next { s with eng := { s.eng with out := { s.eng.out with
      relayJournal := s.eng.out.relayJournal.set relay
        (s.eng.reg (if relay = 0 then Reg.OUT_RLYCNT_A_COUNT else Reg.OUT_RLYCNT_B_COUNT)) } } } :=
  if_neg (Nat.not_lt.mpr hr)

theorem execDlTxFault_shows {lane : Nat} (hl : lane ≤ 7) :
    execDlTxFault lane s = .next { s with eng := (s.eng.setReg (Reg.OUT_DLSTAT_TXF lane) 1).raise Src.dlFault lane } :=
  if_pos hl

theorem execRelaySenseTimeout_disagrees {relay : Nat} {closed : Bool} (hr : relay ≤ 1)
    (hd : tbit (s.eng.reg Reg.OUT_KSTAT_COIL) relay ≠ closed) :
    let v := s.eng.reg Reg.OUT_KSTAT_SENSE
    let e1 := s.eng.setReg Reg.OUT_KSTAT_SENSE (v - 2 ^ relay * bit v relay + 2 ^ relay * b2n closed)
    execRelaySenseTimeout relay closed s = .next { s with eng := faultReport 0 ((e1.addCause 6).raise Src.krelay relay) } :=
  if_neg (not_or_intro (Nat.not_lt.mpr hr) hd)

end

/-- Settles O42: a stop is a write that waits for the boundary (`Engine.later`), a new limit is evaluated over the counts that it leaves as
they were (`setLimit_eq`), and each other row acts where its index is one of the block (`execRelayCountJournal_records`,
`execDlTxFault_shows`, `execRelaySenseTimeout_disagrees`). -/
theorem outputEvents : Obligations.OutputEvents := by
  unfold Obligations.OutputEvents
  refine ⟨fun s => ⟨?stopL0, ?stopL1⟩, fun s => ⟨?journalA, ?journalB⟩, fun v s hw hv => ?wear, fun lane s hl => ?txFault,
    fun relay closed s hr hd => ?sense⟩
  case stopL0 => rfl
  case stopL1 => rfl
  case journalA => exact execRelayCountJournal_records (relay := 0) (by decide)
  case journalB => exact execRelayCountJournal_records (relay := 1) (by decide)
  case wear => exact congrArg (fun e => Host.Outcome.next { s with eng := e }) (setLimit_eq hw hv)
  case txFault => exact execDlTxFault_shows hl
  case sense => exact execRelaySenseTimeout_disagrees hr hd

end Sys2Proof.Machine
end

/-! ## The Spire instruction set (chapter 13) -/

section
namespace Sys2Proof.Machine

/-! ### Results on their way, products and quotients (R271, R273, R274) -/

/-- An instruction that only writes `rd` puts its value on its way there, at its distance. -/
theorem issueTo_gives {k w d : Nat} {rd : BitVec 5} {value : Engine → SpireCore → Nat} {v : BitVec 32} {s : State} (h : ReadyFor k w false s)
    (hv : value (issuing k s) ((issuing k s).core k) = v.toNat) :
    Issues k s (.next { s with eng := issueTo k w rd d value s.eng }) (SpireCore.gives rd v.toNat d) :=
  issues_next h rfl (by rw [hv]; exact result_gives _ rd _ d v.isLt)

/-- An instruction of format A puts `f ra rb` on its way to `rd`. -/
theorem opA_gives {k op func d : Nat} {rd ra rb : BitVec 5} {f : BitVec 32 → BitVec 32 → BitVec 32} {v : BitVec 32} {s : State}
    (hv : f (((issuing k s).core k).word ra) (((issuing k s).core k).word rb) = v) (h : ReadyFor k (wordA op rd ra rb func) false s) :
    Issues k s (.next { s with eng := opA k op func d rd ra rb f s.eng }) (SpireCore.gives rd v.toNat d) :=
  issueTo_gives h (congrArg BitVec.toNat hv)

theorem highWord_signed (a b : BitVec 32) :
    (a.signExtend 64 * b.signExtend 64).extractLsb' 32 32 = BitVec.ofInt 32 (a.toInt * b.toInt / 2 ^ 32) := by
  have hprod : a.signExtend 64 * b.signExtend 64 = BitVec.ofInt 64 (a.toInt * b.toInt) := (BitVec.ofInt_mul _ _).symm
  rw [hprod]
  generalize a.toInt * b.toInt = p
  apply BitVec.eq_of_toNat_eq
  simp only [BitVec.extractLsb'_toNat, BitVec.toNat_ofInt, Nat.shiftRight_eq_div_pow]
  omega

theorem highWord_unsigned (a b : BitVec 32) :
    (a.zeroExtend 64 * b.zeroExtend 64).extractLsb' 32 32 = BitVec.ofNat 32 (a.toNat * b.toNat / 2 ^ 32) := by
  have hprod : (a.zeroExtend 64 * b.zeroExtend 64).toNat = a.toNat * b.toNat := by
    have hlt : a.toNat * b.toNat < 2 ^ 32 * 2 ^ 32 := Nat.mul_lt_mul'' a.isLt b.isLt
    have hext : ∀ x : BitVec 32, (x.zeroExtend 64).toNat = x.toNat := fun x => BitVec.toNat_setWidth_of_le (by decide)
    rw [BitVec.toNat_mul, hext, hext]
    exact Nat.mod_eq_of_lt hlt
  apply BitVec.eq_of_toNat_eq
  rw [BitVec.extractLsb'_toNat, hprod, BitVec.toNat_ofNat, Nat.shiftRight_eq_div_pow]

theorem sdiv_eq_ofInt (a b : BitVec 32) : a.sdiv b = BitVec.ofInt 32 (a.toInt.tdiv b.toInt) :=
  BitVec.eq_of_toInt_eq (by rw [BitVec.toInt_sdiv, BitVec.toInt_ofInt])

theorem srem_eq_ofInt (a b : BitVec 32) : a.srem b = BitVec.ofInt 32 (a.toInt.tmod b.toInt) := by
  rw [← BitVec.toInt_srem, BitVec.ofInt_toInt]

theorem udiv_eq_ofNat (a b : BitVec 32) : a / b = BitVec.ofNat 32 (a.toNat / b.toNat) := by
  rw [← BitVec.toNat_udiv, BitVec.ofNat_toNat, BitVec.setWidth_eq]

theorem umod_eq_ofNat (a b : BitVec 32) : a % b = BitVec.ofNat 32 (a.toNat % b.toNat) := by
  rw [← BitVec.toNat_umod, BitVec.ofNat_toNat, BitVec.setWidth_eq]

/-- Settles O2: each row puts its function of ra and rb on its way to rd (`opA_gives`); the function is the one of Table 13.3, the high
words by `highWord_signed` and `highWord_unsigned`, and a divisor of 0 has its own case in `divWord` and `remWord` as in Table 13.5. -/
theorem spireMultiplyDivide : Obligations.SpireMultiplyDivide := by
  unfold Obligations.SpireMultiplyDivide
  intro k rd ra rb s
  dsimp only
  refine ⟨?mul, ?mulh, ?mulhu, ?div, ?divu, ?rem, ?remu⟩
  case mul => exact opA_gives rfl
  case mulh => exact opA_gives (highWord_signed _ _)
  case mulhu => exact opA_gives (highWord_unsigned _ _)
  case div => exact opA_gives (if_congr Iff.rfl rfl (sdiv_eq_ofInt _ _))
  case divu => exact opA_gives (if_congr Iff.rfl rfl (udiv_eq_ofNat _ _))
  case rem => exact opA_gives (if_congr Iff.rfl rfl (srem_eq_ofInt _ _))
  case remu => exact opA_gives (if_congr Iff.rfl rfl (umod_eq_ofNat _ _))

end Sys2Proof.Machine
end

section
namespace Sys2Proof.Machine

/-! ### Transfers of control (R278) -/

/-- A transfer of control that is ready does not stand in a delay slot. -/
theorem ReadyFor.slot_eq_zero {k w : Nat} {s : State} : ReadyFor k w true s → ((issuing k s).core k).slot = 0
  | ⟨_, _, _, _, _, hslot⟩ => hslot rfl

/-- A transfer of control that is ready issues and goes to its target, `c0` being the core with what else the instruction does to it. -/
theorem issue_jumps {k w : Nat} {act : Engine → SpireCore → Issued} {s : State} {c0 : SpireCore} {tgt tgt' : Option Nat}
    (h : ReadyFor k w true s) (hc : c0.slot = ((issuing k s).core k).slot) (ht : tgt.map (· % 2 ^ 32) = tgt')
    (ha : act (issuing k s) ((issuing k s).core k) = .next (issuing k s) (c0.jump tgt)) :
    Issues k s (.next { s with eng := issue k w true act s.eng }) (fun _ c' => c0.transfers tgt' c') := by
  subst ht
  exact issues_next h ha (jump_transfers c0 (hc.trans h.slot_eq_zero) tgt)

theorem some_mod_word (x : BitVec 32) : (some x.toNat).map (· % 2 ^ 32) = some x.toNat := congrArg some (Nat.mod_eq_of_lt x.isLt)

/-- A branch goes to its target where its condition holds, and runs on where it does not. -/
theorem opBranch_transfers {k op : Nat} {ra rb : BitVec 5} {off : BitVec 16} {cond : BitVec 32 → BitVec 32 → Bool} {taken : Prop} {s : State}
    (hc : cond (((issuing k s).core k).word ra) (((issuing k s).core k).word rb) = true ↔ taken) (h : ReadyFor k (wordK op ra rb off) true s) :
    let near := (w32 ((issuing k s).core k).pc + 4 * BitVec.ofInt 32 off.toInt).toNat
    (taken → Issues k s (.next { s with eng := opBranch k op ra rb off cond s.eng }) (SpireCore.transfers (some near)))
    ∧ (¬taken → Issues k s (.next { s with eng := opBranch k op ra rb off cond s.eng }) (SpireCore.transfers none)) :=
  ⟨fun ht => issue_jumps h rfl (some_mod_word _) (by rw [if_pos (hc.mpr ht)]; rfl),
    fun ht => issue_jumps h rfl rfl (by rw [if_neg (mt hc.mp ht)])⟩

/-- A result is kept to 32 bits. -/
theorem result_mod (c : SpireCore) (r v d : Nat) : c.result r (v % 2 ^ 32) d = c.result r v d := by
  unfold SpireCore.result
  rw [Nat.mod_mod]

/-- Settles O5: a branch by its condition (`opBranch_transfers`), a jump always (`issue_jumps`), to its target kept to 32 bits; JAL and
JALR jump with the link on its way. -/
theorem spireTransfers : Obligations.SpireTransfers := by
  unfold Obligations.SpireTransfers
  intro k rd ra rb off far s
  dsimp only
  refine ⟨?beq, ?bne, ?blt, ?bge, ?bltu, ?bgeu, fun h => ?jr, fun h => ?jalr, fun h => ?jmp, fun h => ?jal⟩
  case beq => exact opBranch_transfers beq_iff_eq
  case bne => exact opBranch_transfers bne_iff_ne
  case blt => exact opBranch_transfers BitVec.slt_iff_toInt_lt
  case bge => exact opBranch_transfers (by rw [Bool.not_eq_true', ← Bool.not_eq_true, BitVec.slt_iff_toInt_lt, Int.not_lt])
  case bltu => exact opBranch_transfers BitVec.ult_iff_toNat_lt
  case bgeu => exact opBranch_transfers (by rw [Bool.not_eq_true', ← Bool.not_eq_true, BitVec.ult_iff_toNat_lt, Nat.not_lt])
  case jr => exact issue_jumps h rfl rfl rfl
  case jalr =>
    simp only [result_mod]
    exact issue_jumps h rfl rfl rfl
  case jmp => exact issue_jumps h rfl (some_mod_word _) rfl
  case jal =>
    simp only [result_mod]
    exact issue_jumps h rfl (some_mod_word _) rfl

end Sys2Proof.Machine
end

section
namespace Sys2Proof.Machine

/-! ### Exceptions of an instruction's own, and accesses to data memory (R267, R268, R277, R298) -/

/-- An instruction that is ready and raises an exception by its effect takes it, or is a double fault. -/
theorem issue_traps {k w cause : Nat} {control : Bool} {act : Engine → SpireCore → Issued} {s : State} {epc eaddr : SpireCore → Nat}
    (h : ReadyFor k w control s) (ha : act (issuing k s) ((issuing k s).core k)
      = .exc cause (epc ((issuing k s).core k)) (eaddr ((issuing k s).core k))) :
    Traps k s (.next { s with eng := issue k w control act s.eng }) cause epc eaddr :=
  except_traps (issue_exc h ha)

theorem coreCheck_corrected {e : Engine} {k : Nat} {f : Fld} (h : popCount 39 (e.spr.ecc.get f.key) = 1) :
    coreCheck e k f = (e.bump (Reg.SPR_CECC_COUNT k), false) := by
  have h0 : e.spr.ecc.get f.key ≠ 0 := fun h0 => absurd (h0 ▸ h) (by decide)
  simp [coreCheck, h0, h]

theorem coreCheck_uncorrectable {e : Engine} {k : Nat} {f : Fld} (h : popCount 39 (e.spr.ecc.get f.key) = 2) :
    coreCheck e k f = (e, true) := by
  have h0 : e.spr.ecc.get f.key ≠ 0 := fun h0 => absurd (h0 ▸ h) (by decide)
  simp [coreCheck, h0, h]

section
variable {a n : Nat}

theorem accessCause_aligned (ha : a % n = 0) (hb : a < 65536) : accessCause a n = 0 := by
  simp [accessCause, ha, Nat.not_le.mpr hb]

theorem accessCause_misaligned (ha : a % n ≠ 0) : accessCause a n = 3 := if_pos ha

theorem accessCause_outside (ha : a % n = 0) (hb : 65536 ≤ a) : accessCause a n = 4 := by simp [accessCause, ha, hb]

end

/-- An instruction that accesses `n` bytes at `a` raises ALIGN, else BUS, before all else (R267, R268). -/
theorem issue_stops {k w n a : Nat} {act : Engine → SpireCore → Issued} {s : State} (h : ReadyFor k w false s)
    (ha : accessCause a n ≠ 0 → act (issuing k s) ((issuing k s).core k) = .exc (accessCause a n) ((issuing k s).core k).pc a) :
    let o := .next { s with eng := issue k w false act s.eng }
    (a % n ≠ 0 → Traps k s o 3 (fun c => c.pc) (fun _ => a))
    ∧ (a % n = 0 → 65536 ≤ a → Traps k s o 4 (fun c => c.pc) (fun _ => a)) := by
  refine ⟨fun hm => ?align, fun hm hb => ?bus⟩
  case align =>
    rw [accessCause_misaligned hm] at ha
    exact issue_traps h (ha (by decide))
  case bus =>
    rw [accessCause_outside hm hb] at ha
    exact issue_traps h (ha (by decide))

section
variable {k op n : Nat} {rd ra : BitVec 5} {imm : BitVec 16} {s : State} (h : ReadyFor k (wordK op rd ra imm) false s)
include h

/-- A load whose word passes the check gives the bytes read, extended; `e'` is the engine after the check. -/
theorem opLoad_gives {ext : Nat → BitVec 32} {a : Nat} {e' : Engine} (ha : ((issuing k s).core k).addr ra imm = a)
    (hc : accessCause a n = 0) (hm : coreCheck (issuing k s) k (dmemFld k (a / 4)) = (e', false)) :
    IssuesIn e' k s (.next { s with eng := opLoad k op n rd ra imm ext s.eng })
      (SpireCore.gives rd (ext ((issuing k s).dmemGet k a n)).toNat 3) :=
  issues_next h (by simp [ha, hc, hm]) (result_gives _ rd _ 3 (BitVec.isLt _))

theorem opLoad_memerr {ext : Nat → BitVec 32} {a : Nat} {e' : Engine} (ha : ((issuing k s).core k).addr ra imm = a)
    (hc : accessCause a n = 0) (hm : coreCheck (issuing k s) k (dmemFld k (a / 4)) = (e', true)) :
    Traps k s (.next { s with eng := opLoad k op n rd ra imm ext s.eng }) 7 (fun c => c.pc) (fun _ => a) :=
  issue_traps h (by simp [ha, hc, hm])

/-- A store whose word passes the check, where it makes one, writes the low bits of rs; `e'` is the engine after the check. -/
theorem opStore_passes {a : Nat} {e' : Engine} (ha : ((issuing k s).core k).addr ra imm = a) (hc : accessCause a n = 0)
    (hm : (if n = 4 then (issuing k s, false) else coreCheck (issuing k s) k (dmemFld k (a / 4))) = (e', false)) :
    IssuesIn (e'.dmemStore k a n (((issuing k s).core k).get rd.toNat)) k s (.next { s with eng := opStore k op n rd ra imm s.eng })
      SpireCore.passed :=
  issues_next h (by simp [ha, hc, hm]) (advance_passed _)

theorem opStore_memerr {a : Nat} {e' : Engine} (ha : ((issuing k s).core k).addr ra imm = a) (hc : accessCause a n = 0) (hn : n ≠ 4)
    (hm : coreCheck (issuing k s) k (dmemFld k (a / 4)) = (e', true)) :
    Traps k s (.next { s with eng := opStore k op n rd ra imm s.eng }) 7 (fun c => c.pc) (fun _ => a) :=
  issue_traps h (by simp [ha, hc, hn, hm])

end

/-- A load by the state of the word that it reads: clean, with one bad bit, with two; or one that is stopped. -/
theorem opLoad_spec {k op n : Nat} {rd ra : BitVec 5} {imm : BitVec 16} {s : State} {ext : Nat → BitVec 32} :
    let e := issuing k s
    let a := ((e.core k).word ra + BitVec.ofInt 32 imm.toInt).toNat
    let m := e.spr.ecc.get (dmemFld k (a / 4)).key
    let v := ext (e.dmemGet k a n)
    let o := .next { s with eng := opLoad k op n rd ra imm ext s.eng }
    ReadyFor k (wordK op rd ra imm) false s →
      (a % n = 0 → a < 65536 → m = 0 → Issues k s o (SpireCore.gives rd v.toNat 3))
      ∧ (a % n = 0 → a < 65536 → popCount 39 m = 1 → IssuesIn (e.bump (Reg.SPR_CECC_COUNT k)) k s o (SpireCore.gives rd v.toNat 3))
      ∧ (a % n = 0 → a < 65536 → popCount 39 m = 2 → Traps k s o 7 (fun c => c.pc) (fun _ => a))
      ∧ (a % n ≠ 0 → Traps k s o 3 (fun c => c.pc) (fun _ => a))
      ∧ (a % n = 0 → 65536 ≤ a → Traps k s o 4 (fun c => c.pc) (fun _ => a)) := fun h =>
  ⟨fun ha hb hm => opLoad_gives h rfl (accessCause_aligned ha hb) (coreCheck_clean _ _ _ hm),
    fun ha hb hm => opLoad_gives h rfl (accessCause_aligned ha hb) (coreCheck_corrected hm),
    fun ha hb hm => opLoad_memerr h rfl (accessCause_aligned ha hb) (coreCheck_uncorrectable hm),
    issue_stops h fun hc => if_pos hc⟩

/-- A store by the state of the word of which it writes a part: clean, with one bad bit, with two; of a whole word; or one that is stopped. -/
theorem opStore_spec {k op n : Nat} {rd ra : BitVec 5} {imm : BitVec 16} {s : State} :
    let e := issuing k s
    let c := e.core k
    let a := (c.word ra + BitVec.ofInt 32 imm.toInt).toNat
    let m := e.spr.ecc.get (dmemFld k (a / 4)).key
    let o := .next { s with eng := opStore k op n rd ra imm s.eng }
    ReadyFor k (wordK op rd ra imm) false s →
      (a % n = 0 → a < 65536 → m = 0 ∨ n = 4 → IssuesIn (e.dmemStore k a n (c.get rd.toNat)) k s o SpireCore.passed)
      ∧ (a % n = 0 → a < 65536 → n ≠ 4 → popCount 39 m = 1 →
          IssuesIn ((e.bump (Reg.SPR_CECC_COUNT k)).dmemStore k a n (c.get rd.toNat)) k s o SpireCore.passed)
      ∧ (a % n = 0 → a < 65536 → n ≠ 4 → popCount 39 m = 2 → Traps k s o 7 (fun c => c.pc) (fun _ => a))
      ∧ (a % n ≠ 0 → Traps k s o 3 (fun c => c.pc) (fun _ => a))
      ∧ (a % n = 0 → 65536 ≤ a → Traps k s o 4 (fun c => c.pc) (fun _ => a)) := fun h =>
  ⟨fun ha hb hm => opStore_passes h rfl (accessCause_aligned ha hb)
      (ite_eq_left_iff.mpr fun hn => coreCheck_clean _ _ _ (hm.resolve_right hn)),
    fun ha hb hn hm => opStore_passes h rfl (accessCause_aligned ha hb) ((if_neg hn).trans (coreCheck_corrected hm)),
    fun ha hb hn hm => opStore_memerr h rfl (accessCause_aligned ha hb) hn (coreCheck_uncorrectable hm),
    issue_stops h fun hc => if_pos hc⟩

/-! ### Parts of a number (R267): `q` bits from bit `p` on -/

section
variable {x p q r v : Nat}

/-- What lies below bit `r` does not see what is above. -/
theorem mod_div_mod_pow (h : p + q ≤ r) : x % 2 ^ r / 2 ^ p % 2 ^ q = x / 2 ^ p % 2 ^ q := by
  obtain ⟨t, rfl⟩ := Nat.exists_eq_add_of_le h
  rw [Nat.pow_add, Nat.pow_add, Nat.mul_assoc, Nat.mod_mul_right_div_self, Nat.mod_mul_right_mod]

/-- The number with the `q` bits from bit `p` on replaced by those of `v`. -/
def replaceBits (x p q v : Nat) : Nat := x - 2 ^ p * (x / 2 ^ p % 2 ^ q) + 2 ^ p * (v % 2 ^ q)

/-- A number is what lies below the part, the part, and what lies above it. -/
theorem replaceBits_eq : replaceBits x p q v = x % 2 ^ p + 2 ^ p * (v % 2 ^ q + 2 ^ q * (x / 2 ^ (p + q))) := by
  have hlow : x % 2 ^ p + 2 ^ p * (x / 2 ^ p) = x := Nat.mod_add_div x (2 ^ p)
  have hmid : x / 2 ^ p % 2 ^ q + 2 ^ q * (x / 2 ^ (p + q)) = x / 2 ^ p := by
    rw [Nat.pow_add, ← Nat.div_div_eq_div_mul]
    exact Nat.mod_add_div _ _
  have hx : x = x % 2 ^ p + (2 ^ p * (x / 2 ^ p % 2 ^ q) + 2 ^ p * (2 ^ q * (x / 2 ^ (p + q)))) := by
    rw [← Nat.mul_add, hmid, hlow]
  unfold replaceBits
  rw [Nat.mul_add]
  omega

theorem replaceBits_mod : replaceBits x p q v % 2 ^ p = x % 2 ^ p := by
  rw [replaceBits_eq, Nat.add_mul_mod_self_left, Nat.mod_mod]

theorem replaceBits_div : replaceBits x p q v / 2 ^ p = v % 2 ^ q + 2 ^ q * (x / 2 ^ (p + q)) := by
  rw [replaceBits_eq, Nat.add_mul_div_left _ _ (Nat.two_pow_pos p), Nat.div_eq_of_lt (Nat.mod_lt _ (Nat.two_pow_pos p)), Nat.zero_add]

theorem replaceBits_same : replaceBits x p q v / 2 ^ p % 2 ^ q = v % 2 ^ q := by
  rw [replaceBits_div, Nat.add_mul_mod_self_left, Nat.mod_mod]

/-- A part below the one replaced is as before. -/
theorem replaceBits_below {l : Nat} (h : l + r ≤ p) : replaceBits x p q v / 2 ^ l % 2 ^ r = x / 2 ^ l % 2 ^ r := by
  rw [← mod_div_mod_pow h, replaceBits_mod, mod_div_mod_pow h]

/-- What lies above the part replaced is as before. -/
theorem replaceBits_above {l : Nat} (h : p + q ≤ l) : replaceBits x p q v / 2 ^ l = x / 2 ^ l := by
  obtain ⟨t, rfl⟩ := Nat.exists_eq_add_of_le h
  have hq : replaceBits x p q v / 2 ^ (p + q) = x / 2 ^ (p + q) := by
    rw [Nat.pow_add, ← Nat.div_div_eq_div_mul, replaceBits_div, Nat.add_mul_div_left _ _ (Nat.two_pow_pos q),
      Nat.div_eq_of_lt (Nat.mod_lt _ (Nat.two_pow_pos q)), Nat.zero_add, Nat.pow_add]
  rw [Nat.pow_add 2 (p + q), ← Nat.div_div_eq_div_mul, hq, Nat.div_div_eq_div_mul]

end

/-! ### Data memory after a store (R267, R277, R298) -/

/-- Removing entries leaves the value of a key that keeps its own. -/
theorem Tab.get_filter {x : Nat} {q : Nat × Nat → Bool} (hq : ∀ v, q (x, v) = true) :
    ∀ {b : Nat} {t : Tab}, Tab.wfFrom b t = true → Tab.get (t.filter q) x = Tab.get t x
  | _, [], _ => rfl
  | b, (k, v) :: t, h => by
    simp only [Tab.wfFrom, Bool.and_eq_true, decide_eq_true_eq] at h
    have ih := get_filter hq h.2
    by_cases hkeep : q (k, v) = true
    · simp [Tab.get, hkeep, ih]
    · have hk : x ≠ k := by
        rintro rfl
        exact hkeep (hq v)
      rw [List.filter_cons_of_neg hkeep, ih]
      by_cases hlt : x < k
      · simp [Tab.get, hk, hlt, Tab.get_below h.2 (Nat.lt_succ_of_lt hlt)]
      · simp [Tab.get, hk, hlt]

section
variable {e : Engine} {lo hi x : Nat}

theorem coreFresh_regs : (e.coreFresh lo hi).regs = e.regs := by
  unfold Engine.coreFresh
  split
  · rfl
  · rfl

theorem coreFresh_ecc : (e.coreFresh lo hi).spr.ecc = e.spr.ecc.filter fun kv => !(decide (lo ≤ kv.1) && decide (kv.1 < hi)) := by
  unfold Engine.coreFresh
  split
  next h => rw [List.isEmpty_iff.mp h]; rfl
  next => rfl

/-- A word that has been written whole holds no error. -/
theorem coreFresh_clean (hx : lo ≤ x ∧ x < hi) : (e.coreFresh lo hi).spr.ecc.get x = 0 := by
  rw [coreFresh_ecc]
  refine Tab.get_of_unlisted fun kv hkv hx' => ?_
  have hkeep := (List.mem_filter.mp hkv).2
  simp [hx', hx] at hkeep

theorem coreFresh_others (h : e.spr.ecc.wf = true) (hx : ¬(lo ≤ x ∧ x < hi)) : (e.coreFresh lo hi).spr.ecc.get x = e.spr.ecc.get x := by
  rw [coreFresh_ecc]
  exact Tab.get_filter (fun _ => by rw [← Bool.decide_and, decide_eq_false hx]; rfl) h

end

section
variable {e : Engine} {k a n v : Nat}

/-- Words of different cores, and different words of one core, are different entries. -/
theorem dmemFld_key_ne {j b : Nat} (ha : a < 65536) (hb : b < 65536) (hne : j ≠ k ∨ b / 4 ≠ a / 4) :
    (dmemFld j (b / 4)).key ≠ (dmemFld k (a / 4)).key := by
  simp only [dmemFld, tabFld]
  omega

theorem dmemStore_dmemGet (j b l : Nat) : (e.dmemStore k a n v).dmemGet j b l = (e.dmemSet k a n v).dmemGet j b l := by
  unfold Engine.dmemGet Engine.reg Engine.dmemStore
  rw [coreFresh_regs]

/-- A word that is stored into holds the bytes stored in their places. -/
theorem dmemSet_word (h : e.regs.wf = true) :
    (e.dmemSet k a n v).reg (dmemFld k (a / 4)) = replaceBits (e.reg (dmemFld k (a / 4))) (8 * (a % 4)) (8 * n) v % 2 ^ 32 :=
  reg_setReg_same h _ _

theorem dmemSet_other {j b l : Nat} (h : e.regs.wf = true) (hne : (dmemFld j (b / 4)).key ≠ (dmemFld k (a / 4)).key) :
    (e.dmemSet k a n v).dmemGet j b l = e.dmemGet j b l := by
  unfold Engine.dmemGet Engine.dmemSet
  rw [reg_setReg_ne h hne]

/-- Bytes of the word that is stored into, all of them inside it. -/
theorem dmemSet_dmemGet {b l : Nat} (h : e.regs.wf = true) (hw : b / 4 = a / 4) (hl : 8 * (b % 4) + 8 * l ≤ 32) :
    (e.dmemSet k a n v).dmemGet k b l
      = replaceBits (e.reg (dmemFld k (a / 4))) (8 * (a % 4)) (8 * n) v / 2 ^ (8 * (b % 4)) % 2 ^ (8 * l) := by
  unfold Engine.dmemGet
  rw [hw, dmemSet_word h, mod_div_mod_pow hl]

/-- A byte outside those stored is as before. -/
theorem dmemStore_outside {j b : Nat} (h : e.regs.wf = true) (ha : a < 65536) (hb : b < 65536) (hout : j ≠ k ∨ b < a ∨ a + n ≤ b) :
    (e.dmemStore k a n v).dmemGet j b 1 = e.dmemGet j b 1 := by
  rw [dmemStore_dmemGet]
  by_cases hne : j ≠ k ∨ b / 4 ≠ a / 4
  · exact dmemSet_other h (dmemFld_key_ne ha hb hne)
  · obtain ⟨rfl, hw⟩ : j = k ∧ b / 4 = a / 4 := by simpa using hne
    have hbyte : ∀ x, replaceBits x (8 * (a % 4)) (8 * n) v / 2 ^ (8 * (b % 4)) % 2 ^ (8 * 1) = x / 2 ^ (8 * (b % 4)) % 2 ^ (8 * 1) := by
      intro x
      obtain hlt | hge : b < a ∨ a + n ≤ b := by simpa using hout
      · exact replaceBits_below (by omega)
      · rw [replaceBits_above (by omega)]
    rw [dmemSet_dmemGet h hw (by omega), hbyte, Engine.dmemGet, hw]

/-- What a store of an aligned byte, half-word or word does to data memory and its check bits. -/
theorem dmemStore_spec (h : e.regs.wf = true) (hecc : e.spr.ecc.wf = true) (ha : a < 65536) (hn : n = 1 ∨ n = 2 ∨ n = 4) (hal : a % n = 0) :
    (e.dmemStore k a n v).dmemGet k a n = v % 2 ^ (8 * n)
    ∧ (∀ j b, j < 34 → b < 65536 → (j ≠ k ∨ b < a ∨ a + n ≤ b) → (e.dmemStore k a n v).dmemGet j b 1 = e.dmemGet j b 1)
    ∧ (e.dmemStore k a n v).spr.ecc.get (dmemFld k (a / 4)).key = 0
    ∧ ∀ g : Fld, g.key ≠ (dmemFld k (a / 4)).key → (e.dmemStore k a n v).spr.ecc.get g.key = e.spr.ecc.get g.key := by
  have hinside : 8 * (a % 4) + 8 * n ≤ 32 := by
    rcases hn with rfl | rfl | rfl <;> omega
  have hnext : (dmemFld k (a / 4 + 1)).key = (dmemFld k (a / 4)).key + 1 := rfl
  refine ⟨?stored, fun j b _ hb hout => dmemStore_outside h ha hb hout, ?clean, fun g hg => ?others⟩
  case stored => rw [dmemStore_dmemGet, dmemSet_dmemGet h rfl hinside, replaceBits_same]
  case clean => exact coreFresh_clean (by omega)
  case others => exact coreFresh_others hecc (by omega)

/-! ### Little-endian order (R267) -/

theorem dmemGet_half (ha : a % 2 = 0) : e.dmemGet k a 2 = e.dmemGet k a 1 + 256 * e.dmemGet k (a + 1) 1 := by
  have hw : (a + 1) / 4 = a / 4 := by omega
  have hp : 8 * ((a + 1) % 4) = 8 * (a % 4) + 8 := by omega
  unfold Engine.dmemGet
  rw [hw, hp, Nat.pow_add, ← Nat.div_div_eq_div_mul]
  generalize e.reg (dmemFld k (a / 4)) / 2 ^ (8 * (a % 4)) = x
  omega

theorem dmemGet_word (ha : a % 4 = 0) : e.dmemGet k a 4 = e.dmemGet k a 2 + 65536 * e.dmemGet k (a + 2) 2 := by
  have hw : (a + 2) / 4 = a / 4 := by omega
  have hp : 8 * ((a + 2) % 4) = 8 * (a % 4) + 16 := by omega
  unfold Engine.dmemGet
  rw [hw, hp, Nat.pow_add, ← Nat.div_div_eq_div_mul]
  generalize e.reg (dmemFld k (a / 4)) / 2 ^ (8 * (a % 4)) = x
  omega

end

/-- Settles O4: each row is a load (`opLoad_spec`) or a store (`opStore_spec`) of 1, 2 or 4 bytes; what a store leaves in memory is
`dmemStore_spec`, and the order of the bytes `dmemGet_half` and `dmemGet_word`. -/
theorem spireLoadsStores : Obligations.SpireLoadsStores := by
  unfold Obligations.SpireLoadsStores
  refine ⟨fun k rd ra imm s => ?rows, fun e k a n v hcanon _ ha hn hal => ?memory, fun e k a => ⟨dmemGet_half, dmemGet_word⟩⟩
  case rows =>
    exact ⟨opLoad_spec, opLoad_spec, opLoad_spec, opLoad_spec, opLoad_spec, opStore_spec, opStore_spec, opStore_spec⟩
  case memory =>
    simp only [Engine.canonical, Bool.and_eq_true] at hcanon
    obtain ⟨⟨⟨⟨⟨⟨⟨_, hregs⟩, _⟩, _⟩, _⟩, _⟩, hecc⟩, _⟩ := hcanon
    exact dmemStore_spec hregs hecc ha hn hal

end Sys2Proof.Machine
end

section
namespace Sys2Proof.Machine

/-! ### Control words: what a write leaves (R280, Tables 13.6 and 14.2) -/

section
variable {c : SpireCore} {m n v p : Nat}

theorem cwv_setCw_same (h : c.cw.wf = true) (n v : Nat) : (c.setCw n v).cwv n = v % 2 ^ 32 := Tab.fld_put_same h _ _

theorem cwv_setCw_ne (h : c.cw.wf = true) (hmn : m ≠ n) (v : Nat) : (c.setCw n v).cwv m = c.cwv m := Tab.fld_put_ne h hmn v

/-- The words of the fast bank's g24 to g31. -/
theorem cwWrite_fastBank {i : Nat} (hi : i < 8) : cwWrite c (0x40 + i) v = { c with regs := c.regs.set (32 + i) v } := by
  have hreg : 0x40 + i - 0x40 + 32 = 32 + i := by omega
  unfold cwWrite
  rw [if_pos (by omega), hreg]

/-- The words of the normal bank's g24 to g31. -/
theorem cwWrite_normalBank {i : Nat} (hi : i < 8) : cwWrite c (0x48 + i) v = { c with regs := c.regs.set (24 + i) v } := by
  have hreg : 0x48 + i - 0x48 + 24 = 24 + i := by omega
  unfold cwWrite
  rw [if_neg (by omega), if_pos (by omega), hreg]

/-- CW_FSTAT: a 1 written to bit 0 clears it. -/
theorem cwWrite_fstat : cwWrite c 0x103 v = if tbit v 0 then c.setCw 0x103 (c.cwv 0x103 - bit (c.cwv 0x103) 0) else c := rfl

/-- Every other word takes the bits that a write sets, and keeps its others. -/
theorem cwWrite_masked (hb : n < 0x40 ∨ 0x4F < n) (hf : n ≠ 0x103) :
    cwWrite c n v = c.setCw n (c.cwv n - Nat.land (c.cwv n) (cwMask n) + Nat.land v (cwMask n)) := by
  unfold cwWrite
  rw [if_neg (by omega), if_neg (by omega), if_neg hf]

theorem cwWrite_regs (hb : n < 0x40 ∨ 0x4F < n) : (cwWrite c n v).regs = c.regs := by
  by_cases hf : n = 0x103
  · subst hf
    rw [cwWrite_fstat]
    split
    · rfl
    · rfl
  · rw [cwWrite_masked hb hf]
    rfl

theorem cwWrite_others (h : c.cw.wf = true) (hmn : m ≠ n) : (cwWrite c n v).cwv m = c.cwv m := by
  unfold cwWrite
  split
  · rfl
  split
  · rfl
  split
  · split
    · exact cwv_setCw_ne h hmn _
    · rfl
  · exact cwv_setCw_ne h hmn _

/-- A word of which a write sets the low `p` bits. -/
theorem cwWrite_low (h : c.cw.wf = true) (hm : cwMask n = 2 ^ p - 1) (hb : n < 0x40 ∨ 0x4F < n) (hf : n ≠ 0x103) :
    (cwWrite c n v).cwv n = (c.cwv n - c.cwv n % 2 ^ p + v % 2 ^ p) % 2 ^ 32 := by
  have hland : ∀ x, Nat.land x (2 ^ p - 1) = x % 2 ^ p := fun x => Nat.and_two_pow_sub_one_eq_mod x p
  rw [cwWrite_masked hb hf, cwv_setCw_same h, hm, hland, hland]

/-- The two low bits of an address cannot be set. -/
theorem land_address (x : Nat) : Nat.land x 0xFFFFFFFC = x % 2 ^ 32 / 4 * 4 := by
  have hdiv : (x &&& 0xFFFFFFFC) / 2 ^ 2 = x / 2 ^ 2 % 2 ^ 30 := by
    rw [Nat.and_div_two_pow]
    exact Nat.and_two_pow_sub_one_eq_mod _ 30
  have hmod : (x &&& 0xFFFFFFFC) % 2 ^ 2 = 0 := by
    rw [Nat.and_mod_two_pow]
    exact Nat.and_zero _
  change x &&& 0xFFFFFFFC = _
  omega

/-- A word that holds the address of an instruction. -/
theorem cwWrite_address (h : c.cw.wf = true) (hv : v < 2 ^ 32) (hm : cwMask n = 0xFFFFFFFC) (hb : n < 0x40) (ha : c.cwv n % 4 = 0) :
    (cwWrite c n v).cwv n = v / 4 * 4 := by
  rw [cwWrite_masked (.inl hb) (by omega), cwv_setCw_same h, hm, land_address, land_address]
  omega

theorem cwMask_readOnly (hn : n = 1 ∨ n = 2 ∨ n = 3 ∨ n = 6 ∨ n = 11 ∨ n = 14 ∨ n = 15 ∨ (0x100 ≤ n ∧ n ≤ 0x102)) : cwMask n = 0 := by
  unfold cwMask
  rw [if_neg (by omega), if_neg (by omega), if_neg (by omega), if_neg (by omega), if_neg (by omega), if_neg (by omega)]

theorem cwWrite_readOnly (h : c.cw.wf = true) (hx : c.cwv n < 2 ^ 32)
    (hn : n = 1 ∨ n = 2 ∨ n = 3 ∨ n = 6 ∨ n = 11 ∨ n = 14 ∨ n = 15 ∨ (0x100 ≤ n ∧ n ≤ 0x102)) : (cwWrite c n v).cwv n = c.cwv n := by
  rw [cwWrite_low (p := 0) h (cwMask_readOnly hn) (by omega) (by omega)]
  omega

theorem cwWrite_fstat_cwv (h : c.cw.wf = true) (hx : c.cwv 0x103 < 4) :
    (cwWrite c 0x103 v).cwv 0x103 = if v % 2 = 1 then c.cwv 0x103 / 2 * 2 else c.cwv 0x103 := by
  have hbit : tbit v 0 = decide (v % 2 = 1) := by simp [tbit, bit]
  rw [cwWrite_fstat, hbit]
  by_cases hv : v % 2 = 1
  · rw [decide_eq_true hv, if_pos rfl, if_pos hv, cwv_setCw_same h, bit]
    omega
  · rw [decide_eq_false hv, if_neg Bool.false_ne_true, if_neg hv]

/-- What a write leaves, word by word of Tables 13.6 and 14.2. -/
theorem cwWrite_spec (h : c.cw.wf = true) (hv : v < 2 ^ 32) :
    (∀ m, m ≠ n → (cwWrite c n v).cwv m = c.cwv m)
    ∧ (n < 0x40 ∨ 0x4F < n → (cwWrite c n v).regs = c.regs)
    ∧ (c.cwv 0 < 32 → n = 0 → (cwWrite c n v).cwv 0 = c.cwv 0 / 4 * 4 + v % 4)
    ∧ (n = 4 ∨ n = 7 ∨ n = 9 ∨ n = 12 → (cwWrite c n v).cwv n = v)
    ∧ (c.cwv 5 < 64 → n = 5 → (cwWrite c n v).cwv 5 = v % 64)
    ∧ (c.cwv n % 4 = 0 → n = 8 ∨ n = 10 ∨ n = 13 → (cwWrite c n v).cwv n = v / 4 * 4)
    ∧ (c.cwv n < 2 ^ 32 → n = 1 ∨ n = 2 ∨ n = 3 ∨ n = 6 ∨ n = 11 ∨ n = 14 ∨ n = 15 ∨ (0x100 ≤ n ∧ n ≤ 0x102) → (cwWrite c n v).cwv n = c.cwv n)
    ∧ (c.cwv n < 4 → n = 0x103 → (cwWrite c n v).cwv n = if v % 2 = 1 then c.cwv n / 2 * 2 else c.cwv n)
    ∧ (c.cwv n < 2 ^ 13 → n = 0x104 → (cwWrite c n v).cwv n = v % 2 ^ 13)
    ∧ (c.cwv n < 2 ^ 14 → n = 0x105 → (cwWrite c n v).cwv n = v % 2 ^ 14)
    ∧ (∀ i, i < 8 → c.regs.wf = true → n = 0x40 + i → (cwWrite c n v).regs.get (32 + i) = v ∧ ∀ r, r ≠ 32 + i → (cwWrite c n v).regs.get r = c.regs.get r)
    ∧ (∀ i, i < 8 → c.regs.wf = true → n = 0x48 + i → (cwWrite c n v).regs.get (24 + i) = v ∧ ∀ r, r ≠ 24 + i → (cwWrite c n v).regs.get r = c.regs.get r) := by
  refine ⟨fun m hmn => cwWrite_others h hmn, cwWrite_regs, fun hx hn => ?stat, fun hn => ?whole, fun hx hn => ?ecause, fun hx hn => ?address,
    fun hx hn => cwWrite_readOnly h hx hn, fun hx hn => ?fstat, fun hx hn => ?flen, fun hx hn => ?gwin, fun i hi hr hn => ?fast,
    fun i hi hr hn => ?normal⟩
  case stat =>
    subst hn
    rw [cwWrite_low (p := 2) h rfl (by decide) (by decide)]
    omega
  case whole =>
    have hm : cwMask n = 2 ^ 32 - 1 := by rcases hn with rfl | rfl | rfl | rfl <;> rfl
    rw [cwWrite_low (p := 32) h hm (by omega) (by omega)]
    omega
  case ecause =>
    subst hn
    rw [cwWrite_low (p := 6) h rfl (by decide) (by decide)]
    omega
  case address =>
    have hm : cwMask n = 0xFFFFFFFC := by rcases hn with rfl | rfl | rfl <;> rfl
    exact cwWrite_address h hv hm (by omega) hx
  case fstat =>
    subst hn
    exact cwWrite_fstat_cwv h hx
  case flen =>
    subst hn
    rw [cwWrite_low (p := 13) h rfl (by decide) (by decide)]
    omega
  case gwin =>
    subst hn
    rw [cwWrite_low (p := 14) h rfl (by decide) (by decide)]
    omega
  case fast =>
    rw [hn, cwWrite_fastBank hi]
    exact ⟨Tab.get_set_same hr _ v, fun r hne => Tab.get_set_ne hr hne v⟩
  case normal =>
    rw [hn, cwWrite_normalBank hi]
    exact ⟨Tab.get_set_same hr _ v, fun r hne => Tab.get_set_ne hr hne v⟩

end

/-! ### Control words: what SYS reads (R280, R281) -/

section
variable {e : Engine} {k n : Nat} {c : SpireCore}

theorem cwRead_stored (hn : n = 0 ∨ (4 ≤ n ∧ n ≤ 15) ∨ n = 0x100 ∨ n = 0x103 ∨ n = 0x104 ∨ n = 0x105) : cwRead e k c n = some (c.cwv n) := by
  unfold cwRead
  rw [if_neg (by omega), if_neg (by omega), if_neg (by omega), if_neg (by omega), if_neg (by omega), if_neg (by omega), if_neg (by omega),
    if_pos (by omega)]

theorem cwRead_fastBank {i : Nat} (hi : i < 8) : cwRead e k c (0x40 + i) = some (c.regs.get (32 + i)) := by
  have hreg : 0x40 + i - 0x40 + 32 = 32 + i := by omega
  unfold cwRead
  rw [if_neg (by omega), if_neg (by omega), if_neg (by omega), if_pos (by omega), hreg]

theorem cwRead_normalBank {i : Nat} (hi : i < 8) : cwRead e k c (0x48 + i) = some (c.regs.get (24 + i)) := by
  have hreg : 0x48 + i - 0x48 + 24 = 24 + i := by omega
  unfold cwRead
  rw [if_neg (by omega), if_neg (by omega), if_neg (by omega), if_neg (by omega), if_pos (by omega), hreg]

theorem cwRead_unlisted (hn : (15 < n ∧ n < 0x40) ∨ (0x4F < n ∧ n < 0x100) ∨ 0x105 < n) : cwRead e k c n = none := by
  unfold cwRead
  rw [if_neg (by omega), if_neg (by omega), if_neg (by omega), if_neg (by omega), if_neg (by omega), if_neg (by omega), if_neg (by omega),
    if_neg (by omega)]

theorem cwAfterRead_same (hn : n ≠ 2 ∧ n ≠ 3 ∧ n ≠ 15) : cwAfterRead c n = c := by
  unfold cwAfterRead
  rw [if_neg hn.1, if_neg hn.2.1, if_neg hn.2.2]

/-- A write of a control word and the core's going on do not disturb each other. -/
theorem advance_cwWrite (v : Nat) : (cwWrite c n v).advance = cwWrite c.advance n v := by
  have hregs : ∀ t : Tab, SpireCore.advance { c with regs := t } = { c.advance with regs := t } := fun t => by
    unfold SpireCore.advance
    split_ifs <;> rfl
  have hcw : ∀ m x, (c.setCw m x).advance = c.advance.setCw m x := fun m x => by
    unfold SpireCore.advance SpireCore.setCw
    split_ifs <;> rfl
  obtain ⟨_, hpassed⟩ := advance_passed c
  have hr : c.advance.regs = c.regs := by rw [hpassed]
  have hc : ∀ m, c.advance.cwv m = c.cwv m := fun m => by rw [hpassed]; rfl
  unfold cwWrite
  rw [hr, hc]
  split_ifs
  · exact hregs _
  · exact hregs _
  · exact hcw _ _
  · rfl
  · exact hcw _ _

theorem tbit15_iff (low : BitVec 16) : tbit low.toNat 15 = true ↔ 32768 ≤ low.toNat := by
  have hlt := low.isLt
  unfold tbit bit
  rw [decide_eq_true_iff]
  omega

end

/-- The number of the control word in the low half of a SYS word. -/
theorem bits_number (x : Nat) : bits x 11 0 = x % 4096 := by simp [bits]

section
variable {k : Nat} {rd ra : BitVec 5} {low : BitVec 16} {s : State} (h : ReadyFor k (wordK 0x30 rd ra low) false s)
include h

/-- SYS with a number that the tables list: the value on its way, what the read does, and, with W = 1, the write. -/
theorem sys_gives {v : Nat} {after : SpireCore} (hr : cwRead (issuing k s) k ((issuing k s).core k) (low.toNat % 4096) = some v)
    (ha : cwAfterRead ((issuing k s).core k) (low.toNat % 4096) = after) :
    Issues k s (exec (.sys k rd ra low) s) (fun _ c' => ∃ m, SpireCore.gives rd (v % 2 ^ 32) 1 after m
      ∧ c' = if 32768 ≤ low.toNat then cwWrite m (low.toNat % 4096) (((issuing k s).core k).get ra.toNat) else m) := by
  refine issues_next h (by simp only [bits_number, hr, ha]; rfl) ⟨(after.result rd.toNat v 1).advance, ?given, ?written⟩
  case given =>
    rw [← result_mod]
    exact result_gives after rd _ 1 (Nat.mod_lt _ (by decide))
  case written => rw [apply_ite SpireCore.advance, advance_cwWrite, if_congr (tbit15_iff low) rfl rfl]

/-- SYS with a number that no table lists. -/
theorem sys_illegal (hr : cwRead (issuing k s) k ((issuing k s).core k) (low.toNat % 4096) = none) :
    Traps k s (exec (.sys k rd ra low) s) 1 (fun c => c.pc) (fun _ => 0) :=
  issue_traps h (by simp only [bits_number, hr])

end

/-- Settles O6: SYS by what its number reads and what the read does (`sys_gives`), or by the number's being unlisted (`sys_illegal`); what a
write leaves is `cwWrite_spec`. -/
theorem spireControlWords : Obligations.SpireControlWords := by
  unfold Obligations.SpireControlWords
  refine ⟨fun k rd ra low s h => ?_, fun c n v hw hv => cwWrite_spec hw hv⟩
  dsimp only
  refine ⟨fun hn => ?stored, fun hn => ?id, fun hn => ?cycLo, fun hn => ?cycHi, fun hn => ?iwmax, fun i hi hn => ?fast, fun i hi hn => ?normal,
    fun hn => ?fleft, fun hn => ?frame, fun hn => sys_illegal h (cwRead_unlisted hn)⟩
  case stored => exact sys_gives h (cwRead_stored (by omega)) (cwAfterRead_same (by omega))
  case id =>
    refine sys_gives h ?_ (cwAfterRead_same (by omega))
    rw [hn]
    simp [cwRead, isService]
  case cycLo =>
    rw [← Nat.mod_mod]
    exact sys_gives h (by rw [hn]; rfl) (by rw [hn]; rfl)
  case cycHi => exact sys_gives h (by rw [hn]; rfl) (by rw [hn]; rfl)
  case iwmax => exact sys_gives h (by rw [hn]; exact cwRead_stored (by decide)) (by rw [hn]; rfl)
  case fast => exact sys_gives h (hn ▸ cwRead_fastBank hi) (cwAfterRead_same (by omega))
  case normal => exact sys_gives h (hn ▸ cwRead_normalBank hi) (cwAfterRead_same (by omega))
  case fleft => exact sys_gives h (by rw [hn]; rfl) (cwAfterRead_same (by omega))
  case frame => exact sys_gives h (by rw [hn]; rfl) (cwAfterRead_same (by omega))

end Sys2Proof.Machine
end

section
namespace Sys2Proof.Machine

/-! ### What raises an exception at issue (R268, R270, R279, R298) -/

section
variable (k op func d : Nat) (rd ra rb : BitVec 5) (imm : BitVec 16) (e : Engine)

theorem opA_issues (f : BitVec 32 → BitVec 32 → BitVec 32) : ∃ act, opA k op func d rd ra rb f e = issue k (wordA op rd ra rb func) false act e :=
  ⟨fun e c => .next e (c.result rd.toNat (f (c.word ra) (c.word rb)).toNat d).advance, rfl⟩

theorem opK_issues (f : BitVec 32 → BitVec 16 → BitVec 32) : ∃ act, opK k op rd ra imm f e = issue k (wordK op rd ra imm) false act e :=
  ⟨fun e c => .next e (c.result rd.toNat (f (c.word ra) imm).toNat 1).advance, rfl⟩

end

/-- The engine after an instruction of Table 13.3 or of CP0 to CP3 is that after the issue of its word on its core. -/
theorem exec_issues {i : Instr} {k w : Nat} {control : Bool} (h : spireWord i = some (k, w, control)) (s : State) :
    ∃ e, exec i s = .next { s with eng := e } ∧ ∃ act, e = issue k w control act s.eng := by
  cases i with
  | add | sub | and | or | xor | nor | slt | sltu | shl | shr | shra | min | max | minu | maxu | clz | mul | mulh | mulhu | div | divu | rem
  | remu =>
    cases h
    exact ⟨_, rfl, opA_issues ..⟩
  | addk | andk | ork | xork | sltk | sltuk | shlk | shrk | shrak | movh =>
    cases h
    exact ⟨_, rfl, opK_issues ..⟩
  | jr | jalr | jmp | jal | ldb | ldbu | ldh | ldhu | ldw | stb | sth | stw | beq | bne | blt | bge | bltu | bgeu | sys | wff | eret | feret
  | trap | ocnt | orec | cell | gather | hadd | hget | hclr | fetch | resw | resor | resget | qget =>
    cases h
    exact ⟨_, rfl, _, rfl⟩
  | _ => cases h

/-- A core that is stopped, halted or waiting issues nothing. -/
theorem issue_idle {k w : Nat} {control : Bool} {act : Engine → SpireCore → Issued} {e : Engine} (h : (e.core k).st ≠ 1) :
    issue k w control act e = e := if_pos (.inr h)

/-- The word at the program counter of core `k`; on a service core the row is itself that word (assumption 23). -/
def wordAt (k w : Nat) (s : State) : Nat :=
  if isService k then w else (issuing k s).reg (imemFld k (((issuing k s).core k).pc / 4))

/-- The inverted bits of that word. -/
def errorAt (k : Nat) (s : State) : Nat :=
  if isService k then 0 else (issuing k s).spr.ecc.get (imemFld k (((issuing k s).core k).pc / 4)).key

/-- The check of that word: the engine after it, and whether the error is uncorrectable. -/
def checkAt (k : Nat) (s : State) : Engine × Bool :=
  if isService k then (issuing k s, false) else coreCheck (issuing k s) k (imemFld k (((issuing k s).core k).pc / 4))

section
variable {k : Nat} {s : State}

theorem checkAt_clean (h : errorAt k s = 0) : checkAt k s = (issuing k s, false) := by
  unfold checkAt
  unfold errorAt at h
  split
  next => rfl
  next hs =>
    rw [if_neg hs] at h
    exact coreCheck_clean _ _ _ h

theorem checkAt_uncorrectable (h : popCount 39 (errorAt k s) = 2) : checkAt k s = (issuing k s, true) := by
  unfold checkAt
  unfold errorAt at h
  split
  next hs =>
    rw [if_pos hs] at h
    exact absurd h (by decide)
  next hs =>
    rw [if_neg hs] at h
    exact coreCheck_uncorrectable h

end

section
variable {k w : Nat} {control : Bool} {s : State}

/-- The order in which a running core judges what it comes to (assumption 53); `rest` is the instruction's own effect. -/
theorem issue_judges {act : Engine → SpireCore → Issued} (hk : k < 34) (hst : (s.eng.core k).st = 1) :
    ∃ rest, issue k w control act s.eng =
      let c := (issuing k s).core k
      if (!isService k && decide (65536 ≤ c.pc)) || c.pc % 4 != 0 then (issuing k s).except k 2 c.pc c.pc
      else if (checkAt k s).2 then (checkAt k s).1.except k 7 c.pc c.pc
      else if wordCause (wordAt k w s) ≠ 0 then (checkAt k s).1.except k (wordCause (wordAt k w s)) c.pc 0
      else if wordAt k w s ≠ w then s.eng
      else if control ∧ c.slot ≠ 0 then (checkAt k s).1.except k 1 c.pc 0
      else rest :=
  ⟨_, if_neg (not_or_intro (Nat.not_le.mpr hk) (not_not_intro hst))⟩

/-- What a running core raises before the instruction's own effect. -/
theorem issue_raises {act : Engine → SpireCore → Issued} (hk : k < 34) (hst : (s.eng.core k).st = 1) :
    let c := (issuing k s).core k
    let o := .next { s with eng := issue k w control act s.eng }
    let fetched := c.pc % 4 = 0 ∧ (isService k = true ∨ c.pc < 65536)
    ((isService k = false ∧ 65536 ≤ c.pc) ∨ c.pc % 4 ≠ 0 → Traps k s o 2 (fun c => c.pc) (fun c => c.pc))
    ∧ (fetched → popCount 39 (errorAt k s) = 2 → Traps k s o 7 (fun c => c.pc) (fun c => c.pc))
    ∧ (fetched → errorAt k s = 0 → wordCause (wordAt k w s) ≠ 0 → Traps k s o (wordCause (wordAt k w s)) (fun c => c.pc) (fun _ => 0))
    ∧ (fetched → errorAt k s = 0 → wordCause (wordAt k w s) = 0 → wordAt k w s = w → control = true → c.slot ≠ 0 →
        Traps k s o 1 (fun c => c.pc) (fun _ => 0)) := by
  intro c o fetched
  obtain ⟨rest, hissue⟩ := issue_judges (w := w) (control := control) (act := act) hk hst
  have hpc : fetched → ¬((!isService k && decide (65536 ≤ c.pc)) || c.pc % 4 != 0) = true := by
    rintro ⟨halign, hsv | hlt⟩
    · simp [halign, hsv]
    · simp [halign, Nat.not_le.mpr hlt]
  refine ⟨fun hbad => ?fetch, fun hf hm => ?memerr, fun hf hm hx => ?form, fun hf hm hx hw hctl hslot => ?slot⟩
  case fetch => exact except_traps (hissue.trans (if_pos (by simpa using hbad)))
  case memerr =>
    rw [checkAt_uncorrectable hm] at hissue
    exact except_traps (hissue.trans ((if_neg (hpc hf)).trans (if_pos rfl)))
  case form =>
    rw [checkAt_clean hm] at hissue
    exact except_traps (hissue.trans ((if_neg (hpc hf)).trans ((if_neg Bool.false_ne_true).trans (if_pos hx))))
  case slot =>
    rw [checkAt_clean hm] at hissue
    exact except_traps (hissue.trans ((if_neg (hpc hf)).trans ((if_neg Bool.false_ne_true).trans ((if_neg (not_not_intro hx)).trans
      ((if_neg (not_not_intro hw)).trans (if_pos ⟨hctl, hslot⟩))))))

end

/-- Settles O7: every row is an issue (`exec_issues`), which judges what the core comes to before the instruction's own effect
(`issue_raises`) and on a core that does not run does nothing (`issue_idle`); TRAP's effect is its exception. -/
theorem spireExceptions : Obligations.SpireExceptions := by
  unfold Obligations.SpireExceptions
  refine ⟨fun i k w control s hi hk hst => ?atIssue, fun k rd ra imm s h => ?trap, fun i k w control s hi hst => ?idle⟩
  case atIssue =>
    obtain ⟨e, hexec, act, rfl⟩ := exec_issues hi s
    rw [hexec]
    exact issue_raises hk hst
  case trap => exact issue_traps h rfl
  case idle =>
    obtain ⟨e, hexec, act, rfl⟩ := exec_issues hi s
    rw [hexec, issue_idle hst]

end Sys2Proof.Machine
end

section
namespace Sys2Proof.Machine

/-! ### Returns and WFF (R283, R287, R289, R290, R296) -/

/-- There is no frame for a WFF to finish: none taken, or it is finished, or its budget has ended. -/
theorem finishFrame_none {e : Engine} {k : Nat} {c : SpireCore} (h : c.frame = none ∨ c.done = true ∨ c.endAt ≤ c.cyc) :
    finishFrame e k c = (e, c) := by
  unfold finishFrame
  split
  next => rfl
  next f hf =>
    obtain hnone | hend := h
    · rw [hf] at hnone
      cases hnone
    · exact if_pos hend

/-- A WFF while the budget runs gives the frame the core's result, and keeps the longest time a frame has taken. -/
theorem finishFrame_some {e : Engine} {k : Nat} {c : SpireCore} {f : Frame} (hf : c.frame = some f) (hd : c.done = false) (hb : c.cyc < c.endAt) :
    let e0 := mapFrame e f (fun x => if x.dec.covr then x else { x with dec := { x.dec with res := c.resw, resOk := true } })
    let e1 := e0.setReg (Reg.SPR_CRES_RES k) c.resw
    finishFrame e k c = (e1.setReg (Reg.SPR_CMAXC_CYC k) (satU 16 (max (e1.reg (Reg.SPR_CMAXC_CYC k)) (c.cyc - c.tookAt))), { c with done := true }) := by
  unfold finishFrame
  rw [hf]
  exact if_neg (by simp [hd, Nat.not_le.mpr hb])

/-- Settles O8: each row is an issue with its effect at hand (`issues_next`, `issue_traps`), a return by the bits of CW_STAT, WFF by whether
there is a frame to finish (`finishFrame_none`, `finishFrame_some`). -/
theorem spireReturnsAndWait : Obligations.SpireReturnsAndWait := by
  unfold Obligations.SpireReturnsAndWait
  intro k rd ra rb func low s
  dsimp only
  refine ⟨fun h => ⟨fun hx hd => ?eretSlot, fun hx hd => ?eret, fun hx hn => ?eretNormal, fun hx hn => ?eretIllegal⟩,
    fun h => ⟨fun hf hx => ?feret, fun hfx => ?feretIllegal⟩, fun h => ⟨fun hnone => ?wait, fun f hsv hf hd hb => ?finish⟩⟩
  case eretSlot => exact issues_next h ((if_pos hx).trans (congrArg (Issued.next _) (if_pos hd))) rfl
  case eret =>
    have hd' : ¬(bits (((issuing k s).core k).cwv 5) 5 4 = 1 ∨ bits (((issuing k s).core k).cwv 5) 5 4 = 2) := by
      change ¬(((issuing k s).core k).cwv 5 / 16 % 4 = 1 ∨ ((issuing k s).core k).cwv 5 / 16 % 4 = 2)
      omega
    exact issues_next h ((if_pos hx).trans (congrArg (Issued.next _) (if_neg hd'))) rfl
  case eretNormal => exact issues_next h ((if_neg (ne_true_of_eq_false hx)).trans (if_pos hn)) rfl
  case eretIllegal => exact issue_traps h ((if_neg (ne_true_of_eq_false hx)).trans (if_neg (ne_true_of_eq_false hn)))
  case feret => exact issues_next h (by rw [hf, hx]; rfl) rfl
  case feretIllegal => exact issue_traps h (if_neg (by simpa using fun hf => hfx.resolve_left (by simp [hf])))
  case wait =>
    have hkeep : (if isService k then (issuing k s, (issuing k s).core k) else finishFrame (issuing k s) k ((issuing k s).core k))
        = (issuing k s, (issuing k s).core k) :=
      ite_eq_left_iff.mpr fun hsv => finishFrame_none (hnone.resolve_left hsv)
    exact issues_next h (by rw [hkeep]) rfl
  case finish => exact issues_next h (by rw [hsv, if_neg Bool.false_ne_true, finishFrame_some hf hd hb]) rfl

end Sys2Proof.Machine
end

section
namespace Sys2Proof.Machine

/-! ### Results arrive (R274, R276) -/

theorem core_putCore_same {e : Engine} {k : Nat} (c : SpireCore) (hk : k < e.spr.cores.length) : (e.putCore k c).core k = c := by
  unfold Engine.core
  rw [putCore_cores, List.getD_eq_getElem?_getD, List.getElem?_set_self hk]
  rfl

section
variable {x : Flight} {rest : List Flight}

/-- Where the first result in flight is due and no other, it is all that arrives. -/
theorem takeWhile_first {p : Flight → Bool} (hx : p x = true) (hrest : ∀ y ∈ rest, p y = false) : (x :: rest).takeWhile p = [x] := by
  rw [List.takeWhile_cons_of_pos hx]
  cases rest with
  | nil => rfl
  | cons y ys => rw [List.takeWhile_cons_of_neg (by simp [hrest y List.mem_cons_self])]

/-- The first result in flight reaches its register, where it is due and no other is; one for g0 reaches none. -/
theorem settle_first {e : Engine} {k : Nat} {c : SpireCore} (hc : e.core k = c) (hf : c.flight = x :: rest) (hg : c.gather = [])
    (hx : x.due ≤ c.cyc) (hrest : ∀ y ∈ rest, c.cyc < y.due) :
    e.settle k = e.putCore k { c with flight := rest, regs := if x.dst = 0 then c.regs else c.regs.set x.dst x.val } := by
  subst hc
  have hnow : ((e.core k).flight.takeWhile fun y => decide (y.due ≤ (e.core k).cyc)) = [x] := by
    rw [hf]
    exact takeWhile_first (decide_eq_true hx) fun y hy => decide_eq_false (Nat.not_le.mpr (hrest y hy))
  have harrive : SpireCore.arrive { e.core k with flight := rest, gather := [] } x = { e.core k with
      flight := rest, gather := [], regs := if x.dst = 0 then (e.core k).regs else (e.core k).regs.set x.dst x.val } := by
    unfold SpireCore.arrive
    split
    · rfl
    · rfl
  unfold Engine.settle
  simp only [hnow, hg, List.takeWhile_nil, List.isEmpty_cons, Bool.false_and, Bool.false_eq_true, if_false, List.length_singleton,
    List.length_nil, List.drop_nil, List.foldl_cons, List.foldl_nil]
  rw [hf, List.drop_one, List.tail_cons]
  exact congrArg (e.putCore k) harrive

/-- The same of a core that has come to the cycle of its first result. -/
theorem settle_waited {e : Engine} {k : Nat} {c : SpireCore} (hk : k < e.spr.cores.length) (hf : c.flight = x :: rest) (hg : c.gather = [])
    (hrest : ∀ y ∈ rest, max c.cyc x.due < y.due) :
    let c2 : SpireCore := { c with cyc := max c.cyc x.due }
    (e.putCore k c2).settle k
      = (e.putCore k c2).putCore k { c2 with flight := rest, regs := if x.dst = 0 then c.regs else c.regs.set x.dst x.val } :=
  settle_first (core_putCore_same _ hk) hf hg (Nat.le_max_right ..) hrest

/-- The first result in flight is the next to arrive, where all others are due later. -/
theorem nextDue_first {c : SpireCore} (hf : c.flight = x :: rest) (hg : c.gather = []) (hrest : ∀ y ∈ rest, max c.cyc x.due < y.due) :
    ((c.flight ++ c.gather).map (·.due)).min? = some x.due := by
  rw [hf, hg, List.append_nil, List.map_cons, List.min?_eq_some_iff]
  refine ⟨List.mem_cons_self, fun d hd => ?_⟩
  obtain rfl | hd := List.mem_cons.mp hd
  · exact Nat.le_refl _
  · obtain ⟨y, hy, rfl⟩ := List.mem_map.mp hd
    have := hrest y hy
    omega

end

/-- Settles O9: what is due at a core that issues is its first result (`settle_first`); a core that issues nothing comes to that result's
cycle (`nextDue_first`) and then settles in the same way (`settle_waited`). -/
theorem spireResultsArrive : Obligations.SpireResultsArrive := by
  unfold Obligations.SpireResultsArrive
  intro k s x rest hk
  dsimp only
  refine fun hf hg => ⟨fun hst hx hrest => ?running, fun hst hlen hrest => ?waiting⟩
  case running =>
    refine congrArg (fun e => Host.Outcome.next { s with eng := e }) ?_
    dsimp only
    rw [if_neg (Nat.not_le.mpr hk), if_pos hst]
    exact settle_first rfl hf hg hx hrest
  case waiting =>
    refine congrArg (fun e => Host.Outcome.next { s with eng := e }) ?_
    dsimp only
    rw [if_neg (Nat.not_le.mpr hk), if_neg hst, nextDue_first hf hg hrest, Option.getD_some]
    exact settle_waited (hlen ▸ hk) hf hg hrest

end Sys2Proof.Machine
end

/-! ## Reads of frames by the coprocessors (chapter 14) -/

section
namespace Sys2Proof.Machine

/-! ### Functions of CP0 to CP3 on a decision core (R291, R292) -/

theorem isService_decision {k : Nat} (hk : k < 32) : isService k = false := decide_eq_false (Nat.not_le.mpr hk)

/-- A result that does not fit 32 bits arrives as its low 32 bits. -/
theorem result_gives_mod (c : SpireCore) (rd : BitVec 5) (v d : Nat) : c.gives rd (v % 2 ^ 32) d (c.result rd.toNat v d).advance := by
  rw [← result_mod]
  exact result_gives c rd _ d (Nat.mod_lt _ (by decide))

section
variable {k n func : Nat} {rd ra rb : BitVec 5} {s : State} {act : Engine → SpireCore → Issued} (hk : k < 32)
include hk

/-- On a decision core a function that returns a result is available: it issues with its own effect. -/
theorem opCp_decision (e : Engine) :
    opCp k n func true rd ra rb act e = issue k (wordA (0x38 + n) rd ra rb func) false act e := by
  simp [opCp, isService_decision hk]

theorem opCp_next {e' : Engine} {c' : SpireCore} {q : SpireCore → SpireCore → Prop} (h : ReadyFor k (wordA (0x38 + n) rd ra rb func) false s)
    (ha : act (issuing k s) ((issuing k s).core k) = .next e' c') (hq : q ((issuing k s).core k) c') :
    IssuesIn e' k s (.next { s with eng := opCp k n func true rd ra rb act s.eng }) q := by
  rw [opCp_decision hk]
  exact issues_next h ha hq

theorem opCp_traps {cause : Nat} {epc eaddr : SpireCore → Nat} (h : ReadyFor k (wordA (0x38 + n) rd ra rb func) false s)
    (ha : act (issuing k s) ((issuing k s).core k) = .exc cause (epc ((issuing k s).core k)) (eaddr ((issuing k s).core k))) :
    Traps k s (.next { s with eng := opCp k n func true rd ra rb act s.eng }) cause epc eaddr := by
  rw [opCp_decision hk]
  exact issue_traps h ha

/-- On a decision core a function puts its value, kept to 32 bits, on its way to rd. -/
theorem opCp_gives {value : Engine → SpireCore → Nat} {v d : Nat} (hv : value (issuing k s) ((issuing k s).core k) = v)
    (h : ReadyFor k (wordA (0x38 + n) rd ra rb func) false s) :
    Issues k s (.next { s with eng := opCp k n func true rd ra rb (fun e c => .next e (c.result rd.toNat (value e c) d).advance) s.eng })
      (SpireCore.gives rd (v % 2 ^ 32) d) :=
  opCp_next hk h rfl (by rw [hv]; exact result_gives_mod _ rd v d)

end

/-! ### Objects of the frame taken (R300) -/

section
variable {c : SpireCore} {f : Frame} (d : Nat)

theorem objs_noFrame (hf : c.frame = none) : c.objs d = [] := by rw [SpireCore.objs, hf]

theorem objs_frame (hf : c.frame = some f) : c.objs d = f.pic.objs.getD d [] := by rw [SpireCore.objs, hf]

end

/-- Settles O11: each function gives its value at its distance (`opCp_gives`); the value is the one of the frame taken, or 0 before the
first one (`objs_frame`, `objs_noFrame`), and QGET of a reserved selector is an exception by its effect. -/
theorem spireFrameReads : Obligations.SpireFrameReads := by
  unfold Obligations.SpireFrameReads
  intro k rd ra rb s hk
  dsimp only
  generalize hc : (issuing k s).core k = c
  refine ⟨fun hf => ⟨?ocntNone, ?orecNone, ?cellNone⟩, fun f hf => ⟨?ocnt, fun hlen => ?orecPast, fun o ho => ?orec, fun hx => ?cellUnheld,
    fun x hx => ?cell⟩, ?resget, fun v hv => ?qget, fun hv h => ?qgetReserved⟩
  case ocntNone => exact opCp_gives hk (by rw [hc, objs_noFrame _ hf, List.length_nil])
  case orecNone => exact opCp_gives hk (by rw [hc, hf])
  case cellNone => exact opCp_gives hk (by rw [hc, hf]; rfl)
  case ocnt => exact opCp_gives hk (by rw [hc, objs_frame _ hf])
  case orecPast =>
    have ho : (c.objs (bit (c.get ra.toNat) 8))[c.get ra.toNat % 256]? = none := by
      rw [objs_frame _ hf]
      exact List.getElem?_eq_none hlen
    exact opCp_gives hk (by rw [hc, hf, ho])
  case orec =>
    have ho' : (c.objs (bit (c.get ra.toNat) 8))[c.get ra.toNat % 256]? = some o := by
      rw [objs_frame _ hf]
      exact ho
    exact opCp_gives hk (by rw [hc, hf, ho']; rfl)
  case cellUnheld => exact opCp_gives hk (by rw [hc, hf, hx]; rfl)
  case cell => exact opCp_gives hk (by rw [hc, hf, hx]; rfl)
  case resget => exact opCp_gives hk (by rw [hc])
  case qget => exact fun h => opCp_next hk h (by rw [hc, hv]) (result_gives_mod _ rd v 2)
  case qgetReserved => exact opCp_traps hk h (by rw [hc, hv])

/-! ### GATHER (R301, R302) -/

/-- A window holds at most 256 cells. -/
theorem window_le (win : Nat) : (win % 16 + 1) * (win / 16 % 16 + 1) ≤ 16 * 16 := Nat.mul_le_mul (by omega) (by omega)

/-- A frame that is not held, of a core that has taken one, as a truth value. -/
theorem ite_notHeld {α β γ : Type} (x : Option α) (f : Option β) [Decidable (x = none ∧ f ≠ none)] (p q : γ) :
    (if x.isNone && f.isSome then p else q) = if x = none ∧ f ≠ none then p else q :=
  if_congr (by rw [Bool.and_eq_true, Option.isNone_iff_eq_none, Option.isSome_iff_ne_none]) rfl rfl

/-- Settles O12: GATHER's effect is judged by its address, then by its end (`opCp_traps`); where both fit the cells go on their way to data
memory and their number, which fits 32 bits (`window_le`), to rd (`opCp_next`, `result_gives`). -/
theorem spireGather : Obligations.SpireGather := by
  unfold Obligations.SpireGather
  intro k rd ra rb s hk h
  dsimp only
  refine ⟨fun hb => ?align, fun hb hn => ?bus, fun hb hn => ?moves⟩
  case align => exact opCp_traps hk h (if_pos hb)
  case bus => exact opCp_traps hk h ((if_neg (not_not_intro hb)).trans (if_pos hn))
  case moves =>
    refine opCp_next hk h ((if_neg (not_not_intro hb)).trans (if_neg (Nat.not_lt.mpr hn))) ⟨_, result_gives _ rd _ _ ?count, ?cells⟩
    case count =>
      have hn := window_le (((issuing k s).core k).cwv 0x105)
      split
      · exact Nat.lt_of_le_of_lt (Nat.add_le_add_left hn _) (by decide)
      · exact Nat.lt_of_le_of_lt hn (by decide)
    case cells =>
      rw [ite_notHeld]
      rfl

end Sys2Proof.Machine
end

/-! ## The functions of the event fabric and of the interrupt controller -/

section
namespace Sys2Proof.Machine

/-- Settles O25: each function runs as an action (`runAction_does`); all but the resume and the raise only queue writes for the next
boundary. -/
theorem eventFunctions : Obligations.EventFunctions := by
  unfold Obligations.EventFunctions
  refine ⟨?publish, ?subscribe, ?setGate, ?setMatrix, ?setNotify, ?setChannel, ?resumeChannel, ?setGuard, ?raise, ?rawMatrix, ?rawRoutes,
    ?rawConsumers⟩
  case publish => exact runAction_does fun _ _ => rfl
  case subscribe => exact runAction_does fun _ _ => rfl
  case setGate => exact runAction_does fun _ _ => rfl
  case setMatrix => exact runAction_does fun _ _ => rfl
  case setNotify => exact runAction_does fun _ _ => rfl
  case setChannel => exact runAction_does fun _ _ => rfl
  case resumeChannel => exact runAction_does (act := fun e p => e.setReg (Reg.EVT_KSTAT_STOP p.target) 0) fun _ _ => rfl
  case setGuard => exact runAction_does fun _ _ => rfl
  case raise => exact runAction_does (act := fun e p => e.raise (Src.sw + p.target) (p.arg 0)) fun _ _ => rfl
  case rawMatrix => exact runAction_does fun _ _ => rfl
  case rawRoutes => exact runAction_does fun _ _ => rfl
  case rawConsumers => exact runAction_does fun _ _ => rfl

/-- Settles O26: the functions that route, filter and mask queue writes for the next boundary; CLEAR_PENDING clears its source at once. All
run as actions (`runAction_does`). -/
theorem interruptFunctions : Obligations.InterruptFunctions := by
  unfold Obligations.InterruptFunctions
  refine ⟨?route, ?setFilter, ?maskTarget, ?clearPending, ?rawSources⟩
  case route => exact runAction_does fun _ _ => rfl
  case setFilter => exact runAction_does (act := fun e p => e.later (Reg.IRQ_SFILT_N p.target) (p.arg 0)) fun _ _ => rfl
  case maskTarget => exact runAction_does fun _ _ => rfl
  case clearPending => exact runAction_does (act := fun e p => clearPend p.target e) fun _ _ => rfl
  case rawSources => exact runAction_does fun _ _ => rfl

end Sys2Proof.Machine
end

/-! ## What takes an event: notifications and consumer inputs -/

section
namespace Sys2Proof.Machine

/-! ### Notifications (R50, R51, R327) -/

/-- The engine when the notification of `n`'s source no longer waits. -/
def noteTaken (e : Engine) (n : Note) : Engine := { e with evt := { e.evt with notes := e.evt.notes.filter (fun m => m.src != n.src) } }

theorem execNotificationWrite_waiting {s : State} {src : Nat} {n : Note} (h : s.eng.evt.notes.find? (fun m => m.src == src) = some n) :
    execNotificationWrite src s = .next { s with eng := writeNote s.eng n } := by
  rw [execNotificationWrite, h]

/-- An EVN ring that is served takes a notification, or drops it where it is full. -/
theorem writeNote_served {e : Engine} {n : Note} {r : Ring} (hr : e.ring? n.ring = some r) (hf : r.fault = false) (ht : r.typ = 3)
    (hs : e.serving = true) : writeNote e n =
    if r.space = 0 then (noteTaken e n).dropOn r
    else ((noteTaken e n).post (r.addr r.prod) (noteBytes n r)).ringIrq { r with prod := (r.prod + 1) % 2 ^ 32, lost := false } := by
  unfold writeNote
  dsimp only
  split
  next hnone => cases hnone.symm.trans hr
  next r' hr' =>
    cases hr'.symm.trans hr
    exact (if_neg (by simp [hf, ht])).trans (if_neg (by simp [hs]))

/-! ### The events that an input takes at its edge (R319, R323, R325) -/

section
variable {e : Engine} {c : Nat}

/-- The engine when the events under changed gates that waited for input `c` have been taken. -/
def oldTaken (e : Engine) (c : Nat) : Engine := { e with evt := { e.evt with oldbox := e.evt.oldbox.filter (fun x => x.c != c) } }

theorem takeOld_none (h : ∀ x ∈ e.evt.oldbox, x.c ≠ c) : takeOld e c = (e, 0) :=
  if_pos (List.isEmpty_iff.mpr (List.filter_eq_nil_iff.mpr fun x hx => by simpa using h x hx))

theorem takeOld_some (h : e.evt.oldbox.filter (fun x => x.c == c) ≠ []) : takeOld e c =
    (oldTaken e c, ((e.evt.oldbox.filter (fun x => x.c == c)).map (fun x => e.passing x.gate x.n x.armed)).foldl (· + ·) 0) :=
  if_neg (by rwa [List.isEmpty_iff])

/-- Taking the present events leaves those under changed gates waiting. -/
theorem takeNow_oldbox (e : Engine) (c : Nat) : (takeNow e c).1.evt.oldbox = e.evt.oldbox := by
  unfold takeNow
  dsimp only
  split
  · rfl
  · rfl

theorem takeInbox_eq (e : Engine) (c : Nat) :
    takeInbox e c = ((takeOld (takeNow e c).1 c).1, (takeNow e c).2 + (takeOld (takeNow e c).1 c).2) := rfl

theorem takeInbox_now (h : ∀ x ∈ e.evt.oldbox, x.c ≠ c) : takeInbox e c = takeNow e c := by
  rw [takeInbox_eq, takeOld_none (by rwa [takeNow_oldbox])]
  rfl

/-- The engine when input `c` has taken its present events, its gate's own state left as it is. -/
def inboxTaken (e : Engine) (c : Nat) : Engine :=
  { e with evt := { e.evt with inbox := e.evt.inbox.set c 0, armbox := e.evt.armbox.set c 0 } }

/-- Behind no ARM gate the gate has no state of its own. -/
theorem takeNow_unarmed (h : e.reg (Reg.EVT_CGATE_KIND c) ≠ 2) :
    takeNow e c = (inboxTaken e c, e.passing (e.gateOf c) (e.evt.inbox.get c) false) := by
  have hp : ∀ opened, e.passing (e.gateOf c) (e.evt.inbox.get c) opened = e.passing (e.gateOf c) (e.evt.inbox.get c) false := fun _ =>
    if_congr Iff.rfl rfl ((if_neg h).trans (if_neg h).symm)
  exact Prod.ext (if_neg h) (hp _)

theorem passing_zero (e : Engine) (g : Gate) (opened : Bool) : e.passing g 0 opened = 0 := by
  simp [Engine.passing]

theorem passing_ungated {g : Gate} (h : g.kind = 0) (n : Nat) (opened : Bool) : e.passing g n opened = n := by
  simp [Engine.passing, h]

theorem passing_level {g : Gate} (h : g.kind = 1) (n : Nat) (opened : Bool) :
    e.passing g n opened = if e.gateLevel (g.sel % 16) != (g.inv == 1) then n else 0 := if_pos h

theorem passing_arm {g : Gate} (h : g.kind = 2) (n : Nat) (opened : Bool) : e.passing g n opened = if opened then min n 1 else 0 := by
  simp [Engine.passing, h]

/-- An ARM gate is closed by the event that it passes (R319). -/
theorem takeNow_armed (h : e.reg (Reg.EVT_CGATE_KIND c) = 2) {opened : Bool}
    (ho : (e.evt.armbox.get c != 0 || e.reg (Reg.EVT_CSTAT_OPEN c) == 1) = opened) : takeNow e c =
    ((inboxTaken e c).setReg (Reg.EVT_CSTAT_OPEN c) (b2n (opened && decide (e.evt.inbox.get c = 0))),
      e.passing (e.gateOf c) (e.evt.inbox.get c) opened) := by
  unfold takeNow
  dsimp only
  rw [if_pos h, ho]
  rfl

section
variable {s : State} {e1 : Engine} {n : Nat} (h : takeInbox s.eng c = (e1, n))
include h

/-- The sampling edge of a listed input: the events that pass make one activation. -/
theorem execConsumerActivation_edge (hc : consumerListed c = true) :
    execConsumerActivation c s = .next { s with eng := if n = 0 then e1 else activate1 (mergeEvents e1 c n) c } := by
  unfold execConsumerActivation
  rw [h]
  by_cases hn : n = 0
  · rw [if_pos hn]
    exact if_pos (.inl hn)
  · rw [if_neg hn]
    exact if_neg (by simp [hc, hn])

variable (hc : consumerListed c = true)
include hc

theorem execConsumerActivation_none (hn : n = 0) : execConsumerActivation c s = .next { s with eng := e1 } := by
  rw [execConsumerActivation_edge h hc, if_pos hn]

theorem execConsumerActivation_some (hn : n ≠ 0) :
    execConsumerActivation c s = .next { s with eng := activate1 (mergeEvents e1 c n) c } := by
  rw [execConsumerActivation_edge h hc, if_neg hn]

end

end

/-! ### Activations (R180, R323, R324) -/

section
variable {e : Engine} {c : Nat}

theorem mergeEvents_of_le_one {n : Nat} (h : n ≤ 1) : mergeEvents e c n = e := if_pos h

theorem activate1_unheard (h : e.st = stOff ∨ (c = 256 ∧ e.st ≠ stStandby)) : activate1 e c = e := if_pos h

variable (hoff : e.st ≠ stOff) (hwake : ¬(c = 256 ∧ e.st ≠ stStandby))
include hoff hwake

theorem activate1_heard : activate1 e c =
    if c = 258 ∧ inputDown e c then e.bump Reg.OUT_HTLOST_COUNT
    else if inputDown e c ∨ inputBusy e c then busyInput e c
    else if c = 258 ∧ (inputTask e c).reg Reg.OUT_HTLOST_COUNT ≠ e.reg Reg.OUT_HTLOST_COUNT then inputTask e c
    else (inputTask e c).bump (Reg.EVT_CACT_COUNT c) :=
  if_neg (not_or.mpr ⟨hoff, hwake⟩)

theorem activate1_historyDown (hc : c = 258) (hd : inputDown e c = true) : activate1 e c = e.bump Reg.OUT_HTLOST_COUNT := by
  rw [activate1_heard hoff hwake, if_pos ⟨hc, hd⟩]

variable (hc : c ≠ 258)
include hc

theorem activate1_busy (h : inputDown e c = true ∨ inputBusy e c = true) : activate1 e c = busyInput e c := by
  rw [activate1_heard hoff hwake, if_neg (fun h => hc h.1), if_pos h]

theorem activate1_starts (hd : inputDown e c = false) (hb : inputBusy e c = false) :
    activate1 e c = (inputTask e c).bump (Reg.EVT_CACT_COUNT c) := by
  rw [activate1_heard hoff hwake, if_neg (fun h => hc h.1), if_neg (by simp [hd, hb]), if_neg (fun h => hc h.1)]

end

/-- Settles O44: a notification by `writeNote_served`; an edge by what the input takes, from changed gates (`takeOld_some`) and from its own
(`takeNow_unarmed`, `takeNow_armed`); the activation by `activate1_busy` and `activate1_starts`. -/
theorem eventConsumers : Obligations.EventConsumers := by
  unfold Obligations.EventConsumers
  refine ⟨fun src s n r hn hr hf ht hs => ⟨fun hspace => ?written, fun hspace => ?dropped⟩, fun c s hc hold => ?changedGates,
    fun c s hc hold => ⟨fun hn hk => ?noEvent, fun hn hk => ?ungated, fun hn hk => ?level, fun hk => ?armed⟩,
    fun c e => ⟨activate1_unheard, fun hoff hwake => ⟨activate1_historyDown hoff hwake, activate1_busy hoff hwake,
      fun hd hb hc => activate1_starts hoff hwake hc hd hb⟩⟩⟩
  case written =>
    refine (execNotificationWrite_waiting hn).trans ?_
    rw [writeNote_served hr hf ht hs, if_neg (Nat.ne_of_gt hspace)]
    rfl
  case dropped =>
    refine (execNotificationWrite_waiting hn).trans ?_
    rw [writeNote_served hr hf ht hs, if_pos hspace]
    rfl
  case changedGates =>
    have ht := takeInbox_eq s.eng c
    rw [takeOld_some (by rwa [takeNow_oldbox]), takeNow_oldbox] at ht
    exact execConsumerActivation_edge ht hc
  case noEvent =>
    have ht := (takeInbox_now hold).trans (takeNow_unarmed hk)
    exact execConsumerActivation_none ht hc (by rw [hn, passing_zero])
  case ungated =>
    have ht := (takeInbox_now hold).trans (takeNow_unarmed (by simp [hk]))
    rw [passing_ungated hk] at ht
    exact execConsumerActivation_some ht hc (Nat.ne_of_gt hn)
  case level =>
    have ht := (takeInbox_now hold).trans (takeNow_unarmed (by simp [hk]))
    dsimp only
    split
    case isTrue hl =>
      exact execConsumerActivation_some (ht.trans (congrArg _ ((passing_level hk _ _).trans (if_pos hl)))) hc (Nat.ne_of_gt hn)
    case isFalse hl => exact execConsumerActivation_none ht hc ((passing_level hk _ _).trans (if_neg hl))
  case armed =>
    have ht := (takeInbox_now hold).trans (takeNow_armed hk rfl)
    have hp := passing_arm (e := s.eng) (g := s.eng.gateOf c) hk (s.eng.evt.inbox.get c)
    dsimp only
    split
    case isTrue ho =>
      have hmin : min (s.eng.evt.inbox.get c) 1 = 1 := Nat.min_eq_right ho.2
      exact execConsumerActivation_some (ht.trans (congrArg _ ((hp _).trans ((if_pos ho.1).trans hmin)))) hc Nat.one_ne_zero
    case isFalse ho =>
      refine execConsumerActivation_none ht hc ((hp _).trans ?_)
      split
      case isTrue h1 =>
        rw [Nat.eq_zero_of_not_pos fun hpos => ho ⟨h1, hpos⟩]
        rfl
      case isFalse => rfl

end Sys2Proof.Machine
end

/-! ## Raising an event: counts, lines, channels and subscribers -/

section
namespace Sys2Proof.Machine

/-! ### EVENT_RAISE (R308, R314, R317) -/

theorem sourceListed_iff (src : Nat) : sourceListed src = true ↔ ∃ r ∈ sourceRuns, r.1 ≤ src ∧ src ≤ r.2 := by
  simp [sourceListed]

theorem sourceListed_lt {src : Nat} (h : sourceListed src = true) : src < 896 := by
  obtain ⟨r, hr, -, hle⟩ := (sourceListed_iff src).mp h
  have hmax : ∀ r ∈ sourceRuns, r.2 < 896 := by decide
  exact Nat.lt_of_le_of_lt hle (hmax r hr)

theorem sourceListed_nim {src : Nat} (h : 320 ≤ src ∧ src ≤ 335) : sourceListed src = true :=
  (sourceListed_iff src).mpr ⟨(320, 335), by decide, h⟩

theorem sourceListed_lantern {src : Nat} (h : 384 ≤ src ∧ src ≤ 447) : sourceListed src = true :=
  (sourceListed_iff src).mpr ⟨(384, 447), by decide, h⟩

theorem sourceLevel_eq_true {src : Nat} (h : 320 ≤ src ∧ src ≤ 335) : sourceLevel src = true := by
  simp [sourceLevel, h]

theorem sourceLevel_eq_false {src : Nat} (h : ¬(320 ≤ src ∧ src ≤ 335)) : sourceLevel src = false := by
  simpa [sourceLevel] using h

/-- A reserved source never fires. -/
theorem raise_unlisted {src : Nat} (h : sourceListed src = false) (e : Engine) (data : Nat) : e.raise src data = e :=
  if_neg (by simp [h])

section
variable {src data : Nat} {s : State}

theorem execEventRaise_plain (hn : ¬(320 ≤ src ∧ src ≤ 335)) (hl : ¬(384 ≤ src ∧ src ≤ 447)) :
    execEventRaise src data s = .next { s with eng := s.eng.raise src data } := by
  simp only [execEventRaise, sourceLevel_eq_false hn]
  rw [if_neg (fun h => hl ⟨h.1, h.2.1⟩), if_neg hl]
  rfl

theorem execEventRaise_nim (h : 320 ≤ src ∧ src ≤ 335) : execEventRaise src data s = .next { s with
    eng := { s.eng with evt := { s.eng.evt with nimNow := Nat.lor s.eng.evt.nimNow (2 ^ (src - 320)) } }.raise src (src - 320) } := by
  simp only [execEventRaise, sourceLevel_eq_true h]
  rw [if_neg (by omega)]
  rfl

/-- The loaded bitstream drives line `n` of the Lantern (R308). -/
def lineDriven (e : Engine) (n : Nat) : Prop :=
  e.reg Reg.ULA_STAT_LOADED ≠ 0 ∧ e.reg Reg.ULA_STAT_CONFIG ≠ 1 ∧ tbit (e.reg (Reg.ULA_EUSED_MASK (n / 32))) (n % 32) = true

variable (h : 384 ≤ src ∧ src ≤ 447)
include h

theorem execEventRaise_driven (hd : lineDriven s.eng (src - 384)) :
    execEventRaise src data s = .next { s with eng := s.eng.raise src (src - 384) } := by
  obtain ⟨hload, hconf, hled⟩ := hd
  simp only [execEventRaise, sourceLevel_eq_false (show ¬(320 ≤ src ∧ src ≤ 335) by omega)]
  rw [if_neg, if_pos h]
  · rfl
  · rintro ⟨-, -, h0 | h1 | h2⟩
    · exact hload h0
    · exact hconf h1
    · exact absurd (h2.symm.trans hled) (by decide)

theorem execEventRaise_undriven (hd : s.eng.reg Reg.ULA_STAT_LOADED = 0 ∨ s.eng.reg Reg.ULA_STAT_CONFIG = 1
    ∨ tbit (s.eng.reg (Reg.ULA_EUSED_MASK ((src - 384) / 32))) ((src - 384) % 32) = false) : execEventRaise src data s = .next s :=
  if_pos ⟨h.1, h.2, hd⟩

end

/-! ### A raise without joined inputs or notification (R316, R317, R327, R329) -/

/-- The engine when source `src` is counted and, where it is a pulse source, its line is high. -/
def lineRaised (src : Nat) (e : Engine) : Engine :=
  if sourceLevel src = true then e.bump (Reg.EVT_SCNT_COUNT src) else (e.bump (Reg.EVT_SCNT_COUNT src)).irqPulse src

/-- The engine when a request on channel `k` is counted. -/
def requested (k : Nat) (e : Engine) : Engine :=
  { e.bump (Reg.EVT_KREQ_COUNT k) with evt := { e.evt with window := e.evt.window.set k (e.evt.window.get k + 1) } }

/-- The engine when the guard has stopped channel `k`. -/
def guardTripped (k : Nat) (e : Engine) : Engine :=
  let off := e.setReg (Reg.EVT_KSTAT_STOP k) 1
  if off.reg Reg.EVT_LOOP_FLAG = 0 then (off.setReg Reg.EVT_LOOP_CH k).setReg Reg.EVT_LOOP_FLAG 1 else off

/-- What a request on channel `k` does, once it is counted (R318, R326). -/
def judged (fuel k n : Nat) (e : Engine) : Engine :=
  if e.reg (Reg.EVT_KSTAT_STOP k) = 1 then e
  else if e.reg Reg.EVT_GUARD_COUNT ≠ 0 ∧ e.reg Reg.EVT_GUARD_COUNT < n then
    Engine.raiseFuel fuel ((guardTripped k e).bump Reg.EVT_LOOPCNT_COUNT) Src.loop k
  else if e.evt.hold.get k = 0 then e.fire k
  else { e with evt := { e.evt with hold := e.evt.hold.set k 2 } }

/-- The engine when source `src` is counted and has reached its ward, its ring and its line. -/
def reached (src data : Nat) (e : Engine) : Engine :=
  let e1 := e.bump (Reg.EVT_SCNT_COUNT src)
  let e3 := ((e1.joined (src / 128) (src % 128)).foldl (fun a c => a.arrive c) e1).notifyHost src data
  if sourceLevel src then e3 else e3.irqPulse src

/-- What source `src` does on the channel that it publishes on. -/
def published (fuel src : Nat) (e : Engine) : Engine :=
  let k := e.reg (Reg.EVT_SPUB_CH src)
  if e.reg (Reg.EVT_SPUB_EN src) = 1 ∧ pubInsecure e src k = false then judged fuel k (e.evt.window.get k + 1) (requested k e) else e

theorem raiseFuel_succ (fuel : Nat) (e : Engine) (src data : Nat) :
    Engine.raiseFuel (fuel + 1) e src data = published fuel src (reached src data e) := rfl

section
variable {e : Engine}

theorem irqPulse_regs (e : Engine) (s : Nat) : (e.irqPulse s).regs = e.regs := by
  unfold Engine.irqPulse
  split
  · rfl
  · rfl

theorem irqPulse_window_hold (e : Engine) (s : Nat) :
    (e.irqPulse s).evt.window = e.evt.window ∧ (e.irqPulse s).evt.hold = e.evt.hold := by
  unfold Engine.irqPulse
  split
  · exact ⟨rfl, rfl⟩
  · exact ⟨rfl, rfl⟩

theorem lineRaised_regs (src : Nat) (e : Engine) : (lineRaised src e).regs = (e.bump (Reg.EVT_SCNT_COUNT src)).regs := by
  unfold lineRaised
  split
  · rfl
  · exact irqPulse_regs _ _

theorem lineRaised_window_hold (src : Nat) (e : Engine) :
    (lineRaised src e).evt.window = e.evt.window ∧ (lineRaised src e).evt.hold = e.evt.hold := by
  unfold lineRaised
  split
  · exact ⟨rfl, rfl⟩
  · exact irqPulse_window_hold _ _

theorem notifyHost_off {s : Nat} (h : e.reg (Reg.EVT_SNOTE_EN s) = 0) (data : Nat) : e.notifyHost s data = e := if_neg (by simp [h])

variable (hw : e.regs.wf = true)
include hw

theorem lineRaised_reg {src : Nat} {g : Fld} (hg : g.key ≠ (Reg.EVT_SCNT_COUNT src).key) : (lineRaised src e).reg g = e.reg g :=
  (congrArg (·.fld g) (lineRaised_regs src e)).trans (reg_setReg_ne hw hg _)

theorem lineRaised_wf (src : Nat) : (lineRaised src e).regs.wf = true := (lineRaised_regs src e) ▸ setReg_wf hw _ _

theorem requested_reg {k : Nat} {g : Fld} (hg : g.key ≠ (Reg.EVT_KREQ_COUNT k).key) : (requested k e).reg g = e.reg g :=
  reg_setReg_ne hw hg _

/-- The matrices stand in a table of their own, above the registers. -/
theorem joined_setReg {f : Fld} (hf : f.key < tabBase tMatrix) (v w p : Nat) : (e.setReg f v).joined w p = e.joined w p := by
  have hget : ∀ j, (e.setReg f v).regs.get (matrixFld w p j).key = e.regs.get (matrixFld w p j).key := fun j =>
    Tab.get_set_ne hw (Nat.ne_of_gt (Nat.lt_of_lt_of_le hf (Nat.le_add_right _ _))) _
  unfold Engine.joined
  simp only [hget]

variable {src k : Nat}

theorem reached_plain (hlt : src < 896) (hj : e.joined (src / 128) (src % 128) = []) (hn : e.reg (Reg.EVT_SNOTE_EN src) = 0) (data : Nat) :
    reached src data e = lineRaised src e := by
  have hj1 : (e.bump (Reg.EVT_SCNT_COUNT src)).joined (src / 128) (src % 128) = [] :=
    (joined_setReg hw (by change _ < 21 * 2 ^ 32; dsimp only; omega) _ _ _).trans hj
  have hn1 : (e.bump (Reg.EVT_SCNT_COUNT src)).notifyHost src data = e.bump (Reg.EVT_SCNT_COUNT src) :=
    notifyHost_off ((reg_setReg_ne hw (by dsimp only; omega) _).trans hn) _
  unfold reached
  dsimp only
  rw [hj1, List.foldl_nil, hn1]
  rfl

theorem published_lineRaised (hk : e.reg (Reg.EVT_SPUB_CH src) = k) (fuel : Nat) : published fuel src (lineRaised src e) =
    if e.reg (Reg.EVT_SPUB_EN src) = 1 ∧ (e.reg (Reg.EVT_KOWN_SEC k) = 1 → sourceSecure src = true) then
      judged fuel k (e.evt.window.get k + 1) (requested k (lineRaised src e))
    else lineRaised src e := by
  have hch : (lineRaised src e).reg (Reg.EVT_SPUB_CH src) = k := (lineRaised_reg hw (by dsimp only; omega)).trans hk
  have hen : (lineRaised src e).reg (Reg.EVT_SPUB_EN src) = e.reg (Reg.EVT_SPUB_EN src) := lineRaised_reg hw (by dsimp only; omega)
  have hsec : pubInsecure (lineRaised src e) src k = false ↔ (e.reg (Reg.EVT_KOWN_SEC k) = 1 → sourceSecure src = true) := by
    have hr : (lineRaised src e).reg (Reg.EVT_KOWN_SEC k) = e.reg (Reg.EVT_KOWN_SEC k) := lineRaised_reg hw (by dsimp only; omega)
    simp [pubInsecure, Engine.secureCh, hr]
  unfold published
  dsimp only
  rw [hch, hen, (lineRaised_window_hold src e).1]
  exact if_congr (and_congr_right' hsec) rfl rfl

/-- A listed source that its ward's matrix joins to no input, and that notifies no ring, publishes where it may (R321). -/
theorem raise_listed (hl : sourceListed src = true) (hj : e.joined (src / 128) (src % 128) = []) (hn : e.reg (Reg.EVT_SNOTE_EN src) = 0)
    (hk : e.reg (Reg.EVT_SPUB_CH src) = k) (data : Nat) : e.raise src data =
    if e.reg (Reg.EVT_SPUB_EN src) = 1 ∧ (e.reg (Reg.EVT_KOWN_SEC k) = 1 → sourceSecure src = true) then
      judged 1024 k (e.evt.window.get k + 1) (requested k (lineRaised src e))
    else lineRaised src e := by
  rw [Engine.raise, if_pos hl, raiseFuel_succ, reached_plain hw (sourceListed_lt hl) hj hn, published_lineRaised hw hk]

/-- What is counted, raised and requested leaves every other register as it is. -/
theorem requested_lineRaised_reg {g : Fld} (h1 : g.key ≠ (Reg.EVT_SCNT_COUNT src).key) (h2 : g.key ≠ (Reg.EVT_KREQ_COUNT k).key) :
    (requested k (lineRaised src e)).reg g = e.reg g :=
  (requested_reg (lineRaised_wf hw src) h2).trans (lineRaised_reg hw h1)

/-- The guard reports the channel that it stops, unless it has reported one already (R326). -/
theorem guardTripped_requested : guardTripped k (requested k (lineRaised src e)) =
    let off := (requested k (lineRaised src e)).setReg (Reg.EVT_KSTAT_STOP k) 1
    if e.reg Reg.EVT_LOOP_FLAG = 0 then (off.setReg Reg.EVT_LOOP_CH k).setReg Reg.EVT_LOOP_FLAG 1 else off := by
  have hflag : ((requested k (lineRaised src e)).setReg (Reg.EVT_KSTAT_STOP k) 1).reg Reg.EVT_LOOP_FLAG = e.reg Reg.EVT_LOOP_FLAG :=
    (reg_setReg_ne (setReg_wf (lineRaised_wf hw src) _ _) (by dsimp only; omega) _).trans
      (requested_lineRaised_reg hw (by dsimp only; omega) (by dsimp only; omega))
  exact if_congr (by rw [hflag]) rfl rfl

end

/-! ### What a request does (R318, R326) -/

section
variable {e : Engine} {fuel k n : Nat}

theorem judged_stopped (h : e.reg (Reg.EVT_KSTAT_STOP k) = 1) : judged fuel k n e = e := if_pos h

variable (hstop : e.reg (Reg.EVT_KSTAT_STOP k) = 0)
include hstop

theorem judged_allowed (h : e.reg Reg.EVT_GUARD_COUNT = 0 ∨ n ≤ e.reg Reg.EVT_GUARD_COUNT) : judged fuel k n e =
    if e.evt.hold.get k = 0 then e.fire k else { e with evt := { e.evt with hold := e.evt.hold.set k 2 } } := by
  unfold judged
  rw [if_neg (by omega), if_neg (by omega)]

theorem judged_trips (h0 : e.reg Reg.EVT_GUARD_COUNT ≠ 0) (hn : e.reg Reg.EVT_GUARD_COUNT < n) :
    judged fuel k n e = Engine.raiseFuel fuel ((guardTripped k e).bump Reg.EVT_LOOPCNT_COUNT) Src.loop k := by
  unfold judged
  rw [if_neg (by omega), if_pos ⟨h0, hn⟩]

end

/-! ### Firing (R317, R318) -/

section
variable {e : Engine}

theorem foldl_arrive_inbox (c : Nat) : ∀ (l : List Nat) {e : Engine}, e.evt.inbox.wf = true →
    (l.foldl Engine.arrive e).evt.inbox.get c = e.evt.inbox.get c + l.count c
  | [], _, _ => rfl
  | x :: l, e, hw => by
    rw [List.foldl_cons, foldl_arrive_inbox c l (Tab.wf_set hw _ _), List.count_cons]
    by_cases hx : x = c
    · subst hx
      have hget : (e.arrive x).evt.inbox.get x = e.evt.inbox.get x + 1 := Tab.get_set_same hw _ _
      rw [hget, beq_self_eq_true, if_pos rfl]
      omega
    · have hget : (e.arrive x).evt.inbox.get c = e.evt.inbox.get c := Tab.get_set_ne hw (Ne.symm hx) _
      rw [hget, if_neg (by simpa using hx), Nat.add_zero]

/-- Events that reach inputs leave registers and hold-offs alone. -/
theorem foldl_arrive_rest (l : List Nat) (e : Engine) :
    (l.foldl Engine.arrive e).regs = e.regs ∧ (l.foldl Engine.arrive e).evt.hold = e.evt.hold :=
  List.foldlRecOn (motive := fun a : Engine => a.regs = e.regs ∧ a.evt.hold = e.evt.hold) l _ ⟨rfl, rfl⟩ fun _ ha _ _ => ha

theorem foldl_arm_rest (l : List Nat) (e : Engine) :
    (l.foldl Engine.arm e).regs = e.regs ∧ (l.foldl Engine.arm e).evt.hold = e.evt.hold ∧ (l.foldl Engine.arm e).evt.inbox = e.evt.inbox :=
  List.foldlRecOn (motive := fun a : Engine => a.regs = e.regs ∧ a.evt.hold = e.evt.hold ∧ a.evt.inbox = e.evt.inbox) l _
    ⟨rfl, rfl, rfl⟩ fun _ ha _ _ => ha

theorem consumerInputs_nodup : consumerInputs.Nodup := by
  have hlt : consumerInputs.Pairwise (· < ·) := by
    simp only [consumerInputs, List.pairwise_append, List.pairwise_map]
    simp [List.pairwise_lt_range]
    omega
  exact hlt.imp Nat.ne_of_lt

theorem mem_consumerInputs {c : Nat} (h : consumerListed c = true) : c ∈ consumerInputs := by
  simp only [consumerListed, Bool.or_eq_true, Bool.and_eq_true, beq_iff_eq, decide_eq_true_eq] at h
  simp only [consumerInputs, List.mem_append, List.mem_cons, List.not_mem_nil, List.mem_map, List.mem_range]
  obtain (h | ⟨h1, h2⟩) | ⟨h1, h2⟩ := h
  · exact .inl (.inl (by omega))
  · exact .inl (.inr ⟨c - 512, by omega, by omega⟩)
  · exact .inr ⟨c - 640, by omega, by omega⟩

variable {k : Nat}

theorem fire_hold : (e.fire k).evt.hold.get k = 1 := by
  unfold Engine.fire
  rw [(foldl_arm_rest _ _).2.1, (foldl_arrive_rest _ _).2]
  exact Tab.get_set_nonzero (by decide) _

theorem fire_count (hw : e.regs.wf = true) :
    (e.fire k).reg (Reg.EVT_KFIRE_COUNT k) = min (e.reg (Reg.EVT_KFIRE_COUNT k) + 1) (2 ^ 32 - 1) := by
  unfold Engine.fire
  rw [Engine.reg, (foldl_arm_rest _ _).1, (foldl_arrive_rest _ _).1]
  exact reg_bump_same hw _

/-- A firing brings one event to each input that hears the channel. -/
theorem fire_inbox {c : Nat} (hc : consumerListed c = true) (hi : e.evt.inbox.wf = true) : (e.fire k).evt.inbox.get c =
    e.evt.inbox.get c + (if e.subscription c = some k ∧ subInsecure e c k = false then 1 else 0) := by
  have hmem : c ∈ e.listeners k ↔ e.subscription c = some k ∧ subInsecure e c k = false := by
    simp [Engine.listeners, mem_consumerInputs hc]
  unfold Engine.fire
  rw [(foldl_arm_rest _ _).2.2]
  refine (foldl_arrive_inbox c _ ?wf).trans ?sum
  case wf => exact hi
  case sum =>
    have hcount : (e.listeners k).count c = if e.subscription c = some k ∧ subInsecure e c k = false then 1 else 0 :=
      (consumerInputs_nodup.filter _).count.trans (if_congr hmem rfl rfl)
    exact congrArg _ hcount

end

/-! ### The end of a hold-off (R318, R325, R326) -/

section
variable {ch : Nat} {s : State}

theorem execHoldoffEnd_stopped (h : s.eng.reg (Reg.EVT_KSTAT_STOP ch) = 1) : execHoldoffEnd ch s = .next { s with eng := { s.eng with
    evt := { s.eng.evt with hold := s.eng.evt.hold.set ch 0, oldHold := s.eng.evt.oldHold.filter (fun x => x.ch != ch) } } } := if_pos h

variable (hstop : s.eng.reg (Reg.EVT_KSTAT_STOP ch) = 0)
include hstop

theorem execHoldoffEnd_old (h : ∃ x ∈ s.eng.evt.oldHold, x.ch = ch) : execHoldoffEnd ch s = .next { s with eng := fireOld s.eng ch } :=
  (if_neg (by omega)).trans (if_pos (by simpa using h))

theorem execHoldoffEnd_new (h : ∀ x ∈ s.eng.evt.oldHold, x.ch ≠ ch) : execHoldoffEnd ch s =
    if s.eng.evt.hold.get ch = 2 then .next { s with eng := s.eng.fire ch }
    else .next { s with eng := { s.eng with evt := { s.eng.evt with hold := s.eng.evt.hold.set ch 0 } } } :=
  (if_neg (by omega)).trans (if_neg (by simpa using h))

end

/-- Settles O43: a row raises by its kind of source; a raise that joins and notifies nobody is `raise_listed`, a request `judged`, a
firing `fire_inbox`; the end of a hold-off goes by what was absorbed. -/
theorem eventFabric : Obligations.EventFabric := by
  unfold Obligations.EventFabric
  refine ⟨fun src data s => ⟨fun hl => ?reserved, fun _ hr => ?plain, fun h1 h2 => execEventRaise_nim ⟨h1, h2⟩,
      fun h1 h2 hload hconf hled => execEventRaise_driven ⟨h1, h2⟩ ⟨hload, hconf, hled⟩,
      fun h1 h2 hd => execEventRaise_undriven ⟨h1, h2⟩ hd, fun hlt => ?swpub, raise_events _ _ _⟩,
    fun src data k e hl hw hk' hj hn hk => ?raise,
    fun k c e hk hc hw hi hh => ⟨fire_inbox hc hi, fire_hold, fire_count hw⟩,
    fun ch s => ⟨execHoldoffEnd_stopped, fun hs ho hh => ?absorbed, fun hs ho hh => ?idle, execHoldoffEnd_old, rfl, fun hch => ?resume⟩⟩
  case reserved =>
    have hn : ¬(320 ≤ src ∧ src ≤ 335) := fun h => by simp [sourceListed_nim h] at hl
    have hla : ¬(384 ≤ src ∧ src ≤ 447) := fun h => by simp [sourceListed_lantern h] at hl
    refine (execEventRaise_plain hn hla).trans ?_
    rw [raise_unlisted hl]
  case plain => exact execEventRaise_plain (by omega) (by omega)
  case swpub =>
    change execEvtSwpubWrite src s = _
    rw [execEvtSwpubWrite, Nat.mod_eq_of_lt hlt]
    rfl
  case raise =>
    intro e1 e2 counted n e3 late guard off flagged heard
    have hraise := raise_listed hw hl hj hn hk data
    have hreg := fun g h1 h2 => requested_lineRaised_reg (k := k) (src := src) hw (g := g) h1 h2
    have htrip := guardTripped_requested (k := k) (src := src) hw
    have hreq : requested k (lineRaised src e) = e3 := by
      unfold requested
      rw [(lineRaised_window_hold src e).1]
      rfl
    rw [hreq] at hraise htrip hreg
    have hlt := sourceListed_lt hl
    have hstop : e3.reg (Reg.EVT_KSTAT_STOP k) = e.reg (Reg.EVT_KSTAT_STOP k) := hreg _ (by dsimp only; omega) (by dsimp only; omega)
    have hguard : e3.reg Reg.EVT_GUARD_COUNT = guard := hreg _ (by dsimp only; omega) (by dsimp only; omega)
    have hhold : e3.evt.hold = e.evt.hold := (lineRaised_window_hold src e).2
    refine ⟨fun hh => hraise.trans (if_neg hh), fun hh h1 => (hraise.trans (if_pos hh)).trans (judged_stopped (hstop.trans h1)),
      fun hh h0 hg => (hraise.trans (if_pos hh)).trans ?allowed, fun hh h0 hg hn => ⟨1024, (hraise.trans (if_pos hh)).trans ?trips⟩⟩
    case allowed => exact (judged_allowed (hstop.trans h0) (by rwa [hguard])).trans (if_congr (by rw [hhold]) rfl rfl)
    case trips =>
      rw [judged_trips (hstop.trans h0) (by rwa [hguard]) (by rwa [hguard]), htrip]
  case absorbed => exact (execHoldoffEnd_new hs ho).trans (if_pos hh)
  case idle => exact (execHoldoffEnd_new hs ho).trans (if_neg hh)
  case resume => exact if_neg (Nat.not_le.mpr hch)

end Sys2Proof.Machine
end

/-! ## The interrupt controller: edges, messages and clearing -/

section
namespace Sys2Proof.Machine

/-! ### Pending sources (R329, R334) -/

/-- What a canonical table lists for a key is what it reads. -/
theorem Tab.get_of_mem {k v : Nat} : ∀ {b : Nat} {t : Tab}, Tab.wfFrom b t = true → (k, v) ∈ t → Tab.get t k = v ∧ v ≠ 0 ∧ b ≤ k
  | b, (l, w) :: t, h, hm => by
    simp only [Tab.wfFrom, Bool.and_eq_true, decide_eq_true_eq] at h
    obtain ⟨⟨hb, hw⟩, ht⟩ := h
    obtain heq | hm := List.mem_cons.mp hm
    · cases heq
      exact ⟨if_pos rfl, hw, hb⟩
    · obtain ⟨hget, hv, hlt⟩ := get_of_mem ht hm
      refine ⟨?_, hv, by omega⟩
      rw [Tab.get, if_neg (by omega), if_neg (by omega), hget]

theorem mem_pendSources {e : Engine} {s : Nat} (h : s ∈ e.pendSources) :
    s < 4096 ∧ ∃ v, ((Reg.IRQ_SSTAT_PEND s).key, v) ∈ e.regs := by
  simp only [Engine.pendSources, Tab.range, List.mem_map, List.mem_filter, beq_iff_eq, decide_eq_true_eq] at h
  obtain ⟨⟨k, v⟩, ⟨⟨hm, hlo, hhi⟩, hmod⟩, rfl⟩ := h
  dsimp only at hlo hhi hmod ⊢
  have hk : 32 * (0x0E90008 + 0x10 * ((k - 32 * (0x0E90008 + 0x10 * 0)) / 512)) + 0 = k := by omega
  exact ⟨by omega, v, by rwa [hk]⟩

/-- A source whose PEND reads 0 is not among the pending ones. -/
theorem not_mem_pendSources {e : Engine} {s : Nat} (hw : e.regs.wf = true) (h : e.reg (Reg.IRQ_SSTAT_PEND s) = 0) : s ∉ e.pendSources := by
  intro hs
  obtain ⟨-, v, hm⟩ := mem_pendSources hs
  obtain ⟨hget, hv, -⟩ := Tab.get_of_mem hw hm
  have h0 : e.regs.get (Reg.IRQ_SSTAT_PEND s).key = 0 := (Nat.xor_zero _).symm.trans h
  exact hv (hget.symm.trans h0)

/-! ### What presentations change (R330 to R337) -/

/-- From `e` to `f` presentations have changed: not the lines, nor the host's side but for the pending bits, nor a register whose key is not
one of `q`. -/
structure Presents (q : Nat → Prop) (e f : Engine) : Prop where
  lines : f.evt.lines = e.evt.lines
  host : f.host = { e.host with pba := f.host.pba }
  wf : e.regs.wf = true → f.regs.wf = true
  reg : e.regs.wf = true → ∀ g : Fld, ¬q g.key → f.reg g = e.reg g

namespace Presents

variable {q : Nat → Prop} {e f t : Engine}

theorem refl (q : Nat → Prop) (e : Engine) : Presents q e e := ⟨rfl, rfl, id, fun _ _ _ => rfl⟩

theorem trans (a : Presents q e f) (b : Presents q f t) : Presents q e t where
  lines := b.lines.trans a.lines
  host := by rw [b.host, a.host]
  wf := b.wf ∘ a.wf
  reg hw g hg := (b.reg (a.wf hw) g hg).trans (a.reg hw g hg)

theorem mono {p : Nat → Prop} (h : Presents p e f) (hq : ∀ x, p x → q x) : Presents q e f :=
  ⟨h.lines, h.host, h.wf, fun hw g hg => h.reg hw g fun hp => hg (hq _ hp)⟩

theorem setReg (e : Engine) {x : Fld} (hx : q x.key) (v : Nat) : Presents q e (e.setReg x v) :=
  ⟨rfl, rfl, fun hw => setReg_wf hw x v, fun hw g hg => reg_setReg_ne hw (fun h : g.key = x.key => hg (h ▸ hx)) v⟩

theorem putRegs (e : Engine) {fs : List (Fld × Nat)} (hfs : ∀ x ∈ fs, q x.1.key) : Presents q e { e with regs := e.regs.puts fs } :=
  ⟨rfl, rfl, Tab.wf_puts fs, fun hw g hg => Tab.fld_puts_ne fs hw fun x hx (hk : g.key = x.1.key) => hg (hk ▸ hfs x hx)⟩

theorem ite {c : Prop} [Decidable c] {a b : Engine} (ha : Presents q e a) (hb : Presents q e b) : Presents q e (if c then a else b) := by
  split
  · exact ha
  · exact hb

theorem foldl {α : Type} {f : Engine → α → Engine} {l : List α} (h : ∀ e, ∀ a ∈ l, Presents q e (f e a)) (e : Engine) :
    Presents q e (l.foldl f e) :=
  List.foldlRecOn l f (refl q e) fun r hr a ha => hr.trans (h r a ha)

theorem putCore {k : Nat} (c : SpireCore) (hc : q (Reg.SPR_CSTAT_STATE k).key) (hr : q Reg.SPR_RUN_MASK.key) (hh : q Reg.SPR_HALT_MASK.key) :
    Presents q e (e.putCore k c) := by
  unfold Engine.putCore
  extract_lets _ e1 e2
  have h1 : Presents q e e1 := ⟨rfl, rfl, id, fun _ _ _ => rfl⟩
  have h2 : Presents q e e2 := h1.trans (.setReg _ hc _)
  exact .ite h2 ((h2.trans (.setReg _ hr _)).trans (.setReg _ hh _))

end Presents

/-- The keys of the registers that a presentation to core `k` in class `cls` may write. -/
def presentKeys (k cls : Nat) : List Nat :=
  [(presValid k cls).key, (presSrc k cls).key, Reg.IRQ_WITHDRAW_COUNT.key, (Reg.SPR_CSTAT_STATE k).key, Reg.SPR_RUN_MASK.key,
    Reg.SPR_HALT_MASK.key]

/-- The keys of the registers of what is presented: all below the sources' own, but for the count of merged edges. -/
def shownKey (x : Nat) : Prop := x < 32 * 0xE90000 ∧ x ≠ Reg.IRQ_MERGE_COUNT.key

theorem shownKey_of_presentKeys {k cls : Nat} (hk : k < 34) : ∀ x ∈ presentKeys k cls, shownKey x := by
  simp only [presentKeys, List.forall_mem_cons, List.not_mem_nil, false_imp_iff, implies_true, and_true, presValid, presSrc, shownKey]
  split <;> (dsimp only; omega)

/-- The source that core `k` is to be shown in class `cls`. -/
def shownNext (boundary : Bool) (pend : List Nat) (e : Engine) (k cls : Nat) : Option Nat :=
  if boundary || decide (32 ≤ k) then e.bestOf (pend.filter (e.candidate k cls))
  else (e.presented k cls).filter (fun s => pend.contains s && e.candidate k cls s)

/-- The engine when what core `k` was shown in class `cls` is withdrawn. -/
def withdrawn (k cls : Nat) (e : Engine) : Engine := match e.presented k cls with
  | some s => if e.maskedAway k cls s then e.bump Reg.IRQ_WITHDRAW_COUNT else e
  | none => e

/-- The engine when core `k` is shown `best` in class `cls`. -/
def showAt (k cls : Nat) (best : Option Nat) (e : Engine) : Engine := match best with
  | none => (e.setReg (presValid k cls) 0).setReg (presSrc k cls) 0
  | some s =>
    let e2 := (e.setReg (presValid k cls) 1).setReg (presSrc k cls) s
    let c := e2.core k
    let at_cyc := max e2.spr.base c.cyc
    e2.putCore k (if cls = 1 then { c with presF := at_cyc } else { c with presN := at_cyc })

theorem present_eq (boundary : Bool) (pend : List Nat) (e : Engine) (k cls : Nat) : present boundary pend e (k, cls) =
    if shownNext boundary pend e k cls = e.presented k cls then e
    else showAt k cls (shownNext boundary pend e k cls) (withdrawn k cls e) := rfl

theorem withdrawn_presents (k cls : Nat) (e : Engine) : Presents (· ∈ presentKeys k cls) e (withdrawn k cls e) := by
  unfold withdrawn
  split
  · exact .ite (.setReg _ (by simp [presentKeys]) _) (.refl _ _)
  · exact .refl _ _

theorem showAt_presents (k cls : Nat) (best : Option Nat) (e : Engine) : Presents (· ∈ presentKeys k cls) e (showAt k cls best e) := by
  have hset : ∀ v s, Presents (· ∈ presentKeys k cls) e ((e.setReg (presValid k cls) v).setReg (presSrc k cls) s) := fun v s =>
    (Presents.setReg e (by simp [presentKeys]) v).trans (.setReg _ (by simp [presentKeys]) s)
  cases best with
  | none => exact hset 0 0
  | some s => exact (hset 1 s).trans (.putCore _ (by simp [presentKeys]) (by simp [presentKeys]) (by simp [presentKeys]))

theorem present_presents (boundary : Bool) (pend : List Nat) (e : Engine) (k cls : Nat) :
    Presents (· ∈ presentKeys k cls) e (present boundary pend e (k, cls)) := by
  rw [present_eq]
  exact .ite (.refl _ _) ((withdrawn_presents k cls e).trans (showAt_presents k cls _ _))

theorem mem_coreSlots {kc : Nat × Nat} (h : kc ∈ coreSlots) : kc.1 < 34 ∧ kc.2 < 2 := by
  obtain ⟨k, hk, hkc⟩ := List.mem_flatMap.mp h
  have hk34 := List.mem_range.mp hk
  simp only [List.mem_cons, List.not_mem_nil, or_false] at hkc
  obtain rfl | rfl := hkc
  · exact ⟨hk34, Nat.zero_lt_two⟩
  · exact ⟨hk34, Nat.one_lt_two⟩

theorem keepMsgs_presents (pend : List Nat) (e : Engine) : Presents (· = Reg.IRQ_WITHDRAW_COUNT.key) e (keepMsgs pend e) := by
  unfold keepMsgs
  extract_lets _ _ _ _ _ _ e1
  have h1 : Presents (· = Reg.IRQ_WITHDRAW_COUNT.key) e e1 := ⟨rfl, rfl, id, fun _ _ _ => rfl⟩
  exact .ite h1 (h1.trans (Presents.setReg (q := (· = Reg.IRQ_WITHDRAW_COUNT.key)) _ rfl _))

theorem keepRedirs_presents (q : Nat → Prop) (pend : List Nat) (e : Engine) : Presents q e (keepRedirs pend e) :=
  ⟨rfl, rfl, id, fun _ _ _ => rfl⟩

theorem showPba_presents (q : Nat → Prop) (old : List HostIrq) (e : Engine) : Presents q e (showPba old e) := ⟨rfl, rfl, id, fun _ _ _ => rfl⟩

theorem showPba_evt (old : List HostIrq) (e : Engine) : (showPba old e).evt = e.evt := rfl

/-- The engine when presentations are renewed, before IRQ_SSTAT.PRES shows them. -/
def presentedAnew (boundary : Bool) (e : Engine) : Engine :=
  showPba e.evt.msgs (keepMsgs e.pendSources (keepRedirs e.pendSources (coreSlots.foldl (present boundary e.pendSources) e)))

theorem presentedAnew_presents (boundary : Bool) (e : Engine) : Presents shownKey e (presentedAnew boundary e) := by
  have h1 : Presents shownKey e (coreSlots.foldl (present boundary e.pendSources) e) :=
    .foldl (fun a kc hkc => (present_presents boundary _ a kc.1 kc.2).mono (shownKey_of_presentKeys (mem_coreSlots hkc).1)) e
  have h2 := fun a => (keepMsgs_presents e.pendSources a).mono (q := shownKey) fun x hx => hx ▸ ⟨by decide, by decide⟩
  exact ((h1.trans (keepRedirs_presents _ _ _)).trans (h2 _)).trans (showPba_presents _ _ _)

/-! ### What is presented pends (R330, R337) -/

theorem bestOf_mem {e : Engine} {ss : List Nat} {s : Nat} (h : e.bestOf ss = some s) : s ∈ ss := by
  refine List.foldlRecOn (motive := fun a : Option Nat => ∀ s, a = some s → s ∈ ss) ss _ (fun _ h => by cases h) (fun a ha x hx s hs => ?_) s h
  cases a with
  | none => exact Option.some.inj hs ▸ hx
  | some t =>
    dsimp only at hs
    split at hs
    · exact Option.some.inj hs ▸ hx
    · exact ha s hs

theorem shownNext_mem {boundary : Bool} {pend : List Nat} {e : Engine} {k cls s : Nat}
    (h : shownNext boundary pend e k cls = some s) : s ∈ pend := by
  unfold shownNext at h
  split at h
  · exact (List.mem_filter.mp (bestOf_mem h)).1
  · have hkept := (Option.filter_eq_some_iff.mp h).2
    simp only [Bool.and_eq_true, List.contains_iff_mem] at hkept
    exact hkept.1

theorem presented_eq_some {e : Engine} {k cls s : Nat} :
    e.presented k cls = some s ↔ e.reg (presValid k cls) = 1 ∧ e.reg (presSrc k cls) = s := by
  unfold Engine.presented
  split <;> simp_all

/-- What a core is shown in one class is apart from what it is shown in the other, and from what other cores are shown. -/
theorem presKeys_ne {j c k cls : Nat} (hj : j < 34) (hk : k < 34) (hc : c < 2) (hcls : cls < 2) (hne : (j, c) ≠ (k, cls)) :
    (presValid j c).key ∉ presentKeys k cls ∧ (presSrc j c).key ∉ presentKeys k cls := by
  have hne' : j ≠ k ∨ c ≠ cls := by
    by_contra hcon
    exact hne (by rw [not_or, not_not, not_not] at hcon; rw [hcon.1, hcon.2])
  simp only [presentKeys, List.mem_cons, List.not_mem_nil, or_false, presValid, presSrc]
  split <;> split <;> (dsimp only; omega)

theorem presKeys_ne_withdraw (k cls : Nat) :
    (presValid k cls).key ≠ Reg.IRQ_WITHDRAW_COUNT.key ∧ (presSrc k cls).key ≠ Reg.IRQ_WITHDRAW_COUNT.key := by
  unfold presValid presSrc
  split <;> (dsimp only; omega)

theorem presValid_ne_presSrc (k cls : Nat) : (presValid k cls).key ≠ (presSrc k cls).key := by
  unfold presValid presSrc
  split <;> (dsimp only; omega)

section
variable {e : Engine} {k cls : Nat} (hw : e.regs.wf = true)
include hw

/-- What a core is shown, once its registers are written. -/
theorem presented_written (v s : Nat) : ((e.setReg (presValid k cls) v).setReg (presSrc k cls) s).reg (presValid k cls) = v % 2 ^ 1
    ∧ ((e.setReg (presValid k cls) v).setReg (presSrc k cls) s).reg (presSrc k cls) = s % 2 ^ 12 := by
  have hv : (presValid k cls).width = 1 := by unfold presValid; split <;> rfl
  have hs : (presSrc k cls).width = 12 := by unfold presSrc; split <;> rfl
  have hw1 := setReg_wf hw (presValid k cls) v
  constructor
  · rw [reg_setReg_ne hw1 (presValid_ne_presSrc k cls), reg_setReg_same hw, hv]
  · rw [reg_setReg_same hw1, hs]

theorem reg_putCore {g : Fld} (hk : k < 34) (hg : 32 * 0xE00000 ≤ g.key) (c : SpireCore) : (e.putCore k c).reg g = e.reg g := by
  refine (Presents.putCore (q := (· < 32 * 0xE00000)) c ?_ (by decide) (by decide)).reg hw g (Nat.not_lt.mpr hg)
  dsimp only
  omega

theorem Presents.presented {q : Nat → Prop} {f : Engine} (h : Presents q e f) (hv : ¬q (presValid k cls).key) (hs : ¬q (presSrc k cls).key) :
    f.presented k cls = e.presented k cls := by
  unfold Engine.presented
  rw [h.reg hw _ hv, h.reg hw _ hs]

variable {boundary : Bool} {pend : List Nat}

theorem foldl_present_wf (l : List (Nat × Nat)) : (l.foldl (present boundary pend) e).regs.wf = true :=
  (Presents.foldl (q := fun _ => True) (fun a y _ => (present_presents boundary pend a y.1 y.2).mono fun _ _ => trivial) e).wf hw

theorem present_presented_ne {j c : Nat} (hj : j < 34) (hk : k < 34) (hc : c < 2) (hcls : cls < 2) (hne : (j, c) ≠ (k, cls)) :
    (present boundary pend e (k, cls)).presented j c = e.presented j c := by
  obtain ⟨hv, hs⟩ := presKeys_ne hj hk hc hcls hne
  exact (present_presents boundary pend e k cls).presented hw hv hs

theorem showAt_presented (hk : k < 34) {best : Option Nat} (hb : ∀ s, best = some s → s < 4096) :
    (showAt k cls best e).presented k cls = best := by
  cases best with
  | none => exact if_neg fun h => absurd ((presented_written hw 0 0).1.symm.trans h) (by decide)
  | some s =>
    have hge : 32 * 0xE00000 ≤ (presValid k cls).key ∧ 32 * 0xE00000 ≤ (presSrc k cls).key := by
      unfold presValid presSrc
      split <;> (dsimp only; omega)
    obtain ⟨hvalid, hsrc⟩ := presented_written (k := k) (cls := cls) hw 1 s
    have hput := fun g hg => reg_putCore (g := g) (setReg_wf (setReg_wf hw (presValid k cls) 1) (presSrc k cls) s) hk hg
    exact presented_eq_some.mpr ⟨(hput _ hge.1 _).trans hvalid, (hput _ hge.2 _).trans (hsrc.trans (Nat.mod_eq_of_lt (hb s rfl)))⟩

/-- A core is shown a source that pends, or none. -/
theorem present_pending (hpend : ∀ s ∈ pend, s < 4096) (hk : k < 34) :
    ∀ s, (present boundary pend e (k, cls)).presented k cls = some s → s ∈ pend := by
  intro s hs
  rw [present_eq] at hs
  split at hs
  case isTrue heq => exact shownNext_mem (heq.trans hs)
  case isFalse =>
    rw [showAt_presented ((withdrawn_presents k cls e).wf hw) hk fun t ht => hpend t (shownNext_mem ht)] at hs
    exact shownNext_mem hs

theorem foldl_present_pending (hpend : ∀ s ∈ pend, s < 4096) (l : List (Nat × Nat)) (hl : ∀ kc ∈ l, kc.1 < 34 ∧ kc.2 < 2) :
    ∀ kc ∈ l, ∀ s, (l.foldl (present boundary pend) e).presented kc.1 kc.2 = some s → s ∈ pend := by
  induction l using List.reverseRecOn with
  | nil => exact fun _ h => nomatch h
  | append_singleton l x ih =>
    intro kc hkc s hs
    have hwl : (l.foldl (present boundary pend) e).regs.wf = true := foldl_present_wf hw l
    rw [List.foldl_append, List.foldl_cons, List.foldl_nil] at hs
    have hx := hl x (by simp)
    by_cases heq : kc = x
    · exact present_pending hwl hpend hx.1 s (heq ▸ hs)
    · have hkc' := hl kc hkc
      rw [show x = (x.1, x.2) from rfl, present_presented_ne hwl hkc'.1 hx.1 hkc'.2 hx.2 heq] at hs
      exact ih (fun y hy => hl y (List.mem_append_left _ hy)) kc ((List.mem_append.mp hkc).resolve_right (by simpa using heq)) s hs

end

/-- Every message held for the host is of a source that pends (R333). -/
theorem keepMsgs_pending {pend : List Nat} {e : Engine} : ∀ m ∈ (keepMsgs pend e).evt.msgs, m.src ∈ pend := by
  unfold keepMsgs
  extract_lets routed on off kept fresh _ e1
  have h1 : ∀ m ∈ e1.evt.msgs, m.src ∈ pend := by
    intro m hm
    obtain hm | hm := List.mem_append.mp hm
    · obtain ⟨x, hx, rfl⟩ := List.mem_map.mp hm
      have hr := (List.mem_filter.mp hx).2
      simp only [routed, Bool.and_eq_true, List.contains_iff_mem] at hr
      exact hr.1.1.1
    · obtain ⟨x, hx, rfl⟩ := List.mem_map.mp hm
      exact (List.mem_filter.mp hx).1
  split
  · exact h1
  · exact h1

/-- Whatever the cores are shown, and whatever message is held, pends. -/
theorem presentedAnew_pending {e : Engine} (hw : e.regs.wf = true) (boundary : Bool) :
    (∀ s ∈ (presentedAnew boundary e).shownAtCores, s ∈ e.pendSources)
      ∧ ∀ m ∈ (presentedAnew boundary e).evt.msgs, m.src ∈ e.pendSources := by
  refine ⟨fun s hs => ?cores, ?msgs⟩
  case cores =>
    obtain ⟨⟨k, cls⟩, hkc, hs⟩ := List.mem_filterMap.mp hs
    have hrest := fun a => ((keepRedirs_presents (· = Reg.IRQ_WITHDRAW_COUNT.key) e.pendSources a).trans (keepMsgs_presents e.pendSources _)).trans
      (showPba_presents _ e.evt.msgs _)
    obtain ⟨hv, hsrc⟩ := presKeys_ne_withdraw k cls
    refine foldl_present_pending (boundary := boundary) hw (fun s hs => (mem_pendSources hs).1) coreSlots (fun _ => mem_coreSlots) _ hkc s ?_
    exact ((hrest _).presented (foldl_present_wf hw coreSlots) hv hsrc).symm.trans hs
  case msgs =>
    rw [presentedAnew, showPba_evt]
    exact keepMsgs_pending

/-! ### What IRQ_SSTAT.PRES shows -/

theorem fld_puts_const {f : Fld} {v : Nat} (hv : v < 2 ^ f.width) : ∀ (fs : List (Fld × Nat)) {t : Tab}, t.wf = true → t.fld f = v →
    (∀ x ∈ fs, x.1.key = f.key → x = (f, v)) → (t.puts fs).fld f = v
  | [], _, _, ht, _ => ht
  | x :: fs, t, hw, ht, hfs => by
    refine fld_puts_const hv fs (Tab.wf_put hw _ _) ?_ fun y hy => hfs y (List.mem_cons_of_mem _ hy)
    by_cases hk : x.1.key = f.key
    · rw [hfs x (List.mem_cons_self ..) hk]
      exact (Tab.fld_put_same hw f v).trans (Nat.mod_eq_of_lt hv)
    · exact (Tab.fld_put_ne hw (Ne.symm hk) _).trans ht

/-- The writes to IRQ_SSTAT.PRES of the sources `seen`, of which those of `now` are presented. -/
def presWrites (seen now : List Nat) : List (Fld × Nat) := seen.map (fun s => (Reg.IRQ_SSTAT_PRES s, b2n (now.contains s)))

/-- Presentations are as they were, or renewed; then PRES of every source seen shows whether it is presented, and it pends if so. -/
theorem irqUpdate_cases {e : Engine} (hw : e.regs.wf = true) (boundary : Bool) : irqUpdate boundary e = e ∨
    ∃ seen now, (∀ s ∈ now, s ∈ e.pendSources)
      ∧ irqUpdate boundary e = { presentedAnew boundary e with regs := (presentedAnew boundary e).regs.puts (presWrites seen now) } := by
  obtain ⟨hcores, hmsgs⟩ := presentedAnew_pending hw boundary
  unfold irqUpdate
  extract_lets pend before e1 e2 now seen
  split
  · exact .inl rfl
  · refine .inr ⟨seen, now, fun s hs => ?_, rfl⟩
    obtain hs | hs := List.mem_append.mp hs
    · exact hcores s hs
    · obtain ⟨m, hm, rfl⟩ := List.mem_map.mp hs
      exact hmsgs m (List.mem_filter.mp hm).1

/-- The keys of the registers that presentations change: those of `shownKey`, and PRES of every source. -/
def updateKey (x : Nat) : Prop := shownKey x ∨ x % 512 = 257

section
variable {e : Engine} (hw : e.regs.wf = true) (boundary : Bool)
include hw

theorem irqUpdate_presents : Presents updateKey e (irqUpdate boundary e) := by
  obtain h | ⟨seen, now, -, h⟩ := irqUpdate_cases hw boundary
  · rw [h]
    exact .refl _ e
  · have hp := (presentedAnew_presents boundary e).mono (q := updateKey) fun _ => .inl
    rw [h]
    refine hp.trans (.putRegs _ fun x hx => .inr ?_)
    obtain ⟨s, -, rfl⟩ := List.mem_map.mp hx
    dsimp only
    omega

/-- A source that neither pends nor is presented is not presented anew. -/
theorem irqUpdate_notPresented {src : Nat} (hpend : e.reg (Reg.IRQ_SSTAT_PEND src) = 0) (hpres : e.reg (Reg.IRQ_SSTAT_PRES src) = 0) :
    (irqUpdate boundary e).reg (Reg.IRQ_SSTAT_PRES src) = 0 := by
  obtain h | ⟨seen, now, hnow, h⟩ := irqUpdate_cases hw boundary
  · rw [h]
    exact hpres
  · rw [h]
    have hp := presentedAnew_presents boundary e
    refine fld_puts_const (Nat.two_pow_pos _) _ (hp.wf hw) ((hp.reg hw _ (by unfold shownKey; dsimp only; omega)).trans hpres) fun x hx hk => ?_
    obtain ⟨s, -, rfl⟩ := List.mem_map.mp hx
    have hs : s = src := by
      dsimp only at hk
      omega
    have hnot : now.contains src = false := by
      simpa using fun hm => not_mem_pendSources hw hpend (hnow src hm)
    rw [hs, hnot]
    rfl

end

/-! ### Edges (R329) -/

theorem msg_keys (src : Nat) : ¬updateKey (Reg.IRQ_SSTAT_PEND src).key ∧ ¬updateKey (Reg.IRQ_SCNT_COUNT src).key
    ∧ ¬updateKey Reg.IRQ_MERGE_COUNT.key := by
  unfold updateKey shownKey
  dsimp only
  omega

/-- The engine when the high line of source `src` has been taken. -/
def lineTaken (src : Nat) (e : Engine) : Engine :=
  { e with evt := { e.evt with lines := e.evt.lines.set src 0, lineN := e.evt.lineN.set src 0 } }

section
variable {src : Nat} {s : State}

theorem execIrqFilterPass_high (hl : sourceListed src = true) (hlev : sourceLevel src = false) (hline : s.eng.evt.lines.get src ≠ 0) :
    execIrqFilterPass src true s = .next { s with
      eng := takeEdge src (s.eng.evt.lines.get src - 1) (s.eng.evt.lineN.get src) (lineTaken src s.eng) } := by
  unfold execIrqFilterPass
  dsimp only
  rw [hl, hlev]
  exact (if_neg (by decide)).trans ((if_neg (by decide)).trans (if_neg (by simp [hline])))

theorem execIrqFilterPass_low (hlev : sourceLevel src = false) (hline : s.eng.evt.lines.get src = 0) :
    execIrqFilterPass src true s = .next s := by
  unfold execIrqFilterPass
  dsimp only
  split
  · rfl
  · rw [hlev]
    exact (if_neg (by decide)).trans (if_pos (.inl hline))

end

/-- The engine when source `src` is due from BC `d` on. -/
def withDue (src d : Nat) (e : Engine) : Engine := { e with evt := { e.evt with due := e.evt.due.set src d } }

section
variable {e : Engine} {src : Nat} (b n : Nat)

theorem takeEdge_merged (h : e.reg (Reg.IRQ_SSTAT_PEND src) = 1) : takeEdge src b n e = e.bump Reg.IRQ_MERGE_COUNT := if_pos h

/-- An edge of a source that does not pend makes it pend, and presentations are renewed. -/
theorem takeEdge_fresh (h : e.reg (Reg.IRQ_SSTAT_PEND src) = 0) : takeEdge src b n e =
    irqUpdate false (withDue src (if sourceFixed src then b + 2 + ceilDiv (Config.raiseCycle src % 8 + n) 8 else 0)
      (e.raiseBit (Reg.IRQ_SSTAT_PEND src))) :=
  if_neg (by omega)

theorem takeEdge_pends (hw : e.regs.wf = true) (h : e.reg (Reg.IRQ_SSTAT_PEND src) = 0) :
    (takeEdge src b n e).reg (Reg.IRQ_SSTAT_PEND src) = 1 ∧ (takeEdge src b n e).evt.lines = e.evt.lines
      ∧ (takeEdge src b n e).reg Reg.IRQ_MERGE_COUNT = e.reg Reg.IRQ_MERGE_COUNT := by
  obtain ⟨hpend, -, hmerge⟩ := msg_keys src
  rw [takeEdge_fresh b n h]
  generalize (if sourceFixed src then b + 2 + ceilDiv (Config.raiseCycle src % 8 + n) 8 else 0) = d
  have hw1 : (withDue src d (e.raiseBit (Reg.IRQ_SSTAT_PEND src))).regs.wf = true := setReg_wf hw _ _
  have hp := irqUpdate_presents hw1 false
  exact ⟨(hp.reg hw1 _ hpend).trans (reg_setReg_same hw _ _), hp.lines,
    (hp.reg hw1 _ hmerge).trans (reg_setReg_ne hw (by dsimp only; omega) _)⟩

end

/-! ### Messages to the host (R334, R337) -/

/-- The source asks for a message to the host. -/
def wantsMsix (e : Engine) (src : Nat) : Prop :=
  e.reg (Reg.IRQ_SSTAT_PEND src) = 1 ∧ e.reg (Reg.IRQ_SCFG_EN src) = 1 ∧ e.reg (Reg.IRQ_SCFG_HOST src) = 1
    ∧ e.serving = true ∧ e.reg Reg.HST_STATUS_LINKUP ≠ 0

/-- The engine when the message of `src` for vector `v` is masked: it counts as masked before acceptance and is held. -/
def msixMasked (src v : Nat) (e : Engine) : Engine :=
  let held : Engine := { e with evt := { e.evt with msgs := e.evt.msgs.filter (fun x => x.src != src) ++ [⟨src, v, true⟩] } }
  (showPba [] (held.bump Reg.IRQ_WITHDRAW_COUNT)).setReg (Reg.IRQ_SSTAT_PRES src) 0

/-- The engine when the message of `src` has left as that of vector `v`, before presentations are renewed. -/
def msixLeft (src v : Nat) (e : Engine) : Engine :=
  (((e.sendMsix v).setReg (Reg.IRQ_SSTAT_PEND src) 0).setReg (Reg.IRQ_SSTAT_PRES src) 0).bump (Reg.IRQ_SCNT_COUNT src)

section
variable {src : Nat} {s : State}

theorem execMsixSend_idle (h : ¬wantsMsix s.eng src) : execMsixSend src s = .next s := by
  unfold execMsixSend
  dsimp only
  refine if_pos ?_
  simp only [wantsMsix] at h
  simp only [Bool.or_eq_true, Bool.not_eq_true', Bool.and_eq_false_iff, beq_eq_false_iff_ne, beq_iff_eq]
  grind

theorem execMsixSend_wants (h : wantsMsix s.eng src) : execMsixSend src s =
    if s.eng.vecMasked (s.eng.reg (Reg.IRQ_SCFG_TGT src)) then
      if s.eng.evt.msgs.any (fun m => m.src == src && m.masked) then .next s
      else .next { s with eng := msixMasked src (s.eng.reg (Reg.IRQ_SCFG_TGT src)) s.eng }
    else .next { s with eng := irqUpdate false (msixLeft src (s.eng.reg (Reg.IRQ_SCFG_TGT src)) s.eng) } := by
  obtain ⟨hpend, hen, hhost, hserve, hlink⟩ := h
  unfold execMsixSend
  dsimp only
  exact if_neg (by simp [hpend, hen, hhost, hserve, hlink])

end

/-- The message of a vector that is not masked is queued with the vector's address and data. -/
theorem sendMsix_unmasked {e : Engine} {v : Nat} (h : e.vecMasked v = false) : e.sendMsix v =
    e.post (e.host.msix.fld (msixFld v 0) + 2 ^ 32 * e.host.msix.fld (msixFld v 1)) (leBytes 4 (e.host.msix.fld (msixFld v 2))) :=
  if_neg (ne_true_of_eq_false h)

/-- Tables set at the keys of a list without repetition, each value from the table's own, read so at each key. -/
theorem get_foldl_set {g : Nat → Nat → Nat} {v : Nat} : ∀ (l : List Nat) {t : Tab}, t.wf = true → l.Nodup → v ∈ l →
    (l.foldl (fun (t : Tab) x => t.set x (g x (t.get x))) t).get v = g v (t.get v)
  | x :: l, t, hw, hnd, hv => by
    obtain ⟨hx, hnd⟩ := List.nodup_cons.mp hnd
    rw [List.foldl_cons]
    obtain rfl | hv := List.mem_cons.mp hv
    · have hkeep : (l.foldl (fun (t : Tab) x => t.set x (g x (t.get x))) (t.set v (g v (t.get v)))).get v = (t.set v (g v (t.get v))).get v := by
        refine (List.foldlRecOn (motive := fun u : Tab => u.wf = true ∧ u.get v = (t.set v (g v (t.get v))).get v) l _
          ⟨Tab.wf_set hw _ _, rfl⟩ fun u hu y hy => ⟨Tab.wf_set hu.1 _ _, ?_⟩).2
        exact (Tab.get_set_ne hu.1 (fun h : v = y => hx (h ▸ hy)) _).trans hu.2
      exact hkeep.trans (Tab.get_set_same hw _ _)
    · rw [get_foldl_set l (Tab.wf_set hw _ _) hnd hv, Tab.get_set_ne hw (fun h : v = x => hx (h ▸ hv))]

section
variable {e : Engine} (hw : e.regs.wf = true) (src v : Nat)
include hw

theorem msixMasked_regs : (msixMasked src v e).reg (Reg.IRQ_SSTAT_PRES src) = 0
    ∧ (msixMasked src v e).reg (Reg.IRQ_SSTAT_PEND src) = e.reg (Reg.IRQ_SSTAT_PEND src)
    ∧ (msixMasked src v e).reg Reg.IRQ_WITHDRAW_COUNT = min (e.reg Reg.IRQ_WITHDRAW_COUNT + 1) (2 ^ 32 - 1) := by
  have hw1 : (e.bump Reg.IRQ_WITHDRAW_COUNT).regs.wf = true := setReg_wf hw _ _
  exact ⟨reg_setReg_same hw1 _ 0,
    (reg_setReg_ne hw1 (by dsimp only; omega) 0).trans (reg_setReg_ne hw (by dsimp only; omega) _),
    (reg_setReg_ne hw1 (by dsimp only; omega) 0).trans (reg_bump_same hw _)⟩

omit hw in
/-- The vector's pending bit is that of the message held, and a ring's stays as it is. -/
theorem msixMasked_pba (hp : e.host.pba.wf = true) : (msixMasked src v e).host.pba.get v = e.host.pba.get v % 2 + 2 := by
  have hheld : (msixMasked src v e).evt.msgs.any (fun m => m.vec == v && m.masked) = true := by simp [msixMasked, showPba]
  have hmem : v ∈ (([] ++ (msixMasked src v e).evt.msgs).map HostIrq.vec).dedup := by simp [msixMasked, showPba]
  have hget := get_foldl_set (g := fun x y => y % 2 + 2 * b2n ((msixMasked src v e).evt.msgs.any (fun m => m.vec == x && m.masked)))
    _ hp (List.nodup_dedup _) hmem
  rw [hheld] at hget
  exact hget

end

theorem sendMsix_regs (e : Engine) (v : Nat) : (e.sendMsix v).regs = e.regs := (congrArg Engine.regs (sendMsix_only e v) :)

/-- Renewed presentations queue no write to host memory. -/
theorem Sends.presents {q : Nat → Prop} {xs : List Posted} {e f t : Engine} (h : Sends xs e f) (hp : Presents q f t) : Sends xs e t := by
  obtain ⟨hout, hwait, hused, hctl⟩ := h
  exact ⟨(congrArg HostSt.out hp.host).trans hout, (congrArg HostSt.wait hp.host).trans hwait,
    (congrArg HostSt.used hp.host).trans hused, (congrArg HostSt.usedCtl hp.host).trans hctl⟩

section
variable {e : Engine} (hw : e.regs.wf = true) (src v : Nat)
include hw

theorem msixLeft_regs : (msixLeft src v e).regs.wf = true ∧ (msixLeft src v e).reg (Reg.IRQ_SSTAT_PEND src) = 0
    ∧ (msixLeft src v e).reg (Reg.IRQ_SSTAT_PRES src) = 0
    ∧ (msixLeft src v e).reg (Reg.IRQ_SCNT_COUNT src) = min (e.reg (Reg.IRQ_SCNT_COUNT src) + 1) (2 ^ 32 - 1) := by
  have hw0 : (e.sendMsix v).regs.wf = true := sendMsix_regs e v ▸ hw
  have hw1 := setReg_wf hw0 (Reg.IRQ_SSTAT_PEND src) 0
  have hw2 := setReg_wf hw1 (Reg.IRQ_SSTAT_PRES src) 0
  have hscnt : (((e.sendMsix v).setReg (Reg.IRQ_SSTAT_PEND src) 0).setReg (Reg.IRQ_SSTAT_PRES src) 0).reg (Reg.IRQ_SCNT_COUNT src)
      = e.reg (Reg.IRQ_SCNT_COUNT src) :=
    calc _
      _ = ((e.sendMsix v).setReg (Reg.IRQ_SSTAT_PEND src) 0).reg (Reg.IRQ_SCNT_COUNT src) := reg_setReg_ne hw1 (by dsimp only; omega) 0
      _ = (e.sendMsix v).reg (Reg.IRQ_SCNT_COUNT src) := reg_setReg_ne hw0 (by dsimp only; omega) 0
      _ = e.reg (Reg.IRQ_SCNT_COUNT src) := congrArg (·.fld (Reg.IRQ_SCNT_COUNT src)) (sendMsix_regs e v)
  refine ⟨setReg_wf hw2 _ _, ?pend, (reg_setReg_ne hw2 (by dsimp only; omega) _).trans (reg_setReg_same hw1 _ 0), ?count⟩
  case pend =>
    exact (reg_setReg_ne hw2 (by dsimp only; omega) _).trans ((reg_setReg_ne hw1 (by dsimp only; omega) 0).trans (reg_setReg_same hw0 _ 0))
  case count =>
    rw [msixLeft, reg_bump_same hw2, hscnt]
    rfl

end

theorem msixLeft_sends {e : Engine} {v : Nat} (h : e.vecMasked v = false) (src : Nat) :
    Sends [⟨e.host.msix.fld (msixFld v 0) + 2 ^ 32 * e.host.msix.fld (msixFld v 1), leBytes 4 (e.host.msix.fld (msixFld v 2)), false, false⟩]
      e (msixLeft src v e) := by
  change Sends _ e (e.sendMsix v)
  rw [sendMsix_unmasked h]
  exact postAs_sends e _

/-! ### Clearing (R334) -/

theorem clearPend_eq (src : Nat) (e : Engine) :
    clearPend src e = irqUpdate false (withDue src 0 ((e.setReg (Reg.IRQ_SSTAT_PEND src) 0).setReg (Reg.IRQ_SSTAT_PRES src) 0)) := rfl

theorem clearPend_clears {e : Engine} (hw : e.regs.wf = true) (src : Nat) : (clearPend src e).reg (Reg.IRQ_SSTAT_PEND src) = 0
    ∧ ∀ x, x < 4096 → x ≠ src → (clearPend src e).reg (Reg.IRQ_SSTAT_PEND x) = e.reg (Reg.IRQ_SSTAT_PEND x) := by
  rw [clearPend_eq]
  have hw1 := setReg_wf hw (Reg.IRQ_SSTAT_PEND src) 0
  have hw2 : (withDue src 0 ((e.setReg (Reg.IRQ_SSTAT_PEND src) 0).setReg (Reg.IRQ_SSTAT_PRES src) 0)).regs.wf = true := setReg_wf hw1 _ _
  have hp := (irqUpdate_presents hw2 false).reg hw2
  have hpres : ∀ x, (withDue src 0 ((e.setReg (Reg.IRQ_SSTAT_PEND src) 0).setReg (Reg.IRQ_SSTAT_PRES src) 0)).reg (Reg.IRQ_SSTAT_PEND x)
      = (e.setReg (Reg.IRQ_SSTAT_PEND src) 0).reg (Reg.IRQ_SSTAT_PEND x) := fun x => reg_setReg_ne hw1 (by dsimp only; omega) 0
  refine ⟨?_, fun x _ hx => ?_⟩
  · rw [hp _ (msg_keys src).1, hpres]
    exact reg_setReg_same hw _ 0
  · rw [hp _ (msg_keys x).1, hpres]
    exact reg_setReg_ne hw (by dsimp only; omega) 0

/-- Settles O45: an edge by `takeEdge_pends` and `takeEdge_merged`; a message by `msixMasked` or `msixLeft`; a clearing by
`clearPend_clears`. What follows, the renewal of presentations, leaves these registers alone (`irqUpdate_presents`). -/
theorem interruptController : Obligations.InterruptController := by
  unfold Obligations.InterruptController
  refine ⟨fun src s hl hlev hline hw => ⟨fun h0 => ?pends, fun h1 => ?merges⟩, fun src s hline hlev => execIrqFilterPass_low hlev hline,
    fun src v s hlt hpend hen hhost htgt hserve hlink hw => ?message, fun src s h => ?idle, fun src s hlt hw => ?clears⟩
  case pends =>
    have hx := execIrqFilterPass_high hl hlev hline
    exact .of_next hx (takeEdge_pends (e := lineTaken src s.eng) _ _ hw h0)
  case merges =>
    have hx := execIrqFilterPass_high hl hlev hline
    have hmerge : (takeEdge src (s.eng.evt.lines.get src - 1) (s.eng.evt.lineN.get src) (lineTaken src s.eng)) = _ :=
      takeEdge_merged (e := lineTaken src s.eng) _ _ h1
    rw [hmerge] at hx
    exact .of_next hx ⟨(reg_setReg_ne (e := lineTaken src s.eng) hw (by dsimp only; omega) _).trans h1, rfl,
      reg_bump_same (e := lineTaken src s.eng) hw _⟩
  case message =>
    have hlink' : s.eng.reg Reg.HST_STATUS_LINKUP ≠ 0 := by omega
    have hx := execMsixSend_wants ⟨hpend, hen, hhost, hserve, hlink'⟩
    rw [htgt] at hx
    refine ⟨fun hm ha => ?held, fun hm ha => ?masked, fun hm => ?sent⟩
    case held => exact (hx.trans (if_pos hm)).trans (if_pos ha)
    case masked =>
      obtain ⟨hpres, hpend', hcount⟩ := msixMasked_regs hw src v
      exact .of_next ((hx.trans (if_pos hm)).trans (if_neg (ne_true_of_eq_false ha)))
        ⟨hpres, hpend'.trans hpend, rfl, hcount, rfl, msixMasked_pba src v⟩
    case sent =>
      obtain ⟨hw1, hpend', hpres, hcount⟩ := msixLeft_regs hw src v
      obtain ⟨hkpend, hkcount, -⟩ := msg_keys src
      have hp := irqUpdate_presents hw1 false
      exact .of_next (hx.trans (if_neg (ne_true_of_eq_false hm))) ⟨(hp.reg hw1 _ hkpend).trans hpend',
        irqUpdate_notPresented hw1 false hpend' hpres, (msixLeft_sends hm src).presents hp, (hp.reg hw1 _ hkcount).trans hcount⟩
  case idle =>
    refine execMsixSend_idle ?_
    rintro ⟨hpend, hen, hhost, hserve, hlink⟩
    simp [hpend, hen, hhost, hserve, hlink] at h
  case clears =>
    exact .of_next (if_neg (Nat.not_le.mpr hlt)) (clearPend_clears hw src)

end Sys2Proof.Machine
end

/-! ## Cascade counters, and the functions of counters, memory and relays that act at once -/

section
namespace Sys2Proof.Machine

/-! ### What raising an event leaves alone at the heads of register rows -/

/-- The field lies in the first word of a 16-byte row. The registers of the event fabric that a raise writes lie in the three other words
(Table 15.8). -/
def headsRow (g : Fld) : Prop := g.key % 512 < 128

/-- Registers in canonical form stay so, and those that head a row keep their values. -/
def KeepsHeads (e t : Engine) : Prop := e.regs.wf = true → t.regs.wf = true ∧ ∀ g, headsRow g → t.reg g = e.reg g

namespace KeepsHeads

section
variable {e f t : Engine}

theorem of_regs_eq (h : t.regs = e.regs) : KeepsHeads e t := fun hw => ⟨h ▸ hw, fun g _ => congrArg (·.fld g) h⟩

theorem refl (e : Engine) : KeepsHeads e e := .of_regs_eq rfl

theorem trans (a : KeepsHeads e f) (b : KeepsHeads f t) : KeepsHeads e t := fun hw =>
  have ⟨hf, ha⟩ := a hw
  have ⟨ht, hb⟩ := b hf
  ⟨ht, fun g hg => (hb g hg).trans (ha g hg)⟩

theorem setReg {r : Fld} (hr : ¬headsRow r) (e : Engine) (v : Nat) : KeepsHeads e (e.setReg r v) := fun hw =>
  ⟨setReg_wf hw r v, fun g hg => reg_setReg_ne hw (fun h => hr (by rwa [headsRow, ← h])) v⟩

end

theorem notifyHost (e : Engine) (src data : Nat) : KeepsHeads e (e.notifyHost src data) := by
  unfold Engine.notifyHost
  split
  · split
    · exact refl _
    · exact refl _
  · exact refl _

theorem reached (src data : Nat) (e : Engine) : KeepsHeads e (reached src data e) := by
  have hcount : KeepsHeads e (e.bump (Reg.EVT_SCNT_COUNT src)) := setReg (by unfold headsRow; dsimp only; omega) _ _
  have harrive : ∀ (l : List Nat) (a : Engine), KeepsHeads a (l.foldl Engine.arrive a) := fun l a => of_regs_eq (foldl_arrive_rest l a).1
  have hseen := (hcount.trans (harrive ((e.bump (Reg.EVT_SCNT_COUNT src)).joined (src / 128) (src % 128)) _)).trans
    (notifyHost _ src data)
  unfold Machine.reached
  dsimp only
  split
  · exact hseen
  · exact hseen.trans (of_regs_eq (irqPulse_regs _ _))

theorem requested (k : Nat) (e : Engine) : KeepsHeads e (requested k e) :=
  (setReg (r := Reg.EVT_KREQ_COUNT k) (by unfold headsRow; dsimp only; omega) e _).trans (of_regs_eq rfl)

theorem guardTripped (k : Nat) (e : Engine) : KeepsHeads e (guardTripped k e) := by
  have hstop : KeepsHeads e (e.setReg (Reg.EVT_KSTAT_STOP k) 1) := setReg (by unfold headsRow; dsimp only; omega) _ _
  unfold Machine.guardTripped
  dsimp only
  split
  · exact (hstop.trans (setReg (by unfold headsRow; decide) _ _)).trans (setReg (by unfold headsRow; decide) _ _)
  · exact hstop

theorem fire (e : Engine) (k : Nat) : KeepsHeads e (e.fire k) := by
  have hcount : KeepsHeads e (e.bump (Reg.EVT_KFIRE_COUNT k)) := setReg (by unfold headsRow; dsimp only; omega) _ _
  have hregs : (e.fire k).regs = (e.bump (Reg.EVT_KFIRE_COUNT k)).regs := (foldl_arm_rest _ _).1.trans (foldl_arrive_rest _ _).1
  exact hcount.trans (of_regs_eq hregs)

theorem judged {fuel : Nat} (ih : ∀ e src data, KeepsHeads e (Engine.raiseFuel fuel e src data)) (k n : Nat) (e : Engine) :
    KeepsHeads e (judged fuel k n e) := by
  unfold Machine.judged
  split
  · exact refl e
  split
  · exact ((guardTripped k e).trans (setReg (by unfold headsRow; decide) _ _)).trans (ih _ _ _)
  split
  · exact fire e k
  · exact of_regs_eq rfl

theorem raiseFuel (fuel : Nat) (e : Engine) (src data : Nat) : KeepsHeads e (Engine.raiseFuel fuel e src data) := by
  induction fuel generalizing e src data with
  | zero => exact refl e
  | succ fuel ih =>
    rw [raiseFuel_succ]
    refine (reached src data e).trans ?_
    unfold published
    dsimp only
    split
    · exact (requested _ _).trans (judged ih _ _ _)
    · exact refl _

theorem raise (e : Engine) (src data : Nat) : KeepsHeads e (e.raise src data) := by
  unfold Engine.raise
  split
  · exact raiseFuel _ _ _ _
  · exact refl e

end KeepsHeads

/-! ### One increment (R340, R341, R345, R347) -/

/-- The count of counter `n` after an increment. -/
def nextCount (e : Engine) (n : Nat) : Nat := (e.reg (Reg.CNT_VAL_COUNT n) + 1) % 2 ^ 32

/-- Counter `n` has overflowed. -/
def overflowed (n : Nat) (e : Engine) : Engine := (e.setReg (Reg.CNT_VAL_COUNT n) 0).setReg (Reg.CNT_STAT_OVF n) 1

section
variable {e : Engine} {fuel n : Nat}

theorem incrFuel_plain (h0 : nextCount e n ≠ 0) (hc : nextCount e n ≠ e.reg (Reg.CNT_CMP_VAL n)) :
    Engine.incrFuel (fuel + 1) e n = e.setReg (Reg.CNT_VAL_COUNT n) (nextCount e n) := (if_neg h0).trans (if_neg hc)

variable (hw : e.regs.wf = true)
include hw

theorem incrFuel_match (h0 : nextCount e n ≠ 0) (hc : nextCount e n = e.reg (Reg.CNT_CMP_VAL n)) :
    let hit := (e.setReg (Reg.CNT_VAL_COUNT n) (nextCount e n)).setReg (Reg.CNT_STAT_MATCH n) 1
    Engine.incrFuel (fuel + 1) e n = if e.reg (Reg.CNT_CFG_EVM n) = 1 then hit.raise (Src.cnt + 2 * n) (nextCount e n) else hit := by
  intro hit
  have hevm : hit.reg (Reg.CNT_CFG_EVM n) = e.reg (Reg.CNT_CFG_EVM n) :=
    (reg_setReg_ne (setReg_wf hw _ _) (by dsimp only; omega) _).trans (reg_setReg_ne hw (by dsimp only; omega) _)
  exact ((if_neg h0).trans (if_pos hc)).trans (if_congr (by rw [← hevm]; rfl) rfl rfl)

theorem overflowed_wf : (overflowed n e).regs.wf = true := setReg_wf (setReg_wf hw _ _) _ _

theorem overflowed_reg {g : Fld} (hv : g.key ≠ (Reg.CNT_VAL_COUNT n).key) (ho : g.key ≠ (Reg.CNT_STAT_OVF n).key) :
    (overflowed n e).reg g = e.reg g := (reg_setReg_ne (setReg_wf hw _ _) ho _).trans (reg_setReg_ne hw hv _)

/-- The counter above is in the chain or not, whatever the overflow raises. -/
theorem overflowed_cascades (m : Nat) : (overflowed n e).cascades m = e.cascades m
    ∧ ∀ src data, ((overflowed n e).raise src data).cascades m = e.cascades m := by
  have hsrc : (overflowed n e).reg (Reg.CNT_CFG_SRC m) = e.reg (Reg.CNT_CFG_SRC m) :=
    overflowed_reg hw (by dsimp only; omega) (by dsimp only; omega)
  refine ⟨by rw [Engine.cascades, hsrc, Engine.cascades], fun src data => ?_⟩
  have hraise := (KeepsHeads.raise (overflowed n e) src data (overflowed_wf hw)).2 (Reg.CNT_CFG_SRC m)
    (by unfold headsRow; dsimp only; omega)
  rw [Engine.cascades, hraise.trans hsrc, Engine.cascades]

/-- An overflow that does not match: it is flagged and raised where enabled, and carried into a CASCADE counter above. -/
theorem incrFuel_overflow (h0 : nextCount e n = 0) (hc : e.reg (Reg.CNT_CMP_VAL n) ≠ 0) :
    let told := if e.reg (Reg.CNT_CFG_EVO n) = 1 then (overflowed n e).raise (Src.cnt + 2 * n + 1) 0 else overflowed n e
    Engine.incrFuel (fuel + 1) e n = if e.cascades (n + 1) = true then Engine.incrFuel fuel told (n + 1) else told := by
  intro told
  have hevo : (overflowed n e).reg (Reg.CNT_CFG_EVO n) = e.reg (Reg.CNT_CFG_EVO n) :=
    overflowed_reg hw (by dsimp only; omega) (by dsimp only; omega)
  have htold : told.cascades (n + 1) = e.cascades (n + 1) := by
    unfold told
    split
    · exact (overflowed_cascades hw _).2 _ _
    · exact (overflowed_cascades hw _).1
  have hne : ¬(0 = e.reg (Reg.CNT_CMP_VAL n)) := Ne.symm hc
  unfold nextCount at h0
  rw [← htold]
  simp only [Engine.incrFuel, h0, if_true, if_neg hne]
  unfold told
  rw [← hevo]
  rfl

end

/-! ### One cycle of a source, and the snapshot's latch (R340, R342, R349) -/

section
variable {n : Nat} {e : Engine} {count : Engine → Engine}

theorem countLatched_settled (h : e.cnt.snapping = false ∨ e.cnt.latched.contains n = true) : countLatched n count e = count e := if_pos h

/-- A chain that the snapshot in progress has not latched. -/
theorem countLatched_waiting (hs : e.cnt.snapping = true) (hl : e.cnt.latched.contains n = false) : countLatched n count e =
    if e.reg (Reg.CNT_CFG_SRC n) % 2 = 0 then latchChain n (count e)
    else if Config.freeValue e.free % 2 = 0 then latchChain n (count { e with free := e.free + 1 })
    else count (latchChain n { e with free := e.free + 1 }) := if_neg (by simp only [hs, hl]; decide)

theorem increment_idle (h : 64 ≤ n ∨ srcCascade ≤ e.reg (Reg.CNT_CFG_SRC n) ∨ e.st = stOff) : increment n e = e := if_pos h

variable (hn : n < 64) (hst : e.st ≠ stOff)
include hn hst

theorem increment_clocked (hsrc : e.reg (Reg.CNT_CFG_SRC n) ≤ 2) : increment n e = countLatched n (fun a => Engine.incrFuel 64 a n) e :=
  (if_neg (by simp only [srcCascade]; omega)).trans (if_neg (by omega))

theorem increment_event (hsrc : e.reg (Reg.CNT_CFG_SRC n) = 3) : increment n e = if e.cnt.acts.get n = 0 then e
    else countLatched n
      (fun a => Engine.incrFuel 64 { a with cnt := { a.cnt with acts := a.cnt.acts.set n (a.cnt.acts.get n - 1) } } n) e :=
  (if_neg (by simp only [srcCascade]; omega)).trans (if_pos hsrc)

end

section
variable {n : Nat} {s : State}

theorem exec_counterIncrement (n : Nat) (s : State) : exec (.counterIncrement n) s = .next { s with eng := increment n s.eng } := rfl

theorem exec_counterMatch (h : nextCount s.eng n = s.eng.reg (Reg.CNT_CMP_VAL n)) :
    exec (.counterMatch n) s = exec (.counterIncrement n) s := if_pos h

theorem exec_counterMatch_none (h : nextCount s.eng n ≠ s.eng.reg (Reg.CNT_CMP_VAL n)) : exec (.counterMatch n) s = .next s := if_neg h

theorem exec_counterOverflow (h : s.eng.reg (Reg.CNT_VAL_COUNT n) = 2 ^ 32 - 1) :
    exec (.counterOverflow n) s = exec (.counterIncrement n) s := if_pos h

theorem exec_counterOverflow_none (h : s.eng.reg (Reg.CNT_VAL_COUNT n) ≠ 2 ^ 32 - 1) : exec (.counterOverflow n) s = .next s := if_neg h

/-- A counter on REF, BC or SWEEP counts where no snapshot waits for its chain. -/
theorem exec_counterIncrement_counts (hn : n < 64) (hst : s.eng.st ≠ stOff) (hsrc : s.eng.reg (Reg.CNT_CFG_SRC n) ≤ 2)
    (hl : s.eng.cnt.snapping = false ∨ s.eng.cnt.latched.contains n = true) :
    exec (.counterIncrement n) s = .next { s with eng := Engine.incrFuel 64 s.eng n } := by
  rw [exec_counterIncrement, increment_clocked hn hst hsrc, countLatched_settled hl]

end

/-! ### Writes of counters (R343, R344) -/

theorem chainHeads_cnt (e : Engine) : (chainHeads e).cnt = e.cnt :=
  List.foldlRecOn (motive := fun a : Engine × Nat => a.1.cnt = e.cnt) _ _ rfl fun _ ha _ _ => ha

theorem chainHeads_reg {e : Engine} (hw : e.regs.wf = true) {g : Fld} (hg : ∀ m, g.key ≠ (Reg.CNT_CHAIN_HEAD m).key) :
    (chainHeads e).reg g = e.reg g :=
  (List.foldlRecOn (motive := fun a : Engine × Nat => a.1.regs.wf = true ∧ a.1.reg g = e.reg g) _ _ ⟨hw, rfl⟩ fun _ ha m _ =>
    ⟨setReg_wf ha.1 _ _, (reg_setReg_ne ha.1 (hg m) _).trans ha.2⟩).2

theorem srcBad_iff (n src : Nat) : srcBad n src = true ↔ 4 < src ∨ n = 0 ∧ src = 4 := by
  change (decide (4 < src) || (n == 0 && src == 4)) = true ↔ _
  simp

section
variable {n v : Nat} {e : Engine}

/-- The enables of counter `n`'s events as a write of CNT_CFG leaves them. -/
def enablesWritten (n v : Nat) (e : Engine) : Engine := (e.setReg (Reg.CNT_CFG_EVM n) (bit v 8)).setReg (Reg.CNT_CFG_EVO n) (bit v 9)

theorem applyCntWrite_config (n v : Nat) (armed : Bool) (e : Engine) : applyCntWrite e ⟨n, 2, v, armed⟩ =
    if srcBad n (v % 8) = true then enablesWritten n v e
    else chainHeads ((enablesWritten n v e).setReg (Reg.CNT_CFG_SRC n) (v % 8)) := rfl

theorem applyCntWrite_config_cnt (armed : Bool) : (applyCntWrite e ⟨n, 2, v, armed⟩).cnt = e.cnt := by
  rw [applyCntWrite_config]
  split
  · rfl
  · exact chainHeads_cnt _

variable (hw : e.regs.wf = true)
include hw

theorem enablesWritten_wf : (enablesWritten n v e).regs.wf = true := setReg_wf (setReg_wf hw _ _) _ _

theorem enablesWritten_reg {g : Fld} (hm : g.key ≠ (Reg.CNT_CFG_EVM n).key) (ho : g.key ≠ (Reg.CNT_CFG_EVO n).key) :
    (enablesWritten n v e).reg g = e.reg g := (reg_setReg_ne (setReg_wf hw _ _) ho _).trans (reg_setReg_ne hw hm _)

theorem enablesWritten_enables :
    (enablesWritten n v e).reg (Reg.CNT_CFG_EVM n) = bit v 8 ∧ (enablesWritten n v e).reg (Reg.CNT_CFG_EVO n) = bit v 9 :=
  ⟨((reg_setReg_ne (setReg_wf hw _ _) (by dsimp only; omega) _).trans (reg_setReg_same hw _ _)).trans (Nat.mod_mod _ 2),
    (reg_setReg_same (setReg_wf hw _ _) _ _).trans (Nat.mod_mod _ 2)⟩

/-- A write of CNT_CFG reaches no register but the enables, the source and the heads of chains. -/
theorem applyCntWrite_config_reg {g : Fld} (armed : Bool) (hs : g.key ≠ (Reg.CNT_CFG_SRC n).key)
    (hh : ∀ m, g.key ≠ (Reg.CNT_CHAIN_HEAD m).key) :
    (applyCntWrite e ⟨n, 2, v, armed⟩).reg g = (enablesWritten n v e).reg g := by
  rw [applyCntWrite_config]
  split
  · rfl
  · exact (chainHeads_reg (setReg_wf (enablesWritten_wf hw) _ _) hh).trans (reg_setReg_ne (enablesWritten_wf hw) hs _)

/-- A reserved source, or CASCADE for CNT0, leaves SRC as it is (R341). -/
theorem applyCntWrite_config_src (armed : Bool) : (applyCntWrite e ⟨n, 2, v, armed⟩).reg (Reg.CNT_CFG_SRC n) =
    if 4 < v % 8 ∨ (n = 0 ∧ v % 8 = 4) then e.reg (Reg.CNT_CFG_SRC n) else v % 8 := by
  rw [applyCntWrite_config, apply_ite (fun a : Engine => a.reg (Reg.CNT_CFG_SRC n))]
  refine if_congr (srcBad_iff n _) (enablesWritten_reg hw (by dsimp only; omega) (by dsimp only; omega)) ?_
  exact (chainHeads_reg (setReg_wf (enablesWritten_wf hw) _ _) fun m => by dsimp only; omega).trans
    ((reg_setReg_same (enablesWritten_wf hw) _ _).trans (Nat.mod_mod _ 8))

end

/-- The engine when no write of a counter waits. -/
def noWrites (e : Engine) : Engine := { e with cnt := { e.cnt with writes := [] } }

section
variable {n kind v : Nat} {s : State}

/-- The one write that waits has passed its boundary and acts. -/
theorem exec_counterWriteApply (h : s.eng.cnt.writes = [⟨n, kind, v, true⟩]) :
    exec (.counterWriteApply n) s = .next { s with eng := applyCntWrite (noWrites s.eng) ⟨n, kind, v, true⟩ } := by
  change execCounterWriteApply n s = _
  simp [execCounterWriteApply, h, noWrites]

/-- The one write that waits has yet to pass a boundary. -/
theorem exec_counterWriteApply_early (h : s.eng.cnt.writes = [⟨n, kind, v, false⟩]) : exec (.counterWriteApply n) s = .next s := by
  change execCounterWriteApply n s = _
  simp only [execCounterWriteApply, h, List.filter_cons, Bool.and_false, Bool.not_false, if_true, List.filter_nil]
  rw [← h]
  rfl

end

/-! ### Snapshots (R349) -/

/-- Fields of a family written from a list without repetition read as they were written. -/
theorem fld_puts_map {F : Nat → Fld} {w : Nat → Nat} (hF : ∀ a b, (F a).key = (F b).key → a = b) {t : Tab} (hw : t.wf = true)
    {l : List Nat} (hl : l.Nodup) {n : Nat} (hn : n ∈ l) : (t.puts (l.map fun m => (F m, w m))).fld (F n) = w n % 2 ^ (F n).width := by
  obtain ⟨a, b, rfl⟩ := List.append_of_mem hn
  rw [List.map_append, List.map_cons]
  refine Tab.fld_puts_last hw _ _ _ _ fun x hx hk => ?_
  obtain ⟨m, hm, rfl⟩ := List.mem_map.mp hx
  exact (List.nodup_cons.mp (List.nodup_append.mp hl).2.1).1 (hF _ _ hk ▸ hm)

/-- The counters whose chains have had no edge since the request. -/
def unlatched (e : Engine) : List Nat := (List.range 64).filter (fun n => !e.cnt.latched.contains n)

/-- The engine when the counts of the counters `ns` are in the image. -/
def latchedLate (ns : List Nat) (e : Engine) : Engine :=
  { e with regs := e.regs.puts (ns.map (fun n => (Reg.CNT_SNAPV_COUNT n, e.reg (Reg.CNT_VAL_COUNT n)))) }

/-- The engine when its snapshot is numbered and stamped, and none is in progress. -/
def stampedSnapshot (seq st : Nat) (e : Engine) : Engine :=
  let f := ((e.setReg Reg.CNT_SNAPSEQ_SEQ seq).setReg Reg.CNT_SNAPST_LO_STAMP st).setReg Reg.CNT_SNAPST_HI_STAMP (st / 2 ^ 32)
  { f with cnt := { f.cnt with snapping := false, latched := [], snaps := [] } }

/-- The engine when the snapshot in progress has completed. -/
def snapshotTaken (e : Engine) : Engine :=
  stampedSnapshot (e.reg Reg.CNT_SNAPSEQ_SEQ + 1) e.stampNow (latchedLate (unlatched e) e)

/-- A SNAP command writes its buffer and completes. -/
def answerSnap (e : Engine) (w : Nat × Nat × Bool × Nat) : Engine :=
  (e.post w.2.2.2 (snapBytes e)).completeAt w.1 w.2.1 w.2.2.1 .ok e.cxNow

section
variable {s : State}

theorem exec_snapshotComplete_none (h : s.eng.cnt.snapping = false) : exec .snapshotComplete s = .next s := by
  change execSnapshotComplete s = _
  simp [execSnapshotComplete, h]

theorem exec_snapshotComplete (h : s.eng.cnt.snapping = true) :
    exec .snapshotComplete s = .next { s with eng := s.eng.cnt.snaps.foldl answerSnap (snapshotTaken s.eng) } :=
  if_neg (by simp [h])

end

section
variable {e : Engine} (hw : e.regs.wf = true)
include hw

theorem latchedLate_wf (ns : List Nat) : (latchedLate ns e).regs.wf = true := Tab.wf_puts _ hw

theorem latchedLate_reg {ns : List Nat} {g : Fld} (hg : ∀ m ∈ ns, g.key ≠ (Reg.CNT_SNAPV_COUNT m).key) :
    (latchedLate ns e).reg g = e.reg g := by
  refine Tab.fld_puts_ne _ hw fun x hx => ?_
  obtain ⟨m, hm, rfl⟩ := List.mem_map.mp hx
  exact hg m hm

theorem stampedSnapshot_reg {seq st : Nat} {g : Fld} (hs : g.key ≠ Reg.CNT_SNAPSEQ_SEQ.key) (hl : g.key ≠ Reg.CNT_SNAPST_LO_STAMP.key)
    (hh : g.key ≠ Reg.CNT_SNAPST_HI_STAMP.key) : (stampedSnapshot seq st e).reg g = e.reg g :=
  have hw1 := setReg_wf hw Reg.CNT_SNAPSEQ_SEQ seq
  (reg_setReg_ne (setReg_wf hw1 _ _) hh _).trans ((reg_setReg_ne hw1 hl _).trans (reg_setReg_ne hw hs _))

theorem stampedSnapshot_shows (seq st : Nat) : (stampedSnapshot seq st e).reg Reg.CNT_SNAPSEQ_SEQ = seq % 2 ^ 32
    ∧ (stampedSnapshot seq st e).reg Reg.CNT_SNAPST_LO_STAMP = st % 2 ^ 32
    ∧ (stampedSnapshot seq st e).reg Reg.CNT_SNAPST_HI_STAMP = st / 2 ^ 32 % 2 ^ 32 := by
  have hw1 := setReg_wf hw Reg.CNT_SNAPSEQ_SEQ seq
  have hw2 := setReg_wf hw1 Reg.CNT_SNAPST_LO_STAMP st
  refine ⟨?seq, ?lo, reg_setReg_same hw2 _ _⟩
  case seq => exact ((reg_setReg_ne hw2 (by decide) _).trans (reg_setReg_ne hw1 (by decide) _)).trans (reg_setReg_same hw _ _)
  case lo => exact (reg_setReg_ne hw2 (by decide) _).trans (reg_setReg_same hw1 _ _)

/-- The image holds what each chain has latched, and the present count of those that have had no edge. -/
theorem snapshotTaken_image {n : Nat} (hn : n < 64) : (snapshotTaken e).reg (Reg.CNT_SNAPV_COUNT n) =
    if e.cnt.latched.contains n = true then e.reg (Reg.CNT_SNAPV_COUNT n) else e.reg (Reg.CNT_VAL_COUNT n) % 2 ^ 32 := by
  have hstamp : (snapshotTaken e).reg (Reg.CNT_SNAPV_COUNT n) = (latchedLate (unlatched e) e).reg (Reg.CNT_SNAPV_COUNT n) :=
    stampedSnapshot_reg (latchedLate_wf hw _) (by dsimp only; omega) (by dsimp only; omega) (by dsimp only; omega)
  have hkey : ∀ a b, (Reg.CNT_SNAPV_COUNT a).key = (Reg.CNT_SNAPV_COUNT b).key → a = b := fun a b h => by dsimp only at h; omega
  rw [hstamp]
  by_cases hl : e.cnt.latched.contains n = true
  · rw [if_pos hl]
    refine latchedLate_reg hw fun m hm hk => ?_
    obtain ⟨-, hm⟩ := List.mem_filter.mp hm
    rw [← hkey _ _ hk, hl] at hm
    exact absurd hm (by decide)
  · rw [if_neg hl]
    have hmem : n ∈ unlatched e := List.mem_filter.mpr ⟨List.mem_range.mpr hn, by simpa using hl⟩
    exact fld_puts_map hkey hw (List.nodup_range.filter _) hmem

theorem snapshotTaken_count (n : Nat) : (snapshotTaken e).reg (Reg.CNT_VAL_COUNT n) = e.reg (Reg.CNT_VAL_COUNT n) :=
  (stampedSnapshot_reg (latchedLate_wf hw _) (by dsimp only; omega) (by dsimp only; omega) (by dsimp only; omega)).trans
    (latchedLate_reg hw fun m _ => by dsimp only; omega)

end

/-- Settles O46: an increment by `incrFuel_plain`, `incrFuel_match` or `incrFuel_overflow`, where a snapshot has nothing to latch
(`countLatched_settled`) and where it has (`countLatched_waiting`); a write by `exec_counterWriteApply`; the end of a snapshot by
`snapshotTaken`. What an overflow raises leaves the sources of counters, and with them the chains, alone (`KeepsHeads.raise`). -/
theorem cascadeCounters : Obligations.CascadeCounters := by
  unfold Obligations.CascadeCounters
  refine ⟨fun n s hn hw hst hsrc hl => ?counts, fun n s hn hst hs hl => ?latches, fun n s hst => ?off, fun n s hn hst hsrc hl => ?event,
    fun n s hsrc => ?cascade, fun n v s hn hv => ?load, fun n v s hn hv hw => ?apply, fun s hw => ?snapshot⟩
  case counts =>
    intro o v cmp e1 hit wrapped next
    have ho : o = .next { s with eng := Engine.incrFuel 64 s.eng n } := exec_counterIncrement_counts hn hst hsrc hl
    have hwrapped : v = 0 → wrapped = overflowed n s.eng := fun h0 => by unfold wrapped e1; rw [h0]; rfl
    refine ⟨fun h0 hc => ?plain, fun h0 hc => ⟨?hits, exec_counterMatch hc⟩, exec_counterMatch_none, exec_counterOverflow_none,
      fun h0 hc hcas => ⟨?wraps, exec_counterOverflow⟩, fun h0 hc hcas hevo hn0 hnc => ?carries⟩
    case plain => rw [ho, incrFuel_plain h0 hc]; rfl
    case hits => rw [ho, incrFuel_match hw h0 hc]; rfl
    case wraps =>
      rw [ho, incrFuel_overflow hw h0 hc, if_neg (by simp [hcas]), hwrapped h0]
      rfl
    case carries =>
      have hval : nextCount (overflowed n s.eng) (n + 1) = next := by
        unfold nextCount
        rw [overflowed_reg hw (by dsimp only; omega) (by dsimp only; omega)]
      have hcmp : (overflowed n s.eng).reg (Reg.CNT_CMP_VAL (n + 1)) = s.eng.reg (Reg.CNT_CMP_VAL (n + 1)) :=
        overflowed_reg hw (by dsimp only; omega) (by dsimp only; omega)
      rw [ho, incrFuel_overflow hw h0 hc, if_pos hcas, if_neg (by omega), incrFuel_plain (by rwa [hval]) (by rwa [hval, hcmp]), hval,
        hwrapped h0]
  case latches =>
    intro o e1 first latched
    have ho : o = _ := exec_counterIncrement n s
    refine ⟨fun hsrc => ?even, fun hsrc => ?odd⟩
    case even =>
      rw [ho, increment_clocked hn hst (by omega), countLatched_waiting hs hl, if_pos (by omega)]
      rfl
    case odd =>
      rw [ho, increment_clocked hn hst (by omega), countLatched_waiting hs hl, if_neg (by omega)]
      obtain hf | hf := Nat.mod_two_eq_zero_or_one (Config.freeValue s.eng.free)
      · rw [if_pos hf, if_neg (by simp [first, hf])]
        rfl
      · rw [if_neg (by omega), if_pos (by simp [first, hf])]
        rfl
  case off => rw [exec_counterIncrement, increment_idle (.inr (.inr hst))]
  case event =>
    refine ⟨fun h0 => ?none, fun h0 => ?one⟩
    case none => rw [exec_counterIncrement, increment_event hn hst hsrc, if_pos h0]
    case one => rw [exec_counterIncrement, increment_event hn hst hsrc, if_neg h0, countLatched_settled hl]
  case cascade => rw [exec_counterIncrement, increment_idle (.inr (.inl hsrc))]
  case load =>
    change execCntLoadWrite n v s = _
    rw [execCntLoadWrite, Nat.mod_eq_of_lt hv, cntWrite, if_neg (by omega)]
  case apply =>
    have hw' : (noWrites s.eng).regs.wf = true := hw
    refine ⟨fun h => ?loads, fun h => ?compares, fun h => ?configures, exec_counterWriteApply_early⟩
    case loads =>
      exact .of_next (exec_counterWriteApply h)
        ⟨(reg_setReg_same hw' _ v).trans (Nat.mod_eq_of_lt hv), rfl, fun g hg => reg_setReg_ne hw' hg v⟩
    case compares =>
      exact .of_next (exec_counterWriteApply h)
        ⟨(reg_setReg_same hw' _ v).trans (Nat.mod_eq_of_lt hv), rfl, fun g hg => reg_setReg_ne hw' hg v⟩
    case configures =>
      obtain ⟨hevm, hevo⟩ := enablesWritten_enables (n := n) (v := v) hw'
      refine .of_next (exec_counterWriteApply h) ⟨?evm, ?evo, ?gone, applyCntWrite_config_src hw' true, fun m hm => ?counts⟩
      case evm => exact (applyCntWrite_config_reg hw' true (by dsimp only; omega) fun m => by dsimp only; omega).trans hevm
      case evo => exact (applyCntWrite_config_reg hw' true (by dsimp only; omega) fun m => by dsimp only; omega).trans hevo
      case gone => exact congrArg CntSt.writes (applyCntWrite_config_cnt (e := noWrites s.eng) true)
      case counts =>
        exact (applyCntWrite_config_reg hw' true (by dsimp only; omega) fun m => by dsimp only; omega).trans
          (enablesWritten_reg hw' (by dsimp only; omega) (by dsimp only; omega))
  case snapshot =>
    refine ⟨fun h => ?joins, fun h => ?asks, exec_snapshotComplete_none, fun h => ?completes⟩
    case joins => exact congrArg (fun e => Host.Outcome.next { s with eng := e }) (if_pos h)
    case asks => exact congrArg (fun e => Host.Outcome.next { s with eng := e }) (if_neg (ne_true_of_eq_false h))
    case completes =>
      have hx := exec_snapshotComplete h
      obtain ⟨hseq, hlo, hhi⟩ :=
        stampedSnapshot_shows (latchedLate_wf hw (unlatched s.eng)) (s.eng.reg Reg.CNT_SNAPSEQ_SEQ + 1) s.eng.stampNow
      refine ⟨snapshotTaken s.eng, fun n hn => snapshotTaken_image hw hn, hseq, hlo, hhi, rfl, rfl, fun n _ => snapshotTaken_count hw n,
        fun hn => ?unasked, fun ring tag notify addr ha => ?asked⟩
      case unasked => rw [hx, hn, List.foldl_nil]
      case asked =>
        rw [ha] at hx
        exact .of_next hx (completeAt_answers _ _ _ _ _ _)

/-! ### Functions of counters, memory and relays that act at once (R343 to R351, R356 to R372, R236) -/

/-- WRITE_MEM ends as an action, or, where a word that it reads to write in part is flagged, with ST_HWERR (R360). -/
theorem actWriteMem_ends (e : Engine) (p : Packet) :
    ((engWrite e (p.arg64 0) p.payload).2 = false → Ends fnWriteMem p (engWrite e (p.arg64 0) p.payload).1 (actWriteMem e p))
    ∧ ((engWrite e (p.arg64 0) p.payload).2 = true →
      let g := (engWrite e (p.arg64 0) p.payload).1
      Answers p (.hwerr (Config.freeValue g.free)) { g with free := g.free + 1 } (actWriteMem e p)) := by
  refine ⟨fun h => ?stored, fun h => ?flagged⟩
  case stored =>
    have hact : actWriteMem e p = endAction fnWriteMem (engWrite e (p.arg64 0) p.payload).1 p := if_neg (ne_true_of_eq_false h)
    exact hact ▸ endAction_ends _ _ _
  case flagged =>
    intro g
    have hact : actWriteMem e p = Engine.complete { g with free := g.free + 1 } p (.hwerr (Config.freeValue g.free)) := if_pos h
    exact hact ▸ complete_answers _ _ _

/-- Settles O27: each function runs as an action (`runAction_does`); SNAP answers when its snapshot is complete, WRITE_MEM by what its write
finds (`actWriteMem_ends`). -/
theorem counterMemoryFunctions : Obligations.CounterMemoryFunctions := by
  unfold Obligations.CounterMemoryFunctions
  refine ⟨?setCounter, ?load, ?setCompare, ?snap, ?rawCounters, ?setWindow, ?runBist, ?releaseFreeze, ?writeMem, ?injectError,
    ?setRlywarn⟩
  case setCounter =>
    exact runAction_does (act := fun e p => cntWrite p.target 2 (p.arg 0 + 256 * p.arg 1 + 512 * p.arg 2) e) fun _ _ => rfl
  case load => exact runAction_does (act := fun e p => cntWrite p.target 0 (p.arg 0) e) fun _ _ => rfl
  case setCompare => exact runAction_does (act := fun e p => cntWrite p.target 1 (p.arg 0) e) fun _ _ => rfl
  case snap => exact runAsync_does (fun _ _ => rfl) fun _ _ => rfl
  case rawCounters => exact runAction_does fun _ _ => rfl
  case setWindow => exact runAction_does fun _ _ => rfl
  case runBist => exact runAction_does (act := actRunBist) fun _ _ => rfl
  case releaseFreeze => exact runAction_does (act := actReleaseFreeze) fun _ _ => rfl
  case writeMem => exact runAsync_does (act := actWriteMem) actWriteMem_ends fun _ _ => rfl
  case injectError => exact runAction_does (act := actInjectError) fun _ _ => rfl
  case setRlywarn => exact runAction_does (act := fun e p => setLimit e (p.arg 0)) fun _ _ => rfl

end Sys2Proof.Machine
end

/-! ## The queue and the step -/

section
namespace Sys2Proof.Machine

/-! ### Steps take the commands that wait, first in first out -/

/-- With no command waiting the link drains the outbound buffer (assumption 49). -/
theorem step_idle {s : State} (h : s.pending = []) : step s = .next { s with eng := s.eng.linkDrain } := by
  unfold step
  rw [h]

/-- With a command waiting the step is that command with the rest of the queue. -/
theorem step_front {s : State} {c : Instr} {rest : List Instr} (h : s.pending = c :: rest) : step s = exec c { s with pending := rest } := by
  unfold step
  rw [h]

/-- Settles O54: `step_front` where a command waits, `step_idle` where none does. -/
theorem stepRunsFrontCommand : Obligations.StepRunsFrontCommand :=
  ⟨fun _ _ => step_front rfl, fun _ _ _ h => step_front h, fun _ h => step_idle h⟩

/-- A step with a command waiting takes it and leaves the rest of the queue. -/
theorem step_takes_front {s : State} {c : Instr} {rest : List Instr} (h : s.pending = c :: rest) :
    ∃ t, step s = .next t ∧ t.pending = rest := by
  rw [step_front h]
  exact everyCommandCompletes c { s with pending := rest }

theorem run_of_next {M : Host.Core} {s u : M.State} (h : M.step s = .next u) (k : Nat) : M.run (k + 1) s = M.run k u := by
  rw [Host.Core.run, h]

/-- As many steps as there are commands to take take them from the front. -/
theorem run_drops : ∀ (k : Nat) (s : State), k ≤ s.pending.length →
    ∃ t : State, Host.Core.run Sys2Proof.core k s = .next t ∧ t.pending = s.pending.drop k
  | 0, s, _ => ⟨s, rfl, rfl⟩
  | k + 1, s, hk => by
    cases hp : s.pending with
    | nil => simp [hp] at hk
    | cons c rest =>
      obtain ⟨u, hu, hrest⟩ := step_takes_front hp
      obtain ⟨t, ht, hdrop⟩ := run_drops k u (by simpa [hrest, hp] using hk)
      exact ⟨t, (run_of_next (M := Sys2Proof.core) hu k).trans ht, by rw [hdrop, hrest, List.drop_succ_cons]⟩

/-- What is left of a queue of commands that can be spelled can be spelled. -/
theorem queueOk_of_drop {s t : State} {k : Nat} (ht : t.pending = s.pending.drop k) (hs : s.queueOk = true) : t.queueOk = true := by
  unfold State.queueOk at hs ⊢
  rw [List.all_eq_true] at hs ⊢
  exact fun i hi => hs i (List.mem_of_mem_drop (ht ▸ hi))

/-- Settles O57: `k` steps take the first `k` commands (`run_drops`), so what is left is part of what waited (`queueOk_of_drop`). -/
theorem queueDrains : Obligations.QueueDrains := by
  unfold Obligations.QueueDrains
  refine ⟨fun s => ?ends, fun k s hk => ?under_way⟩
  case ends =>
    obtain ⟨t, ht, hdrop⟩ := run_drops _ s le_rfl
    exact ⟨t, ht, hdrop.trans List.drop_length⟩
  case under_way =>
    obtain ⟨t, ht, hdrop⟩ := run_drops k s hk
    exact ⟨t, ht, hdrop, queueOk_of_drop hdrop⟩

/-! ### Reset -/

/-- Settles O59: the tables after reset are empty but for the fields that reset writes. -/
theorem resetIsCanonical : Obligations.ResetIsCanonical := by
  unfold Obligations.ResetIsCanonical
  decide +kernel

/-- A field that is in no table reads as its reset value. -/
theorem fld_empty (f : Fld) : Tab.fld [] f = f.reset := Nat.zero_xor _

/-- A register that reset does not write reads as its reset value. -/
theorem reset_reg {f : Fld} (hf : f.key ∉ resetRegs.map (·.1.key)) : Engine.reset.reg f = f.reset := by
  have hunwritten : ∀ x ∈ resetRegs, f.key ≠ x.1.key := fun x hx he => hf (List.mem_map.mpr ⟨x, hx, he.symm⟩)
  have hregs : Engine.reset.regs = Tab.puts [] resetRegs := rfl
  rw [Engine.reg, hregs, Tab.fld_puts_ne resetRegs rfl hunwritten, fld_empty]

/-- Settles O55: the parts that are empty are so by definition, a field outside what reset writes reads as its reset value (`reset_reg`),
and the cores, chains and blits are idle one by one. -/
theorem resetState : Obligations.ResetState := by
  unfold Obligations.ResetState
  refine ⟨rfl, ?boot, ?unlocked, rfl, rfl, fun f => ⟨fld_empty f, fld_empty f⟩, fun f hf => reset_reg hf, rfl, rfl, rfl, rfl, rfl, rfl, ?coil, ?sense,
    rfl, ?cores, ?chains, ?blits, rfl⟩
  case boot => exact reset_reg (by decide +kernel)
  case unlocked => decide +kernel
  case coil => exact reset_reg (by decide +kernel)
  case sense => exact reset_reg (by decide +kernel)
  case cores => decide +kernel
  case chains => decide +kernel
  case blits => decide +kernel

end Sys2Proof.Machine
end

/-! ## The Spire instruction set: opcode 0x00 and immediates (Table 13.3) -/

section
namespace Sys2Proof.Machine

/-! ### The functions of Table 13.3 as the numbers they give -/

theorem flagWord_eq_ite {c : Bool} {p : Prop} [Decidable p] (h : c = true ↔ p) : flagWord c = if p then 1 else 0 := if_congr h rfl rfl

theorem shiftLeft_eq_ofNat (a : BitVec 32) (n : Nat) : a <<< n = BitVec.ofNat 32 (a.toNat * 2 ^ n) := by
  apply BitVec.eq_of_toNat_eq
  rw [BitVec.toNat_shiftLeft, BitVec.toNat_ofNat, Nat.shiftLeft_eq]

theorem shiftRight_eq_ofNat (a : BitVec 32) (n : Nat) : a >>> n = BitVec.ofNat 32 (a.toNat / 2 ^ n) := by
  rw [← Nat.shiftRight_eq_div_pow, ← BitVec.toNat_ushiftRight, BitVec.ofNat_toNat, BitVec.setWidth_eq]

theorem sshiftRight_eq_ofInt (a : BitVec 32) (n : Nat) : a.sshiftRight n = BitVec.ofInt 32 (a.toInt / 2 ^ n) := by
  have hpow : ((2 ^ n : Nat) : Int) = 2 ^ n := by norm_cast
  rw [← hpow, ← Int.shiftRight_eq_div_pow, ← BitVec.toInt_sshiftRight, BitVec.ofInt_toInt]

/-- The lesser of two words, by a test that tells which. -/
theorem pick_min {α : Type} [LinearOrder α] {c : Bool} {a b : BitVec 32} {val : BitVec 32 → α} {of : α → BitVec 32}
    (hof : ∀ x, of (val x) = x) (hc : c = true ↔ val a < val b) : (if c then a else b) = of (min (val a) (val b)) := by
  rcases lt_or_ge (val a) (val b) with h | h
  · rw [if_pos (hc.mpr h), min_eq_left h.le, hof]
  · rw [if_neg (mt hc.mp h.not_gt), min_eq_right h, hof]

/-- The greater of two words, by a test that tells which. -/
theorem pick_max {α : Type} [LinearOrder α] {c : Bool} {a b : BitVec 32} {val : BitVec 32 → α} {of : α → BitVec 32}
    (hof : ∀ x, of (val x) = x) (hc : c = true ↔ val a < val b) : (if c then b else a) = of (max (val a) (val b)) := by
  rcases lt_or_ge (val a) (val b) with h | h
  · rw [if_pos (hc.mpr h), max_eq_right h.le, hof]
  · rw [if_neg (mt hc.mp h.not_gt), max_eq_left h, hof]

theorem ofNat_toNat_word (x : BitVec 32) : BitVec.ofNat 32 x.toNat = x := by rw [BitVec.ofNat_toNat, BitVec.setWidth_eq]

theorem ofInt_toInt_word (x : BitVec 32) : BitVec.ofInt 32 x.toInt = x := BitVec.ofInt_toInt

/-- Where `n` is the first number below `m` that does not satisfy `p`, or `m` itself, `n` numbers come before it. -/
theorem length_takeWhile_range {p : Nat → Bool} {m n : Nat} (hn : n ≤ m) (hp : ∀ i < n, p i = true) (hend : n < m → p n = false) :
    ((List.range m).takeWhile p).length = n := by
  obtain ⟨k, rfl⟩ := Nat.exists_eq_add_of_le hn
  have hall : ∀ i ∈ List.range n, p i = true := fun i hi => hp i (List.mem_range.mp hi)
  rw [List.range_add, List.takeWhile_append_of_pos hall, List.length_append, List.length_range, Nat.add_eq_left, List.length_eq_zero_iff]
  cases k with
  | zero => rfl
  | succ k =>
    rw [List.range_succ_eq_map, List.map_cons, Nat.add_zero, List.takeWhile_cons_of_neg]
    simpa using hend (by omega)

/-- A word below 2^(32 − n) and not below 2^(31 − n) has `n` leading zeros. -/
theorem clzWord_eq {a : BitVec 32} {n : Nat} (hn : n ≤ 32) (hlt : a.toNat < 2 ^ (32 - n)) (hge : n < 32 → 2 ^ (31 - n) ≤ a.toNat) :
    clzWord a = n := by
  refine length_takeWhile_range hn (fun i hi => ?clear) (fun h32 => ?set)
  case clear =>
    have hbit : a.toNat < 2 ^ (31 - i) := lt_of_lt_of_le hlt (Nat.pow_le_pow_right (by decide) (by omega))
    rw [Bool.not_eq_true', ← BitVec.testBit_toNat]
    exact Nat.testBit_lt_two_pow hbit
  case set =>
    have hnext : 32 - n = 31 - n + 1 := by omega
    rw [Bool.not_eq_false', ← BitVec.testBit_toNat]
    exact Nat.testBit_of_two_pow_le_and_two_pow_add_one_gt (hge h32) (hnext ▸ hlt)

/-- Settles O1: each row puts its function of ra and rb on its way to rd (`opA_gives`); a comparison is a flag (`flagWord_eq_ite`), a shift a
product or quotient by a power of 2, a minimum or maximum the operand that the test picks (`pick_min`, `pick_max`), CLZ by `clzWord_eq`. -/
theorem spireArithmetic : Obligations.SpireArithmetic := by
  unfold Obligations.SpireArithmetic
  intro k rd ra rb s
  dsimp only
  refine ⟨?add, ?sub, ?and, ?or, ?xor, ?nor, ?slt, ?sltu, ?shl, ?shr, ?shra, ?min, ?max, ?minu, ?maxu, fun n hn hlt hge => ?clz⟩
  case add => exact opA_gives rfl
  case sub => exact opA_gives rfl
  case and => exact opA_gives rfl
  case or => exact opA_gives rfl
  case xor => exact opA_gives rfl
  case nor => exact opA_gives rfl
  case slt => exact opA_gives (flagWord_eq_ite BitVec.slt_iff_toInt_lt)
  case sltu => exact opA_gives (flagWord_eq_ite BitVec.ult_iff_toNat_lt)
  case shl => exact opA_gives (shiftLeft_eq_ofNat _ _)
  case shr => exact opA_gives (shiftRight_eq_ofNat _ _)
  case shra => exact opA_gives (sshiftRight_eq_ofInt _ _)
  case min => exact opA_gives (pick_min ofInt_toInt_word BitVec.slt_iff_toInt_lt)
  case max => exact opA_gives (pick_max ofInt_toInt_word BitVec.slt_iff_toInt_lt)
  case minu => exact opA_gives (pick_min ofNat_toNat_word BitVec.ult_iff_toNat_lt)
  case maxu => exact opA_gives (pick_max ofNat_toNat_word BitVec.ult_iff_toNat_lt)
  case clz => exact opA_gives (congrArg w32 (clzWord_eq hn hlt hge))

/-! ### Immediates -/

/-- An instruction of format K puts `f ra imm` on its way to `rd`. -/
theorem opK_gives {k op : Nat} {rd ra : BitVec 5} {imm : BitVec 16} {f : BitVec 32 → BitVec 16 → BitVec 32} {v : BitVec 32} {s : State}
    (hv : f (((issuing k s).core k).word ra) imm = v) (h : ReadyFor k (wordK op rd ra imm) false s) :
    Issues k s (.next { s with eng := opK k op rd ra imm f s.eng }) (SpireCore.gives rd v.toNat 1) :=
  issueTo_gives h (congrArg BitVec.toNat hv)

theorem zeroExtend_eq_ofNat (i : BitVec 16) : i.zeroExtend 32 = BitVec.ofNat 32 i.toNat := (BitVec.ofNat_toNat 32 i).symm

/-- A signed comparison with an extended immediate is one with the immediate. -/
theorem slt_signExtend {a : BitVec 32} {i : BitVec 16} : a.slt (i.signExtend 32) = true ↔ a.toInt < i.toInt := by
  rw [BitVec.slt_iff_toInt_lt, BitVec.toInt_signExtend_of_le (by decide)]

/-- Settles O3: each row puts its function of ra and imm16 on its way to rd (`opK_gives`); the immediate is extended with zeros
(`zeroExtend_eq_ofNat`) or, as `BitVec.signExtend` is defined, with its sign. -/
theorem spireImmediates : Obligations.SpireImmediates := by
  unfold Obligations.SpireImmediates
  intro k rd ra imm s
  dsimp only
  refine ⟨?addk, ?andk, ?ork, ?xork, ?sltk, ?sltuk, ?shlk, ?shrk, ?shrak, ?movh⟩
  case addk => exact opK_gives rfl
  case andk => exact opK_gives (congrArg _ (zeroExtend_eq_ofNat imm))
  case ork => exact opK_gives (congrArg _ (zeroExtend_eq_ofNat imm))
  case xork => exact opK_gives (congrArg _ (zeroExtend_eq_ofNat imm))
  case sltk => exact opK_gives (flagWord_eq_ite slt_signExtend)
  case sltuk => exact opK_gives (flagWord_eq_ite BitVec.ult_iff_toNat_lt)
  case shlk => exact opK_gives (shiftLeft_eq_ofNat _ _)
  case shrk => exact opK_gives (shiftRight_eq_ofNat _ _)
  case shrak => exact opK_gives (sshiftRight_eq_ofInt _ _)
  case movh => exact opK_gives ((shiftLeft_eq_ofNat _ _).trans (by rw [BitVec.toNat_setWidth_of_le (by decide)]))

end Sys2Proof.Machine
end

/-! ## Functions over staged fields: timing, links, Domes, Turret, sequencer, Finial, Belfry, cores and Tandem -/

section
namespace Sys2Proof.Machine

/-- Settles O15: the rows of timing and of the links stage their writes as basic or expert commands do (`runConfig_basic`,
`runConfig_expert`). -/
theorem timingLinkFields : Obligations.TimingLinkFields := by
  unfold Obligations.TimingLinkFields
  refine ⟨?setSource, ?setOrbit, ?setMult, ?setAlign, ?rawRelease, ?laneMode, ?setSources, ?eqMode, ?setTrx, ?rawLanes, ?rawSources⟩
  case setSource => exact runConfig_basic (fun _ _ => rfl) rfl
  case setOrbit => exact runConfig_basic (fun _ _ => rfl) rfl
  case setMult => exact runConfig_basic (fun _ _ => rfl) rfl
  case setAlign => exact runConfig_basic (fun _ _ => rfl) rfl
  case rawRelease => exact runConfig_expert (fun _ _ => rfl) (by decide)
  case laneMode => exact runConfig_basic (w := wLaneMode) (fun _ _ => rfl) rfl
  case setSources => exact runConfig_basic (w := wSetSources) (fun _ _ => rfl) rfl
  case eqMode => exact runConfig_basic (w := wEqMode) (fun _ _ => rfl) rfl
  case setTrx => exact runConfig_basic (w := wSetTrx) (fun _ _ => rfl) rfl
  case rawLanes => exact runConfig_expert (w := wRawLanes) (fun _ _ => rfl) (by decide)
  case rawSources => exact runConfig_expert (w := wRawSources) (fun _ _ => rfl) (by decide)

/-- Settles O17: a Dome's layers, blending, formats, policies and regions are basic functions (`runConfig_basic`), its raw tables expert ones
(`runConfig_expert`). -/
theorem domeFields : Obligations.DomeFields := by
  unfold Obligations.DomeFields
  refine ⟨?setLayer, ?setBlend, ?setFormat, ?setPolicy, ?setDome, ?setRegion, ?rawLayers, ?rawIlut, ?rawOlut, ?rawAlpha⟩
  case setLayer => exact runConfig_basic (w := wSetLayer) (fun _ _ => rfl) rfl
  case setBlend => exact runConfig_basic (w := wSetBlend) (fun _ _ => rfl) rfl
  case setFormat => exact runConfig_basic (w := wSetFormat) (fun _ _ => rfl) rfl
  case setPolicy => exact runConfig_basic (w := wSetPolicy) (fun _ _ => rfl) rfl
  case setDome => exact runConfig_basic (w := wSetDome) (fun _ _ => rfl) rfl
  case setRegion => exact runConfig_basic (w := wSetRegion) (fun _ _ => rfl) rfl
  case rawLayers => exact runConfig_expert (w := wRawLayers) (fun _ _ => rfl) (by decide)
  case rawIlut => exact runConfig_expert (w := wRawIlut) (fun _ _ => rfl) (by decide)
  case rawOlut => exact runConfig_expert (w := wRawOlut) (fun _ _ => rfl) (by decide)
  case rawAlpha => exact runConfig_expert (w := wRawAlpha) (fun _ _ => rfl) (by decide)

/-- Settles O19: thresholds, classes and sprites are basic functions (`runConfig_basic`), their raw tables expert ones (`runConfig_expert`). -/
theorem turretFields : Obligations.TurretFields := by
  unfold Obligations.TurretFields
  refine ⟨?setSeed, ?setFootprint, ?setLimits, ?setClass, ?setSprite, ?spriteWindow, ?spriteEnable, ?loadSprite, ?spriteArmed, ?rawTurret,
    ?rawClasses, ?rawSprites, ?rawSprmem⟩
  case setSeed => exact runConfig_basic (w := wSetSeed) (fun _ _ => rfl) rfl
  case setFootprint => exact runConfig_basic (w := wSetFootprint) (fun _ _ => rfl) rfl
  case setLimits => exact runConfig_basic (w := wSetLimits) (fun _ _ => rfl) rfl
  case setClass => exact runConfig_basic (w := wSetClass) (fun _ _ => rfl) rfl
  case setSprite => exact runConfig_basic (w := wSetSprite) (fun _ _ => rfl) rfl
  case spriteWindow => exact runConfig_basic (w := wSpriteWindow) (fun _ _ => rfl) rfl
  case spriteEnable => exact runConfig_basic (w := wSpriteEnable) (fun _ _ => rfl) rfl
  case loadSprite => exact runConfig_basic (w := wLoadSprite) (fun _ _ => rfl) rfl
  case spriteArmed => exact runConfig_basic (w := wSpriteArmed) (fun _ _ => rfl) rfl
  case rawTurret => exact runConfig_expert (w := wRawTurret) (fun _ _ => rfl) (by decide)
  case rawClasses => exact runConfig_expert (w := wRawClasses) (fun _ _ => rfl) (by decide)
  case rawSprites => exact runConfig_expert (w := wRawSprites) (fun _ _ => rfl) (by decide)
  case rawSprmem => exact runConfig_expert (w := wRawSprmem) (fun _ _ => rfl) (by decide)

/-- Settles O20: lists, conditions, lines, inputs and outputs are basic functions (`runConfig_basic`), their raw tables expert ones
(`runConfig_expert`). -/
theorem finialFields : Obligations.FinialFields := by
  unfold Obligations.FinialFields
  refine ⟨?loadList, ?enableList, ?rawList, ?setCond, ?setLine, ?setDeadtime, ?setPsmode, ?setInput, ?rawConds, ?rawLines, ?setNimout,
    ?setDlane, ?rawOuts⟩
  case loadList => exact runConfig_basic (w := wLoadList) (fun _ _ => rfl) rfl
  case enableList => exact runConfig_basic (w := wEnableList) (fun _ _ => rfl) rfl
  case rawList => exact runConfig_expert (w := wRawList) (fun _ _ => rfl) (by decide)
  case setCond => exact runConfig_basic (w := wSetCond) (fun _ _ => rfl) rfl
  case setLine => exact runConfig_basic (w := wSetLine) (fun _ _ => rfl) rfl
  case setDeadtime => exact runConfig_basic (w := wSetDeadtime) (fun _ _ => rfl) rfl
  case setPsmode => exact runConfig_basic (w := wSetPsmode) (fun _ _ => rfl) rfl
  case setInput => exact runConfig_basic (w := wSetInput) (fun _ _ => rfl) rfl
  case rawConds => exact runConfig_expert (w := wRawConds) (fun _ _ => rfl) (by decide)
  case rawLines => exact runConfig_expert (w := wRawLines) (fun _ _ => rfl) (by decide)
  case setNimout => exact runConfig_basic (w := wSetNimout) (fun _ _ => rfl) rfl
  case setDlane => exact runConfig_basic (w := wSetDlane) (fun _ _ => rfl) rfl
  case rawOuts => exact runConfig_expert (w := wRawOuts) (fun _ _ => rfl) (by decide)

/-- Settles O21: inputs, gains, filters, buses and monitors are basic functions (`runConfig_basic`), the raw tables expert ones
(`runConfig_expert`). -/
theorem belfryFields : Obligations.BelfryFields := by
  unfold Obligations.BelfryFields
  refine ⟨?belSetInput, ?setTmo, ?setGains, ?setFir, ?setBusmap, ?setMonitor, ?belRawMatrix, ?rawFir, ?rawInputs⟩
  case belSetInput => exact runConfig_basic (w := wBelSetInput) (fun _ _ => rfl) rfl
  case setTmo => exact runConfig_basic (w := wSetTmo) (fun _ _ => rfl) rfl
  case setGains => exact runConfig_basic (w := wSetGains) (fun _ _ => rfl) rfl
  case setFir => exact runConfig_basic (w := wSetFir) (fun _ _ => rfl) rfl
  case setBusmap => exact runConfig_basic (w := wSetBusmap) (fun _ _ => rfl) rfl
  case setMonitor => exact runConfig_basic (w := wSetMonitor) (fun _ _ => rfl) rfl
  case belRawMatrix => exact runConfig_expert (w := wBelRawMatrix) (fun _ _ => rfl) (by decide)
  case rawFir => exact runConfig_expert (w := wRawFir) (fun _ _ => rfl) (by decide)
  case rawInputs => exact runConfig_expert (w := wRawInputs) (fun _ _ => rfl) (by decide)

/-- Settles O22: every function is basic and stages its writes (`runConfig_basic`). -/
theorem coreAndTandemFields : Obligations.CoreAndTandemFields := by
  unfold Obligations.CoreAndTandemFields
  refine ⟨?loadProgram, ?setInterleave, ?run, ?coreEntry, ?loadTable, ?setPortmap, ?setRole⟩
  case loadProgram => exact runConfig_basic (w := wLoadProgram) (fun _ _ => rfl) rfl
  case setInterleave => exact runConfig_basic (w := wSetInterleave) (fun _ _ => rfl) rfl
  case run => exact runConfig_basic (w := wRun) (fun _ _ => rfl) rfl
  case coreEntry => exact runConfig_basic (w := wCoreEntry) (fun _ _ => rfl) rfl
  case loadTable => exact runConfig_basic (w := wLoadTable) (fun _ _ => rfl) rfl
  case setPortmap => exact runConfig_basic (w := wSetPortmap) (fun _ _ => rfl) rfl
  case setRole => exact runConfig_basic (w := wSetRole) (fun _ _ => rfl) rfl

end Sys2Proof.Machine
end

/-! ## Functions that act at once or answer later: movers, blitters, security, Tandem, power -/

section
namespace Sys2Proof.Machine

/-- Settles O28: each function runs as an action (`runAction_does`); an abort of a running chain and a blit that starts answer later. -/
theorem moverFunctions : Obligations.MoverFunctions := by
  unfold Obligations.MoverFunctions
  refine ⟨?start, ?setNext, ?dmaAbort, ?dmaSetChannel, ?setArb, ?rawChannels, ?blit, ?setGap, ?bltAbort⟩
  case start => exact runAction_does (act := actStart) fun _ _ => rfl
  case setNext => exact runAction_does (act := fun e p => dmaNextWrite (dmaHoldNext e p.target (p.arg 1)) p.target (p.arg 0)) fun _ _ => rfl
  case dmaAbort => exact runAsync_does (act := actDmaAbort) (fun _ _ => rfl) fun _ _ => rfl
  case dmaSetChannel => exact runAction_does (act := fun e p => e.setReg (Reg.DMA_CFG_PRIO p.target) (p.arg 0)) fun _ _ => rfl
  case setArb => exact runAction_does (act := fun e p => e.setReg Reg.DMA_ARB_MODE (p.arg 0)) fun _ _ => rfl
  case rawChannels => exact runAction_does (act := fun e p => (List.range (p.nwords / 4)).foldl (rawChannel p) e) fun _ _ => rfl
  case blit => exact runAsync_does (act := actBlit) (fun _ _ => rfl) fun _ _ => rfl
  case setGap => exact runAction_does (act := fun e p => e.setReg (Reg.BLT_GAP_GAP p.target) (p.arg 0)) fun _ _ => rfl
  case bltAbort => exact runAction_does (act := fun e p => bltAbort e p.target) fun _ _ => rfl

/-- Settles O29: reports, the switch, state requests and the reset answer by themselves (`runAsync_does`), the others run as actions
(`runAction_does`). -/
theorem securityTandemPowerFunctions : Obligations.SecurityTandemPowerFunctions := by
  unfold Obligations.SecurityTandemPowerFunctions
  refine ⟨?attest, ?fwActivate, ?fwConfirm, ?raiseFloor, ?switchPermit, ?clearDemote, ?rawLink, ?reqState, ?setAvs, ?reset, ?setWake,
    ?setFillcmd, ?setTlim, ?rawDomains⟩
  case attest => exact runAsync_does (fun _ _ => rfl) fun _ _ => rfl
  case fwActivate =>
    exact runAction_does (act := fun e p => ((e.setReg Reg.SEC_FW_NEXT p.target).setReg Reg.SEC_FW_TRIAL 1).setReg Reg.SEC_FW_TRIED 0)
      fun _ _ => rfl
  case fwConfirm => exact runAction_does (act := fun e _ => endTrial e) fun _ _ => rfl
  case raiseFloor => exact runAction_does (act := actRaiseFloor) fun _ _ => rfl
  case switchPermit => exact runAsync_does (act := actSwitch) (fun _ _ => rfl) fun _ _ => rfl
  case clearDemote =>
    exact runAction_does (act := fun e _ => Engine.setReg { e with tdm := { e.tdm with mism := [] } } Reg.TDM_STAT_DEMOTED 0) fun _ _ => rfl
  case rawLink => exact runAction_does (act := fun e p => e.laterAll (wRawLink p)) fun _ _ => rfl
  case reqState => exact runAsync_does (fun _ _ => rfl) fun _ _ => rfl
  case setAvs => exact runAction_does fun _ _ => rfl
  case reset => exact runAsync_does (fun _ _ => rfl) fun _ _ => rfl
  case setWake => exact runAction_does fun _ _ => rfl
  case setFillcmd => exact runAction_does (act := fun e p => e.later Reg.PWR_CTL_FILLCMD (p.arg 0)) fun _ _ => rfl
  case setTlim => exact runAction_does (act := fun e p => e.later Reg.PWR_TLIM_WARN (p.arg 0)) fun _ _ => rfl
  case rawDomains => exact runAction_does fun _ _ => rfl

/-! ### Functions that deliver objects (R396) -/

/-- What a packet that fits its transfer satisfies (R396). -/
theorem xferFits_iff (p : Packet) (cur : Option Xfer) :
    xferFits p cur = true ↔ p.arg 0 = (cur.map (·.seq)).getD 0 ∧ (∀ x, cur = some x → x.total = p.arg 2)
      ∧ ((cur.map (·.data)).getD []).length + p.length ≤ p.arg 2
      ∧ (if p.last then ((cur.map (·.data)).getD []).length + p.length = p.arg 2 else p.length = 65536) := by
  unfold xferFits
  cases cur <;> cases p.last <;> simp [and_assoc]

/-- The transfer that packet `p` of function `op` goes on with: none where it starts one. -/
def openXfer (op : Nat) (e : Engine) (p : Packet) : Option Xfer := if p.first then none else xferOf e op

/-- The transfer that packet `p` belongs to, before its bytes are added. -/
def joinedXfer (op : Nat) (e : Engine) (p : Packet) : Xfer := (openXfer op e p).getD ⟨op, p.ring, p.ctx, p.target, p.arg 2, 0, []⟩

/-- Packet `p` is the next one of its transfer. -/
def nextInXfer (op : Nat) (e : Engine) (p : Packet) : Bool := (p.first || (openXfer op e p).isSome) && xferFits p (openXfer op e p)

/-- The engine once packet `p` has taken its transfer's place and firmware its slot. -/
def storedXfer (op : Nat) (e : Engine) (p : Packet) : Engine :=
  let e0 := if p.first then closeXfer e op else e
  if op = 0x1312 then putSlot e0 p.target ((joinedXfer op e p).data ++ p.payload) false else e0

/-- What taking packet `p` does, by whether it is the next one and the last one of its transfer (R396). -/
theorem takePacket_eq (op : Nat) (e : Engine) (p : Packet) :
    takePacket op e p = if nextInXfer op e p then
        let x := joinedXfer op e p
        let e1 := storedXfer op e p
        let others := e1.sec.xfers.filter (fun y => y.op != op)
        let data := x.data ++ p.payload
        if p.last then
          { putXfers e1 others with sec := { (putXfers e1 others).sec with
              verifs := (putXfers e1 others).sec.verifs ++ [⟨op, { p with payload := [] }, data⟩] } }
        else (putXfers e1 (others ++ [{ x with seq := x.seq + 1, data := data }])).complete p .ok
      else (closeXfer (if p.first then closeXfer e op else e) op).complete p (.range 8) := by
  have hflip : ((!p.first && (openXfer op e p).isNone) || !xferFits p (openXfer op e p)) = !nextInXfer op e p := by
    unfold nextInXfer
    cases p.first <;> cases openXfer op e p <;> simp
  have hcur : (if p.first = true then none else xferOf e op) = openXfer op e p := rfl
  unfold takePacket
  simp only [hcur]
  rw [hflip]
  cases nextInXfer op e p <;> rfl

/-- Taking a packet in does what R396 says of it. -/
theorem takePacket_delivers (op : Nat) (e : Engine) (p : Packet) : Delivers op e p (takePacket op e p) := by
  unfold Delivers
  intro cur got inOrder e0 data e1 others
  have hcur : openXfer op e p = cur := rfl
  have hdata : (joinedXfer op e p).data = got := by
    rw [joinedXfer, hcur]
    cases hc : cur <;> simp [got, hc]
  have hstored : storedXfer op e p = e1 := by rw [storedXfer, hdata]
  have hnext : nextInXfer op e p = true ↔ inOrder := by
    rw [nextInXfer, hcur, Bool.and_eq_true, xferFits_iff, Bool.or_eq_true, and_left_comm]
  rw [takePacket_eq]
  refine ⟨fun h => ?misfit, fun h hl => ?between, fun h hl => ?last⟩
  case misfit => rw [if_neg (mt hnext.mp h)]
  case between =>
    have hseq : (joinedXfer op e p).seq = p.arg 0 := by
      rw [h.1, joinedXfer, hcur]
      cases cur <;> rfl
    rw [if_pos (hnext.mpr h)]
    dsimp only
    rw [hdata, hstored, hseq, hl]
    refine ⟨_, rfl, rfl, fun y hy => ?joins, fun hn => ?starts, rfl⟩
    case joins => simp [joinedXfer, hcur, hy]
    case starts => simp [joinedXfer, hcur, hn]
  case last =>
    rw [if_pos (hnext.mpr h)]
    dsimp only
    rw [hdata, hstored, hl]
    exact ⟨rfl, rfl⟩

/-- A function that delivers an object takes its packets as R396 states. -/
theorem runXfer_delivers {i : Packet → Instr} {f : Fn} {extra : Engine → Packet → Option Status}
    (hx : ∀ p s, exec (i p) s = .next { s with eng := runXfer f extra p s.eng }) : AsyncCommand i f (xferExtra f.op extra) (Delivers f.op) :=
  runAsync_does (takePacket_delivers f.op) hx

/-- Settles O32: each function takes its packets by `takePacket`, as R396 states (`runXfer_delivers`). -/
theorem objectTransfers : Obligations.ObjectTransfers := by
  unfold Obligations.ObjectTransfers
  refine ⟨?installBundle, ?loadBitstream, ?repair, ?fwUpdate, ?ownerClaim, ?ownerHandover, ?ownerReset⟩
  case installBundle => exact runXfer_delivers (f := fnXfer 0x0610 1) fun _ _ => rfl
  case loadBitstream => exact runXfer_delivers (f := fnXfer 0x0C10 1) fun _ _ => rfl
  case repair => exact runXfer_delivers (f := fnXfer 0x1012 1) fun _ _ => rfl
  case fwUpdate => exact runXfer_delivers (f := fnXfer 0x1312 2) fun _ _ => rfl
  case ownerClaim => exact runXfer_delivers (f := { fnXfer 0x1316 1 with owner := zeroOnly }) fun _ _ => rfl
  case ownerHandover => exact runXfer_delivers (f := fnXfer 0x1317 1) fun _ _ => rfl
  case ownerReset => exact runXfer_delivers (f := { fnXfer 0x1318 1 with owner := zeroOnly }) fun _ _ => rfl

end Sys2Proof.Machine
end

/-! ## Shared and capture memory -/

section
namespace Sys2Proof.Machine

/-- Equal engines make equal next states. -/
theorem next_congr {s : State} {e f : Engine} (h : e = f) :
    (.next { s with eng := e } : Host.Outcome State Fault Refusal) = .next { s with eng := f } := by
  rw [h]

/-! ### The access that port 1 serves (R357) -/

/-- Port 1 picks the first requester in turn that has an access in the bank. -/
theorem portPick_first {e : Engine} {bank : Nat} {before after : List Requester} {q : Requester} {w : Requester × PortAccess}
    (horder : requesters.drop (e.mem.served.get bank) ++ requesters.take (e.mem.served.get bank) = before ++ q :: after)
    (hbefore : ∀ x ∈ e.mem.waiting, inBank bank x.2 = true → x.1 ∉ before)
    (hw : e.mem.waiting.find? (fun x => x.1 == q && inBank bank x.2) = some w) : portPick e bank = some w := by
  have hskip : before.findSome? (fun r => e.mem.waiting.find? (fun x => x.1 == r && inBank bank x.2)) = none := by
    rw [List.findSome?_eq_none_iff]
    intro r hr
    rw [List.find?_eq_none]
    intro x hx hxr
    rw [Bool.and_eq_true, beq_iff_eq] at hxr
    exact hbefore x hx hxr.2 (hxr.1 ▸ hr)
  unfold portPick
  dsimp only
  rw [horder, List.findSome?_append, hskip, Option.none_or, List.findSome?_cons, hw]

/-- With no access in the bank port 1 picks none. -/
theorem portPick_none {e : Engine} {bank : Nat} (h : ∀ x ∈ e.mem.waiting, inBank bank x.2 = false) : portPick e bank = none := by
  unfold portPick
  rw [List.findSome?_eq_none_iff]
  intro q _
  rw [List.find?_eq_none]
  intro x hx hxq
  rw [h x hx, Bool.and_false] at hxq
  exact Bool.false_ne_true hxq

theorem serveBank_pick {bank : Nat} {port0 : Option PortAccess} {e : Engine} {w : Requester × PortAccess} (h : portPick e bank = some w) :
    serveBank bank port0 e = bankCycle port0 (some w.2) { e with mem := { e.mem with
      waiting := e.mem.waiting.erase w, served := e.mem.served.set bank (1 + requesters.idxOf w.1) } } := by
  unfold serveBank
  rw [h]

/-- With nothing to serve at port 1 a corrected word of the bank is written back (R360). -/
theorem serveBank_back {bank k : Nat} {port0 : Option PortAccess} {e : Engine} (h : portPick e bank = none)
    (hk : (bankCycle port0 none e).mem.wback.find? (fun k => 8 * k / 262144 == bank) = some k) :
    serveBank bank port0 e = wordBack (bankCycle port0 none e) k := by
  unfold serveBank
  rw [h]
  dsimp only
  rw [hk]

theorem serveBank_idle {bank : Nat} {port0 : Option PortAccess} {e : Engine} (h : portPick e bank = none)
    (hk : (bankCycle port0 none e).mem.wback.find? (fun k => 8 * k / 262144 == bank) = none) :
    serveBank bank port0 e = bankCycle port0 none e := by
  unfold serveBank
  rw [h]
  dsimp only
  rw [hk]

/-! ### Simultaneous accesses (R358) -/

section
variable {e : Engine}

/-- With no errors a read returns the bytes. -/
theorem sramRead_clean (h : e.mem.ecc = []) (a n : Nat) : sramRead e a n = (e, (List.range n).map (fun i => sramByte e (a + i)), false) := by
  unfold sramRead errWords
  rw [h]
  rfl

theorem sramBake_clean (h : e.mem.ecc = []) (a n : Nat) : sramBake e a n = (e, false) := by
  unfold sramBake errWords
  rw [h]
  rfl

/-- The word that a port reads. -/
def portWord (e : Engine) (x : PortAccess) : Nat := leVal ((List.range 8).map (fun i => sramByte e (x.offset / 8 * 8 + i)))

theorem portRead_clean (h : e.mem.ecc = []) (a : PortAccess) : portRead e a = (e, portWord e a, false) := by
  unfold portRead
  rw [sramRead_clean h]
  rfl

theorem portWrite_read {a : PortAccess} (h : a.op = .read) : portWrite e a = e := by
  unfold portWrite
  rw [h]

theorem PortAccess.writes_iff (a : PortAccess) : a.writes = true ↔ a.op ≠ .read := by
  unfold PortAccess.writes
  cases a.op <;> simp

/-- What a port shows after a cycle without errors: the word that it reads, or nothing. -/
def portShows (e : Engine) (a : PortAccess) : Nat × Bool := if a.writes then (0, false) else (portWord e a, false)

/-- The engine with what its two ports show. -/
def shown (e : Engine) (a b : PortAccess) : Engine := { e with mem := { e.mem with portRead := [portShows e a, portShows e b] } }

/-- A cycle with both ports in use: they show the words as they were; then port 0 writes, and port 1, but where both write one word. -/
theorem bankCycle_both (h : e.mem.ecc = []) (a b : PortAccess) :
    bankCycle (some a) (some b) e
      = if a.writes && b.writes && a.offset / 8 == b.offset / 8 then
          (((portWrite (shown e a b) a).bump Reg.MEM_WWCOL_COUNT).setReg Reg.MEM_WWADDR_ADDR b.offset).raise Src.wwcol b.offset
        else portWrite (portWrite (shown e a b) a) b := by
  unfold bankCycle shown portShows
  cases ha : a.writes <;> cases hb : b.writes <;> simp [ha, hb, portRead_clean h]

end

/-! ### Stores and aliases (R359) -/

section
variable {e : Engine} {a : Nat} {bs : List Byte}

theorem sramWrite_cells (ha : 2 ^ 22 ≤ a) (h : e.mem.ecc = []) : (sramWrite e a bs).1.mem.cells = memWrite e.mem.cells a bs := by
  unfold sramWrite
  rw [if_neg (by omega)]
  have hhead : (if a % 8 = 0 then (e, false) else sramBake e (a / 8 * 8) 8) = (e, false) := by rw [sramBake_clean h, ite_self]
  rw [hhead]
  dsimp only
  rw [sramBake_clean h, ite_self]
  exact storeBytes_cells _ _ _

theorem aliasWrite_cells (ha : 2 ^ 22 ≤ a) (h : e.mem.ecc = []) (setBits : Bool) :
    (aliasWrite setBits e a bs).1.mem.cells = memWrite e.mem.cells a ((indexed bs).map (fun ib =>
      let old := memGet e.mem.cells (a + ib.1)
      if setBits then old ||| ib.2 else old &&& ~~~ib.2)) := by
  unfold aliasWrite
  rw [if_neg (by omega), sramBake_clean h]
  exact storeBytes_cells _ _ _

theorem length_map_indexed {α β : Type} (f : Nat × α → β) (l : List α) : ((indexed l).map f).length = l.length := by
  simp [indexed]

theorem getElem_map_indexed {α β : Type} (f : Nat × α → β) (l : List α) {i : Nat} (hi : i < l.length) :
    ((indexed l).map f)[i]'(by rwa [length_map_indexed]) = f (i, l[i]) := by
  simp [indexed]

/-- A write that sets or clears bits leaves in each byte what its operation makes of it. -/
theorem memGet_aliasWrite (ha : 2 ^ 22 ≤ a) (h : e.mem.ecc = []) (hm : memWf e.mem.cells = true) (setBits : Bool) {i : Nat} (hi : i < bs.length) :
    memGet (aliasWrite setBits e a bs).1.mem.cells (a + i)
      = if setBits then memGet e.mem.cells (a + i) ||| bs[i] else memGet e.mem.cells (a + i) &&& ~~~bs[i] := by
  rw [aliasWrite_cells ha h, memGet_memWrite_inside _ hm (by rwa [length_map_indexed]), getElem_map_indexed _ _ hi]

end

/-! ### Error correction (R360) -/

theorem eccRead_clean {e : Engine} {k : Nat} (h : e.mem.ecc.get k = 0) : eccRead e k = (e, 0, false) := if_pos h

theorem popCount_zero (n : Nat) : popCount n 0 = 0 := by
  simp [popCount, tbit, bit]

/-- A word with a single bad bit is corrected and waits to be written back. -/
theorem eccRead_single {e : Engine} {k : Nat} (h : popCount 72 (e.mem.ecc.get k) = 1) : eccRead e k = (countCecc (awaitBack e k), 0, false) := by
  have h0 : e.mem.ecc.get k ≠ 0 := fun h0 => by rw [h0, popCount_zero] at h; exact absurd h (by decide)
  unfold eccRead
  rw [if_neg h0, if_pos h]

/-- A word with two bad bits is flagged and returned as it stands. -/
theorem eccRead_double {e : Engine} {k : Nat} (h : popCount 72 (e.mem.ecc.get k) = 2) :
    eccRead e k = (countUecc e k, e.mem.ecc.get k % 2 ^ 64, true) := by
  have h0 : e.mem.ecc.get k ≠ 0 := fun h0 => by rw [h0, popCount_zero] at h; exact absurd h (by decide)
  unfold eccRead
  rw [if_neg h0, if_neg (by rw [h]; decide), if_pos h]

theorem raise_mem (e : Engine) (s d : Nat) : (e.raise s d).mem = e.mem := by
  rw [(raise_events e s d).1]

theorem countCecc_wback (e : Engine) : (countCecc e).mem.wback = e.mem.wback := by
  unfold countCecc
  split
  · rw [raise_mem]
    rfl
  · rfl

theorem countUecc_mem (e : Engine) (k : Nat) : (countUecc e k).mem = e.mem := by
  unfold countUecc
  rw [raise_mem, bump_mem]
  split <;> rfl

theorem awaitBack_wback (e : Engine) (k : Nat) :
    (awaitBack e k).mem.wback = if e.mem.wback.contains k then e.mem.wback else e.mem.wback ++ [k] := by
  unfold awaitBack
  split <;> rfl

/-! ### Compaction of the journal (R370) -/

/-- What a record of the journal holds. -/
def JRec.item (r : JRec) : Nat × Nat × Tab × List Byte := (r.kind, r.val, r.set, r.data)

/-- The journal once its live records stand anew. -/
def Journal.compacted (j : Journal) : Journal :=
  (([0, 1, 2, 3] : List Nat).filterMap j.newest).foldl (fun a r => a.append r.kind r.val r.set r.data r.size) { j with recs := [] }

theorem journalCompact_eq (e : Engine) : journalCompact e = e.putJournal e.mem.journal.compacted := rfl

theorem newest_item (j : Journal) (k : Nat) : (j.newest k).map JRec.item = (j.recs.map JRec.item).reverse.find? (fun x => x.1 == k) := by
  rw [← List.map_reverse, List.find?_map]
  rfl

theorem appended_items : ∀ (l : List JRec) (j : Journal),
    (l.foldl (fun a r => a.append r.kind r.val r.set r.data r.size) j).recs.map JRec.item = j.recs.map JRec.item ++ l.map JRec.item
  | [], _ => by simp
  | r :: l, j => by
    rw [List.foldl_cons, appended_items l, List.map_cons, ← List.singleton_append, ← List.append_assoc]
    congr 1
    simp [Journal.append, JRec.item]

theorem compacted_items (j : Journal) : j.compacted.recs.map JRec.item = (([0, 1, 2, 3] : List Nat).filterMap j.newest).map JRec.item :=
  appended_items _ _

theorem kind_of_newest {j : Journal} {k : Nat} {r : JRec} (h : j.newest k = some r) : r.kind = k := by
  unfold Journal.newest at h
  exact beq_iff_eq.mp (List.find?_some h :)

/-- A journal and its compacted form hold the same newest item of each kind. -/
theorem compacted_newest (j : Journal) {k : Nat} (hk : k < 4) : (j.compacted.newest k).map JRec.item = (j.newest k).map JRec.item := by
  have hkind : ∀ a, (j.newest a).any (fun r => r.kind == k) = ((j.newest k).isSome && a == k) := by
    intro a
    by_cases ha : a = k
    · subst ha
      cases h : j.newest a with
      | none => rfl
      | some r => simp [kind_of_newest h]
    · cases h : j.newest a with
      | none => simp [ha]
      | some r => simp [kind_of_newest h, ha]
  have hfind : (([0, 1, 2, 3] : List Nat).filterMap j.newest).reverse.find? (fun r => r.kind == k) = j.newest k := by
    rw [← List.filterMap_reverse, List.find?_filterMap]
    simp only [hkind]
    cases h : j.newest k with
    | none => simp
    | some r => interval_cases k <;> exact h
  rw [newest_item, compacted_items, ← List.map_reverse, List.find?_map, ← hfind]
  rfl

theorem compacted_cfg (j : Journal) : j.compacted.cfg = j.cfg := by
  have h := congrArg (Option.map (fun x => x.2.2.1)) (compacted_newest j (k := 0) (by decide))
  rw [Option.map_map, Option.map_map] at h
  exact congrArg (Option.getD · []) h

theorem compacted_keepVer (j : Journal) : j.compacted.keepVer = j.keepVer := by
  have h := congrArg (Option.map (fun x => x.2.1)) (compacted_newest j (k := 1) (by decide))
  rw [Option.map_map, Option.map_map] at h
  exact congrArg (Option.getD · 0) h

/-- The bytes of each kind of object are kept. -/
theorem compacted_data (j : Journal) {k : Nat} (hk : k < 4) : ((j.compacted.newest k).map (·.data)).getD [] = ((j.newest k).map (·.data)).getD [] := by
  have h := congrArg (Option.map (fun x => x.2.2.2)) (compacted_newest j hk)
  rw [Option.map_map, Option.map_map] at h
  exact congrArg (Option.getD · []) h

theorem compacted_recs_length (j : Journal) : j.compacted.recs.length ≤ 4 := by
  have h := congrArg List.length (compacted_items j)
  rw [List.length_map, List.length_map] at h
  rw [h]
  exact List.length_filterMap_le _ _

theorem exec_compaction_ends (s : State) (h : s.eng.reg Reg.MEM_JSTAT_COMPACT = 1) :
    exec (.journalCompaction false) s
      = .next { s with eng := (s.eng.putJournal s.eng.mem.journal.compacted).setReg Reg.MEM_JSTAT_COMPACT 0 } := by
  have hlive : (if !false && s.eng.reg Reg.MEM_JSTAT_COMPACT == 1 then journalCompact s.eng else s.eng) = journalCompact s.eng :=
    if_pos (by simp [h])
  exact next_congr (congrArg (Engine.setReg · Reg.MEM_JSTAT_COMPACT 0) hlive)

theorem exec_compaction_idle (s : State) (h : s.eng.reg Reg.MEM_JSTAT_COMPACT ≠ 1) :
    exec (.journalCompaction false) s = .next { s with eng := s.eng.setReg Reg.MEM_JSTAT_COMPACT 0 } := by
  have hidle : (if !false && s.eng.reg Reg.MEM_JSTAT_COMPACT == 1 then journalCompact s.eng else s.eng) = s.eng := if_neg (by simp [h])
  exact next_congr (congrArg (Engine.setReg · Reg.MEM_JSTAT_COMPACT 0) hidle)

/-! ### The scrubber (R362) -/

theorem exec_scrubPass_on {s : State} (h : s.eng.reg Reg.MEM_SCRUB_EN ≠ 0) :
    exec .scrubPass s = .next { s with eng := (s.eng.mem.ecc.map (·.1)).foldl (fun a k => (eccRead a k).1) s.eng } := if_neg h

theorem exec_scrubPass_off {s : State} (h : s.eng.reg Reg.MEM_SCRUB_EN = 0) : exec .scrubPass s = .next s := if_pos h

/-! ### Captures and freezes (R174, R366, R369) -/

theorem exec_captureCopy {s : State} {c : Cap} {cs : List Cap} (hr : s.eng.running = true) (hc : s.eng.out.caps = c :: cs) :
    exec .captureCopy s = .next { s with eng := copyCapture { s.eng with out := { s.eng.out with caps := cs } } c } := by
  change execCaptureCopy s = _
  unfold execCaptureCopy
  rw [hc]
  dsimp only
  rw [if_neg (by simp [hr])]

theorem exec_captureCopy_stopped {s : State} (hr : s.eng.running = false) : exec .captureCopy s = .next s := by
  change execCaptureCopy s = _
  unfold execCaptureCopy
  split
  · rfl
  · rw [if_pos (by simp [hr])]

theorem copyCapture_lost {e : Engine} {c : Cap} (h : (stageFrames e).find? (fun f => f.n == c.n) = none) :
    copyCapture e c = (e.bump Reg.OUT_DCAPDROP_COUNT).raise Src.capDrop 0 := by
  unfold copyCapture
  rw [h]

theorem copyCapture_full {e : Engine} {c : Cap} {f : Frame} (h : (stageFrames e).find? (fun f => f.n == c.n) = some f)
    (hf : stagingSize < e.mem.stageUsed + (captureRecord f c.accept).length) : copyCapture e c = stallCapture e c := by
  unfold copyCapture
  rw [h]
  exact if_pos hf

/-- A capture that no stream sends is appended to its region. -/
theorem copyCapture_stored {e : Engine} {c : Cap} {f : Frame} (h : (stageFrames e).find? (fun f => f.n == c.n) = some f)
    (hf : ¬stagingSize < e.mem.stageUsed + (captureRecord f c.accept).length) (hs : setups f.cfg tCaps = []) :
    copyCapture e c = appendCapture (Engine.bump { e with mem := { e.mem with
      stageUsed := e.mem.stageUsed + (captureRecord f c.accept).length } } Reg.OUT_DCAPCNT_COUNT) (captureRecord f c.accept) := by
  unfold copyCapture
  rw [h]
  dsimp only
  rw [if_neg hf, hs]
  rfl

/-- The engine once slot `k` has taken the freeze with cause `cause`. -/
def frozenIn (e : Engine) (cause k : Nat) : Engine :=
  let e2 := maskBit (maskBit (fillFreeze e k) Reg.MEM_FZSTAT_HELD k true) Reg.MEM_FZSTAT_FAULT k (cause == 1)
  let e3 : Engine := { e2 with mem := { e2.mem with held := e2.mem.held.filter (· != k) ++ [k] } }
  afterFreeze cause (e3.raise Src.freeze k)

section
variable {s : State} {cause : Nat} {rest : List Nat}

theorem exec_freeze_taken {k : Nat} (h : s.eng.out.freezes = cause :: rest)
    (hk : freezeSlot { s.eng with out := { s.eng.out with freezes := rest } } cause = some k) :
    exec .postMortemFreeze s = .next { s with eng := frozenIn { s.eng with out := { s.eng.out with freezes := rest } } cause k } := by
  change execPostMortemFreeze s = _
  unfold execPostMortemFreeze
  rw [h]
  dsimp only
  rw [hk]
  rfl

theorem exec_freeze_dropped (h : s.eng.out.freezes = cause :: rest)
    (hk : freezeSlot { s.eng with out := { s.eng.out with freezes := rest } } cause = none) :
    let e : Engine := { s.eng with out := { s.eng.out with freezes := rest } }
    exec .postMortemFreeze s = .next { s with eng := afterFreeze cause ((e.bump Reg.MEM_FZDROP_COUNT).raise Src.fzDrop 0) } := by
  change execPostMortemFreeze s = _
  unfold execPostMortemFreeze
  rw [h]
  dsimp only
  rw [hk]

end

theorem freezeSlot_free {e : Engine} {cause k : Nat} (h : (List.range 8).find? (fun k => !tbit (e.reg Reg.MEM_FZSTAT_HELD) k) = some k) :
    freezeSlot e cause = some k := by
  unfold freezeSlot
  rw [h]

theorem freezeSlot_held {e : Engine} {cause : Nat} (h : (List.range 8).find? (fun k => !tbit (e.reg Reg.MEM_FZSTAT_HELD) k) = none) :
    freezeSlot e cause = if cause = 1 then e.mem.held.find? (fun k => !tbit (e.reg Reg.MEM_FZSTAT_FAULT) k) else none := by
  unfold freezeSlot
  rw [h]

/-- Settles O47: port 1 by what it picks (`portPick_first`, `portPick_none`), a cycle by what its ports do (`bankCycle_both`), stores and
aliases by the bytes they leave, a read of a bad word by how many of its bits are bad, compaction by the items that the journal holds
(`compacted_newest`), and captures and freezes by whether there is room for them. -/
theorem memoryEvents : Obligations.MemoryEvents := by
  unfold Obligations.MemoryEvents
  refine ⟨fun bank port0 port1 s => ?serves, fun a b e ha hb hecc => ?cycle, fun a bs e ha hecc hm i hi => ?stores, fun k e hwf => ?corrects,
    fun s => ?scrubs, fun s c cs hc => ?captures, fun bs e => storeBytes_cells _ _ _, fun s cause rest hf => ?freezes⟩
  case serves =>
    intro waiting p0 e1 served order o
    refine ⟨fun before after q w horder hbefore hw => ?picks, fun hnone => ?idle⟩
    case picks =>
      have hq : w.1 = q := by
        have hp := List.find?_some hw
        rw [Bool.and_eq_true, beq_iff_eq] at hp
        exact hp.1
      have hs := serveBank_pick (port0 := p0) (portPick_first (e := e1) horder hbefore hw)
      rw [hq] at hs
      exact next_congr hs
    case idle =>
      have hpick : portPick e1 bank = none := portPick_none hnone
      exact ⟨fun hb => next_congr (serveBank_idle hpick hb),
        fun k hb => next_congr (serveBank_back hpick hb)⟩
  case cycle =>
    intro word shows r
    have hr : r = _ := bankCycle_both hecc a b
    have hread : ∀ x : PortAccess, x.op = .read → x.writes = false := fun x hx => by
      rw [← Bool.not_eq_true, PortAccess.writes_iff, not_not]
      exact hx
    have hwrite : ∀ x : PortAccess, x.op ≠ .read → x.writes = true := fun x hx => x.writes_iff.mpr hx
    refine ⟨fun h0 h1 => ?readRead, fun h0 h1 => ?readWrite, fun h0 h1 => ?writeRead, fun h0 h1 hsame => ?collide, fun h0 h1 hdiff => ?writeWrite⟩
    case readRead =>
      rw [hr, hread a h0, portWrite_read h0, portWrite_read h1]
      simp only [shown, portShows, hread a h0, hread b h1, Bool.false_and, if_false, Bool.false_eq_true]
      rfl
    case readWrite =>
      rw [hr, hread a h0, portWrite_read h0]
      simp only [shown, portShows, hread a h0, hwrite b h1, Bool.false_and, if_false, if_true, Bool.false_eq_true]
      rfl
    case writeRead =>
      rw [hr, hread b h1, portWrite_read h1]
      simp only [shown, portShows, hwrite a h0, hread b h1, Bool.and_false, Bool.false_and, if_false, if_true, Bool.false_eq_true]
      rfl
    case collide =>
      rw [hr, hwrite a h0, hwrite b h1]
      simp only [shown, portShows, hwrite a h0, hwrite b h1, hsame, Bool.and_self, beq_self_eq_true, if_true]
      rfl
    case writeWrite =>
      rw [hr, hwrite a h0, hwrite b h1]
      simp only [shown, portShows, hwrite a h0, hwrite b h1, beq_eq_false_iff_ne.mpr hdiff, Bool.and_false, if_false, if_true, Bool.false_eq_true]
      rfl
  case stores =>
    exact ⟨by rw [sramWrite_cells ha hecc, memGet_memWrite_inside _ hm hi], by rw [memGet_aliasWrite ha hecc hm true hi, if_pos rfl],
      by rw [memGet_aliasWrite ha hecc hm false hi, if_neg Bool.false_ne_true]⟩
  case corrects =>
    refine ⟨eccRead_clean, fun h => ?single, fun h => ?double⟩
    case single =>
      rw [eccRead_single h]
      have hmem := congrArg (fun x => x.mem.ecc) ((awaitBack_checked e k).trans (countCecc_checked _)).1
      exact ⟨rfl, hmem, (countCecc_wback _).trans (awaitBack_wback e k)⟩
    case double =>
      rw [eccRead_double h]
      exact ⟨rfl, countUecc_mem e k⟩
  case scrubs =>
    refine ⟨exec_scrubPass_on, fun h => ?quiet, rfl, exec_compaction_idle s, fun h => ?compacts⟩
    case quiet =>
      by_cases hen : s.eng.reg Reg.MEM_SCRUB_EN = 0
      · exact exec_scrubPass_off hen
      · rw [exec_scrubPass_on hen, h.resolve_left hen]
        rfl
    case compacts =>
      exact ⟨_, exec_compaction_ends s h, compacted_cfg _, compacted_data _ (by decide), compacted_keepVer _, compacted_data _ (by decide),
        compacted_data _ (by decide), compacted_recs_length _⟩
  case captures =>
    intro e1 held full waits
    refine ⟨exec_captureCopy_stopped, fun hr hl => ?lost, fun f hr hl hfull hs => ?stored, fun f hr hl hfull => ?stalls⟩
    case lost => exact (exec_captureCopy hr hc).trans (next_congr (copyCapture_lost (e := e1) hl))
    case stored => exact (exec_captureCopy hr hc).trans (next_congr (copyCapture_stored (e := e1) hl hfull hs))
    case stalls =>
      refine (exec_captureCopy hr hc).trans (next_congr ((copyCapture_full (e := e1) hl hfull).trans ?_))
      unfold stallCapture
      cases c.stalled <;> rfl
  case freezes =>
    intro e1 slot oldest taken
    refine ⟨fun k hk => exec_freeze_taken hf (freezeSlot_free hk), fun k hk hcause ho => ?oldest, fun hk hno => ?dropped⟩
    case oldest => exact exec_freeze_taken hf ((freezeSlot_held hk).trans (by rw [if_pos hcause]; exact ho))
    case dropped =>
      refine exec_freeze_dropped hf ((freezeSlot_held hk).trans ?_)
      by_cases hcause : cause = 1
      · rw [if_pos hcause]
        exact hno.resolve_left (not_not_intro hcause)
      · rw [if_neg hcause]

end Sys2Proof.Machine
end

/-! ## DMA chains -/

section
namespace Sys2Proof.Machine

/-! ### Several registers written at once -/

/-- The engine once the registers `ws` have been written. -/
def Engine.putRegs (e : Engine) (ws : List (Fld × Nat)) : Engine := { e with regs := e.regs.puts ws }

section
variable {e : Engine} (h : e.regs.wf = true)
include h

theorem putRegs_wf (ws : List (Fld × Nat)) : (e.putRegs ws).regs.wf = true := Tab.wf_puts ws h

/-- A register reads as the last value given to it. -/
theorem reg_putRegs_last (fs : List (Fld × Nat)) (f : Fld) (v : Nat) (gs : List (Fld × Nat)) (hg : ∀ x ∈ gs, f.key ≠ x.1.key) :
    (e.putRegs (fs ++ (f, v) :: gs)).reg f = v % 2 ^ f.width :=
  Tab.fld_puts_last h f v fs gs hg

theorem reg_putRegs_ne {ws : List (Fld × Nat)} {g : Fld} (hg : ∀ x ∈ ws, g.key ≠ x.1.key) : (e.putRegs ws).reg g = e.reg g :=
  Tab.fld_puts_ne ws h hg

end

/-! ### Channels -/

section
variable {e : Engine} {n m : Nat} {c d : Chan}

theorem chan_putChan_same (hn : n < e.mov.chans.length) : (e.putChan n c).chan n = c := by
  simp [Engine.chan, Engine.putChan, hn]

theorem chan_putChan_ne (hm : m ≠ n) : (e.putChan n c).chan m = e.chan m := by
  simp [Engine.chan, Engine.putChan, List.getElem?_set_ne hm.symm]

theorem putChan_putChan : (e.putChan n c).putChan n d = e.putChan n d := by
  simp [Engine.putChan, List.set_set]

theorem chan_of_mov {f : Engine} (h : f.mov = e.mov) (m : Nat) : f.chan m = e.chan m := by
  simp only [Engine.chan, h]

theorem chanRun_iff : e.chanRun n = true ↔ e.reg (Reg.DMA_STAT_STATE n) = 1 := beq_iff_eq

theorem chanRun_false (h : e.reg (Reg.DMA_STAT_STATE n) ≠ 1) : e.chanRun n = false := beq_eq_false_iff_ne.mpr h

end

/-- A number read from `n` bytes fits them. -/
theorem leVal_lt : ∀ bs : List Byte, leVal bs < 256 ^ bs.length
  | [] => by decide
  | b :: bs => by
    have hb := b.isLt
    have hrest := leVal_lt bs
    simp only [leVal, List.length_cons, Nat.pow_succ]
    omega

theorem leAt_lt (bs : List Byte) (off n : Nat) : leAt bs off n < 256 ^ n :=
  lt_of_lt_of_le (leVal_lt _) (Nat.pow_le_pow_right (by decide) (List.length_take_le _ _))

/-! ### Stores leave movers and registers in form -/

/-- From `e` to `f` memory may have changed, and what a check of its words counts; the registers stay in canonical form. -/
def MemStored (e f : Engine) : Prop :=
  f = { e with regs := f.regs, evt := f.evt, free := f.free, mem := f.mem } ∧ (e.regs.wf = true → f.regs.wf = true)

namespace MemStored

theorem refl (e : Engine) : MemStored e e := ⟨rfl, id⟩

theorem trans {e f g : Engine} (a : MemStored e f) (b : MemStored f g) : MemStored e g := by
  refine ⟨?_, fun h => b.2 (a.2 h)⟩
  rw [b.1, a.1]

theorem of_checked {e f : Engine} (h : MemChecked e f) : MemStored e f := by
  refine ⟨?_, h.2⟩
  rw [h.1]

theorem storeBytes (e : Engine) (a : Nat) (bs : List Byte) : MemStored e (e.storeBytes a bs) := by
  unfold Engine.storeBytes
  dsimp only
  split
  · exact ⟨rfl, id⟩
  · exact ⟨rfl, id⟩

theorem sramBake (e : Engine) (a n : Nat) : MemStored e (sramBake e a n).1 :=
  List.foldlRecOn (motive := fun r : Engine × Bool => MemStored e r.1) _ _ (.refl e)
    (fun _ hr _ _ => (hr.trans (.of_checked (eccRead_checked _ _))).trans (.storeBytes _ _ _))

theorem sramWrite (e : Engine) (a : Nat) (bs : List Byte) : MemStored e (sramWrite e a bs).1 := by
  have hbake : ∀ (f : Engine) (c : Prop) [Decidable c] (b : Nat), MemStored f (if c then (f, false) else Machine.sramBake f b 8).1 := by
    intro f c _ b
    split
    · exact .refl f
    · exact sramBake f b 8
  unfold Machine.sramWrite
  split
  · exact .refl e
  · exact ((hbake e _ _).trans (hbake _ _ _)).trans (.storeBytes _ _ _)

theorem aliasWrite (setBits : Bool) (e : Engine) (a : Nat) (bs : List Byte) : MemStored e (aliasWrite setBits e a bs).1 := by
  unfold Machine.aliasWrite
  split
  · exact .refl e
  · exact (sramBake _ _ _).trans (.storeBytes _ _ _)

theorem engWrite (e : Engine) (a : Nat) (bs : List Byte) : MemStored e (engWrite e a bs).1 := by
  unfold Machine.engWrite
  dsimp only
  split
  · exact sramWrite _ _ _
  split
  · exact aliasWrite _ _ _ _
  split
  · exact aliasWrite _ _ _ _
  · exact .refl e

end MemStored

theorem dmaWrite_mov (e : Engine) (space a : Nat) (bs : List Byte) : (dmaWrite e space a bs).1.mov = e.mov := by
  unfold dmaWrite
  split
  · exact post_mov _ _ _
  · rw [(MemStored.engWrite e a bs).1]

theorem dmaWrite_wf {e : Engine} (h : e.regs.wf = true) (space a : Nat) (bs : List Byte) : (dmaWrite e space a bs).1.regs.wf = true := by
  unfold dmaWrite
  split
  · exact (post_regs e a bs).symm ▸ h
  · exact (MemStored.engWrite e a bs).2 h

/-! ### How a chain ends (R374, R378, R382) -/

/-- The engine once channel `n` is IDLE with its status and residue, its waiting commands not told yet. -/
def chainIdle (e : Engine) (n code resid : Nat) : Engine :=
  ((freeMover e n).putChan n { Chan.reset with late := (e.chan n).late, headHi := (e.chan n).headHi, nextHi := (e.chan n).nextHi }).putRegs
    [(Reg.DMA_STAT_STATE n, 0), (Reg.DMA_STAT_CODE n, code), (Reg.DMA_RESID_BYTES n, resid)]

/-- The commands that wait for the end of a chain complete. -/
def tellWaiters (ws : List (Nat × Nat × Bool)) (x : Engine) : Engine :=
  ws.foldl (fun a w => a.completeAt w.1 w.2.1 w.2.2 .ok a.cxNow) x

theorem chainEnd_eq (e : Engine) (n code resid : Nat) :
    chainEnd e n code resid = tellWaiters (e.chan n).waiters (chainIdle e n code resid) := rfl

/-- Channel `n` of `x` is IDLE with its status and residue and does not hold the mover; the other channels are those of `e`. -/
def IdleAfter (e : Engine) (n code resid : Nat) (x : Engine) : Prop :=
  x.reg (Reg.DMA_STAT_STATE n) = 0 ∧ x.reg (Reg.DMA_STAT_CODE n) = code % 65536 ∧ x.reg (Reg.DMA_RESID_BYTES n) = resid % 2 ^ 32
    ∧ (x.chan n).desc = [] ∧ x.mov.holder ≠ some n ∧ ∀ m, m ≠ n → x.chan m = e.chan m

theorem freeMover_holder (e : Engine) (n : Nat) : (freeMover e n).mov.holder ≠ some n := by
  unfold freeMover
  dsimp only
  split
  · exact nofun
  · assumption

theorem chainIdle_idle {e f : Engine} {n : Nat} (code resid : Nat) (hw : f.regs.wf = true) (hn : n < f.mov.chans.length)
    (hothers : ∀ m, m ≠ n → f.chan m = e.chan m) : IdleAfter e n code resid (chainIdle f n code resid) := by
  have hw' : ∀ c, ((freeMover f n).putChan n c).regs.wf = true := fun _ => hw
  refine ⟨?state, ?code, ?resid, ?desc, freeMover_holder f n, fun m hm => (chan_putChan_ne hm).trans (hothers m hm)⟩
  case state => exact reg_putRegs_last (hw' _) [] _ _ _ (by simp)
  case code => exact reg_putRegs_last (hw' _) [_] _ _ _ (by simp; omega)
  case resid => exact reg_putRegs_last (hw' _) [_, _] _ _ [] (by simp)
  case desc => exact congrArg Chan.desc (chan_putChan_same (e := freeMover f n) hn)

/-- A register that is not of a chain's end keeps its value. -/
theorem chainIdle_reg {e : Engine} {n code resid : Nat} {g : Fld} (hw : e.regs.wf = true) (hstate : g.key ≠ (Reg.DMA_STAT_STATE n).key)
    (hcode : g.key ≠ (Reg.DMA_STAT_CODE n).key) (hresid : g.key ≠ (Reg.DMA_RESID_BYTES n).key) :
    (chainIdle e n code resid).reg g = e.reg g := by
  have hw' : ∀ c, ((freeMover e n).putChan n c).regs.wf = true := fun _ => hw
  refine reg_putRegs_ne (hw' _) fun x hx => ?_
  simp only [List.mem_cons, List.not_mem_nil, or_false] at hx
  rcases hx with rfl | rfl | rfl
  · exact hstate
  · exact hcode
  · exact hresid

/-- The bytes of a status write-back (R378, Table 18.3). -/
def statusBytes (c : Chan) (code resid : Nat) : List Byte :=
  leBytes 4 resid ++ leBytes 2 code ++ leBytes 1 (b2n c.mism + 2 * b2n c.late) ++ leBytes 1 128

/-- A status write-back, as a write to memory that answers whether it failed. -/
def statusWrite (e : Engine) (n code resid : Nat) : Engine × Bool :=
  dmaWrite e (e.curSpace n) (e.curAddr n + 16) (statusBytes (e.chan n) code resid)

/-- The engine after a status write-back. -/
def written (e : Engine) (n code resid : Nat) : Engine := (statusWrite e n code resid).1.putChan n { e.chan n with late := false }

theorem writeBack_closed {e : Engine} {n code resid : Nat} {st : Status} (h : dmaBad e n (e.curSpace n) (e.curAddr n + 16) 8 true = some st) :
    writeBack e n code resid = (e, some st) := by
  unfold writeBack
  dsimp only
  rw [h]

theorem writeBack_open {e : Engine} {n code resid : Nat} (h : dmaBad e n (e.curSpace n) (e.curAddr n + 16) 8 true = none) :
    writeBack e n code resid = (written e n code resid, if (statusWrite e n code resid).2 then some (.hwerr 0) else none) := by
  unfold writeBack
  dsimp only
  rw [h]
  rfl

theorem chainFault_unread {e : Engine} {n : Nat} {st : Status} {side : Nat} (h : (e.chan n).desc = []) :
    chainFault e n st side = ((tellWaiters (e.chan n).waiters (chainIdle e n st.code 0)).setReg (Reg.DMA_STAT_DETAIL n) side).raise
      (Src.dma + 2 * n + 1) (st.code + 2 ^ 16 * side) := by
  unfold chainFault
  simp only [h, List.isEmpty_nil, if_true]
  rfl

theorem chainFault_read {e : Engine} {n : Nat} {st : Status} {side : Nat} (h : (e.chan n).desc ≠ []) :
    chainFault e n st side =
      ((chainEnd (writeBack e n st.code (dLen (e.chan n).desc - (e.chan n).pos)).1 n st.code (dLen (e.chan n).desc - (e.chan n).pos)).setReg
        (Reg.DMA_STAT_DETAIL n) side).raise (Src.dma + 2 * n + 1) (st.code + 2 ^ 16 * side) := by
  have hne : (e.chan n).desc.isEmpty = false := List.isEmpty_eq_false_iff.mpr h
  unfold chainFault
  simp only [hne, Bool.false_eq_true, if_false]

/-! ### Starts and hand-over (R374, R379) -/

/-- DMA_CUR points at the address that it was given. -/
theorem curAddr_setCur {e : Engine} (hw : e.regs.wf = true) {n space a : Nat} (ha : a < 2 ^ 64) : (setCur e n space a).curAddr n = a / 32 * 32 := by
  have hlo : (setCur e n space a).reg (Reg.DMA_CUR_LO_ADDR n) = a / 32 % 2 ^ 27 := reg_putRegs_last hw [_] _ _ _ (by simp; omega)
  have hhi : (setCur e n space a).reg (Reg.DMA_CUR_HI_ADDR n) = a / 2 ^ 32 % 2 ^ 32 := reg_putRegs_last hw [_, _] _ _ [] (by simp)
  unfold Engine.curAddr
  rw [hlo, hhi]
  omega

theorem curSpace_setCur {e : Engine} (hw : e.regs.wf = true) (n space a : Nat) : (setCur e n space a).curSpace n = space % 2 :=
  reg_putRegs_last hw [] _ _ _ (by simp)

/-- A register that is not DMA_CUR keeps its value where DMA_CUR is pointed elsewhere. -/
theorem reg_setCur_ne {e : Engine} (hw : e.regs.wf = true) {n space a : Nat} {g : Fld} (hlo : g.key ≠ (Reg.DMA_CUR_LO_SP n).key)
    (haddr : g.key ≠ (Reg.DMA_CUR_LO_ADDR n).key) (hhi : g.key ≠ (Reg.DMA_CUR_HI_ADDR n).key) : (setCur e n space a).reg g = e.reg g := by
  refine reg_putRegs_ne hw fun x hx => ?_
  simp only [List.mem_cons, List.not_mem_nil, or_false] at hx
  rcases hx with rfl | rfl | rfl
  · exact hlo
  · exact haddr
  · exact hhi

theorem setCur_wf {e : Engine} (hw : e.regs.wf = true) (n space a : Nat) : (setCur e n space a).regs.wf = true := putRegs_wf hw _

/-- An address that two register fields hold. -/
theorem heldAddr_lt {lo hi : Nat} (hlo : lo < 2 ^ 27) (hhi : hi < 2 ^ 32) : 32 * lo + 2 ^ 32 * hi < 2 ^ 64 := by omega

theorem exec_dmaCtlGo {n : Nat} (hn : n < 64) (s : State) : exec (.dmaCtlGo n) s = .next { s with eng := dmaGo s.eng n } := if_neg (by omega)

theorem exec_dmaCtlAbort {n : Nat} (hn : n < 64) (s : State) : exec (.dmaCtlAbort n) s = .next { s with eng := chainAbort s.eng n } :=
  if_neg (by omega)

theorem exec_dmaNextLoWrite {n : Nat} (hn : n < 64) (v : Nat) (s : State) :
    exec (.dmaNextLoWrite n v) s = .next { s with eng := dmaNextWrite s.eng n v } := if_neg (by omega)

theorem dmaGo_running {e : Engine} {n : Nat} (h : e.chanRun n = true) : dmaGo e n = e.bump (Reg.DMA_IGN_COUNT n) := if_pos h

theorem dmaGo_idle {e : Engine} {n : Nat} (h : e.chanRun n = false) : dmaGo e n = chainStart e n := if_neg (by simp [h])

/-- A channel that runs shows its input as busy. -/
theorem busyShown_chan {e : Engine} {n : Nat} (hn : n < 64) (h : e.chanRun n = true) : busyShown e (640 + n) = true := by
  have hbusy : inputBusy e (640 + n) = true := by
    unfold inputBusy
    rw [if_neg (by omega), if_neg (by omega), if_pos (by omega), Nat.add_sub_cancel_left, h]
  have hlisted : consumerListed (640 + n) = true := by
    unfold consumerListed
    simp only [Bool.or_eq_true, Bool.and_eq_true, decide_eq_true_eq]
    omega
  unfold busyShown
  rw [hlisted, hbusy]
  simp

/-- What a start of an IDLE channel leaves (R374). -/
theorem chainStart_starts {e : Engine} {n : Nat} (hn : n < 64) (hw : e.regs.wf = true) (hlen : e.mov.chans.length = 64)
    (hsp : e.reg (Reg.DMA_HEAD_LO_SP n) < 2) (hlo : e.reg (Reg.DMA_HEAD_LO_ADDR n) < 2 ^ 27) (hhi : e.reg (Reg.DMA_HEAD_HI_ADDR n) < 2 ^ 32) :
    let t := chainStart e n
    t.reg (Reg.DMA_STAT_STATE n) = 1 ∧ t.curSpace n = e.reg (Reg.DMA_HEAD_LO_SP n)
      ∧ t.curAddr n = 32 * e.reg (Reg.DMA_HEAD_LO_ADDR n) + 2 ^ 32 * e.reg (Reg.DMA_HEAD_HI_ADDR n)
      ∧ (t.chan n).desc = [] ∧ (t.chan n).linked = false ∧ busyShown t (640 + n) = true
      ∧ (∀ m, m ≠ n → t.chan m = e.chan m) ∧ t.mem = e.mem ∧ t.host = e.host := by
  intro t
  let e1 := setCur e n (e.reg (Reg.DMA_HEAD_LO_SP n)) (32 * e.reg (Reg.DMA_HEAD_LO_ADDR n) + 2 ^ 32 * e.reg (Reg.DMA_HEAD_HI_ADDR n))
  have hw1 : e1.regs.wf = true := setCur_wf hw _ _ _
  have hstate : t.reg (Reg.DMA_STAT_STATE n) = 1 := reg_setReg_same (e := e1) hw1 _ 1
  have hkeep : ∀ g : Fld, g.key ≠ (Reg.DMA_STAT_STATE n).key → t.reg g = e1.reg g := fun g hg => reg_setReg_ne (e := e1) hw1 hg 1
  have hspace : t.curSpace n = e1.curSpace n := hkeep _ (by simp only; omega)
  have haddr : t.curAddr n = e1.curAddr n := by
    unfold Engine.curAddr
    rw [hkeep _ (by simp only; omega), hkeep _ (by simp only; omega)]
  have hchan : t.chan n = { Chan.reset with late := (e.chan n).late, headHi := (e.chan n).headHi, nextHi := (e.chan n).nextHi } :=
    chan_putChan_same (e := e1) (hlen ▸ hn)
  refine ⟨hstate, ?space, ?addr, ?desc, ?linked, busyShown_chan hn (chanRun_iff.mpr hstate), fun m hm => chan_putChan_ne (e := e1) hm, rfl, rfl⟩
  case space => rw [hspace, curSpace_setCur hw, Nat.mod_eq_of_lt hsp]
  case addr =>
    rw [haddr, curAddr_setCur hw (heldAddr_lt hlo hhi)]
    omega
  case desc => rw [hchan]; rfl
  case linked => rw [hchan]; rfl

/-- A write to DMA_NEXT_LO takes the held word with it (R379). -/
theorem dmaNextWrite_writes {e : Engine} {n v : Nat} (hn : n < 64) (hw : e.regs.wf = true) (hlen : e.mov.chans.length = 64) (hv : v < 2 ^ 32) :
    let t := dmaNextWrite e n v
    t.reg (Reg.DMA_NEXT_LO_SP n) = v % 2 ∧ t.reg (Reg.DMA_NEXT_LO_V n) = v / 4 % 2 ∧ t.reg (Reg.DMA_NEXT_LO_ADDR n) = v / 32
      ∧ (∀ w, (e.chan n).nextHi = some w → t.reg (Reg.DMA_NEXT_HI_ADDR n) = w % 2 ^ 32)
      ∧ ((e.chan n).nextHi = none → t.reg (Reg.DMA_NEXT_HI_ADDR n) = e.reg (Reg.DMA_NEXT_HI_ADDR n))
      ∧ (t.chan n).nextHi = none ∧ t.mem = e.mem := by
  intro t
  let e1 := e.putChan n { e.chan n with nextHi := none }
  have hw1 : e1.regs.wf = true := hw
  have hchan : (t.chan n).nextHi = none := congrArg Chan.nextHi (chan_putChan_same (e := e) (hlen ▸ hn))
  have haddr : v / 32 % 2 ^ 27 = v / 32 := Nat.mod_eq_of_lt (by omega)
  cases hh : (e.chan n).nextHi with
  | none =>
    have ht : t = e1.putRegs [(Reg.DMA_NEXT_LO_SP n, v), (Reg.DMA_NEXT_LO_V n, v / 4), (Reg.DMA_NEXT_LO_ADDR n, v / 32)] := by
      simp only [t, dmaNextWrite, hh]
      rfl
    refine ⟨?_, ?_, ?_, nofun, fun _ => ?_, hchan, by rw [ht]; rfl⟩
    · rw [ht]; exact reg_putRegs_last hw1 [] _ _ _ (by simp)
    · rw [ht]; exact reg_putRegs_last hw1 [_] _ _ _ (by simp)
    · rw [ht]; exact (reg_putRegs_last hw1 [_, _] (Reg.DMA_NEXT_LO_ADDR n) _ [] (by simp)).trans haddr
    · rw [ht]; exact reg_putRegs_ne hw1 (by simp; omega)
  | some w =>
    have ht : t = e1.putRegs [(Reg.DMA_NEXT_LO_SP n, v), (Reg.DMA_NEXT_LO_V n, v / 4), (Reg.DMA_NEXT_LO_ADDR n, v / 32),
        (Reg.DMA_NEXT_HI_ADDR n, w)] := by
      simp only [t, dmaNextWrite, hh]
      rfl
    refine ⟨?_, ?_, ?_, fun w' hw' => ?_, nofun, hchan, by rw [ht]; rfl⟩
    · rw [ht]; exact reg_putRegs_last hw1 [] _ _ _ (by simp)
    · rw [ht]; exact reg_putRegs_last hw1 [_] _ _ _ (by simp; omega)
    · rw [ht]; exact (reg_putRegs_last hw1 [_, _] (Reg.DMA_NEXT_LO_ADDR n) _ [(Reg.DMA_NEXT_HI_ADDR n, w)] (by simp; omega)).trans haddr
    · cases hw'
      rw [ht]; exact reg_putRegs_last hw1 [_, _, _] _ _ [] (by simp)

end Sys2Proof.Machine
end

section
namespace Sys2Proof.Machine

/-! ### A descriptor is read (R375, R377) -/

/-- The engine once channel `n` has read descriptor `d`. -/
def descRead (e : Engine) (n : Nat) (d : List Byte) : Engine :=
  e.putChan n { e.chan n with desc := d, pos := 0, burst := 0, mism := false, buf := [] }

/-- A descriptor that has been read is checked. -/
def descTaken (e : Engine) (n : Nat) (d : List Byte) : Engine := match descBad d with
  | some (st, side) => chainFault (descRead e n d) n st side
  | none => descRead e n d

theorem exec_dmaBurst_fetches {n : Nat} (hn : n < 64) {host : Option (List Byte)} {s : State}
    (hrun : (hostData s.eng n host).chanRun n = true) (hd : ((hostData s.eng n host).chan n).desc = []) :
    exec (.dmaBurst n host) s = .next { s with eng := fetchDesc (hostData s.eng n host) n } := by
  change execDmaBurst n host s = _
  unfold execDmaBurst
  rw [if_neg (by omega)]
  dsimp only
  rw [if_pos (by rw [hrun, hd]; rfl)]

section
variable {e : Engine} {n : Nat}

/-- The descriptor lies in the channel's buffer. -/
theorem fetchDesc_host (hsp : e.curSpace n = 1) (hbad : dmaBad e n 1 (e.curAddr n) 32 false = none) (hbuf : 32 ≤ (e.chan n).buf.length)
    (hn : n < e.mov.chans.length) : fetchDesc e n = descTaken e n ((e.chan n).buf.take 32) := by
  have hpast : past40 1 (e.curAddr n) = false := rfl
  unfold fetchDesc
  simp only [hsp, hpast, hbad, Bool.false_eq_true, if_false]
  rw [if_neg (by omega)]
  simp only [dmaRead, if_true, if_neg (Nat.not_lt.mpr hbuf), chan_putChan_same hn, putChan_putChan]
  rfl

theorem fetchDesc_waits (hsp : e.curSpace n = 1) (hbad : dmaBad e n 1 (e.curAddr n) 32 false = none) (hbuf : (e.chan n).buf.length < 32)
    (hf : (e.chan n).failed = false) : fetchDesc e n = e := by
  have hpast : past40 1 (e.curAddr n) = false := rfl
  unfold fetchDesc
  simp only [hsp, hpast, hbad, Bool.false_eq_true, if_false]
  rw [if_pos ⟨trivial, hbuf, by simp [hf]⟩]

/-- A read of the descriptor that has failed ends the chain. -/
theorem fetchDesc_failed (hsp : e.curSpace n = 1) (hbad : dmaBad e n 1 (e.curAddr n) 32 false = none) (hbuf : (e.chan n).buf.length < 32)
    (hf : (e.chan n).failed = true) : fetchDesc e n = chainFault e n (.hwerr 0) 0 := by
  have hpast : past40 1 (e.curAddr n) = false := rfl
  unfold fetchDesc
  simp only [hsp, hpast, hbad, Bool.false_eq_true, if_false]
  rw [if_neg (by simp [hf])]
  simp only [dmaRead, if_true, if_pos hbuf]

/-- The bytes at an engine address that holds no errors. -/
def plainBytes (e : Engine) (a len : Nat) : List Byte :=
  if (addrKind a).1 = 4 then e.bytes a len else (List.range len).map (fun i => sramByte e ((addrKind a).2 + i))

theorem engRead_clean (h : e.mem.ecc = []) (hl : e.mem.lecc = []) (a len : Nat) : engRead e a len = (e, plainBytes e a len, false) := by
  unfold engRead plainBytes
  dsimp only
  split
  · unfold captureRead
    rw [hl]
    rfl
  · exact sramRead_clean h _ _

/-- The descriptor is read from the machine's own memory. -/
theorem fetchDesc_own (hsp : e.curSpace n = 0) (ha : e.curAddr n < 2 ^ 40) (hbad : dmaBad e n 0 (e.curAddr n) 32 false = none)
    (hecc : e.mem.ecc = []) (hlecc : e.mem.lecc = []) : fetchDesc e n = descTaken e n (plainBytes e (e.curAddr n) 32) := by
  have hpast : past40 0 (e.curAddr n) = false := by
    simp only [past40, beq_self_eq_true, Bool.true_and, decide_eq_false_iff_not]
    omega
  unfold fetchDesc
  simp only [hsp, hpast, hbad, Bool.false_eq_true, if_false]
  rw [if_neg (by simp)]
  simp only [dmaRead, zero_ne_one, if_false, engRead_clean hecc hlecc, Bool.false_eq_true]
  rfl

/-- Host memory is reached where it is open to the channel, whatever the address (R377). -/
theorem dmaBad_host {a len : Nat} {wr : Bool} : dmaBad e n 1 a len wr = none ↔ e.hostOpen n = true := by
  unfold dmaBad
  rw [if_pos rfl]
  cases e.hostOpen n <;> simp

theorem hostOpen_putChan {c : Chan} (hn : n < e.mov.chans.length) (hc : c.cut = (e.chan n).cut) : (e.putChan n c).hostOpen n = e.hostOpen n := by
  unfold Engine.hostOpen
  rw [chan_putChan_same hn, hc]
  rfl

theorem putChan_self (hn : n < e.mov.chans.length) : e.putChan n (e.chan n) = e := by
  have hget : e.chan n = e.mov.chans[n] := by simp [Engine.chan, hn]
  unfold Engine.putChan
  rw [hget, List.set_getElem_self]

/-- What a channel that has still to read its descriptor asks host memory for. -/
theorem hostLeft_desc (hrun : e.chanRun n = true) (hd : (e.chan n).desc = []) : e.hostLeft n = 32 * e.curSpace n - (e.chan n).buf.length := by
  simp [Engine.hostLeft, hrun, hd]

/-- A channel that has asked for nothing, or may not reach host memory, takes no answer. -/
theorem hostData_deaf {host : Option (List Byte)} (h : e.hostLeft n = 0 ∨ e.hostOpen n = false ∨ (e.chan n).failed = true) :
    hostData e n host = e :=
  if_pos (by simpa using h)

theorem hostData_some {bs : List Byte} (hleft : e.hostLeft n ≠ 0) (ho : e.hostOpen n = true) (hf : (e.chan n).failed = false) :
    hostData e n (some bs) = e.putChan n { e.chan n with buf := (e.chan n).buf ++ bs.take (e.hostLeft n) } :=
  if_neg (by simp [hleft, ho, hf])

theorem hostData_none (hleft : e.hostLeft n ≠ 0) (ho : e.hostOpen n = true) (hf : (e.chan n).failed = false) :
    hostData e n none = e.putChan n { e.chan n with failed := true } :=
  if_neg (by simp [hleft, ho, hf])

/-- Bytes that a channel has not asked for are dropped, so that one equation covers both. -/
theorem hostData_takes {bs : List Byte} (ho : e.hostOpen n = true) (hf : (e.chan n).failed = false) (hn : n < e.mov.chans.length) :
    hostData e n (some bs) = e.putChan n { e.chan n with buf := (e.chan n).buf ++ bs.take (e.hostLeft n) } := by
  by_cases hleft : e.hostLeft n = 0
  · rw [hostData_deaf (.inl hleft), hleft, List.take_zero, List.append_nil]
    exact (putChan_self hn).symm
  · exact hostData_some hleft ho hf

end

/-- What reading a descriptor comes to, by its check. -/
theorem descTaken_good {e : Engine} {n : Nat} {d : List Byte} (h : descBad d = none) : descTaken e n d = descRead e n d := by
  unfold descTaken
  rw [h]

theorem descTaken_bad {e : Engine} {n : Nat} {d : List Byte} {st : Status} {side : Nat} (h : descBad d = some (st, side)) :
    descTaken e n d = chainFault (descRead e n d) n st side := by
  unfold descTaken
  rw [h]

/-- A channel that waits for its descriptor: IDLE no more, with none read and no read of it failed. -/
structure AwaitsDesc (e : Engine) (n : Nat) : Prop where
  run : e.chanRun n = true
  desc : (e.chan n).desc = []
  failed : (e.chan n).failed = false
  reach : dmaBad e n (e.curSpace n) (e.curAddr n) 32 false = none
  lt : n < 64
  len : e.mov.chans.length = 64

namespace AwaitsDesc

variable {s : State} {n : Nat} (h : AwaitsDesc s.eng n)
include h

theorem inChans : n < s.eng.mov.chans.length := h.len ▸ h.lt

/-- Host memory answers with bytes of the descriptor. -/
theorem burst_bytes (hsp : s.eng.curSpace n = 1) (bs : List Byte) :
    let got := (s.eng.chan n).buf ++ bs.take (32 - (s.eng.chan n).buf.length)
    (got.length < 32 → exec (.dmaBurst n (some bs)) s = .next { s with eng := s.eng.putChan n { s.eng.chan n with buf := got } })
    ∧ (32 ≤ got.length → exec (.dmaBurst n (some bs)) s = .next { s with eng := descTaken s.eng n (got.take 32) }) := by
  intro got
  have ho : s.eng.hostOpen n = true := dmaBad_host.mp (hsp ▸ h.reach)
  let e1 := s.eng.putChan n { s.eng.chan n with buf := got }
  have he1 : hostData s.eng n (some bs) = e1 := by
    rw [hostData_takes ho h.failed h.inChans, hostLeft_desc h.run h.desc, hsp]
  have hchan : e1.chan n = { s.eng.chan n with buf := got } := chan_putChan_same h.inChans
  have hexec := exec_dmaBurst_fetches (host := some bs) h.lt (s := s) (he1 ▸ h.run) (by rw [he1, hchan]; exact h.desc)
  have hopen : dmaBad e1 n 1 (e1.curAddr n) 32 false = none := dmaBad_host.mpr (by rw [← ho]; exact hostOpen_putChan h.inChans rfl)
  have hin : n < e1.mov.chans.length := by simpa [e1, Engine.putChan] using h.inChans
  rw [he1] at hexec
  refine ⟨fun hshort => hexec.trans (next_congr ?waits), fun hall => hexec.trans (next_congr ?reads)⟩
  case waits => exact fetchDesc_waits (e := e1) hsp hopen (by rw [hchan]; exact hshort) (by rw [hchan]; exact h.failed)
  case reads =>
    have hread : ∀ d, descRead e1 n d = descRead s.eng n d := fun d => by
      unfold descRead
      rw [hchan, putChan_putChan]
    rw [fetchDesc_host (e := e1) hsp hopen (by rw [hchan]; exact hall) hin, hchan]
    unfold descTaken
    rw [hread]

/-- A read of the descriptor in host memory fails. -/
theorem burst_fails (hsp : s.eng.curSpace n = 1) (hbuf : (s.eng.chan n).buf.length < 32) :
    exec (.dmaBurst n none) s = .next { s with eng := chainFault (s.eng.putChan n { s.eng.chan n with failed := true }) n (.hwerr 0) 0 } := by
  have ho : s.eng.hostOpen n = true := dmaBad_host.mp (hsp ▸ h.reach)
  have hleft : s.eng.hostLeft n ≠ 0 := by
    rw [hostLeft_desc h.run h.desc, hsp]
    omega
  let e1 := s.eng.putChan n { s.eng.chan n with failed := true }
  have he1 : hostData s.eng n none = e1 := hostData_none hleft ho h.failed
  have hchan : e1.chan n = { s.eng.chan n with failed := true } := chan_putChan_same h.inChans
  have hexec := exec_dmaBurst_fetches (host := none) h.lt (s := s) (he1 ▸ h.run) (by rw [he1, hchan]; exact h.desc)
  have hopen : dmaBad e1 n 1 (e1.curAddr n) 32 false = none := dmaBad_host.mpr (by rw [← ho]; exact hostOpen_putChan h.inChans rfl)
  rw [he1] at hexec
  exact hexec.trans (next_congr (fetchDesc_failed (e := e1) hsp hopen (by rw [hchan]; exact hbuf) (by rw [hchan])))

/-- The descriptor is read from the machine's own memory, whatever host memory answers. -/
theorem burst_own (hsp : s.eng.curSpace n = 0) (ha : s.eng.curAddr n < 2 ^ 40) (hecc : s.eng.mem.ecc = []) (hlecc : s.eng.mem.lecc = [])
    (host : Option (List Byte)) :
    exec (.dmaBurst n host) s = .next { s with eng := descTaken s.eng n (plainBytes s.eng (s.eng.curAddr n) 32) } := by
  have he1 : hostData s.eng n host = s.eng := hostData_deaf (.inl (by rw [hostLeft_desc h.run h.desc, hsp, Nat.mul_zero, Nat.zero_sub]))
  have hexec := exec_dmaBurst_fetches (host := host) h.lt (s := s) (he1.symm ▸ h.run) (by rw [he1]; exact h.desc)
  rw [he1] at hexec
  exact hexec.trans (next_congr (fetchDesc_own hsp ha (hsp ▸ h.reach) hecc hlecc))

end AwaitsDesc

end Sys2Proof.Machine
end

section
namespace Sys2Proof.Machine

/-! ### A descriptor ends (R376, R378, R379) -/

theorem exec_descriptorEnd {n : Nat} {late : Bool} {s : State} (hrun : s.eng.chanRun n = true) (hd : (s.eng.chan n).desc ≠ [])
    (hm : s.eng.moving n = false) : exec (.descriptorEnd n late) s = .next { s with eng := descEnd s.eng n late } := by
  have hne : (s.eng.chan n).desc.isEmpty = false := List.isEmpty_eq_false_iff.mpr hd
  exact if_pos (by rw [hrun, hne, hm]; rfl)

theorem moving_of_mism {e : Engine} {n : Nat} (h : (e.chan n).mism = true) : e.moving n = false := by
  unfold Engine.moving
  simp [h]

theorem moving_of_moved {e : Engine} {n : Nat} (h : dLen (e.chan n).desc ≤ (e.chan n).pos) : e.moving n = false := by
  unfold Engine.moving
  simp [Nat.not_lt.mpr h]

/-- The engine once a descriptor of channel `n` has been counted, with a late write to DMA_NEXT where there is one. -/
def descCounted (e : Engine) (n : Nat) (late : Bool) : Engine := if late then markLate e n else e

/-- What a late write leaves as it is, and what it shows (R379). -/
theorem descCounted_keeps {e : Engine} {n : Nat} (late : Bool) (hw : e.regs.wf = true) (hn : n < e.mov.chans.length) :
    (descCounted e n late).regs.wf = true ∧ (descCounted e n late).mov.chans.length = e.mov.chans.length
      ∧ (∀ m, m ≠ n → (descCounted e n late).chan m = e.chan m)
      ∧ ((descCounted e n late).chan n).waiters = (e.chan n).waiters
      ∧ (∀ g : Fld, g.key ≠ (Reg.DMA_STAT_LATE n).key → (descCounted e n late).reg g = e.reg g)
      ∧ (late = true → (descCounted e n late).reg (Reg.DMA_STAT_LATE n) = 1) := by
  cases late with
  | false => exact ⟨hw, rfl, fun _ _ => rfl, rfl, fun _ _ => rfl, nofun⟩
  | true =>
    let e1 := e.putChan n { e.chan n with late := true }
    have hw1 : e1.regs.wf = true := hw
    have hchan : (descCounted e n true).chan n = { e.chan n with late := true } := chan_putChan_same (e := e) hn
    exact ⟨setReg_wf hw1 _ 1, List.length_set, fun m hm => chan_putChan_ne (e := e) hm, by rw [hchan],
      fun g hg => reg_setReg_ne hw1 hg 1, fun _ => reg_setReg_same hw1 _ 1⟩

/-- The engine after a hand-over, with the descriptor counted. -/
def handedOver (e : Engine) (n : Nat) (late : Bool) : Engine :=
  descCounted (handOver (e.bump (Reg.DMA_DESC_COUNT n)) n (e.chan n).desc).1 n late

section
variable {e : Engine} {n : Nat} {late : Bool}

/-- A descriptor that ends normally, with no write-back and none to follow, ends the chain. -/
theorem descEnd_ends (hm : (e.chan n).mism = false) (hwb : tbit (dCtl (e.chan n).desc) 6 = false)
    (hnext : (handOver (e.bump (Reg.DMA_DESC_COUNT n)) n (e.chan n).desc).2 = none) :
    descEnd e n late = dmaDone (chainEnd (handedOver e n late) n 0 0) n := by
  have hend : endWrite e n = (e, none) := if_neg (by simp [hm, hwb])
  unfold descEnd
  rw [hend]
  simp only [hm, hnext, Bool.false_eq_true, if_false]
  rfl

/-- A descriptor that ends normally, with no write-back and no event of its own, is followed by the next. -/
theorem descEnd_goesOn {sp a : Nat} (hm : (e.chan n).mism = false) (hwb : tbit (dCtl (e.chan n).desc) 6 = false)
    (hnote : tbit (dCtl (e.chan n).desc) 7 = false)
    (hnext : (handOver (e.bump (Reg.DMA_DESC_COUNT n)) n (e.chan n).desc).2 = some (sp, a)) :
    descEnd e n late = (setCur (handedOver e n late) n sp a).putChan n
      { (handedOver e n late).chan n with desc := [], linked := true, pos := 0, burst := 0, buf := [], failed := false } := by
  have hend : endWrite e n = (e, none) := if_neg (by simp [hm, hwb])
  unfold descEnd
  rw [hend]
  simp only [hm, hnote, hnext, Bool.false_eq_true, if_false]
  rfl

/-- DMA_NEXT goes before NEXT and END (R379). -/
theorem handOver_next {d : List Byte} (hv : e.reg (Reg.DMA_NEXT_LO_V n) = 1) :
    handOver e n d = (e.setReg (Reg.DMA_NEXT_LO_V n) 0, some (e.reg (Reg.DMA_NEXT_LO_SP n),
      32 * e.reg (Reg.DMA_NEXT_LO_ADDR n) + 2 ^ 32 * e.reg (Reg.DMA_NEXT_HI_ADDR n))) := if_pos hv

theorem handOver_last {d : List Byte} (hv : e.reg (Reg.DMA_NEXT_LO_V n) ≠ 1) (hlast : tbit (dNext d) 1 = true) : handOver e n d = (e, none) := by
  unfold handOver
  rw [if_neg hv, if_pos hlast]

theorem handOver_linked {d : List Byte} (hv : e.reg (Reg.DMA_NEXT_LO_V n) ≠ 1) (hlast : tbit (dNext d) 1 = false) :
    handOver e n d = (e, some (dNext d % 2, dNext d / 32 * 32)) := by
  unfold handOver
  rw [if_neg hv, if_neg (by simp [hlast])]

/-- A hand-over writes DMA_NEXT.V alone. -/
theorem handOver_keeps (d : List Byte) (hw : e.regs.wf = true) :
    (handOver e n d).1.regs.wf = true ∧ (handOver e n d).1.mov = e.mov
      ∧ ∀ g : Fld, g.key ≠ (Reg.DMA_NEXT_LO_V n).key → (handOver e n d).1.reg g = e.reg g := by
  unfold handOver
  split
  · exact ⟨setReg_wf hw _ 0, rfl, fun g hg => reg_setReg_ne hw hg 0⟩
  split
  · exact ⟨hw, rfl, fun _ _ => rfl⟩
  · exact ⟨hw, rfl, fun _ _ => rfl⟩

/-- What a normal end of a descriptor counts and keeps. -/
theorem handedOver_keeps (late : Bool) (hw : e.regs.wf = true) (hn : n < e.mov.chans.length) :
    let t := handedOver e n late
    t.regs.wf = true ∧ t.mov.chans.length = e.mov.chans.length ∧ (∀ m, m ≠ n → t.chan m = e.chan m)
      ∧ (t.chan n).waiters = (e.chan n).waiters ∧ t.reg (Reg.DMA_DESC_COUNT n) = satU 32 (e.reg (Reg.DMA_DESC_COUNT n) + 1)
      ∧ (late = true → t.reg (Reg.DMA_STAT_LATE n) = 1)
      ∧ ∀ g : Fld, g.key ≠ (Reg.DMA_DESC_COUNT n).key → g.key ≠ (Reg.DMA_NEXT_LO_V n).key → g.key ≠ (Reg.DMA_STAT_LATE n).key →
        t.reg g = e.reg g := by
  intro t
  have hw1 : (e.bump (Reg.DMA_DESC_COUNT n)).regs.wf = true := setReg_wf hw _ _
  obtain ⟨hw2, hmov, hreg⟩ := handOver_keeps (n := n) (e.chan n).desc hw1
  obtain ⟨hw3, hlen, hothers, hwaiters, hkeep, hlate⟩ := descCounted_keeps (n := n) late hw2 (by rw [hmov]; exact hn)
  have hcount : (e.bump (Reg.DMA_DESC_COUNT n)).reg (Reg.DMA_DESC_COUNT n) = satU 32 (e.reg (Reg.DMA_DESC_COUNT n) + 1) :=
    reg_bump_same hw _
  refine ⟨hw3, hlen.trans (by rw [hmov]; rfl), fun m hm => (hothers m hm).trans (chan_of_mov hmov m),
    hwaiters.trans (congrArg Chan.waiters (chan_of_mov hmov n)), ?count, hlate, fun g hg hv hl => ?other⟩
  case count => exact (hkeep _ (by simp only; omega)).trans ((hreg _ (by simp only; omega)).trans hcount)
  case other => exact (hkeep _ hl).trans ((hreg _ hv).trans (reg_setReg_ne hw hg _))

/-- DMA_NEXT is taken at the hand-over. -/
theorem handedOver_next (hw : e.regs.wf = true) (hn : n < e.mov.chans.length) (hv : e.reg (Reg.DMA_NEXT_LO_V n) = 1) :
    (handedOver e n late).reg (Reg.DMA_NEXT_LO_V n) = 0 := by
  have hw1 : (e.bump (Reg.DMA_DESC_COUNT n)).regs.wf = true := setReg_wf hw _ _
  have hv1 : (e.bump (Reg.DMA_DESC_COUNT n)).reg (Reg.DMA_NEXT_LO_V n) = 1 := (reg_setReg_ne hw (by simp only; omega) _).trans hv
  unfold handedOver
  rw [handOver_next hv1]
  obtain ⟨_, _, _, _, hkeep, _⟩ := descCounted_keeps (n := n) (e := (e.bump (Reg.DMA_DESC_COUNT n)).setReg (Reg.DMA_NEXT_LO_V n) 0) late
    (setReg_wf hw1 _ _) hn
  exact (hkeep _ (by simp only; omega)).trans (reg_setReg_same hw1 _ 0)

end

/-! ### A COMPARE that has met a difference (R376, R378) -/

section
variable {e : Engine} {n : Nat} {late : Bool}

theorem descEnd_mism_closed {st : Status} (hm : (e.chan n).mism = true)
    (hbad : dmaBad e n (e.curSpace n) (e.curAddr n + 16) 8 true = some st) : descEnd e n late = chainFault e n st 0 := by
  have hend : endWrite e n = writeBack e n 0 (dLen (e.chan n).desc - (e.chan n).pos) := if_pos (by simp [hm])
  unfold descEnd
  rw [hend, writeBack_closed hbad]

theorem descEnd_mism_failed (hm : (e.chan n).mism = true) (hopen : dmaBad e n (e.curSpace n) (e.curAddr n + 16) 8 true = none)
    (hbad : (statusWrite e n 0 (dLen (e.chan n).desc - (e.chan n).pos)).2 = true) :
    descEnd e n late = chainFault (written e n 0 (dLen (e.chan n).desc - (e.chan n).pos)) n (.hwerr 0) 0 := by
  have hend : endWrite e n = writeBack e n 0 (dLen (e.chan n).desc - (e.chan n).pos) := if_pos (by simp [hm])
  unfold descEnd
  rw [hend, writeBack_open hopen, hbad]
  simp only [if_true]

theorem descEnd_mism_done (hm : (e.chan n).mism = true) (hopen : dmaBad e n (e.curSpace n) (e.curAddr n + 16) 8 true = none)
    (hgood : (statusWrite e n 0 (dLen (e.chan n).desc - (e.chan n).pos)).2 = false) :
    descEnd e n late
      = dmaDone (chainEnd (written e n 0 (dLen (e.chan n).desc - (e.chan n).pos)) n 0 (dLen (e.chan n).desc - (e.chan n).pos)) n := by
  have hend : endWrite e n = writeBack e n 0 (dLen (e.chan n).desc - (e.chan n).pos) := if_pos (by simp [hm])
  unfold descEnd
  rw [hend, writeBack_open hopen, hgood]
  simp only [Bool.false_eq_true, if_false, hm, if_true]

theorem chainIdle_mem (e : Engine) (n code resid : Nat) : (chainIdle e n code resid).mem = e.mem := rfl

theorem chainIdle_host (e : Engine) (n code resid : Nat) : (chainIdle e n code resid).host = e.host := rfl

theorem putChan_length (e : Engine) (n : Nat) (c : Chan) : (e.putChan n c).mov.chans.length = e.mov.chans.length := List.length_set

theorem statusWrite_mov (e : Engine) (n code resid : Nat) : (statusWrite e n code resid).1.mov = e.mov := dmaWrite_mov _ _ _ _

/-- A status write-back leaves the channels but for LATE, which it has told. -/
theorem written_keeps (code resid : Nat) (hw : e.regs.wf = true) (hn : n < e.mov.chans.length) :
    (written e n code resid).regs.wf = true ∧ n < (written e n code resid).mov.chans.length
      ∧ ((written e n code resid).chan n).waiters = (e.chan n).waiters ∧ ∀ m, m ≠ n → (written e n code resid).chan m = e.chan m := by
  have hmov := statusWrite_mov e n code resid
  have hin : n < (statusWrite e n code resid).1.mov.chans.length := by rw [hmov]; exact hn
  have hwf : (statusWrite e n code resid).1.regs.wf = true := dmaWrite_wf hw _ _ _
  unfold written
  refine ⟨hwf, by rw [putChan_length]; exact hin, ?_, fun m hm => (chan_putChan_ne hm).trans (chan_of_mov hmov m)⟩
  rw [chan_putChan_same hin]

end

/-! ### Aborts (R382) -/

section
variable {e : Engine} {n : Nat}

theorem finishBurst_idle (k : Nat) (h : (e.inBurst n && e.ready n) = false) : finishBurst k e n = e := by
  cases k with
  | zero => rfl
  | succ k => exact if_neg (by simp [h])

theorem inBurst_stopped (h : e.chanRun n = false) : e.inBurst n = false := by
  unfold Engine.inBurst
  rw [h]
  rfl

theorem inBurst_between (h : e.mov.holder ≠ some n ∨ (e.chan n).burst ≤ (e.chan n).pos) : e.inBurst n = false := by
  unfold Engine.inBurst
  rcases h with h | h
  · simp [h]
  · simp [Nat.not_lt.mpr h]

theorem chainAbort_idle (h : e.chanRun n = false) : chainAbort e n = e := by
  unfold chainAbort
  simp only [finishBurst_idle 16 (e := e) (n := n) (by rw [inBurst_stopped h]; rfl), h]
  rfl

theorem chainAbort_between (hrun : e.chanRun n = true) (h : e.inBurst n = false) : chainAbort e n = chainFault e n .aborted 0 := by
  unfold chainAbort
  simp only [finishBurst_idle 16 (e := e) (n := n) (by rw [h]; rfl), hrun, h]
  rfl

/-- An abort inside a burst that waits for host data waits with it. -/
theorem chainAbort_waits (hrun : e.chanRun n = true) (h : e.inBurst n = true) (hr : e.ready n = false) :
    chainAbort e n = e.putChan n { e.chan n with aborting := true } := by
  unfold chainAbort
  simp only [finishBurst_idle 16 (e := e) (n := n) (by rw [hr, Bool.and_false]), hrun, h]
  rfl

end

end Sys2Proof.Machine
end

section
namespace Sys2Proof.Machine

/-- An end of a chain tells the commands that wait for it, once its channel is IDLE. -/
theorem handedOver_idle {e : Engine} {n : Nat} {late : Bool} (hw : e.regs.wf = true) (hn : n < e.mov.chans.length) :
    IdleAfter e n 0 0 (chainIdle (handedOver e n late) n 0 0) := by
  obtain ⟨hwf, hlen, hothers, _⟩ := handedOver_keeps (n := n) late hw hn
  exact chainIdle_idle 0 0 hwf (hlen ▸ hn) hothers

/-- The channel goes on at the descriptor that was handed over. -/
theorem goesOn_at {e : Engine} {n : Nat} {late : Bool} {sp a : Nat} {c : Chan} (hw : e.regs.wf = true) (hn : n < e.mov.chans.length)
    (hrun : e.reg (Reg.DMA_STAT_STATE n) = 1) (ha : a < 2 ^ 64) :
    let t := (setCur (handedOver e n late) n sp a).putChan n c
    t.curAddr n = a / 32 * 32 ∧ t.curSpace n = sp % 2 ∧ t.chan n = c ∧ t.reg (Reg.DMA_STAT_STATE n) = 1
      ∧ t.reg (Reg.DMA_DESC_COUNT n) = satU 32 (e.reg (Reg.DMA_DESC_COUNT n) + 1) ∧ (late = true → t.reg (Reg.DMA_STAT_LATE n) = 1)
      ∧ t.reg (Reg.DMA_NEXT_LO_V n) = (handedOver e n late).reg (Reg.DMA_NEXT_LO_V n) := by
  intro t
  obtain ⟨hwf, hlen, _, _, hcount, hlate, hreg⟩ := handedOver_keeps (n := n) late hw hn
  have hkeep : ∀ g : Fld, g.key ≠ (Reg.DMA_CUR_LO_SP n).key → g.key ≠ (Reg.DMA_CUR_LO_ADDR n).key → g.key ≠ (Reg.DMA_CUR_HI_ADDR n).key →
      t.reg g = (handedOver e n late).reg g := fun g h1 h2 h3 => reg_setCur_ne hwf h1 h2 h3
  refine ⟨curAddr_setCur hwf ha, curSpace_setCur hwf n sp a, chan_putChan_same (e := setCur (handedOver e n late) n sp a) (hlen ▸ hn), ?state,
    ?count, fun hl => ?late, ?next⟩
  case state =>
    exact (hkeep _ (by simp only; omega) (by simp only; omega) (by simp only; omega)).trans
      ((hreg _ (by simp only; omega) (by simp only; omega) (by simp only; omega)).trans hrun)
  case count => exact (hkeep _ (by simp only; omega) (by simp only; omega) (by simp only; omega)).trans hcount
  case late => exact (hkeep _ (by simp only; omega) (by simp only; omega) (by simp only; omega)).trans (hlate hl)
  case next => exact hkeep _ (by simp only; omega) (by simp only; omega) (by simp only; omega)

/-- Settles O48: a start by `chainStart_starts`, DMA_NEXT by `dmaNextWrite_writes`, a descriptor's reading by where it lies (`AwaitsDesc`),
its normal end by what `handOver` answers, a difference by whether its status can be written back, and an abort by whether a burst is under
way. -/
theorem moverChains : Obligations.MoverChains := by
  unfold Obligations.MoverChains
  intro n s hn hw hlen e c idle wb told
  have hin : n < e.mov.chans.length := hlen ▸ hn
  refine ⟨fun hrun => ?counted, fun hidle hsp hlo hhi => ?starts, fun v hv => ?next, fun host hrun hd hf hbad => ?reads,
    fun late hrun hd hm hmoved hwb => ?ends, fun late hrun hd hm => ?differs, fun hidle => ?abortIdle, fun hrun hout => ?aborts,
    fun hrun hhold hpos hready => ?abortWaits⟩
  case counted => exact (exec_dmaCtlGo hn s).trans (next_congr (dmaGo_running (chanRun_iff.mpr hrun)))
  case starts =>
    exact .of_next ((exec_dmaCtlGo hn s).trans (next_congr (dmaGo_idle (chanRun_false hidle)))) (chainStart_starts hn hw hlen hsp hlo hhi)
  case next =>
    obtain ⟨hsp, hv1, haddr, hsome, hnone, hheld, hmem⟩ := dmaNextWrite_writes hn hw hlen hv
    refine .of_next (exec_dmaNextLoWrite hn v s) ⟨hsp, hv1, haddr, ?_, hheld, hmem⟩
    cases hh : c.nextHi with
    | none => exact hnone hh
    | some w => exact hsome w hh
  case reads =>
    intro o e1 readAs
    have hwaits : AwaitsDesc s.eng n := ⟨chanRun_iff.mpr hrun, hd, hf, hbad, hn, hlen⟩
    have hread : ∀ d, o = .next { s with eng := descTaken s.eng n d } → readAs d := fun d ho =>
      ⟨fun hgood => ho.trans (next_congr (descTaken_good hgood)), fun st side hb => ho.trans (next_congr (descTaken_bad hb))⟩
    refine ⟨fun hsp bs hb => ?bytes, fun hsp hb hbuf => ?fails, fun hsp ha hecc hlecc => hread _ (hwaits.burst_own hsp ha hecc hlecc host)⟩
    case bytes =>
      subst hb
      obtain ⟨hshort, hall⟩ := hwaits.burst_bytes hsp bs
      exact ⟨hshort, fun h => hread _ (hall h)⟩
    case fails =>
      subst hb
      exact hwaits.burst_fails hsp hbuf
  case ends =>
    intro o counted
    have ho : o = .next { s with eng := descEnd e n late } :=
      exec_descriptorEnd (chanRun_iff.mpr hrun) hd (moving_of_moved hmoved)
    obtain ⟨hwf, hlen1, hothers, hwaiters, hcount, hlate, hkeep⟩ := handedOver_keeps (n := n) late hw hin
    have hv1 : (e.bump (Reg.DMA_DESC_COUNT n)).reg (Reg.DMA_NEXT_LO_V n) = e.reg (Reg.DMA_NEXT_LO_V n) :=
      reg_setReg_ne hw (by simp only; omega) _
    refine ⟨fun hv hlast => ?last, fun hv hsp hlo hhi hnote => ?handed, fun hv hlast hnote => ?linked⟩
    case last =>
      have hend := descEnd_ends (late := late) hm hwb (by rw [handOver_last (by rwa [hv1]) hlast])
      rw [chainEnd_eq, hwaiters] at hend
      refine .of_next (ho.trans (next_congr hend)) ⟨_, rfl, handedOver_idle hw hin, ?count, fun hl => ?late⟩
      case count => exact (chainIdle_reg hwf (by simp only; omega) (by simp only; omega) (by simp only; omega)).trans hcount
      case late => exact (chainIdle_reg hwf (by simp only; omega) (by simp only; omega) (by simp only; omega)).trans (hlate hl)
    case handed =>
      have hreg1 : ∀ g : Fld, g.key ≠ (Reg.DMA_DESC_COUNT n).key → (e.bump (Reg.DMA_DESC_COUNT n)).reg g = e.reg g :=
        fun g hg => reg_setReg_ne hw hg _
      have hnext := congrArg Prod.snd (handOver_next (d := (e.chan n).desc) (hv1.trans hv))
      rw [hreg1 _ (by simp only; omega), hreg1 _ (by simp only; omega), hreg1 _ (by simp only; omega)] at hnext
      obtain ⟨haddr, hspace, hchan, hstate, hcnt, hl, hnv⟩ := goesOn_at (late := late) (sp := e.reg (Reg.DMA_NEXT_LO_SP n))
        (c := { (handedOver e n late).chan n with desc := [], linked := true, pos := 0, burst := 0, buf := [], failed := false })
        hw hin hrun (heldAddr_lt hlo hhi)
      refine .of_next (ho.trans (next_congr (descEnd_goesOn hm hwb hnote hnext))) ⟨?addr, ?space, ?nextV, ?desc, ⟨hcnt, hl⟩, hstate⟩
      case addr =>
        rw [haddr]
        omega
      case space => rw [hspace, Nat.mod_eq_of_lt hsp]
      case nextV => exact hnv.trans (handedOver_next hw hin hv)
      case desc => rw [hchan]
    case linked =>
      have hnext := congrArg Prod.snd (handOver_linked (d := (e.chan n).desc) (by rwa [hv1]) hlast)
      have hlt : dNext c.desc < 2 ^ 64 := leAt_lt _ _ 8
      obtain ⟨haddr, hspace, hchan, hstate, hcnt, hl, _⟩ := goesOn_at (late := late) (sp := dNext c.desc % 2) (a := dNext c.desc / 32 * 32)
        (c := { (handedOver e n late).chan n with desc := [], linked := true, pos := 0, burst := 0, buf := [], failed := false })
        hw hin hrun (by omega)
      refine .of_next (ho.trans (next_congr (descEnd_goesOn hm hwb hnote hnext))) ⟨?addr, ?space, ?desc, ⟨hcnt, hl⟩, hstate⟩
      case addr =>
        rw [haddr]
        omega
      case space => rw [hspace, Nat.mod_mod]
      case desc => rw [hchan]
  case differs =>
    intro o resid why
    have ho : o = .next { s with eng := descEnd e n late } := exec_descriptorEnd (chanRun_iff.mpr hrun) hd (moving_of_mism hm)
    refine ⟨fun hopen hgood => ?done, fun hopen hbad => ho.trans (next_congr (descEnd_mism_failed hm hopen hbad)),
      fun st hclosed => ho.trans (next_congr (descEnd_mism_closed hm hclosed))⟩
    obtain ⟨hwf, hinw, hwaiters, hothers⟩ := written_keeps (n := n) 0 resid hw hin
    have hend := descEnd_mism_done (late := late) hm hopen hgood
    rw [chainEnd_eq, hwaiters] at hend
    exact .of_next (ho.trans (next_congr hend)) ⟨_, rfl, chainIdle_idle 0 resid hwf hinw hothers, rfl, rfl⟩
  case abortIdle =>
    exact (exec_dmaCtlAbort hn s).trans (next_congr (chainAbort_idle (chanRun_false hidle)))
  case aborts =>
    intro resid silent
    have ho := (exec_dmaCtlAbort hn s).trans (next_congr (chainAbort_between (chanRun_iff.mpr hrun) (inBurst_between hout)))
    by_cases hd : c.desc = []
    · have hresid : resid = 0 := if_pos hd
      rw [hresid]
      exact .of_next (ho.trans (next_congr (chainFault_unread hd)))
        ⟨_, rfl, chainIdle_idle _ 0 hw hin fun _ _ => rfl, fun _ => rfl, fun hsil => absurd (.inl hd) hsil⟩
    · have hresid : resid = dLen c.desc - c.pos := if_neg hd
      have hfault := chainFault_read (st := .aborted) (side := 0) hd
      rw [hresid]
      cases hbad : dmaBad e n (e.curSpace n) (e.curAddr n + 16) 8 true with
      | some st =>
        rw [writeBack_closed hbad, chainEnd_eq] at hfault
        exact .of_next (ho.trans (next_congr hfault)) ⟨_, rfl, chainIdle_idle _ _ hw hin fun _ _ => rfl, fun _ => rfl,
          fun hsil => absurd (.inr (by rw [hbad]; exact nofun)) hsil⟩
      | none =>
        obtain ⟨hwf, hinw, hwaiters, hothers⟩ := written_keeps (n := n) Status.aborted.code (dLen c.desc - c.pos) hw hin
        rw [writeBack_open hbad, chainEnd_eq, hwaiters] at hfault
        refine .of_next (ho.trans (next_congr hfault)) ⟨_, rfl, chainIdle_idle _ _ hwf hinw hothers, fun hsil => ?_, fun _ => rfl⟩
        exact absurd (hsil.resolve_left hd) (not_not_intro hbad)
  case abortWaits =>
    refine (exec_dmaCtlAbort hn s).trans (next_congr (chainAbort_waits (chanRun_iff.mpr hrun) ?_ hready))
    have hh : e.mov.holder = some n := hhold
    have hp : (e.chan n).pos < (e.chan n).burst := hpos
    unfold Engine.inBurst
    simp [chanRun_iff.mpr hrun, e, hh, hp]

end Sys2Proof.Machine
end

/-! ## Beats of the mover -/

section
namespace Sys2Proof.Machine

/-! ### The channel that the mover serves (R380, R381) -/

theorem nextRound_mem {last n : Nat} {l : List Nat} (h : nextRound last l = some n) : n ∈ l := by
  unfold nextRound at h
  split at h
  · rename_i hf
    exact Option.some.inj h ▸ List.mem_of_find?_eq_some hf
  · exact List.mem_of_mem_head? h

theorem moverPick_mem {e : Engine} {rdy : List Nat} {n : Nat} (h : moverPick e rdy = some n) : n ∈ rdy := by
  unfold moverPick at h
  extract_lets top best at h
  have hbest : ∀ m, m ∈ best → m ∈ rdy := fun m hm => (List.mem_filter.mp hm).1
  split at h
  · split at h
    · split at h
      · rename_i hc
        exact Option.some.inj h ▸ List.contains_iff_mem.mp hc
      · exact absurd h nofun
    · split at h
      · rename_i hc
        exact Option.some.inj h ▸ hbest _ (List.contains_iff_mem.mp hc)
      · exact hbest _ (nextRound_mem h)
  · exact hbest _ (nextRound_mem h)

/-- A channel that the mover serves runs and has bytes to move. -/
theorem picked_runs {e : Engine} {n : Nat} (h : moverPick e (readyChans e) = some n) : n < 64 ∧ e.reg (Reg.DMA_STAT_STATE n) = 1 := by
  obtain ⟨hlt, hready⟩ := List.mem_filter.mp (moverPick_mem h)
  unfold Engine.ready Engine.moving at hready
  simp only [Bool.and_eq_true] at hready
  obtain ⟨⟨⟨⟨hrun, _⟩, _⟩, _⟩, _⟩ := hready
  exact ⟨List.mem_range.mp hlt, chanRun_iff.mp hrun⟩

section
variable {ch : Nat} {host : Option (List Byte)} {s : State} (hch : ch < 64)
  (hbusy : ¬((hostData s.eng ch host).reg (Reg.DMA_STAT_STATE ch) = 1 ∧ ((hostData s.eng ch host).chan ch).desc = []))
include hch hbusy

theorem exec_dmaBurst_none (h : moverPick (hostData s.eng ch host) (readyChans (hostData s.eng ch host)) = none) :
    exec (.dmaBurst ch host) s = .next { s with eng := hostData s.eng ch host } := by
  change execDmaBurst ch host s = _
  unfold execDmaBurst
  rw [if_neg (by omega)]
  dsimp only
  rw [if_neg (by simpa [chanRun_iff] using hbusy), h]

theorem exec_dmaBurst_beat {n : Nat} (h : moverPick (hostData s.eng ch host) (readyChans (hostData s.eng ch host)) = some n) :
    exec (.dmaBurst ch host) s = .next { s with eng := beat (hostData s.eng ch host) n } := by
  change execDmaBurst ch host s = _
  unfold execDmaBurst
  rw [if_neg (by omega)]
  dsimp only
  rw [if_neg (by simpa [chanRun_iff] using hbusy), h]

end

/-! ### What a beat reads and writes, with no errors in memory -/

section
variable {e : Engine} (hecc : e.mem.ecc = [])
include hecc

theorem sramWrite_clean (a : Nat) (bs : List Byte) : sramWrite e a bs = if a < 2 ^ 22 then (e, false) else (e.storeBytes a bs, false) := by
  have hhead : (if a % 8 = 0 then (e, false) else sramBake e (a / 8 * 8) 8) = (e, false) := by rw [sramBake_clean hecc, ite_self]
  unfold sramWrite
  rw [hhead]
  dsimp only
  rw [sramBake_clean hecc, ite_self]
  rfl

/-- The bytes that a write that sets or clears bits stores. -/
def aliasBytes (setBits : Bool) (cells : List Host.Cell) (a : Nat) (bs : List Byte) : List Byte := (indexed bs).map (fun ib =>
  if setBits then memGet cells (a + ib.1) ||| ib.2 else memGet cells (a + ib.1) &&& ~~~ib.2)

theorem aliasWrite_clean (setBits : Bool) (a : Nat) (bs : List Byte) :
    aliasWrite setBits e a bs = if a < 2 ^ 22 then (e, false) else (e.storeBytes a (aliasBytes setBits e.mem.cells a bs), false) := by
  unfold aliasWrite
  rw [sramBake_clean hecc]
  rfl

end

/-- The stores that a write to an engine address makes, with no errors in memory: the address and the bytes, or none. -/
def plainStore (cells : List Host.Cell) (a : Nat) (bs : List Byte) : Option (Nat × List Byte) :=
  if (addrKind a).2 < 2 ^ 22 then none
  else if (addrKind a).1 = 1 then some ((addrKind a).2, bs)
  else if (addrKind a).1 = 2 then some ((addrKind a).2, aliasBytes true cells (addrKind a).2 bs)
  else if (addrKind a).1 = 3 then some ((addrKind a).2, aliasBytes false cells (addrKind a).2 bs) else none

/-- The engine after such a store. -/
def storedBy (e : Engine) (x : Option (Nat × List Byte)) : Engine := x.elim e (fun y => e.storeBytes y.1 y.2)

theorem engWrite_clean {e : Engine} (hecc : e.mem.ecc = []) (a : Nat) (bs : List Byte) :
    engWrite e a bs = (storedBy e (plainStore e.mem.cells a bs), false) := by
  unfold engWrite plainStore
  dsimp only
  simp only [sramWrite_clean hecc, aliasWrite_clean hecc]
  by_cases ha : (addrKind a).2 < 2 ^ 22
  · simp only [ha, if_true, ite_self]
    rfl
  · simp only [ha, if_false]
    split
    · rfl
    split
    · rfl
    split
    · rfl
    · rfl

end Sys2Proof.Machine
end

section
namespace Sys2Proof.Machine

/-- The mover, held for channel `n`, which now has contents `c`. -/
def servedBy (e : Engine) (n : Nat) (c : Chan) : Engine := Engine.putChan { e with mov := { e.mov with last := n, holder := some n } } n c

section
variable {e : Engine} {n : Nat} {c d : Chan} (hn : n < e.mov.chans.length)
include hn

theorem chan_servedBy : (servedBy e n c).chan n = c :=
  chan_putChan_same (e := { e with mov := { e.mov with last := n, holder := some n } }) hn

theorem beatDone_servedBy (k : Nat) :
    beatDone (servedBy e n c) n k = servedBy (e.bumpBy (Reg.DMA_BYTES_COUNT n) k) n { c with pos := c.pos + k } := by
  unfold beatDone
  rw [chan_servedBy hn]
  exact putChan_putChan (e := Engine.bumpBy { e with mov := { e.mov with last := n, holder := some n } } (Reg.DMA_BYTES_COUNT n) k)

end

theorem servedBy_putChan {e : Engine} {n : Nat} {c d : Chan} : (servedBy e n c).putChan n d = servedBy e n d := putChan_putChan

theorem storedBy_keeps (e : Engine) (x : Option (Nat × List Byte)) : (storedBy e x).mov = e.mov ∧ (storedBy e x).regs = e.regs := by
  cases x with
  | none => exact ⟨rfl, rfl⟩
  | some y =>
    change (e.storeBytes y.1 y.2).mov = _ ∧ (e.storeBytes y.1 y.2).regs = _
    unfold Engine.storeBytes
    dsimp only
    split
    · exact ⟨rfl, rfl⟩
    · exact ⟨rfl, rfl⟩

theorem storedBy_servedBy (e : Engine) (n : Nat) (c : Chan) (x : Option (Nat × List Byte)) :
    storedBy (servedBy e n c) x = servedBy (storedBy e x) n c := by
  cases x with
  | none => rfl
  | some y =>
    change (servedBy e n c).storeBytes y.1 y.2 = servedBy (e.storeBytes y.1 y.2) n c
    unfold Engine.storeBytes servedBy Engine.putChan
    dsimp only
    split
    · rfl
    · rfl

theorem post_servedBy (e : Engine) (n : Nat) (c : Chan) (a : Nat) (bs : List Byte) :
    (servedBy e n c).post a bs = servedBy (e.post a bs) n c := by
  unfold Engine.post Engine.postAs
  dsimp only
  have hadmits : (servedBy e n c).admits false bs.length = e.admits false bs.length := rfl
  rw [hadmits]
  split
  · rfl
  · rfl

/-- A write for a channel changes neither the mover nor the registers, and it is the same write whoever holds the mover. -/
theorem dmaWrite_servedBy {e : Engine} (hecc : e.mem.ecc = []) (n : Nat) (c : Chan) (space a : Nat) (bs : List Byte) :
    dmaWrite (servedBy e n c) space a bs = (servedBy (dmaWrite e space a bs).1 n c, false) := by
  unfold dmaWrite
  by_cases hs : space = 1
  · rw [if_pos hs, if_pos hs, post_servedBy]
  · rw [if_neg hs, if_neg hs, engWrite_clean hecc, engWrite_clean (e := servedBy e n c) hecc]
    exact Prod.ext (storedBy_servedBy _ _ _ _) rfl

theorem dmaWrite_regs {e : Engine} (hecc : e.mem.ecc = []) (space a : Nat) (bs : List Byte) : (dmaWrite e space a bs).1.regs = e.regs := by
  unfold dmaWrite
  split
  · exact post_regs _ _ _
  · rw [engWrite_clean hecc]
    exact (storedBy_keeps _ _).2

/-! ### The bytes of a beat (R376, R380) -/

/-- The bytes of one side of a beat, where the channel's buffer holds `buf`. -/
def sideBytes (e : Engine) (c : Chan) (buf : List Byte) (side len : Nat) : List Byte :=
  if dSpace c.desc side = 1 then buf.take len else plainBytes e (dAddr c.desc side c.pos) len

/-- What a read of one side leaves in the buffer. -/
def sideLeft (c : Chan) (buf : List Byte) (side len : Nat) : List Byte := if dSpace c.desc side = 1 then buf.drop len else buf

/-- The source of a beat. -/
def beatSource (e : Engine) (c : Chan) (len : Nat) : List Byte :=
  if !dReads c.desc then (List.range len).map (fun i => c.desc.getD (i % 8) 0) else sideBytes e c c.buf 0 len

/-- What a beat leaves in the buffer of its source. -/
def sourceLeft (c : Chan) (len : Nat) : List Byte := if !dReads c.desc then c.buf else sideLeft c c.buf 0 len

section
variable {e : Engine} {n len : Nat} {c : Chan} {buf : List Byte} (hn : n < e.mov.chans.length) (hecc : e.mem.ecc = []) (hlecc : e.mem.lecc = [])
include hn hecc hlecc

/-- A side is read where the buffer holds enough of it. -/
theorem dmaRead_side {d : Chan} (side : Nat) (hd : d.buf = buf) (hbuf : dSpace c.desc side = 1 → len ≤ buf.length) :
    dmaRead (servedBy e n d) n (dSpace c.desc side) (dAddr c.desc side c.pos) len
      = (servedBy e n { d with buf := sideLeft c buf side len }, some (sideBytes e c buf side len)) := by
  subst hd
  unfold dmaRead sideLeft sideBytes
  by_cases hs : dSpace c.desc side = 1
  · simp only [if_pos hs, chan_servedBy hn, if_neg (Nat.not_lt.mpr (hbuf hs)), servedBy_putChan]
  · simp only [if_neg hs]
    rw [engRead_clean (e := servedBy e n d) hecc hlecc]
    rfl

theorem beat_source (hbuf : dReads c.desc = true → dSpace c.desc 0 = 1 → len ≤ c.buf.length) {d : Chan} (hd : d.buf = c.buf) :
    (if dReads c.desc then dmaRead (servedBy e n d) n (dSpace c.desc 0) (dAddr c.desc 0 c.pos) len
      else (servedBy e n d, some ((List.range len).map (fun i => c.desc.getD (i % 8) 0))))
      = (servedBy e n { d with buf := sourceLeft c len }, some (beatSource e c len)) := by
  unfold sourceLeft beatSource
  cases hr : dReads c.desc with
  | false =>
    simp only [Bool.false_eq_true, if_false, Bool.not_false, if_true]
    rw [← hd]
  | true => exact dmaRead_side hn hecc hlecc 0 hd (hbuf hr)

end

end Sys2Proof.Machine
end

section
namespace Sys2Proof.Machine

/-! ### A beat is moved or compared (R376) -/

theorem length_plainBytes (e : Engine) (a len : Nat) : (plainBytes e a len).length = len := by
  unfold plainBytes
  split
  · simp [Engine.bytes, memRead]
  · simp

section
variable {e : Engine} {n len last : Nat} {c : Chan} (hn : n < e.mov.chans.length) (hecc : e.mem.ecc = []) (hlecc : e.mem.lecc = [])
include hn

/-- A failed read of the source ends the chain. -/
theorem beatMove_failed (hr : dReads c.desc = true) (hs : dSpace c.desc 0 = 1) (hbuf : c.buf.length < len) :
    beatMove (servedBy e n { c with burst := last }) n len = chainFault (servedBy e n { c with burst := last }) n (.hwerr 0) 1 := by
  unfold beatMove
  simp only [chan_servedBy hn, hr, hs, dmaRead, if_pos hbuf, if_true]

include hecc hlecc

/-- COPY and FILL store the source at the destination. -/
theorem beatMove_moves (hbuf : dReads c.desc = true → dSpace c.desc 0 = 1 → len ≤ c.buf.length) (hop : dOp c.desc ≠ 2) :
    beatMove (servedBy e n { c with burst := last }) n len
      = servedBy ((dmaWrite e (dSpace c.desc 1) (dAddr c.desc 1 c.pos) (beatSource e c len)).1.bumpBy (Reg.DMA_BYTES_COUNT n) len) n
          { c with burst := last, buf := sourceLeft c len, pos := c.pos + len } := by
  have hin : n < (dmaWrite e (dSpace c.desc 1) (dAddr c.desc 1 c.pos) (beatSource e c len)).1.mov.chans.length := by rw [dmaWrite_mov]; exact hn
  unfold beatMove
  simp only [chan_servedBy hn, beat_source hn hecc hlecc (c := c) (d := { c with burst := last }) hbuf rfl, if_neg hop,
    dmaWrite_servedBy hecc, beatDone_servedBy hin, Bool.false_eq_true, if_false]

/-- COMPARE compares the source with the destination. -/
theorem beatMove_compares (hop : dOp c.desc = 2) (hbuf : dReads c.desc = true → dSpace c.desc 0 = 1 → len ≤ c.buf.length)
    (hdst : dSpace c.desc 1 = 1 → len ≤ (sourceLeft c len).length) :
    beatMove (servedBy e n { c with burst := last }) n len
      = beatCompare (servedBy e n { c with burst := last, buf := sideLeft c (sourceLeft c len) 1 len }) n c.pos (beatSource e c len)
          (sideBytes e c (sourceLeft c len) 1 len) := by
  unfold beatMove
  simp only [chan_servedBy hn, beat_source hn hecc hlecc (c := c) (d := { c with burst := last }) hbuf rfl, if_pos hop,
    dmaRead_side hn hecc hlecc (c := c) (d := { c with burst := last, buf := sourceLeft c len }) 1 rfl hdst]

end

theorem length_beatSource {e : Engine} {c : Chan} {len : Nat} (hbuf : dReads c.desc = true → dSpace c.desc 0 = 1 → len ≤ c.buf.length) :
    (beatSource e c len).length = len := by
  unfold beatSource sideBytes
  cases hr : dReads c.desc with
  | false => simp
  | true =>
    by_cases hs : dSpace c.desc 0 = 1
    · simp [hs, hbuf hr hs]
    · simp [hs, length_plainBytes]

/-- A buffer that holds what a beat needs holds enough for the source, and then for the destination. -/
theorem hostNeed_source {c : Chan} (h : hostNeed c ≤ c.buf.length) (hr : dReads c.desc = true) (hs : dSpace c.desc 0 = 1) :
    beatLen c.desc c.pos (burstOf c) ≤ c.buf.length := by
  unfold hostNeed at h
  simp only [hr, hs, beq_self_eq_true, Bool.and_self, if_true] at h
  omega

theorem hostNeed_dest {c : Chan} (h : hostNeed c ≤ c.buf.length) (hop : dOp c.desc = 2) (hs : dSpace c.desc 1 = 1) :
    beatLen c.desc c.pos (burstOf c) ≤ (sourceLeft c (beatLen c.desc c.pos (burstOf c))).length := by
  have hr : dReads c.desc = true := by simp [dReads, hop]
  unfold hostNeed at h
  unfold sourceLeft sideLeft
  simp only [hr, hop, hs, beq_self_eq_true, Bool.and_self, if_true, Bool.true_and, beq_iff_eq, Bool.not_true, Bool.false_eq_true, if_false] at h ⊢
  split at h
  · rename_i hs0
    rw [if_pos hs0, List.length_drop]
    omega
  · rename_i hs0
    rw [if_neg hs0]
    omega

/-! ### The end of a beat -/

/-- Channel `n` has moved to position `pos`, having counted `k` bytes, and the others stand as they were. -/
def Moved (e : Engine) (n pos k : Nat) (x : Engine) : Prop :=
  (x.chan n).pos = pos ∧ x.reg (Reg.DMA_STAT_STATE n) = 1 ∧ x.reg (Reg.DMA_BYTES_COUNT n) = satU 32 (e.reg (Reg.DMA_BYTES_COUNT n) + k)
    ∧ x.mov.last = n ∧ ∀ m, m ≠ n → x.chan m = e.chan m

theorem reg_bumpBy_same {e : Engine} (h : e.regs.wf = true) (f : Fld) (k : Nat) : (e.bumpBy f k).reg f = satU f.width (e.reg f + k) :=
  (reg_setReg_same h f _).trans (Nat.mod_eq_of_lt (Nat.lt_of_le_of_lt (Nat.min_le_right _ _) (Nat.sub_one_lt (by simp))))

theorem servedBy_moved {e f : Engine} {n k : Nat} {c : Chan} (hregs : f.regs = e.regs) (hmov : f.mov = e.mov) (hw : e.regs.wf = true)
    (hn : n < e.mov.chans.length) (hrun : e.reg (Reg.DMA_STAT_STATE n) = 1) :
    Moved e n c.pos k (servedBy (f.bumpBy (Reg.DMA_BYTES_COUNT n) k) n c) := by
  have hwf : f.regs.wf = true := hregs ▸ hw
  have hreg : ∀ g, f.reg g = e.reg g := fun g => by simp only [Engine.reg, hregs]
  have hcount := reg_bumpBy_same hwf (Reg.DMA_BYTES_COUNT n) k
  rw [hreg] at hcount
  refine ⟨?pos, ?state, hcount, rfl, fun m hm => ?others⟩
  case pos => rw [chan_servedBy (e := f.bumpBy (Reg.DMA_BYTES_COUNT n) k) (by rw [bumpBy_mov, hmov]; exact hn)]
  case state => exact (reg_setReg_ne hwf (by simp only; omega) _).trans ((hreg _).trans hrun)
  case others => exact (chan_putChan_ne hm).trans (chan_of_mov (e := e) (f := f) hmov m)

theorem Moved.freeMover {e x : Engine} {n pos k : Nat} (h : Moved e n pos k x) : Moved e n pos k (freeMover x n) := h

end Sys2Proof.Machine
end

section
namespace Sys2Proof.Machine

/-! ### A beat as the mover serves it -/

/-- Why the mover may not serve the next beat of channel `n`: host memory within a burst, or the check before one (R377). -/
def beatStop (e : Engine) (n : Nat) : Option (Status × Nat) :=
  let c := e.chan n
  if c.pos < c.burst then hostShut e n c.desc else burstBad e n c (burstOf c - c.pos)

/-- The engine after the move of a beat that may be served. -/
def beatMoved (e : Engine) (n : Nat) : Engine :=
  let c := e.chan n
  beatMove (servedBy e n { c with burst := burstOf c }) n (beatLen c.desc c.pos (burstOf c))

section
variable {e : Engine} {n : Nat}

theorem beat_stopped {st : Status} {side : Nat} (h : beatStop e n = some (st, side)) :
    beat e n = chainFault { e with mov := { e.mov with last := n } } n st side := by
  unfold beatStop at h
  dsimp only at h
  unfold beat
  dsimp only
  rw [h]

theorem beat_served (h : beatStop e n = none) :
    beat e n = if (beatMoved e n).chanRun n && decide (((beatMoved e n).chan n).pos < ((beatMoved e n).chan n).burst) then beatMoved e n
      else burstEnded (beatMoved e n) n := by
  unfold beatStop at h
  dsimp only at h
  unfold beat
  dsimp only
  rw [h]
  rfl

/-- A burst goes on while its channel runs and has not come to its end. -/
theorem beat_goesOn {x : Engine} (h : beatStop e n = none) (hx : beatMoved e n = x) (hrun : x.reg (Reg.DMA_STAT_STATE n) = 1)
    (hpos : (x.chan n).pos < (x.chan n).burst) : beat e n = x := by
  rw [beat_served h, hx, if_pos]
  rw [chanRun_iff.mpr hrun, decide_eq_true hpos]
  rfl

theorem beat_last {x : Engine} (h : beatStop e n = none) (hx : beatMoved e n = x) (hpos : (x.chan n).burst ≤ (x.chan n).pos) :
    beat e n = burstEnded x n := by
  rw [beat_served h, hx, if_neg]
  rw [decide_eq_false (Nat.not_lt.mpr hpos), Bool.and_false]
  exact Bool.false_ne_true

theorem burstEnded_free (h : (e.chan n).aborting = false) : burstEnded e n = freeMover e n :=
  if_neg (by
    change ¬ (e.chan n).aborting = true
    rw [h]
    exact Bool.false_ne_true)

theorem burstEnded_aborts (h : (e.chan n).aborting = true) : burstEnded e n = chainFault (freeMover e n) n .aborted 0 := if_pos h

theorem tellWaiters_mov (ws : List (Nat × Nat × Bool)) (x : Engine) : (tellWaiters ws x).mov = x.mov :=
  List.foldlRecOn (motive := fun y : Engine => y.mov = x.mov) ws _ rfl fun y hy w _ => by
    rw [(completeAt_answers y w.1 w.2.1 w.2.2 .ok y.cxNow).1]
    exact hy

theorem raise_mov (e : Engine) (s d : Nat) : (e.raise s d).mov = e.mov := by rw [(raise_events e s d).1]

theorem writeBack_length (e : Engine) (n code resid : Nat) : (writeBack e n code resid).1.mov.chans.length = e.mov.chans.length := by
  cases h : dmaBad e n (e.curSpace n) (e.curAddr n + 16) 8 true with
  | some st => rw [writeBack_closed h]
  | none =>
    rw [writeBack_open h]
    exact (putChan_length _ _ _).trans (by rw [statusWrite_mov])

/-- A chain that has ended leaves its channel as it was at its start. -/
theorem chainEnd_chan (code resid : Nat) (hn : n < e.mov.chans.length) : (chainEnd e n code resid).chan n
    = { Chan.reset with late := (e.chan n).late, headHi := (e.chan n).headHi, nextHi := (e.chan n).nextHi } := by
  rw [chainEnd_eq, chan_of_mov (tellWaiters_mov _ _)]
  exact chan_putChan_same (e := freeMover e n) hn

/-- A fault leaves its channel at no position, in no burst and with no abort to come. -/
theorem chainFault_chan (st : Status) (side : Nat) (hn : n < e.mov.chans.length) : ((chainFault e n st side).chan n).pos = 0
    ∧ ((chainFault e n st side).chan n).burst = 0 ∧ ((chainFault e n st side).chan n).aborting = false := by
  have hend : ∀ f : Engine, ∀ resid, f.mov.chans.length = e.mov.chans.length →
      ((((chainEnd f n st.code resid).setReg (Reg.DMA_STAT_DETAIL n) side).raise (Src.dma + 2 * n + 1) (st.code + 2 ^ 16 * side)).chan n)
        = { Chan.reset with late := (f.chan n).late, headHi := (f.chan n).headHi, nextHi := (f.chan n).nextHi } := fun f resid hf =>
    (chan_of_mov (raise_mov _ _ _) n).trans (chainEnd_chan (e := f) st.code resid (hf ▸ hn))
  by_cases hd : (e.chan n).desc = []
  · rw [chainFault_unread hd, ← chainEnd_eq, hend e 0 rfl]
    exact ⟨rfl, rfl, rfl⟩
  · rw [chainFault_read hd, hend _ _ (writeBack_length _ _ _ _)]
    exact ⟨rfl, rfl, rfl⟩

end

end Sys2Proof.Machine
end

section
namespace Sys2Proof.Machine

theorem hostData_keeps (e : Engine) (n : Nat) (host : Option (List Byte)) : (hostData e n host).regs = e.regs
    ∧ (hostData e n host).mem = e.mem ∧ (hostData e n host).mov.chans.length = e.mov.chans.length := by
  unfold hostData
  dsimp only
  split
  · exact ⟨rfl, rfl, rfl⟩
  split
  · exact ⟨rfl, rfl, putChan_length _ _ _⟩
  · exact ⟨rfl, rfl, putChan_length _ _ _⟩

/-- The length of the beat that channel `n` is at. -/
def nextLen (c : Chan) : Nat := beatLen c.desc c.pos (burstOf c)

/-- What a beat of COPY or FILL stores. -/
def beatStore (e : Engine) (n : Nat) : Engine × Bool :=
  dmaWrite e (dSpace (e.chan n).desc 1) (dAddr (e.chan n).desc 1 (e.chan n).pos) (beatSource e (e.chan n) (nextLen (e.chan n)))

/-- A failed read of the source ends the chain, and the mover is free. -/
theorem beat_failed {e : Engine} {n : Nat} (hn : n < e.mov.chans.length) (hstop : beatStop e n = none) (hr : dReads (e.chan n).desc = true)
    (hs : dSpace (e.chan n).desc 0 = 1) (hbuf : (e.chan n).buf.length < nextLen (e.chan n)) :
    beat e n = freeMover (chainFault (servedBy e n { e.chan n with burst := burstOf (e.chan n) }) n (.hwerr 0) 1) n := by
  have hx : beatMoved e n = chainFault (servedBy e n { e.chan n with burst := burstOf (e.chan n) }) n (.hwerr 0) 1 :=
    beatMove_failed hn hr hs hbuf
  obtain ⟨hpos, hburst, habort⟩ := chainFault_chan (e := servedBy e n { e.chan n with burst := burstOf (e.chan n) }) (.hwerr 0) 1
    (by simpa [servedBy, Engine.putChan] using hn)
  rw [beat_last hstop hx (by rw [hburst]; exact Nat.zero_le _), burstEnded_free habort]

section
variable {e : Engine} {n : Nat} (hn : n < e.mov.chans.length) (hw : e.regs.wf = true) (hrun : e.reg (Reg.DMA_STAT_STATE n) = 1)
  (hecc : e.mem.ecc = []) (hlecc : e.mem.lecc = [])
include hn hw hrun hecc hlecc

/-- A beat of COPY or FILL moves the channel by its length and makes its store. -/
theorem beatMoved_stored (hneed : hostNeed (e.chan n) ≤ (e.chan n).buf.length) (hop : dOp (e.chan n).desc ≠ 2) :
    let c := e.chan n
    let x := beatMoved e n
    Moved e n (c.pos + nextLen c) (nextLen c) x ∧ x.mem.cells = (beatStore e n).1.mem.cells ∧ x.host.out = (beatStore e n).1.host.out
      ∧ x.mov.holder = some n ∧ (x.chan n).burst = burstOf c ∧ (x.chan n).aborting = c.aborting := by
  intro c x
  have hx : x = servedBy ((beatStore e n).1.bumpBy (Reg.DMA_BYTES_COUNT n) (nextLen c)) n
      { c with burst := burstOf c, buf := sourceLeft c (nextLen c), pos := c.pos + nextLen c } :=
    beatMove_moves hn hecc hlecc (hostNeed_source hneed) hop
  have hmov : (beatStore e n).1.mov = e.mov := dmaWrite_mov _ _ _ _
  have hregs : (beatStore e n).1.regs = e.regs := dmaWrite_regs hecc _ _ _
  have hchan := chan_servedBy (e := (beatStore e n).1.bumpBy (Reg.DMA_BYTES_COUNT n) (nextLen c)) (n := n)
    (c := { c with burst := burstOf c, buf := sourceLeft c (nextLen c), pos := c.pos + nextLen c }) (by rw [bumpBy_mov, hmov]; exact hn)
  rw [hx]
  exact ⟨servedBy_moved hregs hmov hw hn hrun, rfl, rfl, rfl, by rw [hchan], by rw [hchan]⟩

/-- The bytes that a beat of COMPARE compares with its source. -/
def beatDest (e : Engine) (c : Chan) : List Byte :=
  if dSpace c.desc 1 = 1 then (if dSpace c.desc 0 = 1 then c.buf.drop (nextLen c) else c.buf).take (nextLen c)
  else plainBytes e (dAddr c.desc 1 c.pos) (nextLen c)

omit hw hrun in
theorem beatMoved_compare (hneed : hostNeed (e.chan n) ≤ (e.chan n).buf.length) (hop : dOp (e.chan n).desc = 2) :
    ∃ buf, beatMoved e n = beatCompare (servedBy e n { e.chan n with burst := burstOf (e.chan n), buf := buf }) n (e.chan n).pos
      (beatSource e (e.chan n) (nextLen (e.chan n))) (beatDest e (e.chan n)) := by
  have hr : dReads (e.chan n).desc = true := by simp [dReads, hop]
  have hdest : sideBytes e (e.chan n) (sourceLeft (e.chan n) (nextLen (e.chan n))) 1 (nextLen (e.chan n)) = beatDest e (e.chan n) := by
    unfold sideBytes sourceLeft sideLeft beatDest
    simp only [hr, Bool.not_true, Bool.false_eq_true, if_false]
  refine ⟨sideLeft (e.chan n) (sourceLeft (e.chan n) (nextLen (e.chan n))) 1 (nextLen (e.chan n)), ?_⟩
  rw [← hdest]
  exact beatMove_compares hn hecc hlecc hop (hostNeed_source hneed) (hostNeed_dest hneed hop)

/-- A beat of COMPARE that meets no difference moves the channel by its length; one that meets a difference, up to that, and ends its burst
(R376). -/
theorem beat_compares (hstop : beatStop e n = none) (hneed : hostNeed (e.chan n) ≤ (e.chan n).buf.length) (hop : dOp (e.chan n).desc = 2)
    (habort : (e.chan n).aborting = false) :
    let c := e.chan n
    let src := beatSource e c (nextLen c)
    let t := beat e n
    (firstDiff src (beatDest e c) = none → Moved e n (c.pos + nextLen c) (nextLen c) t ∧ t.mem = e.mem ∧ t.host = e.host)
    ∧ (∀ k, firstDiff src (beatDest e c) = some k → Moved e n (c.pos + k) k t ∧ t.mem = e.mem ∧ t.host = e.host ∧ (t.chan n).mism = true
        ∧ t.reg (Reg.DMA_STAT_MISM n) = 1 ∧ t.reg (Reg.DMA_CMOFF_OFF n) = (c.pos + k) % 2 ^ 32 ∧ t.mov.holder = none) := by
  intro c src t
  have hr : dReads c.desc = true := by simp [dReads, c, hop]
  have hsrc : src.length = nextLen c := length_beatSource (hostNeed_source hneed)
  obtain ⟨buf, hx⟩ := beatMoved_compare hn hecc hlecc hneed hop
  have hdone : ∀ k, beatDone (servedBy e n { c with burst := burstOf c, buf := buf }) n k
      = servedBy (e.bumpBy (Reg.DMA_BYTES_COUNT n) k) n { c with burst := burstOf c, buf := buf, pos := c.pos + k } := fun k =>
    beatDone_servedBy hn k
  refine ⟨fun hsame => ?same, fun k hdiff => ?differs⟩
  case same =>
    let x := servedBy (e.bumpBy (Reg.DMA_BYTES_COUNT n) (nextLen c)) n { c with burst := burstOf c, buf := buf, pos := c.pos + nextLen c }
    have hx1 : beatMoved e n = x := by
      rw [hx]
      unfold beatCompare
      rw [hsame]
      exact (hdone _).trans (by rw [hsrc])
    have hmoved : Moved e n (c.pos + nextLen c) (nextLen c) x := servedBy_moved rfl rfl hw hn hrun
    have hchan : x.chan n = { c with burst := burstOf c, buf := buf, pos := c.pos + nextLen c } := chan_servedBy (e := e.bumpBy _ _) hn
    by_cases hpos : (x.chan n).pos < (x.chan n).burst
    · have ht : t = x := beat_goesOn hstop hx1 hmoved.2.1 hpos
      rw [ht]
      exact ⟨hmoved, rfl, rfl⟩
    · have ht : t = freeMover x n := (beat_last hstop hx1 (Nat.not_lt.mp hpos)).trans (burstEnded_free (by rw [hchan]; exact habort))
      rw [ht]
      exact ⟨hmoved.freeMover, rfl, rfl⟩
  case differs =>
    let f := e.bumpBy (Reg.DMA_BYTES_COUNT n) k
    let e2 := servedBy f n { c with burst := 0, buf := buf, pos := c.pos + k, mism := true }
    let x := (e2.setReg (Reg.DMA_CMOFF_OFF n) (c.pos + k)).raiseBit (Reg.DMA_STAT_MISM n)
    have hf : f.regs.wf = true := setReg_wf hw _ _
    have hx1 : beatMoved e n = x := by
      rw [hx]
      unfold beatCompare
      rw [hdiff]
      dsimp only
      rw [hdone, chan_servedBy (e := f) hn, servedBy_putChan]
    have hchan : x.chan n = { c with burst := 0, buf := buf, pos := c.pos + k, mism := true } := chan_servedBy (e := f) hn
    have ht : t = freeMover x n :=
      (beat_last hstop hx1 (by rw [hchan]; exact Nat.zero_le _)).trans (burstEnded_free (by rw [hchan]; exact habort))
    obtain ⟨hpos, hstate, hcount, hlast, hothers⟩ := servedBy_moved (e := e) (f := e) (k := k)
      (c := { c with burst := 0, buf := buf, pos := c.pos + k, mism := true }) rfl rfl hw hn hrun
    have hwc : (f.setReg (Reg.DMA_CMOFF_OFF n) (c.pos + k)).regs.wf = true := setReg_wf hf _ _
    have hkeep : ∀ g : Fld, g.key ≠ (Reg.DMA_STAT_MISM n).key → g.key ≠ (Reg.DMA_CMOFF_OFF n).key → t.reg g = f.reg g := fun g h1 h2 => by
      rw [ht]
      exact (reg_setReg_ne hwc h1 1).trans (reg_setReg_ne hf h2 _)
    rw [ht] at hkeep ⊢
    refine ⟨⟨hpos, (hkeep _ (by simp only; omega) (by simp only; omega)).trans hstate,
      (hkeep _ (by simp only; omega) (by simp only; omega)).trans hcount, hlast, hothers⟩, rfl, rfl, ?mism,
      reg_setReg_same hwc _ 1, ?offset, if_pos rfl⟩
    case mism => exact congrArg Chan.mism hchan
    case offset => exact (reg_setReg_ne hwc (by simp only; omega) 1).trans (reg_setReg_same hf _ _)

end

end Sys2Proof.Machine
end

section
namespace Sys2Proof.Machine

/-- Channel `n` has moved by its beat, and the beat's bytes are stored. -/
def BeatStored (e : Engine) (n : Nat) (x : Engine) : Prop :=
  Moved e n ((e.chan n).pos + nextLen (e.chan n)) (nextLen (e.chan n)) x ∧ x.mem.cells = (beatStore e n).1.mem.cells
    ∧ x.host.out = (beatStore e n).1.host.out

theorem freeMover_stored {e x : Engine} {n : Nat} (h : BeatStored e n x) : BeatStored e n (freeMover x n) := h

/-- A beat of COPY or FILL: the mover is held to the end of the burst, where an abort that waited takes effect (R380, R382). -/
theorem beat_stores {e : Engine} {n : Nat} (hn : n < e.mov.chans.length) (hw : e.regs.wf = true) (hrun : e.reg (Reg.DMA_STAT_STATE n) = 1)
    (hecc : e.mem.ecc = []) (hlecc : e.mem.lecc = []) (hstop : beatStop e n = none) (hneed : hostNeed (e.chan n) ≤ (e.chan n).buf.length)
    (hop : dOp (e.chan n).desc ≠ 2) :
    let c := e.chan n
    (c.pos + nextLen c < burstOf c → BeatStored e n (beat e n) ∧ (beat e n).mov.holder = some n)
    ∧ (burstOf c ≤ c.pos + nextLen c → c.aborting = false → BeatStored e n (beat e n) ∧ (beat e n).mov.holder = none)
    ∧ (burstOf c ≤ c.pos + nextLen c → c.aborting = true →
        ∃ x, BeatStored e n x ∧ x.mov.holder = none ∧ beat e n = chainFault x n .aborted 0) := by
  intro c
  obtain ⟨hmoved, hcells, hout, hhold, hburst, habort⟩ := beatMoved_stored hn hw hrun hecc hlecc hneed hop
  have hstored : BeatStored e n (beatMoved e n) := ⟨hmoved, hcells, hout⟩
  have hfree : (freeMover (beatMoved e n) n).mov.holder = none := if_pos hhold
  obtain ⟨hpos, hstate, _⟩ := hmoved
  have hlast : burstOf c ≤ c.pos + nextLen c → beat e n = burstEnded (beatMoved e n) n := fun hend =>
    beat_last hstop rfl (by rw [hpos, hburst]; exact hend)
  refine ⟨fun hon => ?on, fun hend ha => ?ends, fun hend ha => ?aborts⟩
  case on =>
    rw [beat_goesOn hstop rfl hstate (by rw [hpos, hburst]; exact hon)]
    exact ⟨hstored, hhold⟩
  case ends =>
    rw [hlast hend, burstEnded_free (habort.trans ha)]
    exact ⟨freeMover_stored hstored, hfree⟩
  case aborts =>
    exact ⟨_, freeMover_stored hstored, hfree, (hlast hend).trans (burstEnded_aborts (habort.trans ha))⟩

/-- Settles O49: host memory's answer by `hostData`, a stopped beat by `beat_stopped`, a failed read by `beat_failed`, COPY and FILL by
`beatMoved_stored` and whether the burst has ended, and COMPARE by `beat_compares`. -/
theorem moverBeats : Obligations.MoverBeats := by
  unfold Obligations.MoverBeats
  intro ch host s hch hw0 hlen0 hecc0 hlecc0 c0 left e o
  obtain ⟨hregs, hmem, hlen⟩ := hostData_keeps s.eng ch host
  refine ⟨fun h => hostData_deaf h, fun hleft hopen hf => ⟨fun bs hb => ?some, fun hb => ?none⟩, fun hbusy =>
    ⟨exec_dmaBurst_none hch hbusy, fun n hpick => ?beat⟩⟩
  case some => exact (congrArg (hostData s.eng ch) hb).trans (hostData_some hleft hopen hf)
  case none => exact (congrArg (hostData s.eng ch) hb).trans (hostData_none hleft hopen hf)
  case beat =>
    intro c d last len plain src dst w moved stored
    have ho : o = .next { s with eng := beat e n } := exec_dmaBurst_beat hch hbusy hpick
    have hw : e.regs.wf = true := hregs ▸ hw0
    have hecc : e.mem.ecc = [] := hmem ▸ hecc0
    have hlecc : e.mem.lecc = [] := hmem ▸ hlecc0
    obtain ⟨hn64, hrun⟩ := picked_runs hpick
    have hn : n < e.mov.chans.length := by
      rw [hlen, hlen0]
      exact hn64
    refine ⟨fun st side hbad => ho.trans (next_congr (beat_stopped hbad)), fun hstop => ⟨fun _ hr hs hbuf => ?failed, fun hneed hop => ?stores,
      fun hneed hop habort => ?compares⟩⟩
    case failed => exact ho.trans (next_congr (beat_failed hn hstop hr hs hbuf))
    case stores =>
      obtain ⟨hon, hends, haborts⟩ := beat_stores hn hw hrun hecc hlecc hstop hneed hop
      exact ⟨fun h => .of_next ho (hon h), fun h ha => .of_next ho (hends h ha), fun h ha => .of_next ho (haborts h ha)⟩
    case compares =>
      obtain ⟨hsame, hdiffers⟩ := beat_compares hn hw hrun hecc hlecc hstop hneed hop habort
      exact ⟨fun h => .of_next ho (hsame h), fun k h => .of_next ho (hdiffers k h)⟩

end Sys2Proof.Machine
end

/-! ## The blitters -/

section
namespace Sys2Proof.Machine

/-! ### Starts, aborts and faults (R386, R389) -/

theorem bltRun_iff {e : Engine} {b : Nat} : e.bltRun b = true ↔ e.reg (Reg.BLT_STAT_STATE b) = 1 := beq_iff_eq

theorem bltRun_false {e : Engine} {b : Nat} (h : e.reg (Reg.BLT_STAT_STATE b) ≠ 1) : e.bltRun b = false := beq_eq_false_iff_ne.mpr h

section
variable {e : Engine} {b : Nat} {x : Blt}

theorem blt_putBlt_same (hb : b < e.mov.blts.length) : (e.putBlt b x).blt b = x := by
  simp [Engine.blt, Engine.putBlt, hb]

theorem blt_putBlt_ne {m : Nat} (hm : m ≠ b) : (e.putBlt b x).blt m = e.blt m := by
  simp [Engine.blt, Engine.putBlt, List.getElem?_set_ne hm.symm]

theorem blt_of_mov {f : Engine} (h : f.mov = e.mov) (m : Nat) : f.blt m = e.blt m := by
  simp only [Engine.blt, h]

theorem exec_bltCtlGo {s : State} (hb : b < 2) : exec (.bltCtlGo b) s = .next { s with eng := bltGo s.eng b } := if_pos hb

theorem exec_bltCtlAbort {s : State} (hb : b < 2) : exec (.bltCtlAbort b) s = .next { s with eng := bltAbort s.eng b } := if_pos hb

theorem exec_bltBurst_idle {s : State} (h : s.eng.bltRun b = false) : exec (.bltBurst b) s = .next s := if_neg (by simp [h])

theorem bltGo_running (h : e.bltRun b = true) : bltGo e b = e.bump (Reg.BLT_IGN_COUNT b) := if_pos h

theorem bltGo_idle (h : e.bltRun b = false) : bltGo e b = bltTry e b := if_neg (by simp [h])

/-- The definition is unfolded as a function, so that the kernel does not evaluate the check. -/
theorem bltTry_bad {st : Status} (hbad : bltBad e b (bltImage e b) = some st) : bltTry e b = bltFault e b st := by
  generalize hf : bltTry = f
  delta bltTry at hf
  subst hf
  beta_reduce
  rw [hbad]

/-- See `bltTry_bad`. -/
theorem bltTry_starts (hbad : bltBad e b (bltImage e b) = none) : bltTry e b = bltStart e b (bltImage e b) none := by
  generalize hf : bltTry = f
  delta bltTry at hf
  subst hf
  beta_reduce
  rw [hbad]

theorem bltAbort_idle (h : e.bltRun b = false) : bltAbort e b = e := if_neg (by simp [h])

theorem bltAbort_running (h : e.bltRun b = true) : bltAbort e b = bltStop e b .aborted := if_pos h

/-- What the start of an operation leaves (R386, R387). -/
theorem bltStart_starts (g : List Nat) (cmd : Option (Nat × Nat × Bool)) (hw : e.regs.wf = true) (hb : b < e.mov.blts.length) :
    let t := bltStart e b g cmd
    t.reg (Reg.BLT_STAT_STATE b) = 1 ∧ t.reg (Reg.BLT_ROWS_COUNT b) = 0
      ∧ t.reg (Reg.BLT_STAT_XDIR b) = b2n (usesS g && decide ((regionOf g 0).x < (regionOf g 1).x))
      ∧ t.reg (Reg.BLT_STAT_YDIR b) = b2n (usesS g && decide ((regionOf g 0).y < (regionOf g 1).y))
      ∧ t.blt b = ⟨g, bltPat e b, 0, 0, cmd⟩ ∧ (∀ m, m ≠ b → t.blt m = e.blt m) ∧ t.mem = e.mem ∧ t.host = e.host := by
  intro t
  have hbit : ∀ x : Bool, b2n x % 2 = b2n x := by decide
  refine ⟨?state, ?rows, ?xdir, ?ydir, ?blt, fun m hm => ?others, rfl, rfl⟩
  case state => exact reg_putRegs_last hw [] _ _ _ (by simp)
  case rows => exact reg_putRegs_last hw [_, _, _] _ _ [] (by simp)
  case xdir => exact (reg_putRegs_last hw [_] _ _ _ (by simp; omega)).trans (hbit _)
  case ydir => exact (reg_putRegs_last hw [_, _] _ _ _ (by simp; omega)).trans (hbit _)
  case blt => exact blt_putBlt_same (e := e.putRegs _) hb
  case others => exact blt_putBlt_ne (e := e.putRegs _) hm

/-- The registers that a failure writes. -/
def bltFailed (e : Engine) (b : Nat) (st : Status) : Engine :=
  e.putRegs [(Reg.BLT_STAT_CODE b, st.code), (Reg.BLT_STAT_DETAIL b, st.detail)]

theorem bltFault_eq (st : Status) : bltFault e b st = (bltFailed e b st).raise (Src.blt + 2 * b + 1) (st.code + 2 ^ 16 * st.detail) := rfl

theorem bltFailed_status (st : Status) (hw : e.regs.wf = true) :
    (bltFailed e b st).reg (Reg.BLT_STAT_STATE b) = e.reg (Reg.BLT_STAT_STATE b) ∧ (bltFailed e b st).reg (Reg.BLT_STAT_CODE b) = st.code % 65536
      ∧ (bltFailed e b st).reg (Reg.BLT_STAT_DETAIL b) = st.detail % 256 := by
  refine ⟨?state, reg_putRegs_last hw [] _ _ _ (by simp), reg_putRegs_last hw [_] _ _ [] (by simp)⟩
  case state => exact reg_putRegs_ne hw (by simp)

/-- A blitter that has ended with a status is IDLE and waited for by no command; the other stands as it was. -/
def BltEnded (e : Engine) (b : Nat) (st : Status) (f : Engine) : Prop :=
  f.reg (Reg.BLT_STAT_STATE b) = 0 ∧ f.reg (Reg.BLT_STAT_CODE b) = st.code % 65536 ∧ (f.blt b).cmd = none ∧ f.blt (1 - b) = e.blt (1 - b)

theorem bltComplete_none (st : Status) (h : (e.blt b).cmd = none) : bltComplete e b st = e := by
  unfold bltComplete
  rw [h]

/-- The blitter returns to IDLE. -/
def bltIdle (e : Engine) (b : Nat) (st : Status) : Engine :=
  (e.putBlt b ⟨[], [], 0, 0, none⟩).putRegs [(Reg.BLT_STAT_STATE b, 0), (Reg.BLT_STAT_CODE b, st.code)]

theorem bltEnd_eq (st : Status) (h : (e.blt b).cmd = none) : bltEnd e b st = bltIdle e b st := by
  unfold bltEnd
  rw [bltComplete_none st h]
  rfl

theorem bltIdle_ended (st : Status) (hw : e.regs.wf = true) (hb : b < 2) (hlen : e.mov.blts.length = 2) : BltEnded e b st (bltIdle e b st) := by
  have hin : b < e.mov.blts.length := hlen ▸ hb
  have hw' : (e.putBlt b ⟨[], [], 0, 0, none⟩).regs.wf = true := hw
  refine ⟨reg_putRegs_last hw' [] _ _ _ (by simp), reg_putRegs_last hw' [_] _ _ [] (by simp), ?cmd, ?other⟩
  case cmd => exact congrArg Blt.cmd (blt_putBlt_same (e := e) hin)
  case other => exact blt_putBlt_ne (e := e) (by omega)

theorem bltStop_eq (st : Status) (h : (e.blt b).cmd = none) : bltStop e b st = bltFault (bltIdle e b st) b st := by
  unfold bltStop
  rw [bltEnd_eq st h]

theorem bltFailed_ended {f : Engine} (st : Status) (hw : f.regs.wf = true) (h : BltEnded e b st f) : BltEnded e b st (bltFailed f b st) := by
  obtain ⟨hstate, _, hcmd, hother⟩ := h
  obtain ⟨hs, hc, _⟩ := bltFailed_status (e := f) (b := b) st hw
  exact ⟨hs.trans hstate, hc, hcmd, hother⟩

end

/-! ### Bursts (R384, R388, R389) -/

/-- The value that a burst reads of an element at address `a`. -/
def elemAt (e : Engine) (used : Bool) (a es : Nat) : Nat := if used then leVal (plainBytes e a es) else 0

/-- The new element of column `col` of row `y`. -/
def newAt (e : Engine) (x : Blt) (y col : Nat) : Nat :=
  let es := esz x.img
  newElem x es (elemAt e (usesS x.img) ((regionOf x.img 0).addr es col y) es) (elemAt e (readsD x.img) ((regionOf x.img 1).addr es col y) es) col y

/-- The engine once a burst has written the new elements of columns `cols` of row `y`. -/
def burstStored (e : Engine) (x : Blt) (cols : List Nat) (y : Nat) : Engine :=
  cols.foldl (fun a col => (engWrite a ((regionOf x.img 1).addr (esz x.img) col y) (leBytes (esz x.img) (newAt e x y col))).1) e

section
variable {e : Engine}

theorem readElem_clean (hecc : e.mem.ecc = []) (hlecc : e.mem.lecc = []) (used : Bool) (a es : Nat) :
    readElem e used a es = (e, elemAt e used a es, false) := by
  unfold readElem elemAt
  cases used with
  | false => rfl
  | true =>
    rw [if_pos rfl, if_pos rfl, engRead_clean hecc hlecc]

/-- The operands of a burst are read from memory as it stands at its start. -/
theorem burstData_clean (hecc : e.mem.ecc = []) (hlecc : e.mem.lecc = []) (x : Blt) (cols : List Nat) (y : Nat) :
    burstData e x cols y = (e, cols.map (fun col => ((regionOf x.img 1).addr (esz x.img) col y, newAt e x y col)), false) := by
  have hfold : ∀ (l : List Nat) (out : List (Nat × Nat)),
      l.foldl (fun (r : Engine × List (Nat × Nat) × Bool) c =>
        let (e1, sv, b1) := readElem r.1 (usesS x.img) ((regionOf x.img 0).addr (esz x.img) c y) (esz x.img)
        let (e2, dv, b2) := readElem e1 (readsD x.img) ((regionOf x.img 1).addr (esz x.img) c y) (esz x.img)
        (e2, r.2.1 ++ [((regionOf x.img 1).addr (esz x.img) c y, newElem x (esz x.img) sv dv c y)], r.2.2 || b1 || b2)) (e, out, false)
        = (e, out ++ l.map (fun col => ((regionOf x.img 1).addr (esz x.img) col y, newAt e x y col)), false) := by
    intro l
    induction l with
    | nil => intro out; simp
    | cons c l ih =>
      intro out
      rw [List.foldl_cons, readElem_clean hecc hlecc]
      dsimp only
      rw [readElem_clean hecc hlecc]
      refine (ih _).trans ?_
      simp [newAt]
  exact (hfold cols []).trans (by rw [List.nil_append])

theorem storedBy_ecc (hecc : e.mem.ecc = []) (x : Option (Nat × List Byte)) : (storedBy e x).mem.ecc = [] := by
  cases x with
  | none => exact hecc
  | some y =>
    change (e.storeBytes y.1 y.2).mem.ecc = []
    unfold Engine.storeBytes Engine.clearErrs
    dsimp only
    split
    · exact hecc
    · simp [hecc]

/-- Writes with no errors in memory are all made. -/
theorem burstWrite_clean (es : Nat) (out : List (Nat × Nat)) (hecc : e.mem.ecc = []) :
    burstWrite e es out = (out.foldl (fun a av => (engWrite a av.1 (leBytes es av.2)).1) e, false) := by
  unfold burstWrite
  induction out generalizing e with
  | nil => rfl
  | cons av out ih =>
    rw [List.foldl_cons, List.foldl_cons, if_neg Bool.false_ne_true, engWrite_clean hecc]
    exact ih (storedBy_ecc hecc _)

/-- A burst writes memory alone. -/
theorem burstStored_keeps (hecc : e.mem.ecc = []) (x : Blt) (cols : List Nat) (y : Nat) :
    (burstStored e x cols y).regs = e.regs ∧ (burstStored e x cols y).mov = e.mov := by
  have hfold : (burstStored e x cols y).mem.ecc = [] ∧ (burstStored e x cols y).regs = e.regs ∧ (burstStored e x cols y).mov = e.mov :=
    List.foldlRecOn (motive := fun a : Engine => a.mem.ecc = [] ∧ a.regs = e.regs ∧ a.mov = e.mov) cols _ ⟨hecc, rfl, rfl⟩
      fun a ⟨ha, hregs, hmov⟩ col _ => by
        rw [engWrite_clean ha]
        obtain ⟨hm, hr⟩ := storedBy_keeps a (plainStore a.mem.cells ((regionOf x.img 1).addr (esz x.img) col y)
          (leBytes (esz x.img) (newAt e x y col)))
        exact ⟨storedBy_ecc ha _, hr.trans hregs, hm.trans hmov⟩
  exact hfold.2

/-- A burst that meets no error writes its new elements and goes on in its row, to the next row, or to its end. -/
theorem burstRun_clean (hecc : e.mem.ecc = []) (hlecc : e.mem.lecc = []) (b : Nat) (x : Blt) (cols : List Nat) (y : Nat) :
    burstRun e b x cols y =
      if x.col + cols.length < bltW x.img then (burstStored e x cols y).putBlt b { x with col := x.col + cols.length }
      else
        let e1 := ((burstStored e x cols y).putBlt b { x with row := x.row + 1, col := 0 }).setReg (Reg.BLT_ROWS_COUNT b) (x.row + 1)
        if x.row + 1 < bltH x.img then e1 else bltDone e1 b := by
  unfold burstRun
  rw [burstData_clean hecc hlecc]
  dsimp only
  rw [if_neg Bool.false_ne_true, burstWrite_clean _ _ hecc, List.foldl_map]
  rfl

end

end Sys2Proof.Machine
end

section
namespace Sys2Proof.Machine

/-- The row that the next burst of blitter `b` writes (R387). -/
def burstRow (e : Engine) (b : Nat) : Nat :=
  if e.reg (Reg.BLT_STAT_YDIR b) = 1 then bltH (e.blt b).img - 1 - (e.blt b).row else (e.blt b).row

/-- The columns of the next burst of blitter `b`. -/
def nextCols (e : Engine) (b : Nat) : List Nat :=
  burstCols (e.blt b).img (e.reg (Reg.BLT_STAT_XDIR b) == 1) (e.blt b).col (burstRow e b)

section
variable {b : Nat} {s : State} (hb : b < 2) (hrun : s.eng.bltRun b = true)
include hb hrun

theorem exec_bltBurst_stops {st : Status} (h : burstStop s.eng b (s.eng.blt b).img (nextCols s.eng b) (burstRow s.eng b) = some st) :
    exec (.bltBurst b) s = .next { s with eng := bltStop s.eng b st } := by
  unfold nextCols burstRow at h
  change execBltBurst b s = _
  unfold execBltBurst
  dsimp only
  rw [if_pos ⟨hb, hrun⟩, h]

theorem exec_bltBurst_runs (h : burstStop s.eng b (s.eng.blt b).img (nextCols s.eng b) (burstRow s.eng b) = none) :
    exec (.bltBurst b) s = .next { s with eng := burstRun s.eng b (s.eng.blt b) (nextCols s.eng b) (burstRow s.eng b) } := by
  unfold nextCols burstRow at h
  change execBltBurst b s = _
  unfold execBltBurst
  dsimp only
  rw [if_pos ⟨hb, hrun⟩, h]
  rfl

end

section
variable {e f : Engine} {b : Nat} {x : Blt} (hregs : f.regs = e.regs) (hmov : f.mov = e.mov) (hw : e.regs.wf = true) (hb : b < 2)
  (hlen : e.mov.blts.length = 2)
include hregs hmov hw hb hlen

/-- A row has been written: it is counted, and the blitter stands at the next (R388). -/
theorem nextRow_counted (k : Nat) (hrun : e.reg (Reg.BLT_STAT_STATE b) = 1) :
    let t := (f.putBlt b x).setReg (Reg.BLT_ROWS_COUNT b) k
    t.blt b = x ∧ t.blt (1 - b) = e.blt (1 - b) ∧ t.reg (Reg.BLT_ROWS_COUNT b) = k % 2 ^ 17 ∧ t.reg (Reg.BLT_STAT_STATE b) = 1
      ∧ t.regs.wf = true ∧ t.reg (Reg.BLT_OPS_COUNT b) = e.reg (Reg.BLT_OPS_COUNT b) ∧ t.mov.blts.length = 2 := by
  intro t
  have hwf : (f.putBlt b x).regs.wf = true := (congrArg (fun r : Tab => r.wf) hregs).trans hw
  have hreg : ∀ g, (f.putBlt b x).reg g = e.reg g := fun g => by simp only [Engine.reg, Engine.putBlt, hregs]
  refine ⟨blt_putBlt_same (e := f) (by rw [hmov, hlen]; exact hb), (blt_putBlt_ne (e := f) (by omega)).trans (blt_of_mov hmov _),
    reg_setReg_same hwf _ _, (reg_setReg_ne hwf (by simp only; omega) _).trans ((hreg _).trans hrun), setReg_wf hwf _ _,
    (reg_setReg_ne hwf (by simp only; omega) _).trans (hreg _), ?length⟩
  case length => exact List.length_set.trans (by rw [hmov]; exact hlen)

end

/-- The last row has been written: the operation ends with ST_OK, is counted and told (R389). -/
theorem bltDone_ended {e : Engine} {b : Nat} (hw : e.regs.wf = true) (hb : b < 2) (hlen : e.mov.blts.length = 2) (hcmd : (e.blt b).cmd = none) :
    ∃ f : Engine, bltDone e b = f.raise (Src.blt + 2 * b) (e.reg (Reg.BLT_ROWS_COUNT b)) ∧ BltEnded e b .ok f ∧ f.mem = e.mem
      ∧ f.reg (Reg.BLT_OPS_COUNT b) = satU 32 (e.reg (Reg.BLT_OPS_COUNT b) + 1) := by
  have hw' : (bltIdle e b .ok).regs.wf = true := putRegs_wf (e := e.putBlt b _) hw _
  obtain ⟨hstate, hcode, hnone, hother⟩ := bltIdle_ended .ok hw hb hlen
  have hops : (bltIdle e b .ok).reg (Reg.BLT_OPS_COUNT b) = e.reg (Reg.BLT_OPS_COUNT b) :=
    reg_putRegs_ne (e := e.putBlt b _) hw (by simp; omega)
  refine ⟨(bltIdle e b .ok).bump (Reg.BLT_OPS_COUNT b), ?done, ⟨?state, ?code, hnone, hother⟩, rfl, ?ops⟩
  case done =>
    unfold bltDone
    rw [bltEnd_eq .ok hcmd]
  case state => exact (reg_setReg_ne hw' (by simp only; omega) _).trans hstate
  case code => exact (reg_setReg_ne hw' (by simp only; omega) _).trans hcode
  case ops => exact (reg_bump_same hw' _).trans (by rw [hops])

/-- Settles O50: a start by the checks of R386, an abort and a stopped burst by `bltStop`, and a burst that is made by `burstRun_clean` and
where it leaves the blitter. -/
theorem blitterOperations : Obligations.BlitterOperations := by
  unfold Obligations.BlitterOperations
  intro b s hb hw hlen e x g ended
  have hin : b < e.mov.blts.length := hlen ▸ hb
  refine ⟨fun hrun => ?counted, fun hidle hgood => ?starts, fun hidle st hbad => ?refused, fun hidle => ⟨?abortIdle, ?burstIdle⟩,
    fun hrun hcmd => ?aborts, fun hrun hecc hlecc => ?burst⟩
  case counted => exact (exec_bltCtlGo hb).trans (next_congr (bltGo_running (bltRun_iff.mpr hrun)))
  case starts =>
    obtain ⟨hstate, hrows, hxdir, hydir, hblt, hothers, hmem, hhost⟩ := bltStart_starts (bltImage e b) none hw hin
    exact .of_next ((exec_bltCtlGo hb).trans (next_congr ((bltGo_idle (bltRun_false hidle)).trans (bltTry_starts hgood))))
      ⟨hstate, hrows, hxdir, hydir, hblt, hothers _ (by omega), hmem, hhost⟩
  case refused =>
    obtain ⟨hstate, hcode, hdetail⟩ := bltFailed_status (e := e) (b := b) st hw
    exact .of_next ((exec_bltCtlGo hb).trans (next_congr ((bltGo_idle (bltRun_false hidle)).trans (bltTry_bad hbad))))
      ⟨bltFailed e b st, rfl, hstate, hcode, hdetail, rfl, rfl⟩
  case abortIdle => exact (exec_bltCtlAbort hb).trans (next_congr (bltAbort_idle (bltRun_false hidle)))
  case burstIdle => exact exec_bltBurst_idle (bltRun_false hidle)
  case aborts =>
    have hidle : BltEnded e b .aborted (bltIdle e b .aborted) := bltIdle_ended .aborted hw hb hlen
    exact .of_next ((exec_bltCtlAbort hb).trans (next_congr ((bltAbort_running (bltRun_iff.mpr hrun)).trans (bltStop_eq .aborted hcmd))))
      ⟨bltFailed (bltIdle e b .aborted) b .aborted, rfl, bltFailed_ended .aborted (putRegs_wf (e := e.putBlt b _) hw _) hidle, rfl⟩
  case burst =>
    intro y cols elem stored
    have hr : e.bltRun b = true := bltRun_iff.mpr hrun
    obtain ⟨hregs, hmov⟩ := burstStored_keeps hecc x cols y
    have hclean := burstRun_clean hecc hlecc b x cols y
    refine ⟨fun st hstop => exec_bltBurst_stops hb hr hstop, fun hopen hcol => ?row, fun hopen hcol hrow => ?next,
      fun hopen hcol hrow hcmd => ?last⟩
    case row => exact (exec_bltBurst_runs hb hr hopen).trans (next_congr (hclean.trans (if_pos hcol)))
    case next =>
      obtain ⟨hblt, _, hrows, hstate, _⟩ := nextRow_counted (x := { x with row := x.row + 1, col := 0 }) hregs hmov hw hb hlen (x.row + 1) hrun
      exact .of_next ((exec_bltBurst_runs hb hr hopen).trans (next_congr ((hclean.trans (if_neg (Nat.not_lt.mpr hcol))).trans (if_pos hrow))))
        ⟨rfl, hblt, hrows, hstate⟩
    case last =>
      obtain ⟨hblt, hother, hrows, _, hwf, hops, hlen1⟩ :=
        nextRow_counted (x := { x with row := x.row + 1, col := 0 }) hregs hmov hw hb hlen (x.row + 1) hrun
      obtain ⟨f, hf, ⟨hstate, hcode, hnone, hother1⟩, hmem, hops1⟩ := bltDone_ended hwf hb hlen1 (by rw [hblt]; exact hcmd)
      refine .of_next ((exec_bltBurst_runs hb hr hopen).trans
        (next_congr ((hclean.trans (if_neg (Nat.not_lt.mpr hcol))).trans ((if_neg (Nat.not_lt.mpr hrow)).trans hf))))
        ⟨f, ?raised, ⟨hstate, hcode, hnone, hother1.trans hother⟩, hmem, ?ops⟩
      case raised => rw [hrows]
      case ops => rw [hops1, hops]

end Sys2Proof.Machine
end

/-! ## Supplies, heat and modules -/

section
namespace Sys2Proof.Machine

/-! ### Supplies and AC (R430, R431) -/

section
variable {m : Nat} {r : SupplyReport} {s : State}

theorem exec_supplyDcLoss_quiet (hm : m < 2) (h : s.eng.st = stOff ∨ s.eng.reg (Reg.PWR_SUP_DCOK m) = 0) :
    exec (.supplyDcLoss m r) s = .next { s with eng := supplyShow m r false s.eng } := (if_neg (by omega)).trans (next_congr (if_pos h))

theorem exec_supplyDcLoss_told (hm : m < 2) (hs : s.eng.st ≠ stOff) (h : s.eng.reg (Reg.PWR_SUP_DCOK m) ≠ 0) :
    exec (.supplyDcLoss m r) s = .next { s with eng := (supplyShow m r false s.eng).raise Src.supLoss m } :=
  (if_neg (by omega)).trans (next_congr (if_neg (by simp [hs, h])))

theorem exec_supplyDcGood_quiet (hm : m < 2) (h : s.eng.st = stOff ∨ s.eng.reg (Reg.PWR_SUP_DCOK m) = 1) :
    exec (.supplyDcGood m r) s = .next { s with eng := supplyShow m r true s.eng } := (if_neg (by omega)).trans (next_congr (if_pos h))

theorem exec_supplyDcGood_told (hm : m < 2) (hs : s.eng.st ≠ stOff) (h : s.eng.reg (Reg.PWR_SUP_DCOK m) ≠ 1) :
    exec (.supplyDcGood m r) s = .next { s with eng := (supplyShow m r true s.eng).raise Src.supOk m } :=
  (if_neg (by omega)).trans (next_congr (if_neg (by simp [hs, h])))

theorem exec_acReturn (hm : m < 2) : exec (.acReturn m) s = .next { s with eng :=
    let e := s.eng.setReg (Reg.PWR_SUP_ACOK m) 1
    let x : Engine := { e with pwr := { e.pwr with acOut := false, unrecorded := [] } }
    if s.eng.pwr.acOut && s.eng.st != stOff then s.eng.pwr.unrecorded.foldl acceptLate (journalSync x) else x } :=
  if_neg (by omega)

/-- PWR_SUP shows a module's report. -/
theorem supplyShow_shows {e : Engine} (dc : Bool) (hw : e.regs.wf = true) :
    (supplyShow m r dc e).reg (Reg.PWR_SUP_DCOK m) = b2n dc ∧ (supplyShow m r dc e).reg (Reg.PWR_SUP_PRES m) = b2n r.present
      ∧ (supplyShow m r dc e).reg (Reg.PWR_SUP_ACOK m) = b2n r.acGood ∧ (supplyShow m r dc e).reg (Reg.PWR_SUP_FAULT m) = b2n r.fault := by
  have hbit : ∀ x : Bool, b2n x % 2 = b2n x := by decide
  refine ⟨?dc, ?present, ?ac, ?fault⟩
  case dc => exact (reg_putRegs_last hw [_, _] _ _ _ (by simp; omega)).trans (hbit _)
  case present => exact (reg_putRegs_last hw [] _ _ _ (by simp)).trans (hbit _)
  case ac => exact (reg_putRegs_last hw [_] _ _ _ (by simp; omega)).trans (hbit _)
  case fault => exact (reg_putRegs_last hw [_, _, _] _ _ _ (by simp; omega)).trans (hbit _)

end

/-- The engine when AC has failed, the event not raised yet. -/
def acFailed (e : Engine) : Engine :=
  let e1 := ((e.setReg (Reg.PWR_SUP_ACOK 0) 0).setReg (Reg.PWR_SUP_ACOK 1) 0).bump Reg.PWR_ACFAILCNT_COUNT
  { e1 with pwr := { e1.pwr with acOut := true }
            out := { e1.out with relayJournal := [e1.reg Reg.OUT_RLYCNT_A_COUNT, e1.reg Reg.OUT_RLYCNT_B_COUNT] } }

theorem exec_acFail_off {s : State} (h : s.eng.pwr.acOut = true ∨ s.eng.st = stOff) : exec .acFail s = .next s := if_pos h

theorem exec_acFail {s : State} (ha : s.eng.pwr.acOut = false) (hs : s.eng.st ≠ stOff) :
    exec .acFail s = .next { s with eng := (acFailed s.eng).raise Src.acFail 0 } :=
  if_neg (by simp [ha, hs])

theorem acFailed_shows {e : Engine} (hw : e.regs.wf = true) :
    (acFailed e).reg (Reg.PWR_SUP_ACOK 0) = 0 ∧ (acFailed e).reg (Reg.PWR_SUP_ACOK 1) = 0
      ∧ (acFailed e).reg Reg.PWR_ACFAILCNT_COUNT = satU 32 (e.reg Reg.PWR_ACFAILCNT_COUNT + 1)
      ∧ (acFailed e).out.relayJournal = [e.reg Reg.OUT_RLYCNT_A_COUNT, e.reg Reg.OUT_RLYCNT_B_COUNT] := by
  have hw0 : (e.setReg (Reg.PWR_SUP_ACOK 0) 0).regs.wf = true := setReg_wf hw _ _
  have hw1 : ((e.setReg (Reg.PWR_SUP_ACOK 0) 0).setReg (Reg.PWR_SUP_ACOK 1) 0).regs.wf = true := setReg_wf hw0 _ _
  have hkeep : ∀ g : Fld, g.key ≠ (Reg.PWR_SUP_ACOK 0).key → g.key ≠ (Reg.PWR_SUP_ACOK 1).key →
      ((e.setReg (Reg.PWR_SUP_ACOK 0) 0).setReg (Reg.PWR_SUP_ACOK 1) 0).reg g = e.reg g := fun g h0 h1 =>
    (reg_setReg_ne hw0 h1 _).trans (reg_setReg_ne hw h0 _)
  have hrelay : ∀ g : Fld, g.key ≠ (Reg.PWR_SUP_ACOK 0).key → g.key ≠ (Reg.PWR_SUP_ACOK 1).key → g.key ≠ Reg.PWR_ACFAILCNT_COUNT.key →
      (acFailed e).reg g = e.reg g := fun g h0 h1 h2 => (reg_setReg_ne hw1 h2 _).trans (hkeep g h0 h1)
  refine ⟨?first, ?second, ?count, ?journal⟩
  case first => exact (reg_setReg_ne hw1 (by decide) _).trans ((reg_setReg_ne hw0 (by decide) _).trans (reg_setReg_same hw _ _))
  case second => exact (reg_setReg_ne hw1 (by decide) _).trans (reg_setReg_same hw0 _ _)
  case count => exact (reg_bump_same hw1 _).trans (by rw [hkeep _ (by decide) (by decide)])
  case journal =>
    exact congrArg₂ (fun a b : Nat => [a, b]) (hrelay Reg.OUT_RLYCNT_A_COUNT (by decide) (by decide) (by decide))
      (hrelay Reg.OUT_RLYCNT_B_COUNT (by decide) (by decide) (by decide))

/-! ### Adaptive voltage (R441, R442) -/

/-- The target that an AVS update gives domain `d` at margin `m`. -/
def avsTarget (e : Engine) (d m : Nat) : Nat :=
  let v := e.reg (Reg.PWR_DSTAT_MV d)
  let want := e.reg (Reg.PWR_DMARGIN_PCT d)
  if m < want then min (e.reg (Reg.PWR_DCFG_VMAX d)) (v + 5 * (want - m))
  else if want + 2 < m then max (e.reg (Reg.PWR_DCFG_VMIN d)) (v - 5) else v

/-- The registers after an AVS update that meets no limit. -/
def avsShown (e : Engine) (d m : Nat) : Engine :=
  e.putRegs [(Reg.PWR_DSTAT_MV d, avsTarget e d m), (Reg.PWR_DSTAT_MARGIN d, satU 5 m), (Reg.PWR_DSTAT_LIM d, 0)]

/-- An AVS update that is not at its limit, and not the tenth below 2 %, writes PWR_DSTAT alone. -/
theorem avsDomain_regs {e : Engine} {d m : Nat}
    (hlim : ¬(e.reg (Reg.PWR_DSTAT_MV d) = e.reg (Reg.PWR_DCFG_VMAX d) ∧ m < e.reg (Reg.PWR_DMARGIN_PCT d)))
    (hruns : 2 ≤ m ∨ e.pwr.lowRuns.get d ≠ 9) : (avsDomain e (d, m)).regs = (avsShown e d m).regs := by
  have hlow : (if m < 2 then e.pwr.lowRuns.get d + 1 else 0) ≠ 10 := by
    split
    · omega
    · decide
  unfold avsDomain
  dsimp only
  simp only [hlim, decide_false, Bool.false_eq_true, if_false]
  rw [if_neg hlow]
  rfl

theorem avsShown_shows {e : Engine} {d m : Nat} (hm : m < 32) (hw : e.regs.wf = true) :
    (avsShown e d m).reg (Reg.PWR_DSTAT_MV d) = avsTarget e d m % 1024 ∧ (avsShown e d m).reg (Reg.PWR_DSTAT_MARGIN d) = m
      ∧ (avsShown e d m).reg (Reg.PWR_DSTAT_LIM d) = 0 := by
  have hsat : satU 5 m % 32 = m := by
    unfold satU
    omega
  refine ⟨?mv, ?margin, ?lim⟩
  case mv => exact reg_putRegs_last hw [] _ _ _ (by simp)
  case margin => exact (reg_putRegs_last hw [_] _ _ _ (by simp)).trans hsat
  case lim => exact reg_putRegs_last hw [_, _] _ _ [] (by simp)

/-- The margins of a list, with their domains. -/
theorem indexed_eq_map (l : List Nat) : indexed l = (List.range l.length).map (fun i => (i, l.getD i 0)) := by
  refine List.ext_getElem (by simp [indexed]) fun i h1 h2 => ?_
  have hi : i < l.length := by simpa using h2
  simp [indexed, hi]

theorem exec_avsUpdate {margins : List Nat} {s : State} (hoff : s.eng.st ≠ stOff) (hboot : s.eng.st ≠ stBoot) :
    exec (.avsUpdate margins) s = .next { s with
      eng := (List.range (min 24 margins.length)).foldl (fun a d => avsDomain a (d, margins.getD d 0)) s.eng } := by
  refine (if_neg (by simp [hoff, hboot])).trans (next_congr ?_)
  rw [indexed_eq_map, List.foldl_map, List.length_take]
  refine List.foldl_ext _ _ _ fun a d hd => ?_
  have hlt : d < 24 := lt_of_lt_of_le (List.mem_range.mp hd) (Nat.min_le_left _ _)
  rw [List.getD_eq_getElem?_getD, List.getD_eq_getElem?_getD, List.getElem?_take_of_lt hlt]

/-! ### Causes of FAULT (R447) -/

/-- PWR_FCAUSE with cause `b` shown. -/
def causeSeen (b : Nat) (e : Engine) : Engine := e.setReg Reg.PWR_FCAUSE_CAUSE (Nat.lor (e.reg Reg.PWR_FCAUSE_CAUSE) (2 ^ b))

theorem faultDetect_again {b : Nat} {e : Engine} (h : e.st = stFault) : faultDetect b e = causeSeen b e := by
  have hoff : e.st ≠ stOff := by
    rw [h]
    decide
  unfold faultDetect
  rw [if_neg hoff]
  exact if_pos h

theorem faultDetect_new {b : Nat} {e : Engine} (hoff : e.st ≠ stOff) (h : e.st ≠ stFault) : faultDetect b e
    = keepCauses { causeSeen b e with pwr := { (causeSeen b e).pwr with faultDue := Nat.lor e.pwr.faultDue (2 ^ b) } } := by
  unfold faultDetect
  rw [if_neg hoff]
  exact if_neg h

theorem faultReport_locked {b : Nat} {e : Engine} (h : (faultDetect b e).locked = true) : faultReport b e = faultDetect b e := if_pos h

theorem faultReport_now {b : Nat} {e : Engine} (h : (faultDetect b e).locked = false) (hdue : (faultDetect b e).pwr.faultDue ≠ 0) :
    faultReport b e = finishWakers (enterState ((faultDetect b e).setReg Reg.PWR_STAT_WAKING 0) stFault 0) 0 := by
  have hnow : faultReport b e = faultNow (faultDetect b e) 0 := if_neg (by simp [h])
  exact hnow.trans (if_neg hdue)

theorem causeSeen_locked {b : Nat} {e : Engine} (hw : e.regs.wf = true) : (causeSeen b e).locked = e.locked := by
  unfold Engine.locked causeSeen
  rw [reg_setReg_ne hw (by decide)]

/-! ### The die's temperature (R446) -/

/-- PWR_TEMP shows the temperatures `x`. -/
def tempShown (x : Temperatures) (e : Engine) : Engine :=
  e.putRegs [(Reg.PWR_TEMP_DIE, x.die), (Reg.PWR_TEMP_INLET, x.inlet), (Reg.PWR_TEMP_OUTLET, x.outlet)]

/-- The engine notes whether the die is past its warning limit. -/
def notedHot (b : Bool) (e : Engine) : Engine := { e with pwr := { e.pwr with hot := b } }

section
variable {x : Temperatures} {e : Engine}

theorem dieTemp_warns (hot : e.pwr.hot = false) (h : (e.reg Reg.PWR_TLIM_WARN : Int) ≤ sval 8 x.die) :
    dieTemp x e = (notedHot true (tempShown x e)).raise Src.thermWarn 0 := if_pos (by simp [hot, h])

theorem dieTemp_cools (hot : e.pwr.hot = true) (h : sval 8 x.die ≤ (e.reg Reg.PWR_TLIM_WARN : Int) - 5) :
    dieTemp x e = (notedHot false (tempShown x e)).raise Src.thermOk 0 :=
  (if_neg (by simp [hot])).trans (if_pos (by simp [hot, h]))

theorem dieTemp_stays (h : if e.pwr.hot then (e.reg Reg.PWR_TLIM_WARN : Int) - 5 < sval 8 x.die else sval 8 x.die < (e.reg Reg.PWR_TLIM_WARN : Int)) :
    dieTemp x e = tempShown x e := by
  cases hhot : e.pwr.hot with
  | false =>
    rw [hhot] at h
    exact (if_neg (by simpa [hhot] using h)).trans (if_neg (by simp [hhot]))
  | true =>
    rw [hhot] at h
    exact (if_neg (by simp [hhot])).trans (if_neg (by simpa [hhot] using h))

theorem exec_thermalWarn {s : State} (h : s.eng.st ≠ stOff) : exec (.thermalWarn x) s = .next { s with eng := dieTemp x s.eng } := if_neg h

theorem exec_thermalFault {s : State} (h : s.eng.st ≠ stOff) : exec (.thermalFault x) s = .next { s with
    eng := if (s.eng.reg Reg.PWR_TLIM_CRIT : Int) ≤ sval 8 x.die then faultReport 2 (dieTemp x s.eng) else dieTemp x s.eng } := if_neg h

end

end Sys2Proof.Machine
end

section
namespace Sys2Proof.Machine

/-! ### The parts of the obligation on supplies and heat -/

/-- AC returns to a module: what could not be recorded is recorded, and the commits that waited are accepted (R431). -/
theorem acReturn_returns {m : Nat} (hm : m < 2) {s : State} (hw : s.eng.regs.wf = true) :
    let e := s.eng
    ∃ x : Engine, x.reg (Reg.PWR_SUP_ACOK m) = 1 ∧ x.pwr = { e.pwr with acOut := false, unrecorded := [] }
      ∧ x.active = e.active ∧ x.mem = e.mem ∧ x.host = e.host
      ∧ (e.pwr.acOut = false ∨ e.st = stOff → exec (.acReturn m) s = .next { s with eng := x })
      ∧ (e.pwr.acOut = true → e.st ≠ stOff →
          exec (.acReturn m) s = .next { s with eng := e.pwr.unrecorded.foldl acceptLate (journalSync x) }) := by
  intro e
  refine ⟨{ e.setReg (Reg.PWR_SUP_ACOK m) 1 with pwr := { e.pwr with acOut := false, unrecorded := [] } }, reg_setReg_same hw _ _, rfl, rfl,
    rfl, rfl, fun h => ?quiet, fun ha hs => ?late⟩
  case quiet => exact (exec_acReturn hm).trans (next_congr (if_neg (by simpa [imp_iff_not_or] using h)))
  case late => exact (exec_acReturn hm).trans (next_congr (if_pos (by simpa using And.intro ha hs)))

/-- One AVS update that meets no limit (R442). -/
theorem avsDomain_moves {d m : Nat} {e : Engine} (hm : m < 32) (hw : e.regs.wf = true) (htop : e.reg (Reg.PWR_DCFG_VMAX d) ≤ 1023)
    (hlim : ¬(e.reg (Reg.PWR_DSTAT_MV d) = e.reg (Reg.PWR_DCFG_VMAX d) ∧ m < e.reg (Reg.PWR_DMARGIN_PCT d)))
    (hruns : 2 ≤ m ∨ e.pwr.lowRuns.get d ≠ 9) (hv : e.reg (Reg.PWR_DSTAT_MV d) ≤ 1023) :
    let v := e.reg (Reg.PWR_DSTAT_MV d)
    let want := e.reg (Reg.PWR_DMARGIN_PCT d)
    let t := avsDomain e (d, m)
    t.reg (Reg.PWR_DSTAT_MARGIN d) = m ∧ t.reg (Reg.PWR_DSTAT_LIM d) = 0
      ∧ (m < want → t.reg (Reg.PWR_DSTAT_MV d) = min (e.reg (Reg.PWR_DCFG_VMAX d)) (v + 5 * (want - m)))
      ∧ (want + 2 < m → t.reg (Reg.PWR_DSTAT_MV d) = max (e.reg (Reg.PWR_DCFG_VMIN d)) (v - 5) % 1024)
      ∧ (want ≤ m → m ≤ want + 2 → t.reg (Reg.PWR_DSTAT_MV d) = v) := by
  intro v want t
  have hreg : ∀ g, t.reg g = (avsShown e d m).reg g := fun g => by simp only [Engine.reg, t, avsDomain_regs hlim hruns]
  obtain ⟨hmv, hmargin, hlimit⟩ := avsShown_shows (e := e) (d := d) hm hw
  simp only [hreg, hmv]
  refine ⟨hmargin, hlimit, fun h => ?raised, fun h => ?lowered, fun h1 h2 => ?kept⟩
  case raised =>
    have ht : avsTarget e d m = min (e.reg (Reg.PWR_DCFG_VMAX d)) (v + 5 * (want - m)) := if_pos h
    rw [ht]
    exact Nat.mod_eq_of_lt (by omega)
  case lowered =>
    have ht : avsTarget e d m = max (e.reg (Reg.PWR_DCFG_VMIN d)) (v - 5) := (if_neg (by omega)).trans (if_pos h)
    rw [ht]
  case kept =>
    have ht : avsTarget e d m = v := (if_neg (by omega)).trans (if_neg (by omega))
    rw [ht]
    exact Nat.mod_eq_of_lt (by omega)

/-- Settles O53: supplies by what they show, AC by `acFailed` and `acReturn_returns`, AVS by `avsDomain_moves`, causes of FAULT by
`faultDetect` and `faultReport`, the temperatures by `dieTemp`, and modules by the cage. -/
theorem suppliesAndHeat : Obligations.SuppliesAndHeat := by
  unfold Obligations.SuppliesAndHeat
  refine ⟨fun m r s hm hw => ?supplies, fun s hw => ?ac, fun m r s hm => ?none, fun d m e _ hm hw htop => ?avs, fun margins s => ?updates,
    fun b e hoff => ?faults, fun d fan rpm s => ?fans, fun x s hs => ?temps, fun x s hs => ⟨if_pos hs, if_pos hs⟩, fun s => ?idle,
    fun lane s hlane => ?modules⟩
  case supplies =>
    intro e shown
    have hloss : shown 0 (supplyShow m r false e) := by
      obtain ⟨hdc, hpres, hac, hfault⟩ := supplyShow_shows (m := m) (r := r) false hw
      exact ⟨hdc, hpres, hac, hfault, rfl, rfl⟩
    have hgood : shown 1 (supplyShow m r true e) := by
      obtain ⟨hdc, hpres, hac, hfault⟩ := supplyShow_shows (m := m) (r := r) true hw
      exact ⟨hdc, hpres, hac, hfault, rfl, rfl⟩
    exact ⟨fun h => .of_next (exec_supplyDcLoss_quiet hm h) hloss, fun hs h => .of_next (exec_supplyDcLoss_told hm hs h) ⟨_, hloss, rfl⟩,
      fun h => .of_next (exec_supplyDcGood_quiet hm h) hgood, fun hs h => .of_next (exec_supplyDcGood_told hm hs h) ⟨_, hgood, rfl⟩⟩
  case ac =>
    intro e
    obtain ⟨h0, h1, hcount, hjournal⟩ := acFailed_shows hw
    exact ⟨exec_acFail_off, fun ha hs => .of_next (exec_acFail ha hs) ⟨acFailed e, rfl, h0, h1, rfl, hcount, hjournal⟩,
      fun m hm => acReturn_returns hm hw⟩
  case none => exact ⟨if_pos (by omega), if_pos (by omega), if_pos (by omega)⟩
  case avs =>
    intro v want top t hlim hruns hv
    exact avsDomain_moves hm hw htop hlim hruns hv
  case updates => exact ⟨fun h => if_pos h, exec_avsUpdate⟩
  case faults =>
    intro seen f
    refine ⟨fun hst hlocked hw => ?again, faultReport_locked, faultReport_now, faultDetect_new hoff⟩
    case again =>
      have hseen : faultDetect b e = causeSeen b e := faultDetect_again hst
      exact (faultReport_locked (by rw [hseen, causeSeen_locked hw]; exact hlocked)).trans hseen
  case fans =>
    exact ⟨fun h => if_neg (by omega), fun hfan hs => if_neg (by simp [hs]; omega), fun h => if_pos h, fun h => if_pos h⟩
  case temps =>
    intro e ws shown warn o hot
    refine ⟨fun h hw => ?warns, fun h hc => ?cools, fun h hw => ?cold, fun h hc => ?stillHot, fun y hy => ?crit⟩
    case warns => exact (exec_thermalWarn hs).trans (next_congr (dieTemp_warns h hw))
    case cools => exact (exec_thermalWarn hs).trans (next_congr (dieTemp_cools h hc))
    case cold => exact (exec_thermalWarn hs).trans (next_congr (dieTemp_stays (by rw [h]; exact hw)))
    case stillHot => exact (exec_thermalWarn hs).trans (next_congr (dieTemp_stays (by rw [h]; exact hc)))
    case crit =>
      have hnext : ({ s with eng := dieTemp x s.eng } : State) = { s with eng := y } := by
        injection (exec_thermalWarn hs).symm.trans hy
      have hdie : dieTemp x s.eng = y := congrArg State.eng hnext
      rw [exec_thermalFault hs, hdie]
  case idle => exact ⟨rfl, rfl, fun h => if_neg h, fun h => if_pos h⟩
  case modules => exact ⟨if_neg (by omega), if_neg (by omega), fun h => if_pos h, fun h => if_neg h⟩

end Sys2Proof.Machine
end

/-! ## Power and resets -/

section
namespace Sys2Proof.Machine

/-! ### What a reset clears and keeps (Table 21.4) -/

/-- A register that is given one value, however often, reads as that value. -/
theorem fld_puts_of_mem {f : Fld} {v : Nat} : ∀ {ws : List (Fld × Nat)} {t : Tab}, t.wf = true → (f, v) ∈ ws →
    (∀ x ∈ ws, x.1.key = f.key → x = (f, v)) → (t.puts ws).fld f = v % 2 ^ f.width
  | y :: ws, t, h, hf, huniq => by
    have hrest : ∀ x ∈ ws, x.1.key = f.key → x = (f, v) := fun x hx => huniq x (List.mem_cons_of_mem _ hx)
    by_cases hl : (f, v) ∈ ws
    · exact fld_puts_of_mem (t := t.put y.1 y.2) (Tab.wf_put h y.1 y.2) hl hrest
    · obtain rfl : (f, v) = y := (List.mem_cons.mp hf).resolve_right hl
      exact Tab.fld_puts_last h f v [] _ fun x hx hkey => hl (hrest x hx hkey.symm ▸ hx)

/-- The registers that a reset keeps. -/
def fieldsKept (warm : Bool) : List Fld := if warm then keptFields ++ warmFields else keptFields

theorem fieldsKept_sub {warm : Bool} {f : Fld} (h : f ∈ fieldsKept warm) : f ∈ keptFields ++ warmFields := by
  unfold fieldsKept at h
  split at h
  · exact h
  · exact List.mem_append_left _ h

theorem keptFields_sub {warm : Bool} {f : Fld} (h : f ∈ keptFields) : f ∈ fieldsKept warm := by
  unfold fieldsKept
  split
  · exact List.mem_append_left _ h
  · exact h

theorem reset_wf : Engine.reset.regs.wf = true := by
  have hregs : Engine.reset.regs = Tab.puts [] resetRegs := rfl
  rw [hregs]
  exact Tab.wf_puts resetRegs rfl

/-- The engine that a reset starts from, before the registers that it keeps. -/
theorem clearedBy_regs (warm : Bool) (e : Engine) : (clearedBy warm e).regs
    = (Engine.reset.regs.puts ((fieldsKept warm).map (fun f => (f, e.reg f)))).puts [(Reg.PWR_STAT_PREV, e.st)] := rfl

theorem clearedBy_wf (warm : Bool) (e : Engine) : (clearedBy warm e).regs.wf = true := Tab.wf_puts _ (Tab.wf_puts _ reset_wf)

section
variable {warm : Bool} {e : Engine} {g : Fld}

/-- A register that is kept reads as before. -/
theorem clearedBy_kept (hg : g ∈ keptFields) (huniq : ∀ f ∈ keptFields ++ warmFields, f.key = g.key → f = g)
    (hprev : g.key ≠ Reg.PWR_STAT_PREV.key) : (clearedBy warm e).reg g = e.reg g % 2 ^ g.width := by
  have hwf : (Engine.reset.regs.puts ((fieldsKept warm).map (fun f => (f, e.reg f)))).wf = true := Tab.wf_puts _ reset_wf
  rw [Engine.reg, clearedBy_regs, Tab.fld_puts_ne _ hwf (by simpa using hprev)]
  refine fld_puts_of_mem reset_wf (List.mem_map.mpr ⟨g, keptFields_sub hg, rfl⟩) fun x hx hkey => ?_
  obtain ⟨f, hf, rfl⟩ := List.mem_map.mp hx
  rw [huniq f (fieldsKept_sub hf) hkey]

/-- A register that is not kept reads as its reset value. -/
theorem clearedBy_cleared (hkept : ∀ f ∈ keptFields ++ warmFields, g.key ≠ f.key) (hreset : g.key ∉ resetRegs.map (·.1.key))
    (hprev : g.key ≠ Reg.PWR_STAT_PREV.key) : (clearedBy warm e).reg g = g.reset := by
  have hwf : (Engine.reset.regs.puts ((fieldsKept warm).map (fun f => (f, e.reg f)))).wf = true := Tab.wf_puts _ reset_wf
  rw [Engine.reg, clearedBy_regs, Tab.fld_puts_ne _ hwf (by simpa using hprev), Tab.fld_puts_ne _ reset_wf]
  · exact reset_reg hreset
  · intro x hx
    obtain ⟨f, hf, rfl⟩ := List.mem_map.mp hx
    exact hkept f (fieldsKept_sub hf)

theorem clearedBy_st : (clearedBy warm e).st = stBoot :=
  clearedBy_cleared (g := Reg.PWR_STAT_STATE) (by decide +kernel) (by decide +kernel) (by decide)

theorem clearedBy_coil : (clearedBy warm e).reg Reg.OUT_KSTAT_COIL = 0 :=
  clearedBy_cleared (by decide +kernel) (by decide +kernel) (by decide)

theorem clearedBy_floor : (clearedBy warm e).reg Reg.SEC_FLOOR_FLOOR = e.reg Reg.SEC_FLOOR_FLOOR % 2 ^ Reg.SEC_FLOOR_FLOOR.width :=
  clearedBy_kept (by simp [keptFields]) (by decide +kernel) (by decide)

theorem clearedBy_next : (clearedBy warm e).reg Reg.SEC_FW_NEXT = e.reg Reg.SEC_FW_NEXT % 2 ^ Reg.SEC_FW_NEXT.width :=
  clearedBy_kept (by simp [keptFields]) (by decide +kernel) (by decide)

theorem clearedBy_prev : (clearedBy warm e).reg Reg.PWR_STAT_PREV = e.st % 8 :=
  Tab.fld_puts_last (Tab.wf_puts _ reset_wf) Reg.PWR_STAT_PREV e.st [] [] (by simp)

end

/-- The engine `z` is in BOOT, cleared, with what every reset keeps of `e`. -/
def Fresh (e z : Engine) : Prop :=
  z.st = stBoot ∧ z.frames = [] ∧ z.host = { Engine.reset.host with out := e.host.out } ∧ z.active = Engine.reset.active
    ∧ z.staged = Engine.reset.staged ∧ z.mem.journal = e.mem.journal ∧ z.sec.slots = e.sec.slots ∧ z.sec.ownerKey = e.sec.ownerKey
    ∧ z.spr = Engine.reset.spr

theorem clearedBy_fresh (warm : Bool) (e : Engine) : Fresh e (clearedBy warm e) := ⟨clearedBy_st, rfl, rfl, rfl, rfl, rfl, rfl, rfl, rfl⟩

/-- The engine stays fresh where a register that is not its state is written. -/
theorem Fresh.setReg {e z : Engine} (h : Fresh e z) (hw : z.regs.wf = true) {f : Fld} (hf : Reg.PWR_STAT_STATE.key ≠ f.key) (v : Nat) :
    Fresh e (z.setReg f v) := by
  obtain ⟨hst, hrest⟩ := h
  exact ⟨(reg_setReg_ne hw hf v).trans hst, hrest⟩

/-- A fresh engine is fresh of every engine that holds the same. -/
theorem Fresh.of_same {e f z : Engine} (h : Fresh f z) (hhost : f.host = e.host) (hmem : f.mem = e.mem) (hsec : f.sec = e.sec) : Fresh e z := by
  unfold Fresh at h ⊢
  rwa [hhost, hmem, hsec] at h

/-! ### The relays open (R170, R234) -/

/-- From `e` to `f`, registers and what events hold may have changed, and nothing else. -/
def RegsOnly (e f : Engine) : Prop := f = { e with regs := f.regs, evt := f.evt }

namespace RegsOnly

theorem refl (e : Engine) : RegsOnly e e := rfl

theorem setReg (e : Engine) (f : Fld) (v : Nat) : RegsOnly e (e.setReg f v) := rfl

theorem bump (e : Engine) (f : Fld) : RegsOnly e (e.bump f) := rfl

theorem raise (e : Engine) (s d : Nat) : RegsOnly e (e.raise s d) := (raise_events e s d).1

theorem trans {e f g : Engine} (a : RegsOnly e f) (b : RegsOnly f g) : RegsOnly e g := by
  unfold RegsOnly at a b ⊢
  rw [b, a]

theorem ite {c : Prop} [Decidable c] {e f g : Engine} (a : RegsOnly e f) (b : RegsOnly e g) : RegsOnly e (if c then f else g) := by
  split
  · exact a
  · exact b

theorem evalWear (e : Engine) : RegsOnly e (evalWear e) := by
  unfold Machine.evalWear
  extract_lets old w a b e1 e2
  have h1 : RegsOnly e e1 := setReg _ _ _
  have h2 : RegsOnly e e2 := .ite (h1.trans (.raise _ _ _)) h1
  exact .ite (h2.trans (.raise _ _ _)) h2

theorem coilsOff (e : Engine) : RegsOnly e (coilsOff e) := by
  unfold Machine.coilsOff
  extract_lets c e1 e2 e3
  have h1 : RegsOnly e e1 := (setReg _ _ _).trans (setReg _ _ _)
  have h2 : RegsOnly e e2 := .ite (h1.trans (.bump _ _)) h1
  have h3 : RegsOnly e e3 := .ite (h2.trans (.bump _ _)) h2
  exact .ite h3 (h3.trans (.evalWear _))

end RegsOnly

/-- With no relay energised, opening them writes their own bits alone. -/
theorem coilsOff_open {e : Engine} (hw : e.regs.wf = true) (hcoil : e.reg Reg.OUT_KSTAT_COIL = 0) {g : Fld}
    (h1 : g.key ≠ Reg.OUT_KSTAT_COIL.key) (h2 : g.key ≠ Reg.OUT_KSTAT_SENSE.key) : (coilsOff e).reg g = e.reg g := by
  have heq : coilsOff e = (e.setReg Reg.OUT_KSTAT_COIL 0).setReg Reg.OUT_KSTAT_SENSE (Nat.land (e.reg Reg.OUT_KSTAT_SENSE) 3) := by
    have hbit : ∀ i, tbit 0 i = false := fun i => by simp [tbit, bit]
    unfold coilsOff
    simp only [hcoil, hbit, if_true]
    rfl
  rw [heq]
  exact (reg_setReg_ne (setReg_wf hw _ _) h2 _).trans (reg_setReg_ne hw h1 _)

end Sys2Proof.Machine
end

section
namespace Sys2Proof.Machine

/-! ### Resets and start-up (R436 to R440) -/

/-- The engine that a warm reset starts up. -/
def warmCleared (cause : Nat) (e : Engine) : Engine := (clearedBy true (coilsOff e)).setReg Reg.PWR_RSTCAUSE_CAUSE cause

theorem warmReset_eq (cause : Nat) (a b : Bool) (e : Engine) : warmReset cause a b e = startUp a b (warmCleared cause e) := rfl

theorem coilsOff_mem (e : Engine) : (coilsOff e).mem = e.mem := by rw [RegsOnly.coilsOff e]

theorem coilsOff_host (e : Engine) : (coilsOff e).host = e.host := by rw [RegsOnly.coilsOff e]

theorem coilsOff_sec (e : Engine) : (coilsOff e).sec = e.sec := by rw [RegsOnly.coilsOff e]

section
variable (cause : Nat) (e : Engine)

theorem warmCleared_fresh : Fresh e (warmCleared cause e) :=
  ((clearedBy_fresh true (coilsOff e)).of_same (coilsOff_host e) (coilsOff_mem e) (coilsOff_sec e)).setReg (clearedBy_wf _ _) (by decide) cause

theorem warmCleared_cause : (warmCleared cause e).reg Reg.PWR_RSTCAUSE_CAUSE = cause % 2 ^ Reg.PWR_RSTCAUSE_CAUSE.width :=
  reg_setReg_same (clearedBy_wf _ _) _ _

theorem warmCleared_mem : (warmCleared cause e).mem.cells = e.mem.cells.filter (fun c => decide (2 ^ 37 ≤ c.1))
    ∧ (warmCleared cause e).mem.held = e.mem.held := by
  have hcells : (warmCleared cause e).mem.cells = (coilsOff e).mem.cells.filter (fun c => decide (2 ^ 37 ≤ c.1)) := rfl
  have hheld : (warmCleared cause e).mem.held = (coilsOff e).mem.held := rfl
  rw [hcells, hheld, coilsOff_mem]
  exact ⟨rfl, rfl⟩

variable {e}

/-- With no relay energised a warm reset keeps what firmware holds, and shows the state that it left. -/
theorem warmCleared_kept (hw : e.regs.wf = true) (hcoil : e.reg Reg.OUT_KSTAT_COIL = 0) :
    (warmCleared cause e).reg Reg.SEC_FLOOR_FLOOR = e.reg Reg.SEC_FLOOR_FLOOR % 2 ^ Reg.SEC_FLOOR_FLOOR.width
      ∧ (warmCleared cause e).reg Reg.SEC_FW_NEXT = e.reg Reg.SEC_FW_NEXT % 2 ^ Reg.SEC_FW_NEXT.width
      ∧ (warmCleared cause e).reg Reg.PWR_STAT_PREV = e.st % 8 := by
  have hz := clearedBy_wf true (coilsOff e)
  have hoff : ∀ g : Fld, g.key ≠ Reg.OUT_KSTAT_COIL.key → g.key ≠ Reg.OUT_KSTAT_SENSE.key → (coilsOff e).reg g = e.reg g := fun g h1 h2 =>
    coilsOff_open hw hcoil h1 h2
  refine ⟨?floor, ?next, ?prev⟩
  case floor => exact (reg_setReg_ne hz (by decide) _).trans (clearedBy_floor.trans (by rw [hoff _ (by decide) (by decide)]))
  case next => exact (reg_setReg_ne hz (by decide) _).trans (clearedBy_next.trans (by rw [hoff _ (by decide) (by decide)]))
  case prev =>
    have hst : (coilsOff e).st = e.st := hoff _ (by decide) (by decide)
    exact (reg_setReg_ne hz (by decide) _).trans (clearedBy_prev.trans (by rw [hst]))

end

/-- The engine that POWER_ON starts up. -/
def coldCleared (e : Engine) : Engine := relayCounts ((clearedBy false e).setReg Reg.PWR_STAT_PREV 0)

section
variable (e : Engine)

theorem coldCleared_wf : ((clearedBy false e).setReg Reg.PWR_STAT_PREV 0).regs.wf = true := setReg_wf (clearedBy_wf _ _) _ _

theorem coldCleared_fresh : Fresh e (coldCleared e) :=
  (((clearedBy_fresh false e).setReg (clearedBy_wf _ _) (by decide) 0).setReg (coldCleared_wf e) (by decide) _).setReg
    (setReg_wf (coldCleared_wf e) _ _) (by decide) _

/-- A register that is neither a relay count nor PREV reads as once cleared. -/
theorem coldCleared_reg {g : Fld} (hprev : g.key ≠ Reg.PWR_STAT_PREV.key) (ha : g.key ≠ Reg.OUT_RLYCNT_A_COUNT.key)
    (hb : g.key ≠ Reg.OUT_RLYCNT_B_COUNT.key) : (coldCleared e).reg g = (clearedBy false e).reg g :=
  (reg_setReg_ne (setReg_wf (coldCleared_wf e) _ _) hb _).trans
    ((reg_setReg_ne (coldCleared_wf e) ha _).trans (reg_setReg_ne (clearedBy_wf _ _) hprev _))

theorem coldCleared_shows : (coldCleared e).reg Reg.PWR_STAT_PREV = 0
    ∧ (coldCleared e).reg Reg.OUT_RLYCNT_A_COUNT = e.out.relayJournal.getD 0 0 % 2 ^ 32
    ∧ (coldCleared e).reg Reg.OUT_RLYCNT_B_COUNT = e.out.relayJournal.getD 1 0 % 2 ^ 32 := by
  have hw1 : (((clearedBy false e).setReg Reg.PWR_STAT_PREV 0).setReg Reg.OUT_RLYCNT_A_COUNT (e.out.relayJournal.getD 0 0)).regs.wf = true :=
    setReg_wf (coldCleared_wf e) _ _
  refine ⟨?prev, ?first, reg_setReg_same hw1 _ _⟩
  case prev =>
    exact (reg_setReg_ne hw1 (by decide) _).trans ((reg_setReg_ne (coldCleared_wf e) (by decide) _).trans (reg_setReg_same (clearedBy_wf _ _) _ 0))
  case first => exact (reg_setReg_ne hw1 (by decide) _).trans (reg_setReg_same (coldCleared_wf e) _ _)

end

/-! ### Loss of power (R431) -/

/-- OFF: the relays are open, the outputs are undriven, and memory, frames and rings are gone. -/
theorem powerOff_off (e : Engine) : (powerOff e).st = stOff ∧ (powerOff e).mem.cells = [] ∧ (powerOff e).frames = []
    ∧ (powerOff e).host.rings = [] ∧ (powerOff e).out.undriven = true ∧ (powerOff e).reg Reg.OUT_KSTAT_COIL = 0
    ∧ (powerOff e).mem.journal = e.mem.journal
    ∧ (powerOff e).sec.slots = e.sec.slots := by
  have hz := clearedBy_wf false (coilsOff e)
  have hregs : (powerOff e).regs = ((clearedBy false (coilsOff e)).setReg Reg.PWR_STAT_STATE stOff).regs := by
    unfold powerOff
    dsimp only
  have hreg : ∀ g, (powerOff e).reg g = ((clearedBy false (coilsOff e)).setReg Reg.PWR_STAT_STATE stOff).reg g := fun g => by
    rw [Engine.reg, hregs]
    rfl
  refine ⟨?state, rfl, rfl, rfl, rfl, ?coil, ?journal, ?slots⟩
  case state =>
    rw [Engine.st, hreg, reg_setReg_same hz]
    rfl
  case coil =>
    rw [hreg, reg_setReg_ne hz (by decide)]
    exact clearedBy_coil
  case journal =>
    have h : (powerOff e).mem.journal = (coilsOff e).mem.journal := rfl
    rw [h, coilsOff_mem]
  case slots =>
    have h : (powerOff e).sec.slots = (coilsOff e).sec.slots := rfl
    rw [h, coilsOff_sec]

/-! ### Start-up (Table 21.3) -/

theorem core_putCore_other {e : Engine} {j k : Nat} (c : SpireCore) (h : j ≠ k) : (e.putCore k c).core j = e.core j := by
  simp [Engine.core, putCore_cores, List.getElem?_set_ne h.symm]

/-- Steps 3 to 7 on an engine that boots: both service cores run, and the journal is restored. -/
def bootedUp (a b : Bool) (e : Engine) : Engine :=
  let e1 := e.putCore 32 { e.core 32 with st := 1 }
  let e2 := e1.putCore 33 { e1.core 33 with st := 1 }
  let e3 : Engine := { e2 with host := { e2.host with crs := false }, sec := { e2.sec with deviceKey := deriveKey } }
  relayCheck a b (keepCauses (restore (e3.setReg Reg.SEC_STAT_CERTOK (b2n (certOk e3)))))

theorem startUp_stays {a b : Bool} {e : Engine} (h : (bootRom e).2 = false) : startUp a b e = keepCauses (bootRom e).1 := by
  unfold startUp
  simp only [h]
  rfl

theorem startUp_boots {a b : Bool} {e : Engine} (h : (bootRom e).2 = true) : startUp a b e =
    if (bootedUp a b (bootRom e).1).st = stFault then lanesOn (bootedUp a b (bootRom e).1)
    else belRestart (lanesOn (enterState (bootedUp a b (bootRom e).1) stSafe 0)) := by
  have hcore : ∀ (f : Engine) (c : SpireCore), (f.putCore 32 c).core 33 = f.core 33 := fun f c => core_putCore_other c (by decide)
  unfold startUp bootedUp
  simp only [h, hcore]
  rfl

end Sys2Proof.Machine
end

section
namespace Sys2Proof.Machine

/-! ### Wake and the console (R444, R461) -/

section
variable {e : Engine}

theorem startWake_starts (hst : e.st = stStandby) (h : e.reg Reg.PWR_STAT_WAKING ≠ 1) (cause : Nat) :
    startWake e cause = (e.setReg Reg.PWR_STAT_WAKING 1).raise Src.wake cause := if_neg (by simp [hst, h])

/-- No wake starts outside STANDBY, nor while one is under way. -/
theorem startWake_none (h : e.st ≠ stStandby ∨ e.reg Reg.PWR_STAT_WAKING = 1) (cause : Nat) : startWake e cause = e := if_pos h

theorem exec_standbyWake_none {s : State} (h : s.eng.st ≠ stStandby ∨ s.eng.reg Reg.PWR_STAT_WAKING = 1) (cause : Nat) :
    exec (.standbyWake cause) s = .next s := by
  change execStandbyWake cause s = _
  unfold execStandbyWake
  dsimp only
  rw [startWake_none h, ite_self]

/-- STANDBY is left for SAFE, and the lanes return (R444). -/
theorem enterState_wakes (h : e.st = stStandby) (k : Nat) :
    let told := (e.putRegs [(Reg.PWR_STAT_STATE, stSafe), (Reg.PWR_STAT_PREV, stStandby)]).raise Src.state stSafe
    enterState e stSafe k = outputsFollow (wakeEntry { told with pwr := { told.pwr with reached := true } }) := by
  intro told
  have h1 : stStandby ≠ stArmed := by decide
  have h2 : stSafe ≠ stArmed := by decide
  have h3 : stSafe ≠ stStandby := by decide
  have h4 : stSafe ≠ stFault := by decide
  unfold enterState
  simp only [h, h1, h2, h3, h4, if_false, if_true, and_false]
  rfl

/-- A state request that may be made at the next boundary comes first among those that wait. -/
theorem request_queued {r : StReq} (h1 : e.st ≠ r.target) (h2 : r.target ≠ stStandby) (hok : requestOk e r.target = true)
    (h3 : e.st ≠ stStandby) :
    request r 0 true e = { e with pwr := { e.pwr with reqs := r :: e.pwr.reqs } } := by
  unfold request
  simp only [h1, h2, h3, hok, if_false, if_true, ne_eq, not_true_eq_false, Bool.not_true, Bool.false_eq_true]

theorem request_standby {r : StReq} {first : Bool} (ht : r.target = stStandby) (h : e.st ≠ stStandby) (hok : requestOk e stStandby = true)
    (at_ : Nat) :
    request r at_ first e = finishReq (enterState e stStandby e.counted) r .ok e.counted := by
  unfold request
  simp only [ht, h, hok, if_false, if_true]

end

section
variable {s : State} (h : s.eng.st ≠ stOff)
include h

theorem exec_console_reset :
    exec (.consoleCommand .reset) s = .next { s with eng := startUp (welded s.eng 0) (welded s.eng 1) (warmCleared 2 s.eng) } := if_neg h

theorem exec_console_reqState {code : Nat} (hc : 2 ≤ code ∧ code ≤ 5) :
    exec (.consoleCommand (.reqState code)) s = .next { s with eng := request (requestOf (2 ^ 18) 0 false code none) 0 true s.eng } :=
  (if_neg h).trans (if_neg (by omega))

theorem exec_console_reqState_bad {code : Nat} (hc : code < 2 ∨ 5 < code) : exec (.consoleCommand (.reqState code)) s = .next s :=
  (if_neg h).trans (if_pos hc)

end

theorem exec_console_firmware {s : State} {slot : Nat} {p : Packet} (hst : s.eng.st = stBoot) (hslot : slot < 2)
    (hfree : xferBusy 0x1312 s.eng { p with ring := 2 ^ 18, ctx := 0, target := slot } = none) :
    exec (.consoleCommand (.firmware slot p)) s
      = .next { s with eng := takePacket 0x1312 s.eng { p with ring := 2 ^ 18, ctx := 0, target := slot } } := by
  have hoff : s.eng.st ≠ stOff := by
    rw [hst]
    decide
  refine (if_neg hoff).trans ((if_neg ?_).trans (if_neg ?_))
  · exact not_or_intro (not_not_intro hst) (by omega)
  · rw [hfree]
    exact Bool.false_ne_true

/-- A warm reset's cause is free: it lies in the range that R440 gives (assumption 39). -/
theorem exec_warmReset {s : State} (a b : Bool) (h : s.eng.st ≠ stOff) : exec (.warmReset a b) s = .next { s with
    eng := startUp a b (warmCleared (1 + s.eng.freeVal.1 % 3) s.eng.freeVal.2) } := if_neg h

theorem exec_trialBootTimeout {s : State} (h : s.eng.st ≠ stOff) (hreached : s.eng.pwr.reached = false)
    (htrial : s.eng.reg Reg.SEC_FW_TRIAL = 1) (htried : s.eng.reg Reg.SEC_FW_TRIED = 1) :
    exec .trialBootTimeout s = .next { s with
      eng := (startUp (welded s.eng 0) (welded s.eng 1) (warmCleared 3 s.eng)).raise Src.fwFailBoot 0 } :=
  if_pos ⟨h, by simp [hreached], htrial, htried⟩

theorem exec_trialBootTimeout_none {s : State} (h : s.eng.st = stOff ∨ s.eng.pwr.reached = true ∨ s.eng.reg Reg.SEC_FW_TRIAL ≠ 1
    ∨ s.eng.reg Reg.SEC_FW_TRIED ≠ 1) : exec .trialBootTimeout s = .next s := by
  refine if_neg fun ⟨hoff, hreached, htrial, htried⟩ => ?_
  rcases h with h | h | h | h
  · exact hoff h
  · rw [h] at hreached
    exact Bool.false_ne_true hreached
  · exact h htrial
  · exact h htried

/-- Settles O52: resets by what `clearedBy` keeps and clears and where `startUp` begins, start-up by what the boot ROM answers, and wakes and
the console by their own rows. -/
theorem powerAndResets : Obligations.PowerAndResets := by
  unfold Obligations.PowerAndResets
  refine ⟨fun a b s hw => ?resets, fun a b e => ⟨startUp_stays, fun h => ?boots⟩, fun s hst => ?wakes, fun s c h => ?noWake,
    fun code s h => ?console, fun slot p s hst hslot => ?firmware⟩
  case resets =>
    intro e fresh kept
    refine ⟨fun h => ?cold, fun h1 h2 => ?coldNone, fun h => ?warm, fun h => ?off, fun h hr h1 h2 => ?trial, exec_trialBootTimeout_none,
      fun h => ?byConsole, fun h => ?loss⟩
    case cold =>
      obtain ⟨hprev, ha, hb⟩ := coldCleared_shows e
      exact ⟨coldCleared e, if_pos h, coldCleared_fresh e, ⟨(coldCleared_reg e (by decide) (by decide) (by decide)).trans clearedBy_floor,
        (coldCleared_reg e (by decide) (by decide) (by decide)).trans clearedBy_next⟩, rfl, hprev, ha, hb⟩
    case coldNone => exact if_neg (not_or_intro h1 h2)
    case warm =>
      obtain ⟨hcells, hheld⟩ := warmCleared_mem (1 + e.freeVal.1 % 3) e.freeVal.2
      have hcause := warmCleared_cause (1 + e.freeVal.1 % 3) e.freeVal.2
      have hmod : (1 + e.freeVal.1 % 3) % 2 ^ Reg.PWR_RSTCAUSE_CAUSE.width = 1 + e.freeVal.1 % 3 := Nat.mod_eq_of_lt (by simp only; omega)
      rw [hmod] at hcause
      refine ⟨_, exec_warmReset a b h, (warmCleared_fresh _ e.freeVal.2).of_same rfl rfl rfl, hcells, hheld, by rw [hcause]; omega,
        by rw [hcause]; omega, fun hcoil => ?_⟩
      obtain ⟨hfloor, hnext, hprev⟩ := warmCleared_kept (1 + e.freeVal.1 % 3) (e := e.freeVal.2) hw hcoil
      exact ⟨⟨hfloor, hnext⟩, hprev⟩
    case off => exact ⟨if_pos h, if_pos h, if_pos h, fun c => if_pos h⟩
    case trial => exact ⟨_, exec_trialBootTimeout h hr h1 h2, warmCleared_fresh 3 e, warmCleared_cause 3 e⟩
    case byConsole => exact ⟨_, exec_console_reset h, warmCleared_fresh 2 e, warmCleared_cause 2 e⟩
    case loss =>
      have hloss : exec .powerLoss s = .next { s with eng := powerOff e } := if_neg h
      exact ⟨(if_neg h).trans hloss.symm, .of_next hloss (powerOff_off e)⟩
  case boots =>
    intro running both up r
    exact startUp_boots h
  case wakes =>
    intro e waking
    refine ⟨fun h => ⟨?host, fun h1 h2 => ?timing, fun h1 => ?event, ?notYet⟩, fun h => ⟨exec_standbyWake_none (.inr h), ?done⟩⟩
    case host => exact next_congr ((if_pos rfl).trans (startWake_starts hst h 1))
    case timing => exact next_congr ((if_pos (by simpa using And.intro h1 h2)).trans (startWake_starts hst h 2))
    case event => exact next_congr ((if_pos (by simpa using h1)).trans (startWake_starts hst h 3))
    case notYet => exact if_neg fun hw => h hw.2
    case done =>
      have hwakes : exec .wakeComplete s = .next { s with eng := finishWakers (enterState e stSafe e.counted) e.counted } := if_pos ⟨hst, h⟩
      exact hwakes.trans (next_congr (congrArg (fun x => finishWakers x e.counted) (enterState_wakes hst e.counted)))
  case noWake => exact ⟨exec_standbyWake_none (.inl h) c, if_neg fun hw => h hw.1⟩
  case console =>
    intro e o r
    refine ⟨exec_console_reqState_bad h, fun h1 h2 h3 h4 h5 hok => ?queued, fun hc h4 hok => ?standby⟩
    case queued => exact (exec_console_reqState h ⟨h1, h2⟩).trans (next_congr (request_queued (r := r) h4 h3 hok h5))
    case standby =>
      have hcode : 2 ≤ code ∧ code ≤ 5 := by
        rw [hc]
        decide
      exact (exec_console_reqState h hcode).trans (next_congr (request_standby (r := r) hc h4 hok 0))
  case firmware =>
    intro q hfree
    exact .of_next (exec_console_firmware hst hslot hfree) (takePacket_delivers 0x1312 s.eng q)

end Sys2Proof.Machine
end

/-! ## Security -/

section
namespace Sys2Proof.Machine

/-! ### What a verification records (R394, R395) -/

/-- From `e`, a verification of object `o` with result `cause` shows in SEC_VLAST, the verifications `vs` still wait, and configuration,
memory and the host interface stand as they were. -/
def Noted (e : Engine) (o : List Byte) (cause : Nat) (vs : List Verif) (x : Engine) : Prop :=
  x.reg Reg.SEC_VLAST_TYPE = objType o % 2 ^ Reg.SEC_VLAST_TYPE.width ∧ x.reg Reg.SEC_VLAST_CAUSE = cause % 8 ∧ x.active = e.active
    ∧ x.mem.cells = e.mem.cells ∧ x.mem.journal = e.mem.journal ∧ x.sec.verifs = vs ∧ x.host = e.host

namespace Noted

variable {e x : Engine} {o : List Byte} {cause : Nat} {vs : List Verif}

/-- Registers other than SEC_VLAST may be written. -/
theorem putRegs (h : Noted e o cause vs x) (hw : x.regs.wf = true) {ws : List (Fld × Nat)}
    (htype : ∀ w ∈ ws, Reg.SEC_VLAST_TYPE.key ≠ w.1.key) (hcause : ∀ w ∈ ws, Reg.SEC_VLAST_CAUSE.key ≠ w.1.key) :
    Noted e o cause vs (x.putRegs ws) := by
  obtain ⟨h1, h2, hrest⟩ := h
  exact ⟨(reg_putRegs_ne hw htype).trans h1, (reg_putRegs_ne hw hcause).trans h2, hrest⟩

theorem setReg (h : Noted e o cause vs x) (hw : x.regs.wf = true) {f : Fld} (htype : Reg.SEC_VLAST_TYPE.key ≠ f.key)
    (hcause : Reg.SEC_VLAST_CAUSE.key ≠ f.key) (v : Nat) : Noted e o cause vs (x.setReg f v) := by
  obtain ⟨h1, h2, hrest⟩ := h
  exact ⟨(reg_setReg_ne hw htype v).trans h1, (reg_setReg_ne hw hcause v).trans h2, hrest⟩

/-- What security holds may change, but for the verifications that wait. -/
theorem withSec (h : Noted e o cause vs x) {sec : SecSt} (hv : sec.verifs = vs) : Noted e o cause vs { x with sec := sec } := by
  obtain ⟨h1, h2, h3, h4, h5, _, h7⟩ := h
  exact ⟨h1, h2, h3, h4, h5, hv, h7⟩

end Noted

/-- The engine with a verification's result in SEC_VLAST. -/
def recorded (e : Engine) (o : List Byte) (cause : Nat) : Engine := e.putRegs [(Reg.SEC_VLAST_TYPE, objType o), (Reg.SEC_VLAST_CAUSE, cause)]

theorem recordVerify_good (e : Engine) (o : List Byte) : recordVerify e o 0 = recorded e o 0 := by
  unfold recordVerify
  exact if_pos rfl

theorem recordVerify_bad (e : Engine) (o : List Byte) {cause : Nat} (h : cause ≠ 0) :
    recordVerify e o cause = ((recorded e o cause).bump Reg.SEC_VFAIL_COUNT).raise Src.vfail (objType o) := if_neg h

section
variable {e : Engine} (hw : e.regs.wf = true)
include hw

theorem recorded_wf (o : List Byte) (cause : Nat) : (recorded e o cause).regs.wf = true := putRegs_wf hw _

theorem recorded_reg (o : List Byte) (cause : Nat) {g : Fld} (h1 : g.key ≠ Reg.SEC_VLAST_TYPE.key) (h2 : g.key ≠ Reg.SEC_VLAST_CAUSE.key) :
    (recorded e o cause).reg g = e.reg g :=
  reg_putRegs_ne hw (by simpa using ⟨h1, h2⟩)

theorem recorded_noted (o : List Byte) (cause : Nat) : Noted e o cause e.sec.verifs (recorded e o cause) :=
  ⟨reg_putRegs_last hw [] _ _ _ (by simp), reg_putRegs_last hw [_] _ _ [] (by simp), rfl, rfl, rfl, rfl, rfl⟩

end

/-- The verification at the head of the queue ends. -/
theorem exec_verificationEnd {s : State} {v : Verif} {vs : List Verif} (h : s.eng.sec.verifs = v :: vs) :
    exec .verificationEnd s = .next { s with eng := endVerify { s.eng with sec := { s.eng.sec with verifs := vs } } v } := by
  change execVerificationEnd s = _
  unfold execVerificationEnd
  rw [h]

section
variable {e : Engine} {v : Verif}

theorem endVerify_fails (h : objFail e (typeOf v.op) false v.obj ≠ 0) :
    endVerify e v = (recordVerify e v.obj (objFail e (typeOf v.op) false v.obj)).complete v.p .sig := if_pos h

/-- An object that verifies goes to the function that its command names. -/
theorem endVerify_accepts (h : objFail e (typeOf v.op) false v.obj = 0) :
    let x := recorded e v.obj 0
    (v.op = 0x1312 → endVerify e v = acceptFirmware x v.p v.obj) ∧ (v.op = 0x0610 → endVerify e v = acceptBundle x v.p v.obj)
      ∧ (v.op = 0x0C10 → endVerify e v = acceptBits x v.p v.obj) ∧ (v.op = 0x1012 → endVerify e v = acceptRepair x v.p v.obj)
      ∧ (v.op = 0x1316 → endVerify e v = acceptClaim x v.p v.obj)
      ∧ (v.op = 0x1317 → endVerify e v = (journalSync (setOwner x ((objBody v.obj).take 64))).complete v.p .ok)
      ∧ (v.op = 0x1318 → endVerify e v = acceptReset x v.p) := by
  intro x
  have hgood : recordVerify e v.obj 0 = x := recordVerify_good e v.obj
  refine ⟨?firmware, ?bundle, ?bits, ?repair, ?claim, ?handover, ?reset⟩
  all_goals
    intro hop
    unfold endVerify
    simp only [h, hgood, ne_eq, not_true_eq_false, if_false]
    rw [hop]
    rfl

end

end Sys2Proof.Machine
end

section
namespace Sys2Proof.Machine

/-! ### Firmware (R399) -/

/-- Bit `b` of a mask of two bits reads as it was put. -/
theorem tbit_maskBit {e : Engine} (hw : e.regs.wf = true) {f : Fld} (hf : f.width = 2) {b : Nat} (hb : b < 2) (v : Bool) :
    tbit ((maskBit e f b v).reg f) b = v := by
  have hreg : (maskBit e f b v).reg f = (e.reg f - 2 ^ b * bit (e.reg f) b + 2 ^ b * b2n v) % 4 := by
    rw [maskBit, reg_setReg_same hw, hf]
    rfl
  rw [hreg]
  unfold tbit bit b2n
  obtain rfl | rfl : b = 0 ∨ b = 1 := by omega
  · cases v <;> simp <;> omega
  · cases v <;> simp <;> omega

/-- A verified image `o` has been put in slot `x` of `e`: the slot holds it, and is valid and not marked as failed. -/
def ImageHeld (e : Engine) (o : List Byte) (vs : List Verif) (x : Nat) (z : Engine) : Prop :=
  Noted e o 0 vs z ∧ z.sec.slots = e.sec.slots.set x o ∧ tbit (z.reg Reg.SEC_FW_VALID) x = true ∧ tbit (z.reg Reg.SEC_FW_FAIL) x = false
    ∧ z.regs.wf = true

namespace ImageHeld

variable {e z : Engine} {o : List Byte} {vs : List Verif} {x : Nat}

theorem setReg (h : ImageHeld e o vs x z) {f : Fld} (v : Nat)
    (hf : ∀ g ∈ [Reg.SEC_VLAST_TYPE, Reg.SEC_VLAST_CAUSE, Reg.SEC_FW_VALID, Reg.SEC_FW_FAIL], g.key ≠ f.key) :
    ImageHeld e o vs x (z.setReg f v) := by
  obtain ⟨hnoted, hslots, hvalid, hfail, hw⟩ := h
  have hkeep : ∀ g ∈ [Reg.SEC_VLAST_TYPE, Reg.SEC_VLAST_CAUSE, Reg.SEC_FW_VALID, Reg.SEC_FW_FAIL], (z.setReg f v).reg g = z.reg g := fun g hg =>
    reg_setReg_ne hw (hf g hg) v
  refine ⟨hnoted.setReg hw (hf _ (by simp)) (hf _ (by simp)) v, hslots, ?_, ?_, setReg_wf hw _ _⟩
  · rw [hkeep _ (by simp)]
    exact hvalid
  · rw [hkeep _ (by simp)]
    exact hfail

theorem showSlot (h : ImageHeld e o vs x z) (y : Nat) : ImageHeld e o vs x (showSlot z y) := by
  unfold Machine.showSlot
  dsimp only
  split
  · exact (h.setReg _ (by decide)).setReg _ (by decide)
  · exact (h.setReg _ (by decide)).setReg _ (by decide)

theorem endTrial (h : ImageHeld e o vs x z) : ImageHeld e o vs x (endTrial z) := (h.setReg 0 (by decide)).setReg 0 (by decide)

theorem slotObj_same (h : ImageHeld e o vs x z) (hx : x < 2) (hlen : e.sec.slots.length = 2) : slotObj z x = o := by
  obtain ⟨_, hslots, _⟩ := h
  simp [slotObj, hslots, hlen, hx]

theorem slotObj_other (h : ImageHeld e o vs x z) (hx : x < 2) : slotObj z (1 - x) = slotObj e (1 - x) := by
  obtain ⟨_, hslots, _⟩ := h
  have hne : x ≠ 1 - x := by omega
  simp [slotObj, hslots, List.getElem?_set_ne hne]

end ImageHeld

/-- A verified image is put in its slot, and a trial of that slot ends (R399). -/
theorem acceptFirmware_holds {e : Engine} (hw : e.regs.wf = true) (p : Packet) (o : List Byte) (hx : p.target < 2) :
    ∃ x, ImageHeld e o e.sec.verifs p.target x ∧ acceptFirmware (recorded e o 0) p o = (x.raise Src.fwDone p.target).complete p .ok := by
  have hr : (recorded e o 0).regs.wf = true := recorded_wf hw o 0
  let e0 : Engine := { recorded e o 0 with sec := { e.sec with slots := e.sec.slots.set p.target o } }
  have hnoted0 : Noted e o 0 e.sec.verifs e0 := (recorded_noted hw o 0).withSec rfl
  have hw1 : (maskBit e0 Reg.SEC_FW_VALID p.target true).regs.wf = true := setReg_wf (e := e0) hr _ _
  have hput : ImageHeld e o e.sec.verifs p.target (maskBit (putSlot (recorded e o 0) p.target o true) Reg.SEC_FW_FAIL p.target false) := by
    refine ⟨(hnoted0.setReg hr (by decide) (by decide) _).setReg hw1 (by decide) (by decide) _, rfl, ?valid, tbit_maskBit hw1 rfl hx false,
      setReg_wf hw1 _ _⟩
    case valid =>
      exact (congrArg (tbit · p.target) (reg_setReg_ne hw1 (by decide) _)).trans (tbit_maskBit (e := e0) hr rfl hx true)
  let e1 := showSlot (maskBit (putSlot (recorded e o 0) p.target o true) Reg.SEC_FW_FAIL p.target false) p.target
  by_cases ht : e1.reg Reg.SEC_FW_TRIAL = 1 ∧ e1.reg Reg.SEC_FW_NEXT = p.target
  · exact ⟨endTrial e1, (hput.showSlot _).endTrial, congrArg (fun z : Engine => (z.raise Src.fwDone p.target).complete p .ok) (if_pos ht)⟩
  · exact ⟨e1, hput.showSlot _, congrArg (fun z : Engine => (z.raise Src.fwDone p.target).complete p .ok) (if_neg ht)⟩

/-! ### The owner key (R401 to R404) -/

/-- The registers that show an owner key. -/
def ownerWords (state : Nat) (key : List Byte) : List (Fld × Nat) :=
  (Reg.SEC_STAT_OWNER, state)
    :: (List.range 16).map (fun i => (Reg.SEC_OWNKEY_DIG i, leAt (if key.isEmpty then [] else digest64 key) (4 * i) 4))

theorem mem_ownerWords {state : Nat} {key : List Byte} {x : Fld × Nat} (h : x ∈ ownerWords state key) : x = (Reg.SEC_STAT_OWNER, state)
    ∨ ∃ i < 16, x = (Reg.SEC_OWNKEY_DIG i, leAt (if key.isEmpty then [] else digest64 key) (4 * i) 4) := by
  rcases List.mem_cons.mp h with h | h
  · exact .inl h
  · obtain ⟨i, hi, rfl⟩ := List.mem_map.mp h
    exact .inr ⟨i, List.mem_range.mp hi, rfl⟩

theorem showOwner_eq (state : Nat) (key : List Byte) (e : Engine) :
    showOwner state key e = { e.putRegs (ownerWords state key) with sec := { e.sec with ownerKey := key } } := by
  unfold showOwner ownerWords Engine.putRegs
  dsimp only

theorem showOwner_reg (state : Nat) (key : List Byte) (e : Engine) (g : Fld) :
    (showOwner state key e).reg g = (e.putRegs (ownerWords state key)).reg g := by
  rw [showOwner_eq]
  unfold Engine.reg
  dsimp only

/-- SEC_VLAST stands apart from the owner's registers. -/
theorem ownerWords_apart {state : Nat} {key : List Byte} {g : Fld} (hg : 32 * 0x1200064 ≤ g.key) :
    ∀ x ∈ ownerWords state key, g.key ≠ x.1.key := by
  intro x hx
  obtain rfl | ⟨i, hi, rfl⟩ := mem_ownerWords hx
  · simp only
    omega
  · simp only
    omega

theorem reg_putRegs_of_mem {e : Engine} (hw : e.regs.wf = true) {ws : List (Fld × Nat)} {f : Fld} {v : Nat} (h : (f, v) ∈ ws)
    (huniq : ∀ x ∈ ws, x.1.key = f.key → x = (f, v)) : (e.putRegs ws).reg f = v % 2 ^ f.width := fld_puts_of_mem hw h huniq

section
variable {e : Engine} (hw : e.regs.wf = true) (state : Nat) (key : List Byte)
include hw

theorem showOwner_state : (showOwner state key e).reg Reg.SEC_STAT_OWNER = state % 4 := by
  rw [showOwner_reg]
  refine reg_putRegs_last hw [] Reg.SEC_STAT_OWNER state _ fun x hx => ?_
  obtain ⟨i, _, rfl⟩ := List.mem_map.mp hx
  simp only
  omega

theorem showOwner_digest {i : Nat} (hi : i < 16) :
    (showOwner state key e).reg (Reg.SEC_OWNKEY_DIG i) = leAt (if key.isEmpty then [] else digest64 key) (4 * i) 4 % 2 ^ 32 := by
  rw [showOwner_reg]
  have hmem : (Reg.SEC_OWNKEY_DIG i, leAt (if key.isEmpty then [] else digest64 key) (4 * i) 4) ∈ ownerWords state key :=
    List.mem_cons_of_mem _ (List.mem_map.mpr ⟨i, List.mem_range.mpr hi, rfl⟩)
  refine reg_putRegs_of_mem hw hmem fun x hx hkey => ?_
  obtain rfl | ⟨j, _, rfl⟩ := mem_ownerWords hx
  · simp only at hkey
    omega
  · obtain rfl : j = i := by
      simp only at hkey
      omega
    rfl

theorem Noted.showOwner {e0 : Engine} {o : List Byte} {cause : Nat} {vs : List Verif} (h : Noted e0 o cause vs e) :
    Noted e0 o cause vs (showOwner state key e) := by
  have hvs : e.sec.verifs = vs := by
    obtain ⟨_, _, _, _, _, hvs, _⟩ := h
    exact hvs
  rw [showOwner_eq]
  exact (h.putRegs hw (ownerWords_apart (by decide)) (ownerWords_apart (by decide))).withSec (sec := { e.sec with ownerKey := key }) hvs

end

/-- A key that is not empty comes into force with its event. -/
theorem setOwner_key (e : Engine) {key : List Byte} (h : key ≠ []) :
    setOwner e key = (showOwner 1 key e).raise Src.owner (leAt (digest64 key) 0 4) := by
  have hne : key.isEmpty = false := List.isEmpty_eq_false_iff.mpr h
  unfold setOwner
  simp only [hne, Bool.not_false, Bool.false_eq_true, if_false]
  rfl

theorem setOwner_none (e : Engine) : setOwner e [] = showOwner 0 [] e := by
  unfold setOwner
  exact if_pos rfl

/-- What an owner key shows once it is in force. -/
theorem showOwner_shows {e : Engine} (hw : e.regs.wf = true) {key : List Byte} (h : key ≠ []) :
    (showOwner 1 key e).reg Reg.SEC_STAT_OWNER = 1
      ∧ ∀ i, i < 16 → (showOwner 1 key e).reg (Reg.SEC_OWNKEY_DIG i) = leAt (digest64 key) (4 * i) 4 % 2 ^ 32 := by
  have hne : key.isEmpty = false := List.isEmpty_eq_false_iff.mpr h
  refine ⟨showOwner_state hw 1 key, fun i hi => (showOwner_digest hw 1 key hi).trans ?_⟩
  rw [hne]
  rfl

/-- No owner shows as a digest of 0. -/
theorem showOwner_clear {e : Engine} (hw : e.regs.wf = true) : (showOwner 0 [] e).reg Reg.SEC_STAT_OWNER = 0
    ∧ ∀ i, i < 16 → (showOwner 0 [] e).reg (Reg.SEC_OWNKEY_DIG i) = 0 := by
  refine ⟨showOwner_state hw 0 [], fun i hi => (showOwner_digest hw 0 [] hi).trans ?_⟩
  simp [leAt, leVal]

end Sys2Proof.Machine
end

section
namespace Sys2Proof.Machine

/-! ### Claims, resets and repairs (R363, R402, R404) -/

section
variable {e : Engine} {p : Packet} {o : List Byte}

theorem acceptClaim_waits (hst : e.st = stSafe) (hown : e.reg Reg.SEC_STAT_OWNER = 0) : acceptClaim e p o
    = { e with sec := { e.sec with claim := some ⟨p.ring, p.tag, p.notify, (objBody o).take 64⟩ } } := if_neg (by simp [hst, hown])

theorem acceptClaim_refused (h : e.st ≠ stSafe ∨ e.reg Reg.SEC_STAT_OWNER ≠ 0) : acceptClaim e p o = e.complete p (.state e.st) := if_pos h

theorem acceptReset_safe (hst : e.st = stSafe) : acceptReset e p
    = (journalSync (removeBits ((removeBundle (showOwner 0 [] e)).setReg Reg.SEC_KEEPVER_VER 0))).complete p .ok := by
  unfold acceptReset
  rw [if_neg (by simp [hst]), setOwner_none]

theorem acceptReset_refused (h : e.st ≠ stSafe) : acceptReset e p = e.complete p (.state e.st) := if_pos h

/-- The bank that a repair object names. -/
def repairBank (o : List Byte) : Nat := leAt (objBody o) 0 4

/-- The repair object names a bank that has been tested and that fails in the column given (R363). -/
def repairFits (e : Engine) (o : List Byte) : Prop :=
  repairBank o < 384 ∧ e.reg (Reg.MEM_BANK_BISTV (repairBank o)) ≠ 0 ∧ e.reg (Reg.MEM_BANK_FCOL (repairBank o)) = leAt (objBody o) 4 4

theorem acceptRepair_misfit (h : ¬repairFits e o) : acceptRepair e p o = e.complete p (.incons 0x10) := by
  refine if_pos ?_
  unfold repairFits repairBank at h
  by_cases hb : leAt (objBody o) 0 4 < 384
  · by_cases hv : e.reg (Reg.MEM_BANK_BISTV (leAt (objBody o) 0 4)) = 0
    · exact .inr (.inl hv)
    · exact .inr (.inr fun hc => h ⟨hb, hv, hc⟩)
  · exact .inl (Nat.not_lt.mp hb)

theorem not_misfit (h : repairFits e o) : ¬(384 ≤ repairBank o ∨ e.reg (Reg.MEM_BANK_BISTV (repairBank o)) = 0
    ∨ e.reg (Reg.MEM_BANK_FCOL (repairBank o)) ≠ leAt (objBody o) 4 4) := by
  obtain ⟨hb, hv, hc⟩ := h
  exact not_or_intro (Nat.not_le.mpr hb) (not_or_intro hv (not_not_intro hc))

theorem acceptRepair_spent (h : repairFits e o) (hs : e.reg (Reg.MEM_BANK_SPARE (repairBank o)) = 0) :
    acceptRepair e p o = e.complete p (.range 8) := (if_neg (not_misfit h)).trans (if_pos hs)

/-- The engine once bank `b` has taken one of its spare columns. -/
def bankRepaired (e : Engine) (b : Nat) : Engine := e.putRegs
  [(Reg.MEM_BANK_SPARE b, e.reg (Reg.MEM_BANK_SPARE b) - 1), (Reg.MEM_BANK_REP b, e.reg (Reg.MEM_BANK_REP b) + 1)]

theorem acceptRepair_repairs (h : repairFits e o) (hs : e.reg (Reg.MEM_BANK_SPARE (repairBank o)) ≠ 0) :
    acceptRepair e p o = (clearBank (bankRepaired e (repairBank o)) (repairBank o)).complete p .ok :=
  (if_neg (not_misfit h)).trans (if_neg hs)

theorem bankRepaired_shows (hw : e.regs.wf = true) (b : Nat) :
    (bankRepaired e b).reg (Reg.MEM_BANK_SPARE b) = (e.reg (Reg.MEM_BANK_SPARE b) - 1) % 2 ^ (Reg.MEM_BANK_SPARE b).width
      ∧ (bankRepaired e b).reg (Reg.MEM_BANK_REP b) = (e.reg (Reg.MEM_BANK_REP b) + 1) % 2 ^ (Reg.MEM_BANK_REP b).width :=
  ⟨reg_putRegs_last hw [] _ _ _ (by simp), reg_putRegs_last hw [_] _ _ [] (by simp)⟩

end

theorem Noted.bankRepaired {e0 e : Engine} {o : List Byte} {cause b : Nat} {vs : List Verif} (h : Noted e0 o cause vs e) (hw : e.regs.wf = true)
    (hb : b < 384) : Noted e0 o cause vs (bankRepaired e b) := by
  refine h.putRegs hw ?_ ?_ <;>
  · intro x hx
    simp only [List.mem_cons, List.not_mem_nil, or_false] at hx
    obtain rfl | rfl := hx <;> simp only <;> omega

/-! ### Transfers, reports and claims (R396, R402, R409) -/

theorem exec_transferTimeout_none {op : Nat} {s : State} (h : ∀ x ∈ s.eng.sec.xfers, x.op ≠ op) : exec (.transferTimeout op) s = .next s := by
  have hnone : xferOf s.eng op = none := List.find?_eq_none.mpr fun x hx => by simpa using h x hx
  exact if_neg (by rw [hnone]; exact Bool.false_ne_true)

theorem exec_transferTimeout {op : Nat} {s : State} (h : ∃ x ∈ s.eng.sec.xfers, x.op = op) :
    exec (.transferTimeout op) s = .next { s with eng := (closeXfer s.eng op).raise Src.xferLost op } := by
  obtain ⟨x, hx, hop⟩ := h
  exact if_pos (List.find?_isSome.mpr ⟨x, hx, by simp [hop]⟩)

/-- The engine once the first report has been written and counted, its command not completed yet. -/
def reportWritten (ms : Nat) (e : Engine) (r : Report) (rs : List Report) : Engine :=
  let e1 := Engine.post { e with sec := { e.sec with reports := rs } } r.addr (r.body ++ reportSig e r.body)
  (e1.bump Reg.SEC_ATTCNT_COUNT).setReg Reg.SEC_ATTMAX_MS (max (e.reg Reg.SEC_ATTMAX_MS) (min ms 65535))

theorem exec_attestReportDone {ms : Nat} {s : State} {r : Report} {rs : List Report} (h : s.eng.sec.reports = r :: rs) :
    let x := reportWritten ms s.eng r rs
    exec (.attestReportDone ms) s
      = .next { s with eng := startReport ((x.completeAt r.ring r.tag r.notify .ok x.cxNow).raise Src.attDone 0) } := by
  intro x
  change execAttestReportDone ms s = _
  unfold execAttestReportDone
  rw [h]
  rfl

theorem post_withSec (e : Engine) (sec : SecSt) (a : Nat) (bs : List Byte) : (Engine.post { e with sec := sec } a bs).host = (e.post a bs).host := by
  unfold Engine.post Engine.postAs
  dsimp only
  have hadmits : Engine.admits { e with sec := sec } false bs.length = e.admits false bs.length := rfl
  rw [hadmits]
  split
  · rfl
  · rfl

theorem reportWritten_shows {ms : Nat} {e : Engine} (hw : e.regs.wf = true) (r : Report) (rs : List Report) :
    let x := reportWritten ms e r rs
    x.host.out = (e.post r.addr (r.body ++ reportSig e r.body)).host.out ∧ x.sec.reports = rs
      ∧ x.reg Reg.SEC_ATTCNT_COUNT = satU 32 (e.reg Reg.SEC_ATTCNT_COUNT + 1)
      ∧ x.reg Reg.SEC_ATTMAX_MS = max (e.reg Reg.SEC_ATTMAX_MS) (min ms 65535) % 65536 := by
  intro x
  let e1 := Engine.post { e with sec := { e.sec with reports := rs } } r.addr (r.body ++ reportSig e r.body)
  have hregs : e1.regs = e.regs := post_regs _ _ _
  have hw1 : e1.regs.wf = true := by rw [hregs]; exact hw
  have hreg : ∀ g, e1.reg g = e.reg g := fun g => by simp only [Engine.reg, hregs]
  have hw2 : (e1.bump Reg.SEC_ATTCNT_COUNT).regs.wf = true := setReg_wf hw1 _ _
  refine ⟨?out, ?reports, ?count, reg_setReg_same hw2 _ _⟩
  case out =>
    have h : x.host = e1.host := rfl
    rw [h, post_withSec]
  case reports =>
    have h : x.sec = e1.sec := rfl
    rw [h, post_sec]
  case count => exact (reg_setReg_ne hw2 (by decide) _).trans ((reg_bump_same hw1 _).trans (by rw [hreg]))

section
variable {s : State} {c : Claim} (h : s.eng.sec.claim = some c)
include h

theorem exec_ownerClaimTimeout : exec .ownerClaimTimeout s = .next { s with
    eng := Engine.completeAt { s.eng with sec := { s.eng.sec with claim := none } } c.ring c.tag c.notify .timeout
      (Engine.cxNow { s.eng with sec := { s.eng.sec with claim := none } }) } := by
  change execOwnerClaimTimeout s = _
  unfold execOwnerClaimTimeout
  rw [h]

theorem exec_ownerClaimConfirm : exec .ownerClaimConfirm s = .next { s with
    eng := (journalSync (setOwner { s.eng with sec := { s.eng.sec with claim := none } } c.key)).completeAt c.ring c.tag c.notify .ok
      (journalSync (setOwner { s.eng with sec := { s.eng.sec with claim := none } } c.key)).cxNow } := by
  change execOwnerClaimConfirm s = _
  unfold execOwnerClaimConfirm
  rw [h]

end

end Sys2Proof.Machine
end

section
namespace Sys2Proof.Machine

/-- What a verified repair does, by the bank's registers as they stood before its verification was recorded (R363). -/
theorem acceptRepair_recorded {e : Engine} (hw : e.regs.wf = true) (p : Packet) (o : List Byte) :
    let x := recorded e o 0
    let b := repairBank o
    (¬repairFits e o → acceptRepair x p o = x.complete p (.incons 0x10))
      ∧ (repairFits e o → e.reg (Reg.MEM_BANK_SPARE b) = 0 → acceptRepair x p o = x.complete p (.range 8))
      ∧ (repairFits e o → e.reg (Reg.MEM_BANK_SPARE b) ≠ 0 → Noted e o 0 e.sec.verifs (bankRepaired x b)
          ∧ (bankRepaired x b).reg (Reg.MEM_BANK_SPARE b) = (e.reg (Reg.MEM_BANK_SPARE b) - 1) % 2 ^ (Reg.MEM_BANK_SPARE b).width
          ∧ (bankRepaired x b).reg (Reg.MEM_BANK_REP b) = (e.reg (Reg.MEM_BANK_REP b) + 1) % 2 ^ (Reg.MEM_BANK_REP b).width
          ∧ acceptRepair x p o = (clearBank (bankRepaired x b) b).complete p .ok) := by
  intro x b
  have hx : x.regs.wf = true := recorded_wf hw o 0
  have hreg : ∀ g : Fld, g.key < 32 * 0x1200000 → x.reg g = e.reg g := fun g hg =>
    recorded_reg hw o 0 (by simp only; omega) (by simp only; omega)
  have hspare : b < 384 → x.reg (Reg.MEM_BANK_SPARE b) = e.reg (Reg.MEM_BANK_SPARE b) := fun hb => hreg _ (by simp only; omega)
  have hfits : repairFits x o ↔ repairFits e o := and_congr_right fun (hb : b < 384) => by
    have hvalid : x.reg (Reg.MEM_BANK_BISTV b) = e.reg (Reg.MEM_BANK_BISTV b) := hreg _ (by simp only; omega)
    have hcol : x.reg (Reg.MEM_BANK_FCOL b) = e.reg (Reg.MEM_BANK_FCOL b) := hreg _ (by simp only; omega)
    rw [hvalid, hcol]
  refine ⟨fun h => acceptRepair_misfit (mt hfits.mp h), fun h hs => acceptRepair_spent (hfits.mpr h) ((hspare h.1).trans hs), fun h hs => ?_⟩
  obtain ⟨hb, _⟩ := id h
  have hrep : x.reg (Reg.MEM_BANK_REP b) = e.reg (Reg.MEM_BANK_REP b) := hreg _ (by simp only; omega)
  obtain ⟨h1, h2⟩ := bankRepaired_shows hx b
  rw [hspare hb] at h1
  rw [hrep] at h2
  exact ⟨(recorded_noted hw o 0).bankRepaired hx hb, h1, h2, acceptRepair_repairs (hfits.mpr h) (by rw [← hspare hb] at hs; exact hs)⟩

/-- Settles O51: what a verification records is `Noted` whatever its object does (`endVerify_accepts`), and transfers, reports and claims end by
their own rows. -/
theorem securityEvents : Obligations.SecurityEvents := by
  unfold Obligations.SecurityEvents
  refine ⟨fun s v vs hvs hw hlen => ?verify, fun s h => ?noVerify, fun op s => ⟨exec_transferTimeout_none, exec_transferTimeout⟩,
    fun ms s r rs hr hw => ?report, fun ms s h => ?noReport, fun s c hc hw => ?claims, fun s h => ⟨?noTimeout, ?noConfirm⟩⟩
  case verify =>
    intro e1 fails o noted
    have hw1 : e1.regs.wf = true := hw
    have ho : o = .next { s with eng := endVerify e1 v } := exec_verificationEnd hvs
    let x := recorded e1 v.obj 0
    have hx : x.regs.wf = true := recorded_wf hw1 _ _
    have hgood : fails = 0 → ∀ y, Noted s.eng v.obj 0 vs y → noted y := fun hf y hy =>
      (congrArg (Noted s.eng v.obj · vs y) hf).mpr hy
    have hnoted : Noted s.eng v.obj 0 vs x := recorded_noted hw1 v.obj 0
    have hst : x.st = s.eng.st := recorded_reg hw1 v.obj 0 (by decide) (by decide)
    have hown : x.reg Reg.SEC_STAT_OWNER = s.eng.reg Reg.SEC_STAT_OWNER := recorded_reg hw1 v.obj 0 (by decide) (by decide)
    have hends : ∀ {y : Engine}, endVerify e1 v = y → o = .next { s with eng := y } := fun h => ho.trans (next_congr h)
    refine ⟨fun hf => ?bad, fun hf hop ht => ?firmware, fun hf hop hsafe hnone => ?claim, fun hf hop h => ?claimNot, fun hf hop hkey => ?handover,
      fun hf hop hsafe => ?reset, fun hf hop hsafe => ?resetNot, fun hf hop => ?repair, fun hf hop => ?bundle, fun hf hop => ?bits⟩
    case bad =>
      have hrec : Noted s.eng v.obj fails vs (recorded e1 v.obj fails) := recorded_noted hw1 v.obj fails
      have hr : (recorded e1 v.obj fails).regs.wf = true := recorded_wf hw1 _ _
      refine ⟨(recorded e1 v.obj fails).bump Reg.SEC_VFAIL_COUNT, hrec.setReg hr (by decide) (by decide) _, rfl, ?count, ?answers⟩
      case count =>
        have hcount : (recorded e1 v.obj fails).reg Reg.SEC_VFAIL_COUNT = s.eng.reg Reg.SEC_VFAIL_COUNT :=
          recorded_reg hw1 _ _ (by decide) (by decide)
        exact (reg_bump_same hr _).trans (congrArg (fun n => satU 32 (n + 1)) hcount)
      case answers =>
        exact .of_next (hends ((endVerify_fails hf).trans (congrArg (fun y : Engine => y.complete v.p .sig) (recordVerify_bad e1 v.obj hf))))
          (complete_answers _ _ _)
    all_goals obtain ⟨hfirmware, hbundle, hbits, hrepair, hclaim, hhandover, hreset⟩ := endVerify_accepts hf
    case firmware =>
      obtain ⟨y, hheld, hy⟩ := acceptFirmware_holds hw1 v.p v.obj ht
      have hsame := hheld.slotObj_same ht hlen
      have hother := hheld.slotObj_other ht
      obtain ⟨hn, _, hvalid, hfail, _⟩ := hheld
      exact ⟨y, hgood hf y hn, hsame, hother, hvalid, hfail, .of_next (hends ((hfirmware hop).trans hy)) (complete_answers _ _ _)⟩
    case claim =>
      exact .of_next (hends ((hclaim hop).trans (acceptClaim_waits (hst.trans hsafe) (hown.trans hnone)))) ⟨hgood hf _ (hnoted.withSec rfl), rfl⟩
    case claimNot =>
      refine ⟨x, hgood hf x hnoted, rfl, .of_next (hends ((hclaim hop).trans (acceptClaim_refused (by rwa [hst, hown])))) ?_⟩
      rw [hst]
      exact complete_answers _ _ _
    case handover =>
      obtain ⟨hstate, _⟩ := showOwner_shows hx hkey
      refine ⟨showOwner 1 ((objBody v.obj).take 64) x, hgood hf _ (hnoted.showOwner hx 1 _), rfl, hstate, .of_next (hends (hhandover hop)) ?_⟩
      rw [setOwner_key x hkey]
      exact complete_answers _ _ _
    case reset =>
      obtain ⟨hstate, hdig⟩ := showOwner_clear hx
      exact ⟨showOwner 0 [] x, hgood hf _ (hnoted.showOwner hx 0 []), rfl, hstate, hdig,
        .of_next (hends ((hreset hop).trans (acceptReset_safe (hst.trans hsafe)))) (complete_answers _ _ _)⟩
    case resetNot =>
      refine ⟨x, hgood hf x hnoted, rfl, .of_next (hends ((hreset hop).trans (acceptReset_refused (by rwa [hst])))) ?_⟩
      rw [hst]
      exact complete_answers _ _ _
    case repair =>
      intro b fits
      obtain ⟨hmisfit, hspent, hrepaired⟩ := acceptRepair_recorded hw1 v.p v.obj
      refine ⟨fun h => ⟨x, hgood hf x hnoted, rfl, .of_next (hends ((hrepair hop).trans (hmisfit h))) (complete_answers _ _ _)⟩,
        fun h hs => ⟨x, hgood hf x hnoted, rfl, .of_next (hends ((hrepair hop).trans (hspent h hs))) (complete_answers _ _ _)⟩, fun h hs => ?_⟩
      obtain ⟨hn, h1, h2, h3⟩ := hrepaired h hs
      exact ⟨bankRepaired x b, hgood hf _ hn, rfl, h1, h2, .of_next (hends ((hrepair hop).trans h3)) (complete_answers _ _ _)⟩
    case bundle => exact ⟨x, hgood hf x hnoted, rfl, hends (hbundle hop)⟩
    case bits => exact ⟨x, hgood hf x hnoted, rfl, hends (hbits hop)⟩
  case noVerify =>
    change execVerificationEnd s = _
    unfold execVerificationEnd
    rw [h]
  case report =>
    obtain ⟨hout, hreports, hcount, hmax⟩ := reportWritten_shows (ms := ms) hw r rs
    exact ⟨reportWritten ms s.eng r rs, _, exec_attestReportDone hr, completeAt_answers _ _ _ _ _ _, hout, hreports, hcount, hmax⟩
  case noReport =>
    change execAttestReportDone ms s = _
    unfold execAttestReportDone
    rw [h]
  case claims =>
    intro e1
    refine ⟨.of_next (exec_ownerClaimTimeout hc) (completeAt_answers _ _ _ _ _ _), fun hkey => ?confirm⟩
    case confirm =>
      obtain ⟨hown, hdig⟩ := showOwner_shows (e := e1) hw hkey
      refine ⟨showOwner 1 c.key e1, rfl, rfl, hown, hdig, ?_⟩
      intro y
      have hy : journalSync (setOwner e1 c.key) = y := congrArg journalSync (setOwner_key e1 hkey)
      refine .of_next (exec_ownerClaimConfirm hc) ?_
      rw [hy]
      exact completeAt_answers _ _ _ _ _ _
  case noTimeout =>
    change execOwnerClaimTimeout s = _
    unfold execOwnerClaimTimeout
    rw [h]
  case noConfirm =>
    change execOwnerClaimConfirm s = _
    unfold execOwnerClaimConfirm
    rw [h]

end Sys2Proof.Machine
end
